-- ==== Sys2Proof/Word.lean ====
section
/-!
DEFINITION. The word types of the Cestan: a register word, a byte, and the wide records that cross the host link.
Bit 0 is always the least significant bit (R1).
-/

namespace Sys2Proof

/-- One byte of SRAM, flash or host memory. -/
abbrev Byte := BitVec 8

/-- One register word of BAR0 (R483: aligned 32-bit accesses only). -/
abbrev Word := BitVec 32

/-- A 64-bit quantity: a TB value, a host address, a control word. -/
abbrev DWord := BitVec 64

/-- A set of sites: bit s is site s (R499, R461). -/
abbrev SiteMask := BitVec 64

/-- A 64-byte submission descriptor (R493). -/
abbrev Descriptor := BitVec 512

/-- A 128-byte test step of a RUN (R500). -/
abbrev StepWord := BitVec 1024

/-- A 16-byte PERCH record, replacing bytes 64 to 79 of a PPMU step (R501). -/
abbrev PerchRec := BitVec 128

/-- A 64-byte DSP job-list entry (R502). -/
abbrev JobEntry := BitVec 512

end Sys2Proof
end

