-- ==== Sys2Proof/Syntax.lean ====
section
/-!
DEFINITION. The commands of the Cestan: one constructor for each row of the table of operations and events.
A command is something that reaches the block from outside one of its atomic steps: a host write, a descriptor, a message
of the twin, an edge at a ball, or the end of a timed or analogue process. What only the outside knows (the content of host
memory, the state of a pin, a converter's code) is an operand.
-/

namespace Sys2Proof

/-- The two requesters of BAR0 (R595). -/
inductive Requester where
  | host
  | hkc
  deriving DecidableEq, Repr

/-- The blocks with a shadow set (R7). -/
inductive ShadowBlock where
  | clkRef
  | pllFreq (p : Fin 3)
  | fcuClass
  | calCtrl
  | almanac
  | seqMask (s : Fin 16)
  | pedBudget (e : Fin 4)
  deriving DecidableEq, Repr

/-- What the comparators of one channel showed at the strobes of one vector: CH and CL at SA and at SB (R48), and, for a
window compare, the longest departure from the expected state inside the window, in ps (R135). -/
structure Strobe where
  ch   : Fin 256
  chA  : Bool
  clA  : Bool
  chB  : Bool
  clB  : Bool
  depPs : Nat
  deriving DecidableEq, Repr

/-- One test step as it stands in host memory: the 128 bytes, the PERCH table (empty when PERCH_ADDR is 0) and the DSP
job list (empty for other kinds). -/
structure StepData where
  raw   : StepWord
  perch : List PerchRec
  jobs  : List JobEntry
  deriving DecidableEq, Repr

/-- One write of a CONFIG_BLOCK list (R495): BAR0 offset and value. -/
structure CfgWrite where
  off : BitVec 32
  val : Word
  deriving DecidableEq, Repr

/-- One entry of a stream directory (R202). -/
structure DirEntry where
  addr     : DWord
  lines    : Nat
  loopXing : Bool
  crc      : Word
  deriving DecidableEq, Repr

/-- One DAC or delay coefficient that a calibration step measured: index within the item and value in units of 2^-16. -/
structure Coef where
  idx : Nat
  val : Int
  deriving DecidableEq, Repr

/-- What a calibration step on one channel found (R433, R445, R451, R452). -/
structure CalObs where
  ch       : Fin 256
  item     : Fin 7
  /-- current of the pin check, in pA -/
  pinPa    : Int
  coefs    : List Coef
  fallback : List Coef
  /-- residual of the chosen selection meets the target -/
  met      : Bool
  /-- residual with the fall-back table meets the target -/
  metFb    : Bool
  residT   : Nat
  residL   : Nat
  eyeWidth  : Nat
  eyeHeight : Nat
  deriving DecidableEq, Repr

/-- One ring-oscillator reading of a TMU interpolator: master-clock edge number and the two cycle counts (R302). -/
structure Vernier where
  edge : Nat
  m    : Nat
  n    : Nat
  deriving DecidableEq, Repr

/-- An error that a checker outside the modelled data paths shows to the collector (R455): its source, checker,
syndrome, detail and, where only the environment knows it, the sites whose content it touched. -/
structure FaultObs where
  src   : Nat
  chk   : Nat
  syn   : Word
  det   : Word
  sites : SiteMask
  deriving DecidableEq, Repr

/-- The own component of one Almanac entry, as the twin sends it (R389). -/
structure AlmComponent where
  testNum : Nat
  loS     : Int
  hiS     : Int
  counts  : List (Fin 1026 × Nat)
  deriving DecidableEq, Repr

/-- The codes one close entered into and evicted from an entry's own window, as the twin sends them (R389). -/
structure AlmDelta where
  testNum : Nat
  loS     : Int
  hiS     : Int
  entered : List (Fin 1026)
  evicted : List (Fin 1026)
  deriving DecidableEq, Repr

/-- Why a Meridian message is discarded (R526, R527, R528). -/
inductive DiscardReason where
  | crc
  | reservedKind
  | outOfOrder
  deriving DecidableEq, Repr

/-- What a finished flash operation found (R496, R581): the bytes read (FLASH_READ), whether the readback agreed, and,
for a firmware image, whether magic, part number and CRC are good and its version. -/
structure FlashResult where
  readbackOk : Bool
  headerOk   : Bool
  version    : BitVec 16
  deriving DecidableEq, Repr

/-- The commands. The constructors stand in the order of the table of operations and events. -/
inductive Instr where
  | porst (roleB : Bool)
  | boot
  | perst
  | hkcRestart
  | tapReset
  | tapParkInstruction
  | pwrRail (rail : Fin 12)
  | p1IdleExpiry
  | p2IdleExpiry
  | pinStateWrite (v : Word)
  | wake (bySync : Bool)
  | sysRampStart
  | sysRampEnd
  | refLost
  | refFound
  | pllBandChosen (p : Fin 3) (band : Fin 64) (q : BitVec 13)
  | pllLockCriterionMet (p : Fin 3)
  | lockLost (p : Fin 3)
  | pllOpenRecovery (p : Fin 3)
  | pllAcqTimeout (p : Fin 3)
  | pllReturnMeasured (p : Fin 3) (offset : BitVec 24)
  | ckxSlewDone (p : Fin 3)
  | pllFreqCommit (p : Fin 3)
  | pllFreqWalkDone (p : Fin 3)
  | rampGo (p : Fin 3)
  | rampTrigger (p : Fin 3)
  | rampSegmentEnd (p : Fin 3) (slewLimited : Bool)
  | rampStop (p : Fin 3)
  | relock (req : Requester) (p : Fin 3)
  | syncArrival
  | syncAlignRequest (force : Bool)
  | syncCancel
  | shadowCommit (blk : ShadowBlock)
  | registerWrite (req : Requester) (addr : BitVec 25) (v : Word)
  | lowWordRead (req : Requester) (addr : BitVec 25)
  | genErrClrLocked
  | genErrClrAccess
  | siteMapWrite (req : Requester) (c : Fin 256) (v : Word)
  | seqQuadsWrite (req : Requester) (s : Fin 16) (hi : Bool) (v : Word)
  | seqRegionWrite (req : Requester) (s : Fin 16) (vlines : Bool) (v : Word)
  | seqFlagWrite (s : Fin 16) (v : Word)
  | seqJump (s : Fin 16) (v : Word)
  | levelCodeWrite (c : Fin 256) (dac : Fin 11) (v : Word)
  | peLvlUpdWrite (req : Requester) (c : Fin 256) (v : Word)
  | peCtrlWrite (req : Requester) (c : Fin 256) (v : Word)
  | peFaultClear (c : Fin 256) (v : Word)
  | peTimClr (c : Fin 256)
  | ppmuFaultClear (c : Fin 256) (v : Word)
  | ppmuCtrlWrite (req : Requester) (c : Fin 256) (v : Word)
  | ppmuWfJump (c : Fin 256) (v : Word)
  | auSrcWrite (req : Requester) (a : Fin 32) (v : Word)
  | auAllocWrite (req : Requester) (a : Fin 32) (v : Word)
  | auArm (a : Fin 32)
  | auDisarm (a : Fin 32)
  | auSwtrig (a : Fin 32)
  | auRecRelease (a : Fin 32) (v : Word)
  | auDrainRead (a : Fin 32) (v : Word)
  | tmuArm (u : Fin 64)
  | tmuDisarm (u : Fin 64)
  | dseQuiesce (e : Fin 16) (force : Bool)
  | dseQuiesced (e : Fin 16)
  | dseResume (e : Fin 16)
  | dseRun (e : Fin 16)
  | almTestWrite (req : Requester) (i : Fin 4096) (w : Fin 16) (v : Word)
  | ledRdWrite (s : Fin 64) (v : Word)
  | ledHdrRdWrite (v : Word)
  | fcuPinRelease
  | fcuFirstClr
  | fcuSevsrcClear (k : Fin 16) (v : Word)
  | fcuInj (v : Word)
  | twinTake
  | twinRelease
  | twinMirAck (v : Word)
  | tpGo
  | tpAbort
  | rxPop
  | txLoad
  | txClr
  | bar4Write (req : Requester) (off : BitVec 28) (v : Word)
  | hostSqEnWrite (v : Word)
  | hostCqEnWrite (v : Word)
  | sqTailDoorbell (q : Fin 16) (v : Word)
  | cqHeadDoorbell (q : Fin 16) (v : Word)
  | eqHeadDoorbell (v : Word)
  | msixUnmask (vec : Fin 64)
  | commandStop (w : BitVec 28)
  | commandAbort (w : BitVec 28)
  | commandPark (w : BitVec 28)
  | descriptorFetch (q : Fin 16) (d : Descriptor)
  | nop (q : Fin 16)
  | writeVectors (q : Fin 16) (data : List Byte) (readOk : Bool)
  | run (q : Fin 16) (steps : List StepData) (readOk : Bool)
  | streamAttach (q : Fin 16) (dir : List DirEntry) (chunks : List (List Byte)) (readOk : Bool)
  | streamDetach (q : Fin 16)
  | readLedger (q : Fin 16)
  | readCapture (q : Fin 16)
  | readFaillog (q : Fin 16)
  | loadKernel (q : Fin 16) (image : List Byte) (readOk : Bool)
  | configBlock (q : Fin 16) (writes : List CfgWrite) (readOk : Bool)
  | configBlockApply (q : Fin 16)
  | calRunMeasure (q : Fin 16)
  | calRunStore (q : Fin 16)
  | calRunEye (q : Fin 16)
  | calRunRefcheck (q : Fin 16) (vrefUv : Int) (devUv : BitVec 96)
  | calStepDone (sector : Fin 16) (obs : CalObs)
  | calStoreDone (readbackOk : Bool)
  | patUpdateConfig (q : Fin 16) (data : List Byte) (readOk : Bool)
  | patUpdateLoadExt (q : Fin 16) (data : List Byte) (readOk : Bool)
  | patUpdateExport (q : Fin 16) (data : List Byte) (readOk : Bool)
  | patUpdateClear (q : Fin 16) (data : List Byte) (readOk : Bool)
  | flashRead (q : Fin 16)
  | flashWrite (q : Fin 16) (data : List Byte) (readOk : Bool)
  | fwStage (q : Fin 16) (data : List Byte) (readOk : Bool)
  | fwSwitch (q : Fin 16)
  | fwImageReady
  | fwReadyTimeout
  | sectorQuiesce (q : Fin 16)
  | sectorResume (q : Fin 16)
  | fence (q : Fin 16)
  | fenceComplete (q : Fin 16)
  | contactCheckSample (td : DWord) (codes : List (Fin 256 × BitVec 18))
  | stepStart (td : DWord)
  | stepComplete (td : DWord)
  | closeGuardExpiry (td : DWord)
  | almanacCloseCheck (td : DWord)
  | almanacAddValues (td : DWord)
  | vectorPlay (s : Fin 16) (obs : List Strobe)
  | jmpcResolve (s : Fin 16)
  | matchEnd (s : Fin 16)
  | matchTimeout (s : Fin 16)
  | seqHalt (s : Fin 16)
  | syncwWaitBegin (s : Fin 16)
  | syncwStart (s : Fin 16)
  | syncwTimeout (s : Fin 16)
  | deglitchRelease (c : Fin 256) (dac : Fin 11)
  | hizExit (c : Fin 256)
  | chunkReadDone (s : Fin 16) (slot : Fin 32) (data : List Byte) (linkOk : Bool)
  | stallMaxExpiry (s : Fin 16)
  | budgetAdmit (td : DWord)
  | ppmuSettleExpiry (td : DWord) (site : Fin 64) (codes : List (Fin 256 × BitVec 18))
  | ppmuSample (td : DWord) (c : Fin 256) (code : BitVec 18)
  | ppmuReconnect (c : Fin 256)
  | ppmuCompl (c : Fin 256)
  | ppmuOpenLoop (c : Fin 256)
  | wfSegmentEnd (c : Fin 256)
  | drvOc (c : Fin 256)
  | clampOc (c : Fin 256)
  | loadCompl (c : Fin 256)
  | parkInAssert
  | parkInRelease
  | edgePark (e : Fin 4)
  | edgeUnpark (e : Fin 4)
  | d2dCrcOut (e : Fin 4) (sectors : BitVec 4) (syn : Word)
  | d2dCrcIn (e : Fin 4) (sectors : BitVec 4) (syn : Word) (sites : SiteMask) (auLost : List (Fin 32 × Nat))
  | d2dEcho (e : Fin 4) (sectors : BitVec 4) (syn : Word)
  | d2dConfigAckTimeout (e : Fin 4)
  /-- the samples taken since readiness, oldest first and the trigger sample last, each the values of its channel slots; the
  time of the trigger sample in ticks since reset -/
  | auTrigger (a : Fin 32) (stream : List (List Nat)) (evAt : Nat)
  /-- the samples after the trigger sample; a channel's PPMU did not convert -/
  | auRecordEnd (a : Fin 32) (post : List (List Nat)) (noConv : Bool)
  | auRearmEnd (a : Fin 32)
  | auSweepSettleEnd (a : Fin 32)
  | acqWaitExpiry (a : Fin 32)
  | trigInEdge (i : Fin 4) (rise : Bool)
  /-- the raw readings D1 and D2 of the start and the stop interpolator, in 0.1 ps (R304) -/
  | tmuCalDone (u : Fin 64) (start1 start2 stop1 stop2 : Nat)
  | tmuSample (u : Fin 64) (start stop next : Vernier) (edges : Nat)
  | tmuTimeout (u : Fin 64)
  | dspJobDispatch
  | dspNop (e : Fin 16)
  | dspHalt (e : Fin 16)
  | dspBr (e : Fin 16)
  | dspDbnz (e : Fin 16)
  | dspRep (e : Fin 16)
  | dspMac4 (e : Fin 16)
  | dspMacs (e : Fin 16)
  | dspCmac (e : Fin 16)
  | dspAcs (e : Fin 16)
  | dspAdd (e : Fin 16)
  | dspSub (e : Fin 16)
  | dspMin (e : Fin 16)
  | dspMax (e : Fin 16)
  | dspAbs (e : Fin 16)
  | dspNeg (e : Fin 16)
  | dspAnd (e : Fin 16)
  | dspOr (e : Fin 16)
  | dspXor (e : Fin 16)
  | dspShf (e : Fin 16)
  | dspCmp (e : Fin 16)
  | dspAcc (e : Fin 16)
  | dspSta (e : Fin 16)
  | dspLda (e : Fin 16)
  | dspClra (e : Fin 16)
  | dspMov (e : Fin 16)
  | dspLdi (e : Fin 16)
  | tempSensorRead (edge : List (BitVec 16)) (core : List (BitVec 16))
  | calRecomputePeriod
  | faultReport (ext : Option FaultObs)
  | fcuWindowExpiry (src : BitVec 12) (chk : Fin 16)
  | fcuWire (src : BitVec 12) (chk : Fin 16)
  | fcuWireRecovery (src : BitVec 12) (chk : Fin 16)
  | faultNMinwExpiry
  | hostLossExpiry
  | linkUp (lanes : Fin 5) (partnerRoleB : Bool)
  | heartbeatSend
  | meridianLinkLost
  | meridianRetxTimeout
  /-- received messages, in order; `ack` is the ACK field of the header (R526) -/
  | heartbeat (ack : BitVec 16) (sendTb echoTb echoArr : DWord) (state : BitVec 3) (hostUp : Bool) (flags : List Byte)
  | flag (ack : BitVec 16) (flags : List Byte)
  | openMsg (ack : BitVec 16) (td : DWord) (sites : SiteMask) (startTb : DWord) (retestBin : BitVec 16)
  | mirror (ack : BitVec 16) (td : DWord) (header : BitVec 512) (closes : List (Fin 64 × BitVec 256))
  | intent (ack : BitVec 16) (td : DWord)
  | intentAck (ack : BitVec 16) (td : DWord)
  | complete (ack : BitVec 16) (td : DWord)
  | abandon (ack : BitVec 16) (td : DWord)
  | almFull (ack : BitVec 16) (comps : List AlmComponent)
  | almDelta (ack : BitVec 16) (deltas : List AlmDelta)
  | startReady (ack : BitVec 16) (s : Fin 16) (readyTb : DWord)
  | start (ack : BitVec 16) (s : Fin 16) (tb : DWord)
  | notify (ack : BitVec 16) (rec : BitVec 256)
  | takeReq (ack : BitVec 16)
  | taken (ack : BitVec 16)
  | takeoverDelayExpiry
  | takeoverWaitExpiry
  | tpStuck
  | tpArbWindow
  | tpBusTimeout
  | tpDone (rx : List Bool)
  | tpModeFault (clocks : BitVec 16)
  /-- how many of the eight command bits were clocked, the command, the word bits clocked in order, and whether clock edges followed a
  complete word -/
  | tpTargetFrame (cmdBits : Fin 9) (cmd : Byte) (bits : List Bool) (overclock : Bool)
  | railInRange (rail : Fin 12)
  | sysStop
  | hkcReady
  | hostLinkDown
  | hostLinkUp (gen : Fin 6) (width : Fin 9)
  | meridianMessageDiscarded (why : DiscardReason)
  | tpBusyNEdge (level : Bool)
  | dseLoaded (e : Fin 16)
  | flashOperationDone (q : Fin 16) (res : FlashResult)
  deriving DecidableEq, Repr

end Sys2Proof
end

