-- ==== Sys2Proof/Machine/RegTab.lean ====
section
/-!
DEFINITION. The register map of BAR0 (R591, R593 and the register tables of every block): for each aligned word its access
class, the bits that hold a field, its reset value and its owner. An address with no entry holds no register (R592).
-/

namespace Sys2Proof.Machine

/-- Access types (R4). -/
inductive Access where
  | ro
  | rop
  | rw
  | rwl
  | rws
  | w1c
  | wo
  deriving DecidableEq, Repr

/-- Owners of setup fields (R5, R42, R121, R154, R197, R261, R295, R317, R320, R397, R427, R453, R478, R521, R544,
R562, R589). -/
inductive Owner where
  | never
  | sqRing (q : Nat)
  | cqRing (q : Nat)
  | eqRing
  | seq (s : Nat)
  | chan (c : Nat)
  | die (e : Nat)
  | governor (e : Nat)
  | au (a : Nat)
  | tmu (u : Nat)
  | dse (e : Nat)
  | almanac
  | clk
  | pll (p : Nat)
  | fcu
  | gnomon
  | twin
  | tp
  | siteMap (c : Nat)
  | ledger
  deriving DecidableEq, Repr

/-- What the register map says of one word. -/
structure RegInfo where
  acc   : Access
  mask  : Nat
  reset : Nat
  owner : Owner
  deriving DecidableEq, Repr

/-- One row of a block's register table. -/
def regRow (acc : Access) (mask reset : Nat) (owner : Owner := .never) : Option RegInfo :=
  some { acc := acc, mask := mask, reset := reset, owner := owner }

/-- A full word that reads back what the device holds. -/
def roWord (reset : Nat := 0) : Option RegInfo := regRow .ro 0xFFFFFFFF reset

/-- GEN (R598, R599). -/
def regGen (o : Nat) : Option RegInfo :=
  match o with
  | 0x000 => roWord 0xC2561F9B
  | 0x004 => regRow .ro 0xFF0F 0x101
  | 0x008 => roWord 0x1C25656B
  | 0x00C => roWord 0x10402010
  | 0x010 => roWord
  | 0x014 => regRow .rop 0xFFFFFFFF 0
  | 0x018 => regRow .rw 0xFFFFFFFF 0
  | 0x01C => regRow .ro 0xFFFF 0
  | 0x020 => regRow .ro 0x81FFFFFF 0
  | 0x024 => regRow .ro 0xFFFF 0
  | 0x028 => regRow .wo 0x3 0
  | _ => none

/-- HOST (R521, R522). -/
def regHost (o : Nat) : Option RegInfo :=
  if o < 0x100 then
    match o with
    | 0x000 => regRow .rw 0x3 0
    | 0x004 => regRow .ro 0xFF 0
    | 0x008 => roWord
    | 0x00C => roWord
    | 0x010 => regRow .rw 0xFFFF 0
    | 0x014 => regRow .rw 0x1FFFF 0
    | 0x018 => regRow .rwl 0x7FF 0x404 .eqRing
    | 0x01C => regRow .ro 0x8FFF0FFF 0x80000000
    | 0x020 => regRow .rwl 0xFFFFF000 0 .eqRing
    | 0x024 => regRow .rwl 0xFFFFFFFF 0 .eqRing
    | 0x028 => roWord
    | _ => none
  else if o < 0x200 then
    let q := (o - 0x100) / 16
    match o % 16 with
    | 0x0 => regRow .rwl 0xFFFFF000 0 (.sqRing q)
    | 0x4 => regRow .rwl 0xFFFFFFFF 0 (.sqRing q)
    | 0x8 => regRow .rwl 0xFF (4 + 16 * q) (.sqRing q)
    | 0xC => regRow .ro 0x0FFF0FFF 0
    | _ => none
  else if o < 0x300 then
    let q := (o - 0x200) / 16
    match o % 16 with
    | 0x0 => regRow .rwl 0xFFFFF000 0 (.cqRing q)
    | 0x4 => regRow .rwl 0xFFFFFFFF 0 (.cqRing q)
    | 0x8 => regRow .rwl 0x7FF (0x404 + 16 * (q + 1)) (.cqRing q)
    | 0xC => regRow .ro 0x8FFF0FFF 0x80000000
    | _ => none
  else none

/-- STRM (R219, R220). -/
def regStrm (o : Nat) : Option RegInfo :=
  match o % 0x40 with
  | 0x00 => regRow .ro 0x3FF3F 0
  | 0x04 => roWord
  | 0x08 => regRow .rop 0xFF 0
  | 0x0C => regRow .ro 0x3F 0
  | 0x10 => roWord
  | 0x14 => regRow .rop 0xFFFFFFFF 0
  | 0x18 => roWord
  | 0x1C => regRow .ro 0xFFFF 0
  | _ => none

/-- One PLL block (R427, R428). -/
def regPll (p o : Nat) : Option RegInfo :=
  match o with
  | 0x00 => regRow .rwl 0x1F 0x2 (.pll p)
  | 0x04 => regRow .ro 0x1FFFFFF 0x4000
  | 0x08 => regRow .rws 0x7FFFFFFF (if p = 0 then 1500000000 else 100000000) (.pll p)
  | 0x0C => regRow .ro 0x7FFFFFFF 0
  | 0x10 => regRow .rwl 0xFFFFF 0x44008 (.pll p)
  | 0x14 => regRow .rwl 0xFFFFFFFF 0x1F40400 (.pll p)
  | 0x18 => regRow .rwl 0x7F3FFF 0x1F1388 (.pll p)
  | 0x1C => regRow .rwl 0xFF 0x64 (.pll p)
  | 0x20 => regRow .rwl 0x1FF7F 0x1 (.pll p)
  | 0x24 => regRow .wo 0x7 0
  | 0x28 => regRow .ro 0xFFFFFF 0
  | 0x2C => roWord
  | _ => none

/-- CLK (R427, R428). -/
def regClk (o : Nat) : Option RegInfo :=
  if o < 0x100 then
    match o with
    | 0x000 => regRow .rws 0x3FFFF 0x186A0 .clk
    | 0x004 => regRow .ro 0xF 0x2
    | 0x008 => regRow .rw 0x1 0x1 .clk
    | 0x00C => regRow .wo 0x7 0
    | 0x010 => regRow .rw 0xFFFFFFFF 0 .clk
    | 0x014 => regRow .rw 0xFFFFFFFF 0 .clk
    | 0x018 => roWord
    | 0x01C => regRow .rop 0xFFFFFFFF 0
    | 0x020 => roWord
    | 0x024 => regRow .rop 0xFFFFFFFF 0
    | 0x028 => roWord
    | _ => none
  else if o < 0x400 then regPll ((o - 0x100) / 0x100) (o % 0x100)
  else if 0x1200 ≤ o ∧ o < 0x1600 then
    let p := (o - 0x1000) / 0x200
    if o % 8 = 0 then regRow .rwl 0x3FFFFFFF 0x5F5E100 (.pll p) else regRow .rwl 0xFFFFFF 0x1 (.pll p)
  else none

/-- The reset values of the reaction table: REACT, SEV_REACT, N, W (R458). -/
def fcuClassReset (k : Nat) : Nat × Nat × Nat × Nat :=
  match k with
  | 0x00 => (0x0007, 0x0048, 4, 1000000)
  | 0x01 => (0x000F, 0x0040, 2, 1000000)
  | 0x02 => (0x000F, 0x0040, 2, 1000000)
  | 0x03 => (0x0007, 0x0060, 16, 10000)
  | 0x04 => (0x0007, 0x0060, 16, 10000)
  | 0x05 => (0x0007, 0x0060, 4, 10000)
  | 0x06 => (0x0007, 0x0060, 2, 1000000)
  | 0x07 => (0x0007, 0x0040, 16, 100000)
  | 0x08 => (0x0007, 0x0040, 16, 100000)
  | 0x09 => (0x0007, 0x0040, 16, 100000)
  | 0x0A => (0x0007, 0x0040, 16, 100000)
  | 0x0B => (0x0007, 0x0040, 255, 1000000)
  | 0x0C => (0x000F, 0x0040, 3, 1000000)
  | 0x0D => (0x0007, 0x00E0, 2, 100000)
  | 0x0E => (0x0007, 0x0000, 255, 1000000)
  | 0x0F => (0x0007, 0x0040, 1, 1000000)
  | 0x10 => (0x0001, 0x0002, 64, 1000000)
  | 0x11 => (0x0003, 0x0040, 4, 1000000)
  | 0x12 => (0x0003, 0x0060, 1, 1000000)
  | 0x13 => (0x0003, 0x00C0, 8, 1000000)
  | 0x14 => (0x0003, 0x0000, 255, 1000000)
  | 0x15 => (0x0003, 0x0000, 255, 1000000)
  | 0x16 => (0x0003, 0x00C0, 2, 1000000)
  | _ => (0, 0, 1, 1)

/-- FCU (R478, R479). -/
def regFcu (o : Nat) : Option RegInfo :=
  if o < 0x40 then
    match o with
    | 0x000 => regRow .rw 0x7FFFF 0x3E8C8 .fcu
    | 0x004 => regRow .ro 0x7FF 0
    | 0x008 => regRow .wo 0x1 0
    | 0x00C => regRow .wo 0x1 0
    | 0x010 => regRow .ro 0xFF 0
    | 0x014 => regRow .rw 0xFF 0
    | 0x018 => roWord
    | 0x01C => roWord
    | 0x020 => roWord
    | 0x024 => regRow .wo 0x1FFFFFF 0
    | 0x028 => regRow .ro 0x7FF 0
    | _ => none
  else if o < 0x60 then roWord
  else if 0x80 ≤ o ∧ o < 0xC0 then regRow .w1c 0xFFFFFFFF 0
  else if 0x100 ≤ o ∧ o < 0x200 then
    let r := fcuClassReset ((o - 0x100) / 8)
    if o % 8 = 0 then regRow .rws 0xFFFFFFFF (r.1 + 0x10000 * r.2.1) .fcu
    else regRow .rws 0xFFFFFFFF (r.2.2.1 + 0x100 * r.2.2.2) .fcu
  else if 0x1000 ≤ o ∧ o < 0x1400 then roWord
  else none

/-- CAL (R453, R454). -/
def regCal (o : Nat) : Option RegInfo :=
  if o = 0 then regRow .rws 0xFFFFFFFF 0x50080191 .gnomon
  else if o = 4 then regRow .ro 0xFFFF000F 0
  else if o = 8 then roWord
  else if 0x20 ≤ o ∧ o < 0x30 then regRow .ro 0x3FFFFFF 0
  else if 0x40 ≤ o ∧ o < 0xA0 then regRow .ro 0x1FFFF 0
  else if 0x1000 ≤ o ∧ o < 0x2000 then
    match o % 16 with
    | 0x0 => regRow .ro 0x3FF 0
    | 0x4 => regRow .ro 0xFFFF 0
    | 0x8 => regRow .ro 0xFFFFFF 0
    | 0xC => roWord
    | _ => none
  else if 0x2000 ≤ o ∧ o < 0x2800 then
    if o % 8 = 0 then regRow .ro 0x3FFFFFFF 0 else regRow .ro 0x1F 0
  else none

/-- TWIN (R544, R545). -/
def regTwin (o : Nat) : Option RegInfo :=
  if o < 0x1000 then
    match o with
    | 0x000 => regRow .rwl 0x7 0x3 .twin
    | 0x004 => regRow .ro 0x1FFF 0
    | 0x008 => regRow .wo 0x3 0
    | 0x00C => regRow .rwl 0xFFFFFFFF 0x3E800C8 .twin
    | 0x010 => regRow .rwl 0xFFFF 0x200 .twin
    | 0x014 => regRow .ro 0xFFFF 0
    | 0x018 => roWord
    | 0x01C => regRow .rop 0xFFFFFFFF 0
    | 0x020 => roWord
    | 0x024 => regRow .rw 0x3F 0
    | 0x028 => regRow .ro 0xFFFFFF 0
    | 0x02C => regRow .wo 0x3F 0
    | _ => none
  else if o < 0x1880 then roWord
  else none

/-- TP (R562, R563). -/
def regTp (o : Nat) : Option RegInfo :=
  if o < 0x400 then
    match o with
    | 0x000 => regRow .rwl 0xFFFFF 0x804C .tp
    | 0x004 => regRow .ro 0x1FF 0xC0
    | 0x008 => regRow .wo 0x3 0
    | 0x00C => regRow .rwl 0x1FFFFFF 0x80 .tp
    | 0x010 => regRow .rwl 0x3FFFF 0x8 .tp
    | 0x014 => regRow .rwl 0xFFFFFFFF 0 .tp
    | 0x018 => regRow .rwl 0xFFFFFFFF 0 .tp
    | 0x01C => regRow .rwl 0xFFFF 0x211 .tp
    | 0x020 => regRow .rwl 0xFFFF03FF 0x3E80064 .tp
    | 0x024 => regRow .w1c 0x3F 0
    | 0x028 => regRow .rwl 0xFFFF7 0x200 .tp
    | 0x02C => regRow .ro 0x3FFFFF 0
    | 0x030 => regRow .wo 0x7 0
    | 0x034 => roWord
    | 0x038 => roWord
    | 0x03C => roWord
    | _ => none
  else if o < 0xC00 then regRow .rwl 0xFFFFFFFF 0 .tp
  else if o < 0xC20 then regRow .ro 0x3FFF 0
  else if 0x2000 ≤ o ∧ o < 0x4000 then roWord
  else none

/-- PWR (R589, R590). -/
def regPwr (o : Nat) : Option RegInfo :=
  match o with
  | 0x000 => regRow .rw 0x3 0
  | 0x004 => regRow .ro 0xFFFFFF1F 0x2
  | 0x008 => regRow .rw 0xFFFFFFFF 0xA
  | 0x00C => regRow .ro 0xF7F 0xF7F
  | 0x010 => regRow .w1c 0xF 0x1
  | 0x014 => regRow .ro 0xFFFF000F 0
  | 0x018 => roWord
  | _ => none

/-- SEQ (R197, R198). -/
def regSeq (s o : Nat) : Option RegInfo :=
  if o < 0x400 then
    match o with
    | 0x000 => regRow .rwl 0x3FFB 0 (.seq s)
    | 0x004 => regRow .ro 0x7FFFFF 0
    | 0x008 => regRow .rwl 0xFFFFFFFF 0 (.seq s)
    | 0x00C => regRow .rwl 0xFFFFFFFF 0 (.seq s)
    | 0x010 => regRow .rwl 0x3FFFFF 0 (.seq s)
    | 0x014 => regRow .rwl 0x3FFFFF 0 (.seq s)
    | 0x018 => regRow .rwl 0x3FF 0 (.seq s)
    | 0x01C => regRow .rwl 0x1FFFFFF 0 (.seq s)
    | 0x020 => regRow .rws 0xFFFFFFFF 0 (.seq s)
    | 0x024 => regRow .rws 0xFFFFFFFF 0 (.seq s)
    | 0x028 => regRow .rw 0xFF 0 (.seq s)
    | 0x02C => regRow .wo 0xFF 0
    | 0x030 => regRow .rwl 0xFFFF 0x40 (.seq s)
    | 0x034 => regRow .rwl 0xFF 0 (.seq s)
    | 0x038 => regRow .ro 0x1FFFFFF 0
    | 0x03C => regRow .ro 0x1FFFFFFF 0
    | 0x040 => roWord
    | 0x044 => regRow .rop 0xFFFFFFFF 0
    | 0x048 => roWord
    | 0x04C => regRow .ro 0xFFFF 0
    | 0x050 => regRow .ro 0xFF 0
    | 0x054 => regRow .rw 0xFF 0
    | 0x058 => regRow .ro 0xFFFF 0
    | _ => none
  else if o < 0x800 then regRow .rwl 0x1FFFFFF 0 (.seq s)
  else if 0x1000 ≤ o ∧ o < 0x2000 then
    match o % 16 with
    | 0x0 => roWord
    | 0x4 => roWord
    | _ => regRow .ro 0x1FFFFFF 0
  else none

/-- AU (R295, R296). -/
def regAu (a o : Nat) : Option RegInfo :=
  if o < 0x70 then
    match o with
    | 0x000 => regRow .rwl 0x7FFF 0 (.au a)
    | 0x004 => regRow .ro 0x3FF 0
    | 0x008 => regRow .wo 0x3 0
    | 0x00C => regRow .wo 0x1 0
    | 0x010 => regRow .rwl 0x803FFFFF (32 * a) (.au a)
    | 0x014 => regRow .rwl 0x3FF01FF (0x100000 + 16 * a) (.au a)
    | 0x018 => regRow .rwl 0xFFFFFFFF 0 (.au a)
    | 0x01C => regRow .rwl 0xFFFFFFFF 1024 (.au a)
    | 0x020 => regRow .rwl 0xFFFF 1 (.au a)
    | 0x024 => regRow .rwl 0xFFF 0x9 (.au a)
    | 0x028 => regRow .rwl 0xFF 0 (.au a)
    | 0x02C => regRow .rwl 0xFFFFFFFF 0 (.au a)
    | 0x030 => regRow .rwl 0xFFFFFFFF 0xFFFFFFFF (.au a)
    | 0x034 => regRow .rwl 0x3FFFF 0x20000 (.au a)
    | 0x038 => regRow .rwl 0xFFFFFFFF 0 (.au a)
    | 0x03C => regRow .rwl 0xFFFF 0x200 (.au a)
    | 0x040 => regRow .rwl 0xFFFFFFFF 0 (.au a)
    | 0x044 => regRow .rwl 0xFFFFFFFF 0 (.au a)
    | 0x048 => regRow .rwl 0xFFFF 0 (.au a)
    | 0x04C => roWord
    | 0x050 => regRow .rw 0xFFFFFFFF 0
    | 0x054 => regRow .ro 0xFFFF 0
    | 0x058 => regRow .rw 0xFFFF 0
    | 0x05C => roWord
    | 0x060 => roWord
    | _ => none
  else if o < 0x90 then
    if o % 8 = 0 then roWord else regRow .rop 0x800000FF 0
  else if 0x100 ≤ o ∧ o < 0x200 then regRow .rwl 0xFFFFFFFF 0x2D2D2D2D (.au a)
  else none

/-- TMU (R317, R318). -/
def regTmu (u o : Nat) : Option RegInfo :=
  if o < 0x30 then
    match o with
    | 0x000 => regRow .rwl 0x3F 0 (.tmu u)
    | 0x004 => regRow .ro 0xF 0
    | 0x008 => regRow .wo 0x3 0
    | 0x00C => regRow .rwl 0x1FF 0 (.tmu u)
    | 0x010 => regRow .rwl 0x1FF 0 (.tmu u)
    | 0x014 => regRow .rwl 0xFFFFFF 0 (.tmu u)
    | 0x018 => regRow .rwl 0xFFFF 1 (.tmu u)
    | 0x01C => regRow .rwl 0xFFFFF 1000 (.tmu u)
    | 0x020 => regRow .rwl 0xFFFFFF 10000 (.tmu u)
    | 0x024 => regRow .ro 0x1FFFFFF 0
    | 0x028 => roWord
    | 0x02C => regRow .ro 0xFFFF 0
    | _ => none
  else if o < 0x58 then
    if o % 8 = 0 then roWord else regRow .rop 0xC00000FF 0
  else none

/-- DSE (R351, R352). -/
def regDse (e o : Nat) : Option RegInfo :=
  match o with
  | 0x000 => regRow .rwl 0x1 0 (.dse e)
  | 0x004 => regRow .ro 0xF 0
  | 0x008 => regRow .wo 0x7 0
  | 0x00C => roWord
  | 0x010 => regRow .ro 0xF1FFF 0
  | 0x014 => regRow .ro 0xFFFF 0
  | 0x018 => roWord
  | 0x01C => regRow .ro 0xFFFF 0
  | 0x020 => roWord
  | 0x024 => regRow .rop 0xFFFFFFFF 0
  | 0x028 => regRow .wo 0x1 0
  | _ => none

/-- One word of an `ALM_TEST` entry (R399): mask and reset value. -/
def almTestWord (w : Nat) : Option RegInfo :=
  match w with
  | 2 => regRow .rws 0xFF 0 .almanac
  | 4 => regRow .rws 0xFF 0 .almanac
  | 6 => regRow .rws 0xFF 0 .almanac
  | 8 => regRow .rws 0xFF 0 .almanac
  | 9 => regRow .rws 0xFFFFFF03 0xFFFF6000 .almanac
  | 10 => regRow .rws 0x1FFFF 0x400 .almanac
  | 11 => regRow .rws 0xFFFF 0x20 .almanac
  | 13 => none
  | 14 => none
  | 15 => none
  | _ => regRow .rws 0xFFFFFFFF 0 .almanac

/-- One word of an `ALM_STAT` entry (R400). -/
def almStatWord (w : Nat) : Option RegInfo :=
  match w with
  | 1 => regRow .rop 0xFF 0
  | 3 => regRow .rop 0xFF 0
  | 5 => regRow .rop 0xFF 0
  | 7 => regRow .rop 0xFF 0
  | 8 => regRow .ro 0x1FFFF 0
  | 9 => regRow .ro 0x1FFFF 0
  | 10 => roWord
  | 11 => regRow .ro 0xFFFF 0
  | 12 => roWord
  | 14 => regRow .rop 0xFF 0
  | 15 => none
  | _ => roWord

/-- ALM (R397 to R400). -/
def regAlm (o : Nat) : Option RegInfo :=
  if o < 0x10000 then
    match o with
    | 0x00 => regRow .rws 0xF 0x7 .almanac
    | 0x04 => regRow .ro 0xFFFF 0
    | 0x08 => regRow .rws 0xFFFF 0x64 .almanac
    | 0x0C => regRow .ro 0x7FFFFF 0x400000
    | 0x10 => regRow .rw 0x3FFF 0
    | 0x14 => regRow .ro 0xFFFF 0
    | _ => none
  else if o < 0x50000 then almTestWord (o / 4 % 16)
  else if o < 0x90000 then almStatWord (o / 4 % 16)
  else if o < 0x91008 then roWord
  else none

/-- Timing sets (R154, R155); four `TS_PINFMT` bytes lie in one word. -/
def regTs (s o : Nat) : Option RegInfo :=
  if o = 0 then regRow .rwl 0xFFFFFFFF 0xEFFF (.seq s)
  else if 0x100 ≤ o ∧ o < 0x200 then regRow .rwl 0xFFFFFFFF 0 (.seq s)
  else if 0x400 ≤ o ∧ o < 0x800 then regRow .rwl 0x3F 0x36 (.seq s)
  else none

/-- The reset code of level DAC d: the midpoint 0 V of a voltage DAC, 0 for IOH and IOL, clamps at their limits
(R54). -/
def levelReset (d : Nat) : Nat :=
  match d with
  | 6 => 0
  | 7 => 0
  | 8 => 0xFFFF
  | 9 => 0
  | 10 => 0x8000
  | _ => 0x2D2D

/-- The reset offset of edge j of a timing set (R157). -/
def edgeReset (j : Nat) : Nat :=
  match j with
  | 1 => 30720
  | 3 => 15360
  | 4 => 46080
  | 5 => 30720
  | _ => 0

/-- PE, PPMU and per-pin timing of one channel (R593, R83 to R88, R119, R120, R156, R157). -/
def regPe (c o : Nat) : Option RegInfo :=
  if o < 0x40 then
    match o with
    | 0x000 => regRow .rwl 0x3F 0 (.chan c)
    | 0x004 => regRow .ro 0xF1F 0x1
    | 0x008 => regRow .w1c 0xF 0
    | 0x00C => regRow .rwl 0x7FF 0 (.chan c)
    | 0x010 => regRow .rwl 0x3FF 0x3C (.chan c)
    | 0x014 => regRow .rwl 0x3FF007F 0x960050 (.chan c)
    | 0x018 => regRow .ro 0xFFFF 0
    | _ => none
  else if o < 0x6C then regRow .rw 0xFFFF (levelReset ((o - 0x40) / 4)) (.chan c)
  else if 0x80 ≤ o ∧ o < 0xAC then
    let v := levelReset ((o - 0x80) / 4)
    regRow .ro 0xFFFFFFFF (v + 0x10000 * v)
  else if 0x100 ≤ o ∧ o < 0x500 then
    if o / 4 % 16 < 11 then regRow .rw 0xFFFF (levelReset (o / 4 % 16)) (.chan c) else none
  else if 0x600 ≤ o ∧ o < 0x628 then
    match o with
    | 0x600 => regRow .rwl 0x77F 0 (.chan c)
    | 0x604 => regRow .ro 0xFF1F 0
    | 0x608 => regRow .w1c 0x7 0
    | 0x60C => regRow .rwl 0xFFFFFFFF 0xFFFF (.chan c)
    | 0x610 => regRow .rwl 0x7F 0x64 (.chan c)
    | 0x614 => regRow .rwl 0xFF03FF 0x20064 (.chan c)
    | 0x618 => regRow .rwl 0xFFFFFFFF 0xF38C18C9 (.chan c)
    | 0x61C => regRow .ro 0x3FFFF 0
    | 0x620 => regRow .rwl 0xFFFFFFFF 0x3C00 (.chan c)
    | 0x624 => regRow .wo 0xFF 0
    | _ => none
  else if 0x800 ≤ o ∧ o < 0xE00 then regRow .rwl 0xFFFFFFFF (edgeReset ((o - 0x800) / 4 % 6)) (.chan c)
  else if 0xE00 ≤ o ∧ o < 0xE10 then
    match o with
    | 0xE00 => regRow .rwl 0x7F 0 (.chan c)
    | 0xE04 => regRow .rwl 0xFFFFFFFF 0 (.chan c)
    | 0xE08 => roWord
    | 0xE0C => regRow .wo 0x1 0
    | _ => none
  else none

/-- PED of edge die e (R121, R122). -/
def regPed (e o : Nat) : Option RegInfo :=
  if o < 0x10000 then regRow .rwl 0xFFFFFFFF 0 (.die e)
  else if o < 0x11000 then
    match o % 16 with
    | 0x0 => regRow .rwl 0xFFFF7FFF 0 (.die e)
    | 0x4 => regRow .rwl 0x3FFFFFF 0x1000000 (.die e)
    | _ => none
  else if o = 0x20000 then regRow .rws 0x3FFF 0x640 (.governor e)
  else if o = 0x20004 then regRow .ro 0x7F003FFF 0
  else none

/-- Site map and ledger control (R261 to R263). -/
def regLed (o : Nat) : Option RegInfo :=
  if o < 0x400 then regRow .rwl 0xBF 0 (.siteMap (o / 4))
  else if o < 0x1000 then
    match o with
    | 0x400 => regRow .rwl 0x1 0x1 .ledger
    | 0x404 => regRow .ro 0xFF 0
    | 0x408 => roWord
    | 0x40C => regRow .rwl 0xFFF 0x514 .ledger
    | 0x410 => regRow .ro 0xFFF 0
    | 0x414 => regRow .rw 0xFFF 0
    | 0x418 => regRow .ro 0xFFF 0xC00
    | 0x420 => regRow .w1c 0xFFFFFFFF 0
    | 0x424 => regRow .w1c 0xFFFFFFFF 0
    | _ => none
  else if o < 0x2000 then
    match o % 0x40 with
    | 0x00 => regRow .ro 0x7FF 0
    | 0x04 => regRow .rw 0x7FF 0
    | 0x08 => regRow .ro 0x7FF 0x77F
    | 0x0C => roWord
    | 0x10 => regRow .rop 0xFF 0
    | 0x14 => roWord
    | 0x18 => regRow .rop 0xFF 0
    | 0x1C => roWord
    | 0x20 => regRow .rop 0xFFFFFFFF 0
    | 0x24 => roWord
    | 0x28 => regRow .rop 0xFFFFFFFF 0
    | 0x2C => regRow .ro 0x800001FF 0
    | 0x30 => roWord
    | 0x34 => roWord
    | _ => none
  else none

/-- The register at an aligned BAR0 address, by the block placement of R591. -/
def regInfo (a : Nat) : Option RegInfo :=
  if a % 4 ≠ 0 then none
  else if a < 0x10000 then regGen a
  else if a < 0x18000 then regHost (a - 0x10000)
  else if a < 0x18400 then regStrm (a - 0x18000)
  else if a < 0x20000 then none
  else if a < 0x30000 then regClk (a - 0x20000)
  else if a < 0x40000 then regFcu (a - 0x30000)
  else if a < 0x50000 then regCal (a - 0x40000)
  else if a < 0x60000 then regTwin (a - 0x50000)
  else if a < 0x70000 then regTp (a - 0x60000)
  else if a < 0x80000 then regPwr (a - 0x70000)
  else if a < 0x100000 then none
  else if a < 0x200000 then regSeq ((a - 0x100000) / 0x10000) (a % 0x10000)
  else if a < 0x220000 then regAu ((a - 0x200000) / 0x1000) (a % 0x1000)
  else if a < 0x300000 then none
  else if a < 0x310000 then regTmu ((a - 0x300000) / 0x400) (a % 0x400)
  else if a < 0x400000 then none
  else if a < 0x410000 then regDse ((a - 0x400000) / 0x1000) (a % 0x1000)
  else if a < 0x500000 then none
  else if a < 0x800000 then regAlm (a - 0x500000)
  else if a < 0x1000000 then regTs ((a - 0x800000) / 0x80000) (a % 0x2000)
  else if a < 0x1100000 then regPe ((a - 0x1000000) / 0x1000) (a % 0x1000)
  else if a < 0x1200000 then
    regPed ((a - 0x1100000) / 0x40000) (a % 0x40000)
  else if a < 0x1400000 then none
  else if a < 0x1410000 then regLed (a - 0x1400000)
  else none

/-- What a register word holds at reset (R597). -/
def regReset (a : Nat) : Word :=
  match regInfo a with
  | some r => BitVec.ofNat 32 r.reset
  | none => 0

/-- A named field of a register: word address, lowest bit, width. -/
structure Fld where
  addr : Nat
  lo   : Nat
  w    : Nat
  deriving DecidableEq, Repr

end Sys2Proof.Machine
end

