-- ==== Sys2Proof/Machine/Fields.lean ====
section
/-!
DEFINITION. The named fields of the registers: where each lies in BAR0 and which bits it takes. The blocks follow the
register map (R591).
-/

namespace Sys2Proof.Machine

/-! Fields of GEN (R598, R599). -/

def genErrLocked : Fld := ⟨0x1C, 0, 16⟩
def genErrAddr : Fld := ⟨0x20, 0, 25⟩
def genErrReq : Fld := ⟨0x20, 31, 1⟩
def genErrAccess : Fld := ⟨0x24, 0, 16⟩
def genSerialLo : Fld := ⟨0x10, 0, 32⟩
def genSerialHi : Fld := ⟨0x14, 0, 32⟩

/-! Fields of HOST (R521, R522). -/

def hostBar4 : Fld := ⟨0x10000, 0, 2⟩
def hostGen : Fld := ⟨0x10004, 0, 3⟩
def hostWidth : Fld := ⟨0x10004, 3, 4⟩
def hostWaking : Fld := ⟨0x10004, 7, 1⟩
def hostDbErr : Fld := ⟨0x10008, 0, 16⟩
def hostCmdRef : Fld := ⟨0x10008, 16, 16⟩
def hostCmdLast : Fld := ⟨0x1000C, 0, 32⟩
def hostSqEn : Fld := ⟨0x10010, 0, 16⟩
def hostCqEn : Fld := ⟨0x10014, 0, 16⟩
def hostEqEn : Fld := ⟨0x10014, 16, 1⟩
def eqSizeLog : Fld := ⟨0x10018, 0, 4⟩
def eqVector : Fld := ⟨0x10018, 4, 6⟩
def eqIen : Fld := ⟨0x10018, 10, 1⟩
def eqTail : Fld := ⟨0x1001C, 0, 12⟩
def eqHead : Fld := ⟨0x1001C, 16, 12⟩
def eqPhase : Fld := ⟨0x1001C, 31, 1⟩
def eqBase : Fld := ⟨0x10020, 0, 32⟩
def eqBaseHi : Fld := ⟨0x10024, 0, 32⟩
def eqDrop : Fld := ⟨0x10028, 0, 32⟩
def sqSizeLog (q : Nat) : Fld := ⟨0x10108 + 0x10 * q, 0, 4⟩
def sqCq (q : Nat) : Fld := ⟨0x10108 + 0x10 * q, 4, 4⟩
def sqHead (q : Nat) : Fld := ⟨0x1010C + 0x10 * q, 0, 12⟩
def sqTail (q : Nat) : Fld := ⟨0x1010C + 0x10 * q, 16, 12⟩
def cqBase (q : Nat) : Fld := ⟨0x10200 + 0x10 * q, 0, 32⟩
def cqBaseHi (q : Nat) : Fld := ⟨0x10204 + 0x10 * q, 0, 32⟩
def cqSizeLog (q : Nat) : Fld := ⟨0x10208 + 0x10 * q, 0, 4⟩
def cqVector (q : Nat) : Fld := ⟨0x10208 + 0x10 * q, 4, 6⟩
def cqIen (q : Nat) : Fld := ⟨0x10208 + 0x10 * q, 10, 1⟩
def cqTail (q : Nat) : Fld := ⟨0x1020C + 0x10 * q, 0, 12⟩
def cqHead (q : Nat) : Fld := ⟨0x1020C + 0x10 * q, 16, 12⟩
def cqPhase (q : Nat) : Fld := ⟨0x1020C + 0x10 * q, 31, 1⟩

/-! Fields of STRM (R219, R220). -/

def strmAttached (s : Nat) : Fld := ⟨0x18000 + 0x40 * s, 0, 1⟩
def strmStallOk (s : Nat) : Fld := ⟨0x18000 + 0x40 * s, 1, 1⟩
def strmLoopX (s : Nat) : Fld := ⟨0x18000 + 0x40 * s, 2, 1⟩
def strmState (s : Nat) : Fld := ⟨0x18000 + 0x40 * s, 3, 3⟩
def strmCsizeM1 (s : Nat) : Fld := ⟨0x18000 + 0x40 * s, 8, 4⟩
def strmNslot (s : Nat) : Fld := ⟨0x18000 + 0x40 * s, 12, 6⟩
def strmPosLo (s : Nat) : Fld := ⟨0x18004 + 0x40 * s, 0, 32⟩
def strmPosHi (s : Nat) : Fld := ⟨0x18008 + 0x40 * s, 0, 8⟩
def strmReady (s : Nat) : Fld := ⟨0x1800C + 0x40 * s, 0, 6⟩
def strmStallLo (s : Nat) : Fld := ⟨0x18010 + 0x40 * s, 0, 32⟩
def strmStallHi (s : Nat) : Fld := ⟨0x18014 + 0x40 * s, 0, 32⟩
def strmRetries (s : Nat) : Fld := ⟨0x18018 + 0x40 * s, 0, 16⟩
def strmUnderruns (s : Nat) : Fld := ⟨0x18018 + 0x40 * s, 16, 16⟩
def strmRate (s : Nat) : Fld := ⟨0x1801C + 0x40 * s, 0, 16⟩

/-! Fields of CLK (R427, R428). -/

def clkFreqKhz : Fld := ⟨0x20000, 0, 18⟩
def clkRefPresent : Fld := ⟨0x20004, 0, 1⟩
def clkTbDisc : Fld := ⟨0x20004, 1, 1⟩
def clkAlignPend : Fld := ⟨0x20004, 2, 1⟩
def clkCommitPend : Fld := ⟨0x20004, 3, 1⟩
def clkSyncAuto : Fld := ⟨0x20008, 0, 1⟩
def clkSyncLoad : Fld := ⟨0x20010, 0, 32⟩
def clkSyncLoadHi : Fld := ⟨0x20014, 0, 32⟩
def clkTbSyncLo : Fld := ⟨0x20020, 0, 32⟩
def clkTbSyncHi : Fld := ⟨0x20024, 0, 32⟩
def clkRefLoss : Fld := ⟨0x20028, 0, 16⟩
def clkDisc : Fld := ⟨0x20028, 16, 16⟩
def pllEn (p : Nat) : Fld := ⟨0x20100 + 0x100 * p, 0, 2⟩
def pllEvLock (p : Nat) : Fld := ⟨0x20100 + 0x100 * p, 4, 1⟩
def pllState (p : Nat) : Fld := ⟨0x20104 + 0x100 * p, 0, 3⟩
def pllLockBit (p : Nat) : Fld := ⟨0x20104 + 0x100 * p, 3, 1⟩
def pllRamp (p : Nat) : Fld := ⟨0x20104 + 0x100 * p, 4, 1⟩
def pllSlewLim (p : Nat) : Fld := ⟨0x20104 + 0x100 * p, 5, 1⟩
def pllBand (p : Nat) : Fld := ⟨0x20104 + 0x100 * p, 6, 6⟩
def pllQ (p : Nat) : Fld := ⟨0x20104 + 0x100 * p, 12, 13⟩
def pllHz (p : Nat) : Fld := ⟨0x20108 + 0x100 * p, 0, 31⟩
def pllFnow (p : Nat) : Fld := ⟨0x2010C + 0x100 * p, 0, 31⟩
def pllUcnt (p : Nat) : Fld := ⟨0x20110 + 0x100 * p, 16, 4⟩
def pllAcqTo (p : Nat) : Fld := ⟨0x20114 + 0x100 * p, 16, 16⟩
def pllNpts (p : Nat) : Fld := ⟨0x20120 + 0x100 * p, 0, 7⟩
def pllRampSrc (p : Nat) : Fld := ⟨0x20120 + 0x100 * p, 8, 2⟩
def pllBuildout (p : Nat) : Fld := ⟨0x20128 + 0x100 * p, 0, 24⟩
def pllUnlocks (p : Nat) : Fld := ⟨0x2012C + 0x100 * p, 0, 16⟩
def pllCoasts (p : Nat) : Fld := ⟨0x2012C + 0x100 * p, 16, 16⟩
def pllRptTarget (p k : Nat) : Fld := ⟨0x21000 + 0x200 * p + 8 * k, 0, 30⟩
def pllRptDur (p k : Nat) : Fld := ⟨0x21004 + 0x200 * p + 8 * k, 0, 24⟩

/-! Fields of FCU (R478, R479). -/

def fcuPinAuto : Fld := ⟨0x30000, 0, 1⟩
def fcuMinw : Fld := ⟨0x30000, 1, 10⟩
def fcuTherm : Fld := ⟨0x30000, 11, 8⟩
def fcuFirstValid : Fld := ⟨0x30004, 0, 1⟩
def fcuFaultLow : Fld := ⟨0x30004, 2, 1⟩
def fcuCommitPend : Fld := ⟨0x30004, 3, 1⟩
def fcuInjBusyS : Fld := ⟨0x30004, 4, 1⟩
def fcuQwr : Fld := ⟨0x30010, 0, 8⟩
def fcuQrd : Fld := ⟨0x30014, 0, 8⟩
def fcuOvf : Fld := ⟨0x30018, 0, 32⟩
def fcuSevcls : Fld := ⟨0x30020, 0, 32⟩
def fcuInjLeft : Fld := ⟨0x30028, 0, 8⟩
def fcuInjBusy : Fld := ⟨0x30028, 8, 1⟩
def fcuInjRefused : Fld := ⟨0x30028, 9, 1⟩
def fcuInjReal : Fld := ⟨0x30028, 10, 1⟩
def fcuFirst (w : Nat) : Fld := ⟨0x30040 + 4 * w, 0, 32⟩
def fcuSevsrc (k : Nat) : Fld := ⟨0x30080 + 4 * k, 0, 32⟩
def fcuReact (k : Nat) : Fld := ⟨0x30100 + 8 * k, 0, 16⟩
def fcuSevReact (k : Nat) : Fld := ⟨0x30100 + 8 * k, 16, 16⟩
def fcuN (k : Nat) : Fld := ⟨0x30104 + 8 * k, 0, 8⟩
def fcuW (k : Nat) : Fld := ⟨0x30104 + 8 * k, 8, 24⟩
def fcuQrec (i w : Nat) : Fld := ⟨0x31000 + 0x20 * i + 4 * w, 0, 32⟩

/-! Fields of CAL (R453, R454). -/

def calInterpEn : Fld := ⟨0x40000, 0, 1⟩
def calAllowInvalid : Fld := ⟨0x40000, 1, 1⟩
def calPeriod : Fld := ⟨0x40000, 2, 10⟩
def calDelta : Fld := ⟨0x40000, 12, 10⟩
def calLag : Fld := ⟨0x40000, 22, 10⟩
def calRefDev (e : Nat) : Fld := ⟨0x40020 + 4 * e, 0, 24⟩
def calRefChecked (e : Nat) : Fld := ⟨0x40020 + 4 * e, 24, 1⟩
def calRefMismatch (e : Nat) : Fld := ⟨0x40020 + 4 * e, 25, 1⟩
def calTemp (i : Nat) : Fld := ⟨0x40040 + 4 * i, 0, 16⟩
def calTempValid (i : Nat) : Fld := ⟨0x40040 + 4 * i, 16, 1⟩
def calTempC (k : Nat) : Fld := ⟨0x40080 + 4 * k, 0, 16⟩
def calTempCValid (k : Nat) : Fld := ⟨0x40080 + 4 * k, 16, 1⟩
def calValid (c : Nat) : Fld := ⟨0x41000 + 0x10 * c, 0, 1⟩
def calPts (c : Nat) : Fld := ⟨0x41000 + 0x10 * c, 1, 5⟩
def calFallback (c : Nat) : Fld := ⟨0x41000 + 0x10 * c, 6, 1⟩
def calNotMet (c : Nat) : Fld := ⟨0x41000 + 0x10 * c, 7, 1⟩
def calPrecond (c : Nat) : Fld := ⟨0x41000 + 0x10 * c, 8, 1⟩
def calResT (c : Nat) : Fld := ⟨0x41004 + 0x10 * c, 0, 16⟩
def calResL (c : Nat) : Fld := ⟨0x41008 + 0x10 * c, 0, 24⟩
def calEyeWidth (c : Nat) : Fld := ⟨0x4100C + 0x10 * c, 0, 16⟩
def calEyeHeight (c : Nat) : Fld := ⟨0x4100C + 0x10 * c, 16, 16⟩
/-- The valid points of one item of a channel (R454). -/
def calItemPts (c i : Nat) : Fld := if i < 6 then ⟨0x42000 + 8 * c, 5 * i, 5⟩ else ⟨0x42004 + 8 * c, 0, 5⟩
def calState : Fld := ⟨0x40004, 0, 3⟩
def calCommitPend : Fld := ⟨0x40004, 3, 1⟩
def calPending : Fld := ⟨0x40004, 16, 16⟩
def calStoreBank : Fld := ⟨0x40008, 0, 1⟩
def calStoreNone : Fld := ⟨0x40008, 1, 1⟩
def calStoreGen : Fld := ⟨0x40008, 2, 30⟩

/-! Fields of TWIN (R544, R545). -/

def twinRole : Fld := ⟨0x50004, 0, 1⟩
def twinLink : Fld := ⟨0x50004, 1, 2⟩
def twinLanes : Fld := ⟨0x50004, 3, 3⟩
def twinState : Fld := ⟨0x50004, 6, 3⟩
def twinParkIn : Fld := ⟨0x50004, 9, 1⟩
def twinParkOut : Fld := ⟨0x50004, 10, 1⟩
def twinRoleConf : Fld := ⟨0x50004, 11, 1⟩
def twinTpHeld : Fld := ⟨0x50004, 12, 1⟩
def twinEn : Fld := ⟨0x50000, 0, 1⟩
def twinAuto : Fld := ⟨0x50000, 1, 1⟩
def twinSolo : Fld := ⟨0x50000, 2, 1⟩
def twinDelayB : Fld := ⟨0x5000C, 0, 16⟩
def twinHostLoss : Fld := ⟨0x5000C, 16, 16⟩
def twinMargin : Fld := ⟨0x50010, 0, 16⟩
def twinDelay : Fld := ⟨0x50014, 0, 16⟩
def twinOffset : Fld := ⟨0x50018, 0, 32⟩
def twinOffsetHi : Fld := ⟨0x5001C, 0, 32⟩
def twinCrcErr : Fld := ⟨0x50020, 0, 16⟩
def twinRetx : Fld := ⟨0x50020, 16, 16⟩
def twinMirSel : Fld := ⟨0x50024, 0, 6⟩

/-! Fields of PWR (R589, R590). -/

def pwrPin : Fld := ⟨0x70000, 0, 2⟩
def pwrState : Fld := ⟨0x70004, 0, 3⟩
def pwrLastWake : Fld := ⟨0x70004, 3, 2⟩
def pwrParked : Fld := ⟨0x70004, 8, 4⟩
def pwrParkP3 : Fld := ⟨0x70004, 12, 4⟩
def pwrQuiesced : Fld := ⟨0x70004, 16, 16⟩
def pwrP1ms : Fld := ⟨0x70008, 0, 16⟩
def pwrP2s : Fld := ⟨0x70008, 16, 16⟩
def pwrRailCore : Fld := ⟨0x7000C, 0, 7⟩
def pwrRstPerst : Fld := ⟨0x70010, 1, 1⟩
def pwrRstWdog : Fld := ⟨0x70010, 2, 1⟩
def pwrRstTap : Fld := ⟨0x70010, 3, 1⟩
def pwrRst : Fld := ⟨0x70010, 0, 4⟩
def pwrFwImage : Fld := ⟨0x70014, 0, 1⟩
def pwrFwStaged (i : Nat) : Fld := ⟨0x70014, 1 + i, 1⟩
def pwrFwSwitching : Fld := ⟨0x70014, 3, 1⟩
def pwrFwVersion : Fld := ⟨0x70014, 16, 16⟩
def pwrWakes : Fld := ⟨0x70018, 0, 16⟩
def pwrP3s : Fld := ⟨0x70018, 16, 16⟩

/-! Fields of SEQ (R197, R198). -/

def seqClkSrc (s : Nat) : Fld := ⟨0x100000 + 0x10000 * s, 0, 2⟩
def seqState (s : Nat) : Fld := ⟨0x100004 + 0x10000 * s, 0, 3⟩
def seqLdepth (s : Nat) : Fld := ⟨0x100004 + 0x10000 * s, 3, 4⟩
def seqCdepth (s : Nat) : Fld := ⟨0x100004 + 0x10000 * s, 7, 5⟩
def seqSeg (s : Nat) : Fld := ⟨0x100004 + 0x10000 * s, 12, 8⟩
def seqJpend (s : Nat) : Fld := ⟨0x100004 + 0x10000 * s, 20, 1⟩
def seqJcommit (s : Nat) : Fld := ⟨0x100004 + 0x10000 * s, 21, 1⟩
def seqCommitPend (s : Nat) : Fld := ⟨0x100004 + 0x10000 * s, 22, 1⟩
def seqQuadsLo (s : Nat) : Fld := ⟨0x100008 + 0x10000 * s, 0, 32⟩
def seqQuadsHi (s : Nat) : Fld := ⟨0x10000C + 0x10000 * s, 0, 32⟩
def seqVbase (s : Nat) : Fld := ⟨0x100010 + 0x10000 * s, 0, 22⟩
def seqVlines (s : Nat) : Fld := ⟨0x100014 + 0x10000 * s, 0, 22⟩
def seqVgen (s : Nat) : Fld := ⟨0x100018 + 0x10000 * s, 0, 10⟩
def seqStart (s : Nat) : Fld := ⟨0x10001C + 0x10000 * s, 0, 25⟩
def seqSmaskLo (s : Nat) : Fld := ⟨0x100020 + 0x10000 * s, 0, 32⟩
def seqSmaskHi (s : Nat) : Fld := ⟨0x100024 + 0x10000 * s, 0, 32⟩
def seqFlag (s : Nat) : Fld := ⟨0x100028 + 0x10000 * s, 0, 8⟩
def seqSyncReg (s : Nat) : Fld := ⟨0x100030 + 0x10000 * s, 0, 16⟩
def seqMkrOut (s : Nat) : Fld := ⟨0x100034 + 0x10000 * s, 0, 8⟩
def seqLine (s : Nat) : Fld := ⟨0x100038 + 0x10000 * s, 0, 25⟩
def seqCntVec (s : Nat) : Fld := ⟨0x100040 + 0x10000 * s, 0, 32⟩
def seqCntVecHi (s : Nat) : Fld := ⟨0x100044 + 0x10000 * s, 0, 32⟩
def seqCntFill (s : Nat) : Fld := ⟨0x100048 + 0x10000 * s, 0, 32⟩
def seqCntJrej (s : Nat) : Fld := ⟨0x10004C + 0x10000 * s, 0, 16⟩
def seqStampWr (s : Nat) : Fld := ⟨0x100050 + 0x10000 * s, 0, 8⟩
def seqStampRd (s : Nat) : Fld := ⟨0x100054 + 0x10000 * s, 0, 8⟩
def seqCntSdrop (s : Nat) : Fld := ⟨0x100058 + 0x10000 * s, 0, 16⟩
def seqSegtab (s t : Nat) : Fld := ⟨0x100400 + 0x10000 * s + 4 * t, 0, 25⟩

/-! Fields of AU (R295, R296). -/

def auDrainEn (a : Nat) : Fld := ⟨0x200000 + 0x1000 * a, 0, 1⟩
def auMeasEn (a : Nat) : Fld := ⟨0x200000 + 0x1000 * a, 1, 1⟩
def auGateEn (a : Nat) : Fld := ⟨0x200000 + 0x1000 * a, 2, 1⟩
def auGateSeq (a : Nat) : Fld := ⟨0x200000 + 0x1000 * a, 3, 4⟩
def auSweep (a : Nat) : Fld := ⟨0x200000 + 0x1000 * a, 7, 1⟩
def auKM1 (a : Nat) : Fld := ⟨0x200000 + 0x1000 * a, 8, 6⟩
def auEvRec (a : Nat) : Fld := ⟨0x200000 + 0x1000 * a, 14, 1⟩
def auState (a : Nat) : Fld := ⟨0x200004 + 0x1000 * a, 0, 3⟩
def auArmErr (a : Nat) : Fld := ⟨0x200004 + 0x1000 * a, 3, 1⟩
def auPass (a : Nat) : Fld := ⟨0x200004 + 0x1000 * a, 4, 6⟩
def auType (a : Nat) : Fld := ⟨0x200010 + 0x1000 * a, 0, 2⟩
def auFirst (a : Nat) : Fld := ⟨0x200010 + 0x1000 * a, 2, 8⟩
def auNch (a : Nat) : Fld := ⟨0x200010 + 0x1000 * a, 10, 2⟩
def auDecim (a : Nat) : Fld := ⟨0x200010 + 0x1000 * a, 12, 4⟩
def auTmu (a : Nat) : Fld := ⟨0x200010 + 0x1000 * a, 16, 6⟩
def auSrcEn (a : Nat) : Fld := ⟨0x200010 + 0x1000 * a, 31, 1⟩
def auBase (a : Nat) : Fld := ⟨0x200014 + 0x1000 * a, 0, 9⟩
def auSize (a : Nat) : Fld := ⟨0x200014 + 0x1000 * a, 16, 10⟩
def auPre (a : Nat) : Fld := ⟨0x200018 + 0x1000 * a, 0, 32⟩
def auPost (a : Nat) : Fld := ⟨0x20001C + 0x1000 * a, 0, 32⟩
def auRec (a : Nat) : Fld := ⟨0x200020 + 0x1000 * a, 0, 16⟩
def auKind (a : Nat) : Fld := ⟨0x200024 + 0x1000 * a, 0, 4⟩
def auTch (a : Nat) : Fld := ⟨0x200024 + 0x1000 * a, 4, 3⟩
def auTcmp (a : Nat) : Fld := ⟨0x200024 + 0x1000 * a, 7, 1⟩
def auSlope (a : Nat) : Fld := ⟨0x200024 + 0x1000 * a, 8, 2⟩
def auWin (a : Nat) : Fld := ⟨0x200024 + 0x1000 * a, 10, 1⟩
def auPol (a : Nat) : Fld := ⟨0x200024 + 0x1000 * a, 11, 1⟩
def auTrigIdx (a : Nat) : Fld := ⟨0x200028 + 0x1000 * a, 0, 8⟩
def auTmin (a : Nat) : Fld := ⟨0x20002C + 0x1000 * a, 0, 32⟩
def auTmax (a : Nat) : Fld := ⟨0x200030 + 0x1000 * a, 0, 32⟩
def auLevel (a : Nat) : Fld := ⟨0x200034 + 0x1000 * a, 0, 18⟩
def auSettle (a : Nat) : Fld := ⟨0x20003C + 0x1000 * a, 0, 16⟩
def auDrainAddr (a : Nat) : Fld := ⟨0x200040 + 0x1000 * a, 0, 32⟩
def auDrainAddrHi (a : Nat) : Fld := ⟨0x200044 + 0x1000 * a, 0, 32⟩
def auDrainSize (a : Nat) : Fld := ⟨0x200048 + 0x1000 * a, 0, 16⟩
def auDrainWr (a : Nat) : Fld := ⟨0x20004C + 0x1000 * a, 0, 32⟩
def auDrainRd (a : Nat) : Fld := ⟨0x200050 + 0x1000 * a, 0, 32⟩
def auRecWr (a : Nat) : Fld := ⟨0x200054 + 0x1000 * a, 0, 16⟩
def auRecRd (a : Nat) : Fld := ⟨0x200058 + 0x1000 * a, 0, 16⟩
def auCntMiss (a : Nat) : Fld := ⟨0x20005C + 0x1000 * a, 0, 32⟩
def auCntGap (a : Nat) : Fld := ⟨0x200060 + 0x1000 * a, 0, 32⟩
def auMsel (a k : Nat) : Fld := ⟨0x200038 + 0x1000 * a, 8 * k, 8⟩
def auMeas (a k : Nat) : Fld := ⟨0x200070 + 0x1000 * a + 8 * k, 0, 32⟩
def auMeasHi (a k : Nat) : Fld := ⟨0x200074 + 0x1000 * a + 8 * k, 0, 32⟩
def auSweepVoh (a k : Nat) : Fld := ⟨0x200100 + 0x1000 * a + 4 * k, 0, 16⟩
def auSweepVol (a k : Nat) : Fld := ⟨0x200100 + 0x1000 * a + 4 * k, 16, 16⟩

/-! Fields of TMU (R317, R318). -/

def tmuMode (u : Nat) : Fld := ⟨0x300000 + 0x400 * u, 0, 3⟩
def tmuIcal (u : Nat) : Fld := ⟨0x300000 + 0x400 * u, 3, 1⟩
def tmuDskEn (u : Nat) : Fld := ⟨0x300000 + 0x400 * u, 4, 1⟩
def tmuEvDone (u : Nat) : Fld := ⟨0x300000 + 0x400 * u, 5, 1⟩
def tmuState (u : Nat) : Fld := ⟨0x300004 + 0x400 * u, 0, 2⟩
def tmuUnref (u : Nat) : Fld := ⟨0x300004 + 0x400 * u, 2, 1⟩
def tmuCalErr (u : Nat) : Fld := ⟨0x300004 + 0x400 * u, 3, 1⟩
def tmuStartCh (u : Nat) : Fld := ⟨0x30000C + 0x400 * u, 0, 6⟩
def tmuStartThr (u : Nat) : Fld := ⟨0x30000C + 0x400 * u, 6, 1⟩
def tmuStopCh (u : Nat) : Fld := ⟨0x300010 + 0x400 * u, 0, 6⟩
def tmuStopThr (u : Nat) : Fld := ⟨0x300010 + 0x400 * u, 6, 1⟩
def tmuNM1 (u : Nat) : Fld := ⟨0x300014 + 0x400 * u, 0, 24⟩
def tmuEdges (u : Nat) : Fld := ⟨0x300018 + 0x400 * u, 0, 16⟩
def tmuTimeoutUs (u : Nat) : Fld := ⟨0x300020 + 0x400 * u, 0, 24⟩
def tmuStatCnt (u : Nat) : Fld := ⟨0x300024 + 0x400 * u, 0, 25⟩
def tmuGerrStart (u : Nat) : Fld := ⟨0x300028 + 0x400 * u, 0, 16⟩
def tmuGerrStop (u : Nat) : Fld := ⟨0x300028 + 0x400 * u, 16, 16⟩
def tmuCntTo (u : Nat) : Fld := ⟨0x30002C + 0x400 * u, 0, 16⟩
def tmuLast (u : Nat) : Fld := ⟨0x300050 + 0x400 * u, 0, 32⟩
def tmuLastHi (u : Nat) : Fld := ⟨0x300054 + 0x400 * u, 0, 32⟩
/-- Statistic k of a TMU: 0 MEAN, 1 SDEV, 2 MIN, 3 MAX. -/
def tmuStat (u k : Nat) : Fld := ⟨0x300030 + 0x400 * u + 8 * k, 0, 32⟩
def tmuStatHi (u k : Nat) : Fld := ⟨0x300034 + 0x400 * u + 8 * k, 0, 32⟩

/-! Fields of DSE (R351, R352). -/

def dseEvDone (e : Nat) : Fld := ⟨0x400000 + 0x1000 * e, 0, 1⟩
def dseState (e : Nat) : Fld := ⟨0x400004 + 0x1000 * e, 0, 3⟩
def dseHoldAu (e : Nat) : Fld := ⟨0x400004 + 0x1000 * e, 3, 1⟩
def dseKid (e : Nat) : Fld := ⟨0x40000C + 0x1000 * e, 0, 16⟩
def dseVersion (e : Nat) : Fld := ⟨0x40000C + 0x1000 * e, 16, 16⟩
def dseErrPc (e : Nat) : Fld := ⟨0x400010 + 0x1000 * e, 0, 13⟩
def dseErrCause (e : Nat) : Fld := ⟨0x400010 + 0x1000 * e, 16, 4⟩
def dseLastSt (e : Nat) : Fld := ⟨0x400014 + 0x1000 * e, 0, 16⟩
def dseCntJob (e : Nat) : Fld := ⟨0x400018 + 0x1000 * e, 0, 32⟩
def dseCntErr (e : Nat) : Fld := ⟨0x40001C + 0x1000 * e, 0, 16⟩
def dseCntCyc (e : Nat) : Fld := ⟨0x400020 + 0x1000 * e, 0, 32⟩
def dseCntCycHi (e : Nat) : Fld := ⟨0x400024 + 0x1000 * e, 0, 32⟩

/-! Fields of ALM (R397, R398). -/

def almEn : Fld := ⟨0x500000, 0, 1⟩
def almTwinEn : Fld := ⟨0x500000, 1, 1⟩
def almExtEn : Fld := ⟨0x500000, 2, 1⟩
def almEvReady : Fld := ⟨0x500000, 3, 1⟩
def almTracked : Fld := ⟨0x500004, 0, 13⟩
def almBusy : Fld := ⟨0x500004, 13, 1⟩
def almBin : Fld := ⟨0x500008, 0, 16⟩
def almPool : Fld := ⟨0x50000C, 0, 23⟩
def almHselIndex : Fld := ⟨0x500010, 0, 12⟩
def almHselComp : Fld := ⟨0x500010, 12, 2⟩
def almCntShift : Fld := ⟨0x500014, 0, 16⟩
def almCommitPend : Fld := ⟨0x500004, 15, 1⟩

/-! Fields of TP (R562, R563). -/

def tpDiv : Fld := ⟨0x60000, 2, 12⟩
def tpEvDone : Fld := ⟨0x60000, 18, 1⟩
def tpEvRx : Fld := ⟨0x60000, 19, 1⟩
def tpState : Fld := ⟨0x60004, 0, 3⟩
def tpResult : Fld := ⟨0x60004, 3, 3⟩
def tpBusyIn : Fld := ⟨0x60004, 6, 1⟩
def tpOwner : Fld := ⟨0x60004, 8, 1⟩
def tpSel : Fld := ⟨0x6000C, 0, 3⟩
def tpNosel : Fld := ⟨0x6000C, 3, 1⟩
def tpCmdLen : Fld := ⟨0x6000C, 4, 6⟩
def tpCmdLanes : Fld := ⟨0x6000C, 10, 2⟩
def tpAddrLen : Fld := ⟨0x6000C, 12, 6⟩
def tpAddrLanes : Fld := ⟨0x6000C, 18, 2⟩
def tpDummy : Fld := ⟨0x6000C, 20, 5⟩
def tpLen : Fld := ⟨0x60010, 0, 14⟩
def tpDataLanes : Fld := ⟨0x60010, 14, 2⟩
def tpDir : Fld := ⟨0x60010, 16, 1⟩
def tpHoldSel : Fld := ⟨0x60010, 17, 1⟩
def tpCmdv : Fld := ⟨0x60014, 0, 32⟩
def tpAddrV : Fld := ⟨0x60018, 0, 32⟩
def tpSetup : Fld := ⟨0x6001C, 0, 4⟩
def tpHold : Fld := ⟨0x6001C, 4, 4⟩
def tpDesel : Fld := ⟨0x6001C, 8, 8⟩
def tpIdle : Fld := ⟨0x60020, 0, 10⟩
def tpTimeout : Fld := ⟨0x60020, 16, 16⟩
def tpFlag (k : Nat) : Fld := ⟨0x60024, k, 1⟩
def tpTgtEn : Fld := ⟨0x60028, 0, 1⟩
def tpTgtLen : Fld := ⟨0x60028, 4, 14⟩
def tpRxCount : Fld := ⟨0x6002C, 0, 4⟩
def tpRxHead : Fld := ⟨0x6002C, 4, 3⟩
def tpTxValid : Fld := ⟨0x6002C, 7, 1⟩
def tpLastBits : Fld := ⟨0x6002C, 8, 14⟩
def tpCntPartial : Fld := ⟨0x60034, 0, 16⟩
def tpCntOver : Fld := ⟨0x60034, 16, 16⟩
def tpCntOvf : Fld := ⟨0x60038, 0, 16⟩
def tpCntEmpty : Fld := ⟨0x60038, 16, 16⟩
def tpCntGoRej : Fld := ⟨0x6003C, 0, 16⟩
def tpCntCmd : Fld := ⟨0x6003C, 16, 16⟩
def tpRxInfo (i : Nat) : Fld := ⟨0x60C00 + 4 * i, 0, 14⟩

/-! Fields of PE (R83 to R88). -/

def peOffMode (c : Nat) : Fld := ⟨0x1000000 + 0x1000 * c, 0, 1⟩
def peAload (c : Nat) : Fld := ⟨0x1000000 + 0x1000 * c, 1, 1⟩
def peClampEn (c : Nat) : Fld := ⟨0x1000000 + 0x1000 * c, 2, 1⟩
def peChEn (c : Nat) : Fld := ⟨0x1000000 + 0x1000 * c, 5, 1⟩
def peHiz (c : Nat) : Fld := ⟨0x1000004 + 0x1000 * c, 0, 1⟩
def peParked (c : Nat) : Fld := ⟨0x1000004 + 0x1000 * c, 1, 1⟩
def peHold (c : Nat) : Fld := ⟨0x1000004 + 0x1000 * c, 2, 1⟩
def peLoadCompl (c : Nat) : Fld := ⟨0x1000004 + 0x1000 * c, 3, 1⟩
def peStale (c : Nat) : Fld := ⟨0x1000004 + 0x1000 * c, 4, 1⟩
def peLset (c : Nat) : Fld := ⟨0x1000004 + 0x1000 * c, 8, 4⟩
def peFault (c : Nat) : Fld := ⟨0x1000008 + 0x1000 * c, 0, 4⟩
def peLvlUpd (c : Nat) : Fld := ⟨0x100000C + 0x1000 * c, 0, 11⟩
def peDglHold (c : Nat) : Fld := ⟨0x1000010 + 0x1000 * c, 0, 10⟩
def peOclFilt (c : Nat) : Fld := ⟨0x1000014 + 0x1000 * c, 16, 10⟩
def peCntRej (c : Nat) : Fld := ⟨0x1000018 + 0x1000 * c, 0, 16⟩
def peCode (c d : Nat) : Fld := ⟨0x1000040 + 0x1000 * c + 4 * d, 0, 16⟩
def peIdeal (c d : Nat) : Fld := ⟨0x1000080 + 0x1000 * c + 4 * d, 0, 16⟩
def peCorr (c d : Nat) : Fld := ⟨0x1000080 + 0x1000 * c + 4 * d, 16, 16⟩
def peLsetCode (c k d : Nat) : Fld := ⟨0x1000100 + 0x1000 * c + 0x40 * k + 4 * d, 0, 16⟩

/-! Fields of PPMU (R119, R120). -/

def ppmuForce (c : Nat) : Fld := ⟨0x1000600 + 0x1000 * c, 0, 2⟩
def ppmuMeas (c : Nat) : Fld := ⟨0x1000600 + 0x1000 * c, 2, 1⟩
def ppmuRange (c : Nat) : Fld := ⟨0x1000600 + 0x1000 * c, 3, 3⟩
def ppmuWfEn (c : Nat) : Fld := ⟨0x1000600 + 0x1000 * c, 6, 1⟩
def ppmuJsrc (c : Nat) : Fld := ⟨0x1000600 + 0x1000 * c, 8, 3⟩
def ppmuForceNow (c : Nat) : Fld := ⟨0x1000604 + 0x1000 * c, 0, 2⟩
def ppmuCompl (c : Nat) : Fld := ⟨0x1000604 + 0x1000 * c, 2, 1⟩
def ppmuWait (c : Nat) : Fld := ⟨0x1000604 + 0x1000 * c, 3, 1⟩
def ppmuWfRun (c : Nat) : Fld := ⟨0x1000604 + 0x1000 * c, 4, 1⟩
def ppmuWfSeg (c : Nat) : Fld := ⟨0x1000604 + 0x1000 * c, 8, 8⟩
def ppmuFaultF (c : Nat) : Fld := ⟨0x1000608 + 0x1000 * c, 0, 3⟩
def ppmuCcEn (c : Nat) : Fld := ⟨0x1000618 + 0x1000 * c, 0, 1⟩
def ppmuCcSettle (c : Nat) : Fld := ⟨0x1000618 + 0x1000 * c, 1, 7⟩
def ppmuCcLo (c : Nat) : Fld := ⟨0x1000618 + 0x1000 * c, 8, 12⟩
def ppmuCcHi (c : Nat) : Fld := ⟨0x1000618 + 0x1000 * c, 20, 12⟩
def ppmuResult (c : Nat) : Fld := ⟨0x100061C + 0x1000 * c, 0, 18⟩
def ppmuWfFirst (c : Nat) : Fld := ⟨0x1000620 + 0x1000 * c, 0, 8⟩
def ppmuWfDiv (c : Nat) : Fld := ⟨0x1000620 + 0x1000 * c, 8, 24⟩

/-! Fields of PED (R121, R122). -/

def pedSegStart (e i : Nat) : Fld := ⟨0x1110000 + 0x40000 * e + 0x10 * i, 0, 15⟩
def pedSegLength (e i : Nat) : Fld := ⟨0x1110000 + 0x40000 * e + 0x10 * i, 16, 16⟩
def pedSegRepeat (e i : Nat) : Fld := ⟨0x1110004 + 0x40000 * e + 0x10 * i, 0, 16⟩
def pedSegNext (e i : Nat) : Fld := ⟨0x1110004 + 0x40000 * e + 0x10 * i, 16, 8⟩
def pedSegEnd (e i : Nat) : Fld := ⟨0x1110004 + 0x40000 * e + 0x10 * i, 24, 1⟩
def pedSegTrig (e i : Nat) : Fld := ⟨0x1110004 + 0x40000 * e + 0x10 * i, 25, 1⟩
def pedLimit (e : Nat) : Fld := ⟨0x1120000 + 0x40000 * e, 0, 14⟩
def pedHeld (e : Nat) : Fld := ⟨0x1120004 + 0x40000 * e, 0, 14⟩
def pedWaiting (e : Nat) : Fld := ⟨0x1120004 + 0x40000 * e, 24, 7⟩

/-! Fields of per-pin timing (R156, R157). -/

def peTs (c t j : Nat) : Fld := ⟨0x1000800 + 0x1000 * c + 0x18 * t + 4 * j, 0, 32⟩
def peTimCtrl (c : Nat) : Fld := ⟨0x1000E00 + 0x1000 * c, 0, 7⟩
def peTimDsk (c : Nat) : Fld := ⟨0x1000E04 + 0x1000 * c, 0, 32⟩
def peTimCnt (c : Nat) : Fld := ⟨0x1000E08 + 0x1000 * c, 0, 32⟩

/-! Fields of site map and ledger (R261 to R263). -/

def siteMap (c : Nat) : Fld := ⟨0x1400000 + 4 * c, 0, 8⟩
def siteMapSite (c : Nat) : Fld := ⟨0x1400000 + 4 * c, 0, 6⟩
def siteMapValid (c : Nat) : Fld := ⟨0x1400000 + 4 * c, 7, 1⟩
def ledStopInteg : Fld := ⟨0x1400400, 0, 1⟩
def ledRuns : Fld := ⟨0x1400404, 0, 7⟩
def ledClosing : Fld := ⟨0x1400404, 7, 1⟩
def ledGuard : Fld := ⟨0x140040C, 0, 8⟩
def ledM : Fld := ⟨0x140040C, 8, 4⟩
def ledHdrWr : Fld := ⟨0x1400410, 0, 12⟩
def ledHdrRd : Fld := ⟨0x1400414, 0, 12⟩
def ledPendLo : Fld := ⟨0x1400420, 0, 32⟩
def ledPendHi : Fld := ⟨0x1400424, 0, 32⟩
def ledWr (s : Nat) : Fld := ⟨0x1401000 + 0x40 * s, 0, 11⟩
def ledRd (s : Nat) : Fld := ⟨0x1401004 + 0x40 * s, 0, 11⟩
def fcntLo (s : Nat) : Fld := ⟨0x140100C + 0x40 * s, 0, 32⟩
def fcntHi (s : Nat) : Fld := ⟨0x1401010 + 0x40 * s, 0, 8⟩
def ffLineLo (s : Nat) : Fld := ⟨0x1401014 + 0x40 * s, 0, 32⟩
def ffLineHi (s : Nat) : Fld := ⟨0x1401018 + 0x40 * s, 0, 8⟩
def ffVecLo (s : Nat) : Fld := ⟨0x140101C + 0x40 * s, 0, 32⟩
def ffVecHi (s : Nat) : Fld := ⟨0x1401020 + 0x40 * s, 0, 32⟩
def ffTbLo (s : Nat) : Fld := ⟨0x1401024 + 0x40 * s, 0, 32⟩
def ffTbHi (s : Nat) : Fld := ⟨0x1401028 + 0x40 * s, 0, 32⟩
def ffCh (s : Nat) : Fld := ⟨0x140102C + 0x40 * s, 0, 8⟩
def ffStrm (s : Nat) : Fld := ⟨0x140102C + 0x40 * s, 8, 1⟩
def ffValid (s : Nat) : Fld := ⟨0x140102C + 0x40 * s, 31, 1⟩
def flogCount (s : Nat) : Fld := ⟨0x1401030 + 0x40 * s, 0, 32⟩
def flogDrop (s : Nat) : Fld := ⟨0x1401034 + 0x40 * s, 0, 32⟩

end Sys2Proof.Machine
end

