-- ==== Sys2Proof/Machine/State.lean ====
section
/-!
DEFINITION. The state of one Cestan as plain data, the reasons a step can stop, and the state right after reset.
Every register word of BAR0 has its one home in `Dev.regs`; every byte of the core-die SRAM has its one home in `Dev.sram`;
the flash has its one home in `NonVol`. What the manual only implies (a transfer in progress, a timer that runs) is in the
structures of the blocks.
-/

namespace Sys2Proof.Machine

/-- No command of the block stops the machine: every behaviour the manual describes ends in a next state. The one
constructor is kept for the closed type and is raised by nothing (safe). -/
inductive Fault where
  /-- Raised by no meaning (safe). -/
  | none_
  deriving DecidableEq, Repr

/-- Why a command has no meaning. -/
inductive Refusal where
  /-- The command has no meaning in this model yet; raised only by an arm of exec that names the command (safe). -/
  | notModelled (mnemonic : String)
  deriving DecidableEq, Repr

/-- What the device sends out: host-memory writes, messages, pulses. The newest stands first in `Dev.out`. -/
inductive Output where
  /-- a completion record written to CQ `q` at a host address (R488, R503) -/
  | cqRecord (q addr rec : Nat)
  /-- an event record written to the EQ at a host address (R488, R516) -/
  | eqRecord (addr rec : Nat)
  /-- an MSI-X message (R515) -/
  | msix (vec : Nat)
  /-- data written to host memory -/
  | dma (addr : Nat) (bytes : List Byte)
  /-- a Meridian message: kind and payload bytes -/
  | twin (kind : Nat) (bytes : List Byte)
  /-- a pulse of 16 master periods on TRIG_OUT pins from a TB on (R188) -/
  | trigOut (mask tb : Nat)
  /-- the levels that a sequencer's markers drive on TRIG_OUT from a TB on (R185) -/
  | trigLevel (seq mask tb : Nat)
  /-- bits driven on the Transit port by the master, or by the target (R551, R559) -/
  | tpBits (target : Bool) (bits : List Bool)
  deriving DecidableEq, Repr

/-- A completion record that is due or held (R489): everything but the head, phase and ring slot. -/
structure Comp where
  id       : Nat
  q        : Nat
  cid      : Nat
  opc      : Nat
  status   : Nat
  result   : Nat
  result64 : Nat
  tb       : Nat
  deriving DecidableEq, Repr

/-- A descriptor that has been fetched and not yet completed (R491, R492). -/
structure Work where
  id  : Nat
  q   : Nat
  cid : Nat
  opc : Nat
  deriving DecidableEq, Repr

/-- A descriptor that has been fetched and not yet accepted (R491). -/
structure Fetched where
  id : Nat
  d  : Nat
  deriving DecidableEq, Repr

/-- An event record before it has a ring slot (R516). -/
structure EvRec where
  src     : Nat
  seq     : Nat
  code    : Nat
  tb      : Nat
  payload : Nat
  deriving DecidableEq, Repr

/-- A FENCE that waits (R492). -/
structure FenceWait where
  id   : Nat
  q    : Nat
  cid  : Nat
  mask : Nat
  deriving DecidableEq, Repr

/-- A CONFIG_BLOCK that waits at its boundary (R497). -/
structure CfgWait where
  id       : Nat
  q        : Nat
  cid      : Nat
  boundary : Nat
  td       : Nat
  writes   : List CfgWrite
  /-- its boundary has been reached -/
  ready    : Bool
  deriving DecidableEq, Repr

/-- The host interface beyond its registers. -/
structure HostSt where
  /-- descriptors fetched since reset; the next fetch number -/
  fetchNo  : Nat
  /-- the SQ from 1 to 15 served last by the round robin (R490) -/
  rr       : Nat
  /-- per SQ: the descriptor fetched and not yet accepted -/
  waiting  : Tab (Option Fetched)
  /-- fetched descriptors not yet completed, oldest first -/
  work     : List Work
  /-- completion records held, oldest first; the first 256 are in the buffer of R489 -/
  held     : List Comp
  fences   : List FenceWait
  cfgs     : List CfgWait
  /-- events raised so far by each source (R517) -/
  evSeq    : Tab Nat
  /-- events waiting for the first enable of the EQ (R519) -/
  evBuf    : List EvRec
  /-- the EQ has been enabled since PORST or PERST -/
  eqSeen   : Bool
  /-- events dropped since the last OVERFLOW record, and the TB of the first (R518) -/
  dropped  : Nat
  dropTb   : Nat
  /-- rings that have sent a message since their last head doorbell: q for CQq, 16 for the EQ (R515) -/
  msgSent  : List Nat
  vecMask  : BitVec 64
  vecPend  : BitVec 64
  /-- high words latched by low-word reads: host and HKC (R13) -/
  latchHost : Word
  latchHkc  : Word
  deriving DecidableEq, Repr

/-- One error report on its way to the FCU (R455 to R461). -/
structure Report where
  src   : Nat
  chk   : Nat
  cls   : Nat
  /-- detection time T (R456) -/
  t     : Nat
  /-- detection latency bound L; none: unbounded (R407) -/
  lat   : Option Nat
  syn   : Nat
  det   : Nat
  scope : Nat
  /-- a level condition that stays present after the report (R465) -/
  level : Bool
  inj   : Bool
  real  : Bool
  deriving DecidableEq, Repr

/-- The count and window of one checker (R466, R467). -/
structure Checker where
  count  : Nat
  isOpen : Bool
  winEnd : Nat
  severe : Bool
  deriving DecidableEq, Repr

/-- The FCU beyond its registers. -/
structure FcuSt where
  /-- reports raised and not yet taken, oldest first -/
  raised   : List Report
  /-- keyed by 16 × source + checker -/
  checkers : Tab Checker
  /-- FAULT_N minimum width ends here (mclk) -/
  minwEnd  : Nat
  /-- a release has been written for the PIN reports made so far (R473) -/
  released : Bool
  injSrc   : Nat
  injChk   : Nat
  injFull  : Bool
  /-- checkers whose dual-rail pair failed (R457), by key -/
  wireBad  : List Nat
  /-- level conditions present: (key, class) -/
  live     : List (Nat × Nat)
  /-- the key of the record latched in FCU_FIRST -/
  firstKey : Option Nat
  deriving DecidableEq, Repr

/-- Which way the SYS start ramp runs (R415). -/
inductive Ramp where
  | none
  | up
  | down
  deriving DecidableEq, Repr

/-- A FW_SWITCH in progress (R582). -/
structure FwSwitch where
  id      : Nat
  q       : Nat
  cid     : Nat
  image   : Nat
  started : Bool
  deadline : Nat
  deriving DecidableEq, Repr

/-- A flash operation that the HKC carries out: FLASH_READ, FLASH_WRITE or FW_STAGE (R496, R581); `host`: the host address. -/
structure FlashOp where
  id     : Nat
  q      : Nat
  cid    : Nat
  opc    : Nat
  offset : Nat
  length : Nat
  image  : Nat
  host   : Nat
  data   : List Byte
  deriving DecidableEq, Repr

/-- Power, reset and firmware beyond their registers. -/
structure PwrSt where
  booted   : Bool
  porstLow : Bool
  /-- EXTEST, CLAMP or HIGHZ is the current TAP instruction (R573) -/
  tapPark  : Bool
  /-- the HKC is ready (R570) -/
  hkcReady : Bool
  /-- no good firmware image at boot (R580) -/
  noImage  : Bool
  ramp     : Ramp
  rampEnd  : Nat
  /-- the start ramp has ended and the wake waits for SYS (R415) -/
  rampDone : Bool
  /-- end of the idle time that runs (mclk) -/
  idleAt   : Nat
  /-- why the device is waking: 2 doorbell, 3 SYNC (R588); 0 none -/
  wakeWhy  : Nat
  /-- PARK_IN is asserted -/
  parkIn   : Bool
  /-- REFCLK was reported missing in the standby that lasts (R409) -/
  refLostInStandby : Bool
  /-- writes to stopped blocks held until the wake: requester, address, value, oldest first (R579) -/
  heldWrites : List (Bool × Nat × Nat)
  /-- status words of the edge dies as they stood when the clocks stopped, where they have changed since, by address (R579) -/
  stopWords : Tab (Option Word)
  fwSwitch : Option FwSwitch
  flashOps : List FlashOp
  /-- sectors that the QUIESCE_SECTOR reaction quiesces at the end of its stop (R586) -/
  quiesce  : Nat
  deriving DecidableEq, Repr

/-- One PLL beyond its registers (R411 to R426). -/
structure PllSt where
  /-- holds a lock average (R411) -/
  avg      : Bool
  /-- failed attempts of the lock attempt that runs -/
  fails    : Nat
  /-- end of the attempt's time limit (mclk); 0 while none runs -/
  toAt     : Nat
  /-- frequency at which the PLL last locked, in Hz -/
  lockHz   : Nat
  /-- mclk at which COAST began, and the length of the last COAST in master periods (R422) -/
  coastAt  : Nat
  coastLen : Nat
  /-- the offset of the return has been measured (R421) -/
  measured : Bool
  /-- a CKx still slews its phase (R423) -/
  slewing  : Bool
  /-- a committed PLL_FREQ waits for LOCKED (R417) -/
  freqWait : Bool
  /-- a frequency walk is in progress -/
  walking  : Bool
  /-- the ramp point that is being reached; the frequency at the start of its segment, the mclk at which the segment started or
  went on, and the master periods that it had run before (R419) -/
  rampIdx  : Nat
  rampFrom : Nat
  rampAt   : Nat
  rampRan  : Nat
  /-- lock attempts begun so far (R620) -/
  attempt  : Nat
  /-- sequencers that the last unlock halts (R424, R425) -/
  affected : Nat
  deriving DecidableEq, Repr

/-- The clock block beyond its registers. -/
structure ClkSt where
  /-- the pending alignment request is forced (R406) -/
  alignForce : Bool
  deriving DecidableEq, Repr

/-- One level DAC of one channel beyond `PE_LVL_NOW`: the deglitcher (R58 to R60). -/
structure Dac where
  /-- the corrected code that the output shows -/
  out     : Nat
  holding : Bool
  holdEnd : Nat
  deriving DecidableEq, Repr

/-- What a PPMU step or the contact check makes of one channel while it uses it (R98, R105). -/
structure PpmuUse where
  td      : Nat
  force   : Nat
  meas    : Nat
  range   : Nat
  wf      : Bool
  iclamp  : Nat
  code    : Nat
  vhi     : Nat
  vlo     : Nat
  settle  : Nat
  samples : Nat
  engine  : Nat
  kid     : Nat
  deriving DecidableEq, Repr

/-- The driver of one channel during PATTERN steps (R131, R133, R138). -/
structure Drv where
  on    : Bool
  lvl   : Bool
  /-- events not yet applied: tick, vector, order (DX, DA, DB), state, level -/
  evs   : List (Int × Nat × Nat × Option Bool × Option Bool)
  /-- tick of the last applied event -/
  lastT : Option Int
  /-- a clock pin runs (R147, R148) -/
  clk   : Bool
  deriving DecidableEq, Repr

/-- One channel beyond its registers. -/
structure Chan where
  /-- mclk at which codes last loaded (R74) -/
  loadAt    : Nat
  /-- stays high impedance until its next step starts, after an unpark (R77) -/
  waitStep  : Bool
  /-- stays high impedance until the next step boundary, after a fault clear (R81) -/
  waitBound : Bool
  dacs      : Tab Dac
  ppmuUse   : Option PpmuUse
  /-- a PATTERN step uses the channel (R97) -/
  patStep   : Bool
  /-- the force output reconnects here (mclk) (R97) -/
  reconAt   : Option Nat
  /-- the PPMU is held in FN after an open loop (R103) -/
  olHold    : Bool
  /-- the last open loop's release waits for the step boundary -/
  olWait    : Bool
  /-- mclk of the last open loop, for a compliance found in the same master period (R104) -/
  olAt      : Option Nat
  /-- mclk at which the outputs last went high impedance, for a fault found in the same master period (R82) -/
  hizAt     : Option Nat
  /-- waveform: plays of the segment left after the one that plays (R109) -/
  wfLeft    : Nat
  /-- the jump request made before the commit point of the play in progress, and the one made after it (R112, R113) -/
  wfReq     : Option Nat
  wfLate    : Option Nat
  /-- end of the play in progress (mclk) -/
  wfEnd     : Nat
  /-- play met a segment that R114 refuses, and the step it belongs to has not yet taken note -/
  wfRefused : Bool
  /-- the first conflict of the step has been reported (R141) -/
  conflict  : Bool
  drv       : Drv
  /-- ideal codes of VOH and VOL of the sweep pass in force (R291) -/
  sweepV    : Option (Nat × Nat)
  deriving DecidableEq, Repr

/-- The last configuration write to an edge die that has not been acknowledged in time (R24). -/
structure D2dWrite where
  addr     : Nat
  old      : Nat
  attempts : Nat
  /-- the descriptor that caused it: fetch number -/
  descId   : Option Nat
  deriving DecidableEq, Repr

/-- One edge die beyond its registers. -/
structure Die where
  /-- the core die orders the park: command, quiesce, reaction, TAP (R75) -/
  parkOrd  : Bool
  parkRail : Bool
  parkP3   : Bool
  /-- the park has been completed -/
  parked   : Bool
  /-- a test step used a channel of the die when its park was ordered (R76) -/
  inUse    : Bool
  /-- sectors whose outbound symbols were lost: they play their hold symbols for one vector (R22) -/
  crcHold  : Nat
  lastWr   : Option D2dWrite
  deriving DecidableEq, Repr

/-- A line reference: a resident line, or a line of the stream (R163, R203). -/
structure LRef where
  strm : Bool
  n    : Nat
  deriving DecidableEq, Repr

/-- A level of the loop stack: passes left and the first line of the body (R170). -/
structure LoopLvl where
  count : Nat
  start : LRef
  deriving DecidableEq, Repr

/-- A level of the call stack: the return line and the loop depth at the call (R170). -/
structure CallLvl where
  ret   : LRef
  depth : Nat
  deriving DecidableEq, Repr

/-- A line that has been fetched and decided (R169). -/
structure FLine where
  ref   : LRef
  /-- the 64-bit control word (R166) -/
  cw    : Nat
  /-- the symbols of the owned channels, in ascending channel order (R159) -/
  syms  : List Nat
  /-- plays that have not started -/
  plays : Nat
  /-- its first play has not started (R168) -/
  fresh : Bool
  /-- a SYNCW line whose start time has come (R193) -/
  go    : Bool
  /-- a committed jump put this line in place of the terminating SEG line (R190) -/
  tgt   : Bool
  deriving DecidableEq, Repr

/-- Why a sequencer fetches no further line (R169, R171, R180, R207, R214). -/
inductive FetchStop where
  | none
  | jmpc
  | matchL
  | halt
  | error
  | range
  | chunk
  deriving DecidableEq, Repr

/-- A MATCH in progress (R181, R182). -/
structure MatchSt where
  /-- sites unmasked at its first play -/
  start   : Nat
  matched : Nat
  played  : Nat
  limit   : Nat
  /-- H(i*), in master ticks, once every unmasked site has matched -/
  endAt   : Option Rat
  /-- H of the last play -/
  lastH   : Rat
  deriving DecidableEq, Repr

/-- Why a sequencer halts (R142, R146, R171, R194, R207, R217). -/
inductive HaltWhy where
  /-- a HALT line -/
  | line
  /-- a reaction or a lost lock -/
  | fault
  /-- a command or a reaction that ends the RUN (R256) -/
  | command
  /-- a program error (R171) -/
  | program
  /-- STREAM_RANGE (R207) -/
  | range
  /-- STREAM_UNDERRUN (R217) -/
  | underrun
  /-- a SYNCW time-out (R194) -/
  | sync
  deriving DecidableEq, Repr

/-- One sequencer beyond its registers. -/
structure Seq where
  /-- the RUN whose step it runs, by fetch number -/
  run      : Option Nat
  step     : Nat
  loops    : List LoopLvl
  calls    : List CallLvl
  queue    : List FLine
  next     : LRef
  stop     : FetchStop
  /-- a program error met by the fetch: cause and line (R171) -/
  err      : Option (Nat × Nat)
  /-- own ticks since the step's start, and the absolute start of the next vector in 1/4096 master periods -/
  tick     : Nat
  pos      : Rat
  /-- timing set in force (R145) -/
  tsi      : Nat
  /-- the play in progress: its start and its CE bit (R283) -/
  playPos  : Rat
  ce       : Bool
  /-- vectors issued in the step (plays and fills), which numbers the driver events -/
  serial   : Nat
  masked   : Nat
  failSeen : Nat
  mtch     : Option MatchSt
  /-- the last MATCH of the step: matched every site, masked a site (R177) -/
  matchOk  : Bool
  matchTo  : Bool
  /-- sites masked by a MATCH timeout (R182) -/
  timedOut : Nat
  /-- markers of the play in progress (R184) -/
  mark     : Nat
  /-- the JMPC line that waits for its fail condition: its line and control word (R180) -/
  jline    : Option (LRef × Nat)
  /-- the tick after the last strobe of the last vector (R142, R192) -/
  edgeEnd  : Int
  jReq     : Option Nat
  /-- fills go on until this time: H + 8 or B + 8 (R180, R181) -/
  fillTo   : Rat
  haltReq  : Option HaltWhy
  why      : HaltWhy
  /-- sites unmasked when it halted -/
  haltSites : Nat
  endPos   : Rat
  vgen     : Nat
  stalls   : Nat
  stallEv  : Bool
  /-- it plays stall fill vectors (R215), and the end of their time limit (mclk) (R217) -/
  stall    : Bool
  stallEnd : Option Nat
  /-- TB at which the SYNCW wait ends, once the event has arrived (R193) -/
  syncT    : Option Nat
  /-- end of the SYNCW wait's time limit (mclk) -/
  syncEnd  : Option Nat
  startTb  : Nat
  /-- TB at which it halted -/
  endTb    : Nat
  deriving DecidableEq, Repr

/-- A slot of a stream window (R201, R210, R211). -/
inductive SlotSt where
  | empty
  /-- a refill read is on its way; true: the second read -/
  | reading (again : Bool)
  | ready
  | broken
  deriving DecidableEq, Repr

/-- One slot: its chunk, state, and whether a line of it has been fetched since it was loaded (R213). -/
structure Slot where
  chunk : Nat
  st    : SlotSt
  used  : Bool
  vgen  : Nat
  deriving DecidableEq, Repr

/-- One stream beyond its registers (R199 to R218). -/
structure Strm where
  chunkMb  : Nat
  slotsN   : Nat
  stallMax : Nat
  dir      : List DirEntry
  slots    : Tab Slot
  /-- stream position (R204) -/
  pos      : Nat
  /-- the STREAM_ATTACH that waits for its preload -/
  attach   : Option Work
  /-- chunk reads of the last 1 ms: mclk and bytes (R212) -/
  reads    : List (Nat × Nat)
  deriving DecidableEq, Repr

/-- One acquisition unit beyond its registers (R269 to R294). -/
structure Au where
  /-- records finalised since PORST (R297) -/
  seqNo   : Nat
  /-- where the slot of the last finalised record begins (R329) -/
  lastRec : Nat
  /-- the settled record: slot size in bytes, slots, P and Q (R269, R270) -/
  slotSz  : Nat
  slotsN  : Nat
  pre     : Nat
  post    : Nat
  preRed  : Bool
  drained : Bool
  /-- records still to take in this arming; none: no limit (R276) -/
  left    : Option Nat
  armTb   : Nat
  /-- mclk at which it last became ready (R271) -/
  readyAt : Nat
  /-- end of the last record's last sample in this arming (mclk) (R278) -/
  lastEnd : Option Nat
  dead    : Nat
  missed  : Nat
  missEv  : Bool
  /-- end of the re-arm time or the sweep settle time (mclk) -/
  waitTo  : Nat
  /-- a MARKER, TRIG_IN, SEG or SOFTWARE event that waits for its trigger sample: its time in ticks (R282) -/
  ev      : Option Nat
  /-- the trigger sample's time in ticks -/
  trigAt  : Nat
  /-- pre-trigger samples of the record in progress, oldest first -/
  preS    : List (List Nat)
  preShort : Bool
  noConv  : Bool
  loss    : Nat
  /-- soft values of the passes so far (R292) -/
  soft    : List (List Nat)
  /-- passes taken -/
  passes  : Nat
  /-- TMU results received since it became ready (R311) -/
  tmuS    : List (List Nat)
  /-- measure mode and range of each channel of an ADC source when the record triggered (R284) -/
  units   : List (Nat × Nat)
  /-- the RUN and step that armed it (R276) -/
  run     : Option Nat
  step    : Nat
  /-- end of the WAIT time (mclk) (R290) -/
  waitEnd : Option Nat
  /-- drain blocks that wait in the allocation for the host ring (R274) -/
  fifo    : List Nat
  /-- jobs that hold a view of a record: the record counter value of each (R330) -/
  holds   : List Nat
  /-- a release that waits for the holding jobs (R330) -/
  relTo   : Option Nat
  deriving DecidableEq, Repr

/-- One TMU beyond its registers (R302 to R316). -/
structure Tmu where
  run     : Option Nat
  step    : Nat
  armTb   : Nat
  /-- calibrations failed in this arming (R306) -/
  fails   : Nat
  /-- gain and offset of the start and the stop interpolator, the offset in ps (R304) -/
  gS      : Rat
  oS      : Rat
  gP      : Rat
  oP      : Rat
  /-- path delays and deskews of the two inputs in force at the arming, in units of 62.5 fs (R300, R440) -/
  pathS   : Rat
  pathP   : Rat
  /-- REFCLK was missing or SYS not locked since the calibration began (R312) -/
  dirty   : Bool
  sum     : Int
  sumSq   : Int
  minV    : Int
  maxV    : Int
  /-- the sample time-out ends here (mclk) (R309) -/
  toEnd   : Option Nat
  deriving DecidableEq, Repr

/-- A view of a DSP job (R329): kind, AU, record flags, PRE_ACT, slots per sample time, and where its elements lie. -/
structure View where
  kind  : Nat
  au    : Nat
  trunc : Bool
  flags : Nat
  pre   : Nat
  nch   : Nat
  /-- AU record and ledger: the first byte of the samples or the first entry's index -/
  base  : Nat
  /-- AU record: bits of an element; signed elements (TMU) -/
  bits  : Nat
  sgn   : Bool
  count : Nat
  deriving DecidableEq, Repr

/-- A DSP job (R328 to R334). -/
structure Job where
  run    : Option Nat
  step   : Nat
  ppmu   : Bool
  site   : Nat
  ch     : Nat
  unit   : Nat
  /-- result index of the job's first result, and the number of its results -/
  j      : Nat
  n      : Nat
  jobNo  : Nat
  test   : Nat
  kid    : Nat
  engines : Nat
  params : List Int
  /-- what its views ask for: kind and AU -/
  asks   : List (Nat × Nat)
  /-- the corrected samples of a PPMU job -/
  samples : List Int
  startTb : Nat
  /-- TB of dispatch and the AU records held -/
  views  : List View
  deriving DecidableEq, Repr

/-- A kernel image on its way into an engine (R340). -/
structure KLoad where
  work   : Nat
  image  : List Byte
  deriving DecidableEq, Repr

/-- One DSP engine beyond its control registers: the registers of R321 by their codes of R361, and the image. -/
structure Dse where
  rf     : Tab Nat
  pc     : Nat
  /-- repetitions left of the instruction at pc (R370) -/
  rep    : Option Nat
  cycles : Nat
  /-- per view, the element read last (R327) -/
  lastV  : List (Nat × Nat)
  job    : Option Job
  /-- ready PPMU jobs, in order (R334) -/
  queue  : List Job
  code   : Nat
  entry  : Nat
  nres   : Nat
  mode   : Nat
  limit  : Nat
  load   : Option KLoad
  /-- it was QUIESCED when the load began -/
  wasQ   : Bool
  deriving DecidableEq, Repr

/-- A calibration run (R443 to R447). -/
structure CalRun where
  work    : Work
  op      : Nat
  sectors : Nat
  items   : Nat
  point   : Nat
  resel   : Bool
  /-- (channel, item) steps still to do, per sector in order -/
  todo    : List (Nat × Nat)
  aborted : Nat
  status  : Nat
  deriving DecidableEq, Repr

/-- Gnomon beyond its registers (R429 to R452). -/
structure CalSt where
  /-- coefficients and fall-back entries by channel, item, index and point, in units of 2^-16 -/
  coefs   : Tab Int
  /-- values in force, by channel, item and index -/
  force   : Tab Rat
  /-- temperature of the values in force and of the pending values, by sector, in 1/64 °C -/
  usedT   : Tab Rat
  pendT   : Tab Rat
  /-- sectors whose CAL_TEMP_LAG has been raised in the step (R440) -/
  lagged  : Nat
  /-- end of the recomputation period (mclk) -/
  due     : Nat
  runs    : List CalRun
  /-- STORE runs: the first is in progress, the others wait (R449) -/
  stores  : List Work
  /-- the bank that a STORE writes, and the generation that the STORE in progress gives it -/
  bank    : Nat
  gen     : Nat
  deriving DecidableEq, Repr

/-- What a ledger entry says before it is packed into its 32 bytes (R243). -/
structure Ent where
  testNum : Nat
  value   : Int
  result  : Nat
  flags   : Nat
  startTb : Nat
  endTb   : Nat
  site    : Nat
  kind    : Nat
  reading : Nat
  step    : Nat
  deriving DecidableEq, Repr

/-- One result of the step in progress (R223, R238). -/
structure Res where
  site     : Nat
  j        : Nat
  /-- what forms it: the channel (PPMU, contact check), 4 × TMU + statistic, 4 × AU + slot, kernel result (DSP),
  sequencer (PATTERN) -/
  unit     : Nat
  begun    : Bool
  startTb  : Nat
  /-- PPMU: the settle time has ended; the mclk at which the reading in progress began; COMPL was set
  at a sample of it (R99, R102) -/
  settled  : Bool
  t0       : Nat
  /-- TB at which the reading in progress began (R238) -/
  rdTb     : Nat
  compl    : Bool
  /-- ADC codes taken for the reading in progress, newest first -/
  samples  : List Nat
  /-- readings of a repeat: value and code, newest first (R238) -/
  readings : List (Int × Nat)
  /-- further readings still to take -/
  left     : Nat
  flags    : Nat
  /-- reading entries, oldest first -/
  ents     : List Ent
  /-- the final entry -/
  fin      : Option Ent
  /-- entries that follow the final entry: STALL_COUNT, FIRST_FAIL (R245) -/
  post     : List Ent
  /-- its entries are in the ledger -/
  written  : Bool
  deriving DecidableEq, Repr

/-- A mark of the downgrade rule: every entry of the sites with END_TB at or after `since` carries INTEGRITY (R252). -/
structure Mark where
  sites : Nat
  since : Nat
  deriving DecidableEq, Repr

/-- The phases of an open RUN (R32 to R37, R535). -/
inductive Phase where
  /-- the contact check runs (R35) -/
  | contact
  /-- the step with index `k` is due and has not started (R33) -/
  | due
  /-- the step with index `k` runs -/
  | running
  /-- the close guard runs (R36) -/
  | guard
  /-- the close waits for the Almanac (R383) -/
  | almWait
  deriving DecidableEq, Repr

/-- A verdict on its way to the close entry (R250, R251). -/
structure Verdict where
  site    : Nat
  result  : Nat
  testNum : Nat
  bin     : Nat
  reason  : Nat
  flags   : Nat
  deriving DecidableEq, Repr

/-- An open RUN, or a frozen one on its way to the completion record (R37, R535). -/
structure OpenRun where
  id        : Nat
  q         : Nat
  cid       : Nat
  td        : Nat
  sites     : Nat
  stepCount : Nat
  startStep : Nat
  prior     : Nat
  passBin   : Nat
  retestBin : Nat
  steps     : List StepData
  hdr       : Nat
  startTb   : Nat
  phase     : Phase
  k         : Nat
  /-- mclk at which the step became due (R33) -/
  dueAt     : Nat
  /-- contact-check readings are taken at this mclk (R105) -/
  ccAt      : Nat
  /-- the next step starts no earlier than this mclk (R440) -/
  startAt   : Nat
  /-- the step in progress waits for the reload of its streams (R213) -/
  reloading : Bool
  /-- PLLs whose lock attempt in progress the due step waits for, each with the number of that attempt (R620) -/
  pllWait   : List (Nat × Nat)
  res       : List Res
  /-- sites masked for every later step (R35, R228, R229, R260) -/
  masked    : Nat
  /-- sites masked by R260 whose verdict is RETEST, INCOMPLETE -/
  carryBad  : Nat
  /-- steps 1 to k − 1 counted as completed for the progress word (R257) -/
  progress  : Nat
  /-- a step has been cut off: the progress word stands (R257) -/
  cut       : Bool
  aborted   : Bool
  partialE  : Bool
  underrun  : Bool
  marks     : List Mark
  /-- LED_PEND bits found at the open (R254) -/
  pend      : Nat
  /-- ring index of each site's test 0 entry -/
  first     : List (Nat × Nat)
  /-- entries reserved in each site's ring and not yet used (R246) -/
  reserve   : List (Nat × Nat)
  latestEnd : Nat
  guardEnd  : Nat
  verdicts  : List Verdict
  /-- largest FV settle time in force so far, µs (R459) -/
  maxSettle : Nat
  /-- sites that dropped a fail-log entry in the step (R235) -/
  flogDrop  : Nat
  /-- host steps each site was used by and not masked for, without a final entry yet (R250 rule 6) -/
  missing   : List (Nat × Nat)
  /-- R535: 0 no MIRROR sent, 1 MIRROR sent, 2 INTENT sent, 3 INTENT_ACK received and its record held; and the SEQ of the last MIRROR message -/
  mirSt     : Nat
  mirSeq    : Nat
  /-- a TAKEN package completes it with TWIN_HELD (R540) -/
  twinHeld  : Bool
  deriving DecidableEq, Repr

/-- A fail-log area of one site (R235). -/
structure FailLog where
  /-- pool blocks granted, in order of grant -/
  blocks : List Nat
  deriving DecidableEq, Repr

/-- The ledger beyond its registers. -/
structure LedSt where
  flogs     : Tab FailLog
  /-- pool blocks in use -/
  poolUsed  : List Nat
  /-- fail-log queue fill of each edge die: entries and the mclk at which that fill held (R234) -/
  queue     : Tab (Nat × Nat)
  /-- TB of the last write that changed a SITE_MAP register (R258); none since PORST -/
  mapTb     : Option Nat
  /-- touchdowns that closed frozen: header index and each site's first entry and end index (R258, R248) -/
  frozen    : List (Nat × List (Nat × Nat × Nat))
  /-- entries written to each site's ring since PORST; under 64 the headers (R498) -/
  wrote     : Tab Nat
  deriving DecidableEq, Repr

/-- A reliable message sent and not yet acknowledged (R528). -/
structure TwinMsg where
  seq     : Nat
  kind    : Nat
  payload : List Byte
  /-- mclk by which it must be acknowledged -/
  due     : Nat
  deriving DecidableEq, Repr

/-- Where a takeover stands (R539). -/
inductive TakePhase where
  | none
  /-- it waits for the shared Transit bus -/
  | bus
  /-- it waits for TAKEN and the last messages -/
  | wait
  deriving DecidableEq, Repr

/-- The twin interface beyond its registers. -/
structure TwinSt where
  /-- the partner's SEQ_FLAG of each sequencer, as last received (R531) -/
  flags   : Tab Nat
  /-- the number of the next reliable message, and of the next one accepted (R528) -/
  txSeq   : Nat
  rxSeq   : Nat
  /-- reliable messages sent and not acknowledged, oldest first, and when the oldest is to be acknowledged (mclk) -/
  unacked : List TwinMsg
  retxAt  : Nat
  /-- mclk at which the next HEARTBEAT is sent, and the last valid one arrived (R529) -/
  hbSend  : Nat
  hbArr   : Nat
  /-- the partner's send TB and the own arrival TB of the last HEARTBEAT received since the link came up (R530) -/
  hbLast  : Option (Nat × Nat)
  /-- the last 16 delays and offsets, twice their value in master periods, newest first (R530) -/
  delays  : List Int
  offsets : List Int
  /-- START_READY held for each sequencer: the own ready TB and the partner's (R532) -/
  readyO  : Tab (Option Nat)
  readyP  : Tab (Option Nat)
  /-- end of role B's delay after the loss of the link (mclk) (R538) -/
  delayAt : Option Nat
  take    : TakePhase
  /-- end of the wait of the takeover's phase (mclk) -/
  takeEnd : Nat
  /-- TAKEN has been received in this takeover -/
  taken   : Bool
  /-- frozen RUNs that the close has not yet completed: their verdicts are on the way to the twin (R535, R536) -/
  closing : List OpenRun
  /-- end of HOST_LOSS (mclk), while the host link is down (R538) -/
  lossAt  : Option Nat
  /-- what OPEN said of the RUN in a mirror slot: slot, SITES, START_TB, RETEST_BIN (R527) -/
  opens   : List (Nat × Nat × Nat × Nat)
  /-- TAKEN is still to be sent: the package became TAKEN and a RUN that it ends is still open (R540) -/
  owesTaken : Bool
  deriving DecidableEq, Repr

/-- One Almanac entry beyond its configuration words (R376 to R392). Codes: 0 UNDER, 1 to 1,024 the bins, 1,025 OVER. -/
structure AlmEnt where
  /-- the test number, LO_S and HI_S that the components were collected under (R392) -/
  key    : Nat × Int × Int
  /-- the own window, oldest code first -/
  win    : List Nat
  /-- twin and external components: count by code -/
  twin   : Tab Nat
  ext    : Tab Nat
  ocount : Nat
  mref   : Rat
  /-- values added since MREF was last set (R388) -/
  since  : Nat
  /-- it has stopped being WARMING -/
  warmed : Bool
  /-- partner data refused since the link came up (R390) -/
  range  : Bool
  deriving DecidableEq, Repr

/-- A PAT_UPDATE that waits for a close boundary (R394). -/
structure PatWait where
  work  : Work
  op    : Nat
  comp  : Nat
  count : Nat
  out   : Nat
  data  : List Byte
  deriving DecidableEq, Repr

/-- Partner data that wait for a close boundary (R389). -/
inductive AlmRx where
  | full (cs : List AlmComponent)
  | delta (ds : List AlmDelta)
  deriving DecidableEq, Repr

/-- The Almanac beyond its registers. -/
structure AlmSt where
  ents   : Tab AlmEnt
  /-- RUNs whose close waits, by fetch number, in the order of service (R383) -/
  queue  : List Nat
  /-- the close that has been checked and whose values are still to be added: its touchdown; entry and code, in order of entry
  (R386) -/
  adding : Option (Nat × List (Nat × Nat))
  pats   : List PatWait
  rx     : List AlmRx
  /-- the entries as the view shows them (R619) -/
  view   : Tab AlmEnt
  /-- `ALM_HSEL` as the logic holds it (R579) -/
  hsel   : Nat
  deriving DecidableEq, Repr

/-- The Transit port beyond its registers. -/
structure TpSt where
  /-- another master holds TP_BUSY_N low -/
  busyLow : Bool
  /-- start of the idle window that runs (mclk) (R547) -/
  winAt   : Option Nat
  /-- end of the arbitration's time limit (mclk) (R547) -/
  toAt    : Option Nat
  /-- a takeover claims the bus (R549), and the start of its idle window (mclk) -/
  claim   : Bool
  clAt    : Option Nat
  /-- mclk at which each select last went high (R554) -/
  selUp   : Tab Nat
  /-- mclk at which the first phase clock of the transfer begins -/
  began   : Nat
  deriving DecidableEq, Repr

/-- The device: everything that a PORST resets. -/
structure Dev where
  /-- timebase TB (R408), 64 bits, and its 32 fractional bits in standby -/
  tb      : Nat
  tbFrac  : Nat
  /-- master periods (or their equivalent in standby) since reset; the deadlines of timers count in these -/
  mclk    : Nat
  /-- counts the open values taken so far (the model's own) -/
  freeCtr : Nat
  regs    : Tab Word
  /-- shadow copies that wait for a commit (R7), by address -/
  shadow  : Tab (Option Word)
  /-- live writes held for their boundary, oldest first: address and value (R6) -/
  held    : List (Nat × Nat)
  /-- values that an edge die holds in place of the register's, after a lost write (R24) -/
  edgeOld : Tab (Option Word)
  sram    : Tab Byte
  out     : List Output
  host    : HostSt
  fcu     : FcuSt
  pwr     : PwrSt
  clk     : ClkSt
  plls    : Tab PllSt
  chans   : Tab Chan
  dies    : Tab Die
  seqs    : Tab Seq
  strms   : Tab Strm
  /-- levels of TRIG_IN (R282) -/
  trigIn  : Nat
  twin    : TwinSt
  alm     : AlmSt
  tp      : TpSt
  runs    : List OpenRun
  led     : LedSt
  aus     : Tab Au
  tmus    : Tab Tmu
  dses    : Tab Dse
  /-- DSP jobs listed and not yet dispatched, in list order (R333) -/
  jobs    : List Job
  cal     : CalSt
  /-- the governor admits again at this mclk (R116) -/
  admitAt : Option Nat
  deriving DecidableEq, Repr

/-! What the units hold at reset. -/

/-- A checker that has reported nothing (R466). -/
def Checker.init : Checker := { count := 0, isOpen := false, winEnd := 0, severe := false }

/-- A PLL that is OFF and holds no lock average (R411). -/
def PllSt.init : PllSt :=
  { avg := false, fails := 0, toAt := 0, lockHz := 0, coastAt := 0, coastLen := 0, measured := false, slewing := false,
    freqWait := false, walking := false, rampIdx := 0, rampFrom := 0, rampAt := 0, rampRan := 0, attempt := 0, affected := 0 }

/-- A level DAC at its reset code with no hold (R54, R89). -/
def Dac.init (d : Nat) : Dac := { out := levelReset d, holding := false, holdEnd := 0 }

/-- A driver that is off with internal level VIL (R133). -/
def Drv.init : Drv := { on := false, lvl := false, evs := [], lastT := none, clk := false }

/-- A MATCH-free, idle sequencer with empty stacks (R196). -/
def Seq.init : Seq :=
  { run := none, step := 0, loops := [], calls := [], queue := [], next := ⟨false, 0⟩, stop := .none, err := none,
    tick := 0, pos := 0, tsi := 0, playPos := 0, ce := false, serial := 0, masked := 0, failSeen := 0, mtch := none, matchOk := false,
    matchTo := false, timedOut := 0, mark := 0, jline := none, edgeEnd := 0, jReq := none, fillTo := 0, haltReq := none, why := .line, haltSites := 0,
    endPos := 0, vgen := 0, stalls := 0, stallEv := false, stall := false, stallEnd := none, syncT := none, syncEnd := none,
    startTb := 0, endTb := 0 }

/-- A slot that holds no chunk. -/
def Slot.init : Slot := { chunk := 0, st := .empty, used := false, vgen := 0 }

/-- No stream attached (R218). -/
def Strm.init : Strm :=
  { chunkMb := 1, slotsN := 2, stallMax := 0, dir := [], slots := [], pos := 0, attach := none, reads := [] }

/-- The twin interface after PORST. -/
def TwinSt.init : TwinSt :=
  { flags := [], txSeq := 0, rxSeq := 0, unacked := [], retxAt := 0, hbSend := 0, hbArr := 0, hbLast := none, delays := [],
    offsets := [], readyO := [], readyP := [], delayAt := none, take := .none, takeEnd := 0, taken := false, closing := [], lossAt := none, opens := [],
    owesTaken := false }

/-- An entry with empty components (R392). -/
def AlmEnt.init : AlmEnt :=
  { key := (0, 0, 0), win := [], twin := [], ext := [], ocount := 0, mref := 0, since := 0, warmed := false, range := false }

/-- The Almanac after PORST: every component empty. -/
def AlmSt.init : AlmSt := { ents := [], queue := [], adding := none, pats := [], rx := [], view := [], hsel := 0 }

/-- A channel after PORST: high impedance, nothing in use (R73, R89). -/
def Chan.init : Chan :=
  { loadAt := 0, waitStep := false, waitBound := false, dacs := [], ppmuUse := none, patStep := false, reconAt := none,
    olHold := false, olWait := false, olAt := none, hizAt := none, wfLeft := 0, wfReq := none, wfLate := none, wfEnd := 0, wfRefused := false, conflict := false, drv := Drv.init,
    sweepV := none }

/-- An edge die that no park input holds (R75). -/
def Die.init : Die := { parkOrd := false, parkRail := false, parkP3 := false, parked := false, inUse := false, crcHold := 0, lastWr := none }

/-- A fail log with no pool block (R235). -/
def FailLog.init : FailLog := { blocks := [] }

/-- The host interface after PERST: every ring disabled, nothing fetched (R569). MSI-X vectors stand masked, as PCI Express
resets them. -/
def HostSt.init : HostSt :=
  { fetchNo := 0, rr := 0, waiting := [], work := [], held := [], fences := [], cfgs := [], evSeq := [], evBuf := [],
    eqSeen := false, dropped := 0, dropTb := 0, msgSent := [], vecMask := BitVec.allOnes 64, vecPend := 0,
    latchHost := 0, latchHkc := 0 }

/-- The FCU after PORST (R480). -/
def FcuSt.init : FcuSt :=
  { raised := [], checkers := [], minwEnd := 0, released := false, injSrc := 0, injChk := 0, injFull := false,
    wireBad := [], live := [], firstKey := none }

/-- Power and firmware after PORST_N has risen, before the HKC has booted (R571). -/
def PwrSt.init : PwrSt :=
  { booted := false, porstLow := false, tapPark := false, hkcReady := false, noImage := false, ramp := .none,
    rampEnd := 0, rampDone := false, idleAt := 0, wakeWhy := 0, parkIn := false, refLostInStandby := false,
    heldWrites := [], stopWords := [], fwSwitch := none, flashOps := [], quiesce := 0 }

/-- The clock block after PORST. -/
def ClkSt.init : ClkSt := { alignForce := false }

/-- The Transit port after PORST. -/
def TpSt.init : TpSt := { busyLow := false, winAt := none, toAt := none, claim := false, clAt := none, selUp := [], began := 0 }

/-- The ledger after PORST: every ring empty, the pool free (R617, R263). -/
def LedSt.init : LedSt := { flogs := [], poolUsed := [], queue := [], mapTb := none, frozen := [], wrote := [] }

/-- An AU that has taken no record. -/
def Au.init : Au :=
  { seqNo := 0, lastRec := 0, slotSz := 64, slotsN := 0, pre := 0, post := 1, preRed := false, drained := false, left := none, armTb := 0,
    readyAt := 0, lastEnd := none, dead := 0, missed := 0, missEv := false, waitTo := 0, ev := none, trigAt := 0, preS := [],
    preShort := false, noConv := false, loss := 0, soft := [], passes := 0, tmuS := [], units := [], run := none,
    step := 0xFFFF, waitEnd := none, fifo := [], holds := [], relTo := none }

/-- A TMU that has taken no sample. -/
def Tmu.init : Tmu :=
  { run := none, step := 0xFFFF, armTb := 0, fails := 0, gS := 1, oS := 0, gP := 1, oP := 0,
    pathS := 0, pathP := 0, dirty := false, sum := 0, sumSq := 0, minV := 0,
    maxV := 0, toEnd := none }

/-- An engine that holds no kernel (R352). -/
def Dse.init : Dse :=
  { rf := [], pc := 0, rep := none, cycles := 0, lastV := [], job := none, queue := [], code := 0, entry := 0, nres := 0,
    mode := 0, limit := 0, load := none, wasQ := false }

/-- Gnomon before the boot has loaded a bank (R450). -/
def CalSt.init : CalSt :=
  { coefs := [], force := [], usedT := [], pendT := [], lagged := 0, due := 0, runs := [], stores := [], bank := 1, gen := 0 }

/-- The device after PORST_N has risen (R568, R597): every register at its reset value, SRAM as R617 initialises it. -/
def Dev.init : Dev :=
  { tb := 0, tbFrac := 0, mclk := 0, freeCtr := 0, regs := [], shadow := [], held := [], edgeOld := [], sram := [],
    out := [], host := HostSt.init, fcu := FcuSt.init, pwr := PwrSt.init, clk := ClkSt.init, plls := [], chans := [],
    dies := [], seqs := [], strms := [], trigIn := 0, twin := TwinSt.init, alm := AlmSt.init, tp := TpSt.init, runs := [], led := LedSt.init,
    aus := [], tmus := [], dses := [], jobs := [], cal := CalSt.init, admitAt := none }

/-- What stays without power: the flash bytes (an unlisted byte reads as erased), and the version that the header of each firmware
image states, whose place in the image the manual does not give (R580, R581). -/
structure NonVol where
  flash : Tab Byte
  vers  : Tab Nat
  deriving DecidableEq, Repr

/-- What a flash byte that nothing has written reads as: erased. -/
def flashDefault (_ : Nat) : Byte := 0xFF

/-- A flash with nothing written. -/
def NonVol.init : NonVol := { flash := [], vers := [] }

/-- The block: the commands that wait, oldest first, the flash and the device. -/
structure State where
  pending : List Instr
  nv      : NonVol
  dev     : Dev
  deriving DecidableEq, Repr

/-- The machine right after reset: PORST_N has risen and the HKC has not yet booted; no command waits. -/
def State.reset : State := { pending := [], nv := NonVol.init, dev := Dev.init }

end Sys2Proof.Machine
end

