-- ==== Sys2Proof/Machine/Ops.lean ====
section
/-!
DEFINITION. The named operations every command is written with: register fields, SRAM bytes, time, units, the site map,
events (R516 to R519), completion records (R488, R489), MSI-X (R515), error reports (R455 to R459) and the ledger rings.
-/

namespace Sys2Proof.Machine

/-! ## Register words and fields -/

/-- A register word as it stands. -/
def Dev.word (d : Dev) (a : Nat) : Word := Tab.get regReset d.regs a

/-- A register word replaced. -/
def Dev.setWord (d : Dev) (a : Nat) (v : Word) : Dev := { d with regs := Tab.set regReset d.regs a v }

/-- A field as it stands. -/
def Dev.get (d : Dev) (f : Fld) : Nat := bitsOf (d.word f.addr).toNat f.lo f.w

/-- A field replaced. -/
def Dev.put (d : Dev) (f : Fld) (v : Nat) : Dev :=
  d.setWord f.addr (BitVec.ofNat 32 (putBits (d.word f.addr).toNat f.lo f.w v))

/-- A field set to 1 or 0. -/
def Dev.putB (d : Dev) (f : Fld) (b : Bool) : Dev := d.put f b.toNat

/-- A one-bit field read as a truth value. -/
def Dev.is (d : Dev) (f : Fld) : Bool := d.get f == 1

/-- A counter field that saturates at its widest value. -/
def Dev.addSat (d : Dev) (f : Fld) (n : Nat) : Dev := d.put f (satAdd f.w (d.get f) n)

/-- A counter field counted up by one, saturating. -/
def Dev.bump (d : Dev) (f : Fld) : Dev := d.addSat f 1

/-- A field that lies on an edge die, as the die holds it: a lost write leaves the old value there (R24). -/
def Dev.eget (d : Dev) (f : Fld) : Nat :=
  match Tab.get (fun _ => none) d.edgeOld f.addr with
  | some w => bitsOf w.toNat f.lo f.w
  | none => d.get f

/-- A one-bit field as the edge die holds it. -/
def Dev.eis (d : Dev) (f : Fld) : Bool := d.eget f == 1

/-- A 64-bit value held in two words. -/
def Dev.get2 (d : Dev) (lo hi : Fld) : Nat := d.get lo + 2 ^ lo.w * d.get hi

/-- A value that spans two words replaced. -/
def Dev.put2 (d : Dev) (lo hi : Fld) (v : Nat) : Dev := (d.put lo (v % 2 ^ lo.w)).put hi (v / 2 ^ lo.w)

/-! ## SRAM -/

/-- What an SRAM byte that nothing has written since PORST reads as: 0, but for the line check of every vector memory line,
whose bits [21:0] are 0x3F_FFFF (R617). -/
def sramDefault (a : Nat) : Byte :=
  if a < 0xC000000 then
    match a % 64 with
    | 60 => 0xFF
    | 61 => 0xFF
    | 62 => 0x3F
    | _ => 0
  else 0

/-- The canonical form of a byte memory. -/
def Memory.wf (dflt : Nat → Byte) (m : Tab Byte) : Bool := Tab.wf dflt m

/-- One SRAM byte. -/
def Dev.byte (d : Dev) (a : Nat) : Byte := Tab.get sramDefault d.sram a

/-- `n` SRAM bytes as a number, the lowest address least significant (R2). -/
def Dev.ld (d : Dev) (a n : Nat) : Nat := ofBytes (Tab.getList sramDefault d.sram a n)

/-- `n` SRAM bytes. -/
def Dev.ldBytes (d : Dev) (a n : Nat) : List Byte := Tab.getList sramDefault d.sram a n

/-- Bytes stored in SRAM. -/
def Dev.stBytes (d : Dev) (a : Nat) (bs : List Byte) : Dev :=
  { d with sram := Tab.setList sramDefault d.sram a bs }

/-- A number stored in `n` SRAM bytes (R2). -/
def Dev.st (d : Dev) (a n v : Nat) : Dev := d.stBytes a (toBytes n v)

/-! ## Units -/

def Dev.chan (d : Dev) (c : Nat) : Chan := Tab.get (fun _ => Chan.init) d.chans c
def Dev.setChan (d : Dev) (c : Nat) (x : Chan) : Dev := { d with chans := Tab.set (fun _ => Chan.init) d.chans c x }
def Dev.die (d : Dev) (e : Nat) : Die := Tab.get (fun _ => Die.init) d.dies e
def Dev.setDie (d : Dev) (e : Nat) (x : Die) : Dev := { d with dies := Tab.set (fun _ => Die.init) d.dies e x }
def Dev.pll (d : Dev) (p : Nat) : PllSt := Tab.get (fun _ => PllSt.init) d.plls p
def Dev.setPll (d : Dev) (p : Nat) (x : PllSt) : Dev := { d with plls := Tab.set (fun _ => PllSt.init) d.plls p x }
def Dev.seq (d : Dev) (s : Nat) : Seq := Tab.get (fun _ => Seq.init) d.seqs s
def Dev.setSeq (d : Dev) (s : Nat) (x : Seq) : Dev := { d with seqs := Tab.set (fun _ => Seq.init) d.seqs s x }
def Dev.strm (d : Dev) (s : Nat) : Strm := Tab.get (fun _ => Strm.init) d.strms s
def Dev.setStrm (d : Dev) (s : Nat) (x : Strm) : Dev := { d with strms := Tab.set (fun _ => Strm.init) d.strms s x }
def Dev.au (d : Dev) (a : Nat) : Au := Tab.get (fun _ => Au.init) d.aus a
def Dev.setAu (d : Dev) (a : Nat) (x : Au) : Dev := { d with aus := Tab.set (fun _ => Au.init) d.aus a x }
def Dev.tmu (d : Dev) (u : Nat) : Tmu := Tab.get (fun _ => Tmu.init) d.tmus u
def Dev.setTmu (d : Dev) (u : Nat) (x : Tmu) : Dev := { d with tmus := Tab.set (fun _ => Tmu.init) d.tmus u x }
def Dev.dse (d : Dev) (e : Nat) : Dse := Tab.get (fun _ => Dse.init) d.dses e
def Dev.setDse (d : Dev) (e : Nat) (x : Dse) : Dev := { d with dses := Tab.set (fun _ => Dse.init) d.dses e x }
def Dev.checker (d : Dev) (k : Nat) : Checker := Tab.get (fun _ => Checker.init) d.fcu.checkers k
def Dev.setChecker (d : Dev) (k : Nat) (x : Checker) : Dev :=
  { d with fcu := { d.fcu with checkers := Tab.set (fun _ => Checker.init) d.fcu.checkers k x } }

/-- A change made for each number of a list, in order. -/
def Dev.forEach (d : Dev) (l : List Nat) (f : Dev → Nat → Dev) : Dev := l.foldl f d

/-- Something the device sends out. -/
def Dev.emit (d : Dev) (o : Output) : Dev := { d with out := o :: d.out }

/-- The next open value's number: each open value of the manual is a fresh opaque constant of Config. -/
def Dev.nextFree (d : Dev) : Dev := { d with freeCtr := d.freeCtr + 1 }

/-! ## Registers on the edge dies (R24, R579) -/

/-- The edge die that holds the register at an address. -/
def edgeOf (a : Nat) : Option Nat := if 0x1000000 ≤ a ∧ a < 0x1200000 then some (a % 0x100000 / 0x40000) else none

/-- A register word as the edge die holds it. -/
def Dev.edgeWord (d : Dev) (a : Nat) : Word :=
  match Tab.get (fun _ => none) d.edgeOld a with
  | some w => w
  | none => d.word a

/-- The edge die takes a word of a register that reads `d.word a`. -/
def Dev.edgeTake (d : Dev) (a : Nat) (w : Word) : Dev :=
  { d with edgeOld := Tab.set (fun _ => none) d.edgeOld a (if d.word a = w then none else some w) }

/-- A write travels to an edge die, whose acknowledgement is awaited (R24). `desc`: the descriptor that caused it. -/
def Dev.toEdge (d : Dev) (a : Nat) (w : Word) (desc : Option Nat) : Dev :=
  match edgeOf a with
  | none => d
  | some e =>
    let old := d.edgeWord a
    let d := d.edgeTake a w
    d.setDie e { d.die e with lastWr := some { addr := a, old := old.toNat, attempts := 0, descId := desc } }

/-- A register takes a value while the clocks run; one on an edge die is sent there. -/
def Dev.storeReg (d : Dev) (a v : Nat) (desc : Option Nat := none) : Dev :=
  let w := BitVec.ofNat 32 v
  match edgeOf a with
  | none => d.setWord a w
  | some e =>
    let old := d.edgeWord a
    let d := (d.setWord a w).edgeTake a w
    d.setDie e { d.die e with lastWr := some { addr := a, old := old.toNat, attempts := 0, descId := desc } }

/-- A write to a register of a stopped block in P2 or P3: stored at once, its effect and its way to the edge die held (R579). -/
def Dev.standbyWrite (d : Dev) (hkc : Bool) (a v : Nat) : Dev :=
  let d := if (edgeOf a).isSome then
      { d with edgeOld := Tab.set (fun _ => none) d.edgeOld a (some (d.edgeWord a)) }
    else d
  let d := d.setWord a (BitVec.ofNat 32 v)
  { d with pwr := { d.pwr with heldWrites := d.pwr.heldWrites ++ [(hkc, a, v)] } }

/-! ## Time -/

/-- Master periods in `n` microseconds (1.5 GHz). -/
def us (n : Nat) : Nat := 1500 * n

/-- `n` master periods pass. -/
def Dev.advance (d : Dev) (n : Nat) : Dev := { d with mclk := d.mclk + n, tb := (d.tb + n) % 2 ^ 64 }

/-- Time passes up to a deadline, unless it has passed already. A command that is the expiry of a timer carries the time to
the timer's end. -/
def Dev.advanceTo (d : Dev) (deadline : Nat) : Dev := d.advance (deadline - d.mclk)

/-- The device runs the fast clocks: P0 or P1 (R574). -/
def Dev.awake (d : Dev) : Bool := d.get pwrState == 0 || d.get pwrState == 1

/-! ## Channels, quads, sectors, dies, sites (R25 to R28) -/

def dieOf (c : Nat) : Nat := c / 64
def sectorOf (c : Nat) : Nat := c / 16
def quadOf (c : Nat) : Nat := c / 4

def allChans : List Nat := List.range 256
def dieChans (e : Nat) : List Nat := (List.range 64).map (· + 64 * e)
def sectorChans (k : Nat) : List Nat := (List.range 16).map (· + 16 * k)

/-- The site of a channel (R27, R263). -/
def Dev.siteOf (d : Dev) (c : Nat) : Option Nat :=
  if d.is (siteMapValid c) then some (d.get (siteMapSite c)) else none

/-- The channels of a site, in ascending order. -/
def Dev.siteChans (d : Dev) (s : Nat) : List Nat := allChans.filter fun c => d.siteOf c == some s

/-- The sites that have a channel in a list, as a mask. -/
def Dev.sitesOfChans (d : Dev) (cs : List Nat) : Nat :=
  cs.foldl (fun m c => match d.siteOf c with
    | some s => m ||| 2 ^ s
    | none => m) 0

def Dev.dieSites (d : Dev) (e : Nat) : Nat := d.sitesOfChans (dieChans e)
def Dev.sectorSites (d : Dev) (k : Nat) : Nat := d.sitesOfChans (sectorChans k)

/-- The quads of a sequencer as a 64-bit mask (R158). -/
def Dev.seqQuads (d : Dev) (s : Nat) : Nat := d.get2 (seqQuadsLo s) (seqQuadsHi s)

/-- The sequencer that owns a quad (R26, R158). -/
def Dev.quadOwner (d : Dev) (q : Nat) : Option Nat := (List.range 16).find? fun s => (d.seqQuads s).testBit q

/-- The sequencer that owns a channel's quad. -/
def Dev.chanSeq (d : Dev) (c : Nat) : Option Nat := d.quadOwner (quadOf c)

/-- The channels of a sequencer, in ascending order. -/
def Dev.seqChans (d : Dev) (s : Nat) : List Nat :=
  let q := d.seqQuads s
  allChans.filter fun c => q.testBit (quadOf c)

/-- The sites of a sequencer: those with a channel that it owns (R160). -/
def Dev.seqSites (d : Dev) (s : Nat) : Nat := d.sitesOfChans (d.seqChans s)

/-- A sector is quiesced (R584). -/
def Dev.quiesced (d : Dev) (k : Nat) : Bool := (d.get pwrQuiesced).testBit k

/-- The site map as the 256 bytes that its hash covers (R249). -/
def Dev.mapBytes (d : Dev) : List Nat := allChans.map fun c => d.get (siteMap c)

/-- The site map hash (R249). -/
def Dev.mapHash (d : Dev) : Nat := crc32 d.mapBytes

/-! ## Open RUNs -/

/-- The open RUN with a touchdown ID. -/
def Dev.findRun (d : Dev) (td : Nat) : Option OpenRun := d.runs.find? fun r => r.td == td

/-- The open RUN that holds a site (at most one, R32). -/
def Dev.runOfSite (d : Dev) (s : Nat) : Option OpenRun := d.runs.find? fun r => r.sites.testBit s

/-- An open RUN replaced. -/
def Dev.setRun (d : Dev) (r : OpenRun) : Dev := { d with runs := d.runs.map fun x => if x.id = r.id then r else x }

/-- A RUN has not reached its close guard. -/
def OpenRun.live (r : OpenRun) : Bool :=
  r.phase == .contact || r.phase == .due || r.phase == .running

/-- Every site of an open RUN that is live, as a mask. -/
def Dev.liveSites (d : Dev) : Nat := d.runs.foldl (fun m r => if r.live then m ||| r.sites else m) 0

/-! ## Events (R515 to R519) -/

/-- Ring entries of a size field: from 16 to 4,096 (R485, R522). -/
def ringSize (log : Nat) : Nat := 2 ^ clampNat 4 12 log

/-- The MSI-X message of a ring after a record has been written: `q` for CQq, 16 for the EQ (R515). -/
def Dev.ringMessage (d : Dev) (ring : Nat) : Dev :=
  let ien := if ring = 16 then d.is eqIen else d.is (cqIen ring)
  let vec := if ring = 16 then d.get eqVector else d.get (cqVector ring)
  if ien && !(d.host.msgSent.contains ring) then
    let h := { d.host with msgSent := ring :: d.host.msgSent }
    if h.vecMask.getLsbD vec then { d with host := { h with vecPend := h.vecPend ||| BitVec.ofNat 64 (2 ^ vec) } }
    else ({ d with host := h }).emit (.msix vec)
  else d

/-- An event record packed with the ring's phase (R516). -/
def EvRec.pack (e : EvRec) (phase : Nat) : Nat :=
  e.src % 2 ^ 12 + 2 ^ 12 * (e.seq % 2 ^ 20) + 2 ^ 32 * (e.code % 2 ^ 16) + 2 ^ 48 * (phase % 2) + 2 ^ 64 * (e.tb % 2 ^ 64)
    + 2 ^ 128 * (e.payload % 2 ^ 128)

/-- Free slots of the EQ (R488). -/
def Dev.eqFree (d : Dev) : Nat :=
  let n := ringSize (d.get eqSizeLog)
  (d.get eqHead + 2 * n - d.get eqTail - 1) % n

/-- A record written at the EQ's tail (R488). -/
def Dev.eqWrite (d : Dev) (e : EvRec) : Dev :=
  let n := ringSize (d.get eqSizeLog)
  let t := d.get eqTail
  let ph := d.get eqPhase
  let d := d.emit (.eqRecord (d.get2 eqBase eqBaseHi + 32 * t) (e.pack ph))
  let d := if t + 1 = n then (d.put eqTail 0).put eqPhase (1 - ph) else d.put eqTail (t + 1)
  d.ringMessage 16

/-- The next event record of a source: its sequence number counts whether the event is written or dropped (R517). -/
def Dev.nextEv (d : Dev) (src code payload : Nat) : Dev × EvRec :=
  let n := Tab.get (fun _ => 0) d.host.evSeq src
  ({ d with host := { d.host with evSeq := Tab.set (fun _ => 0) d.host.evSeq src ((n + 1) % 2 ^ 20) } },
    { src := src, seq := n, code := code, tb := d.tb, payload := payload })

/-- `n` events dropped (R518). -/
def Dev.evDrop (d : Dev) (n : Nat) : Dev :=
  let tb0 := if d.host.dropped = 0 then d.tb else d.host.dropTb
  ({ d with host := { d.host with dropped := d.host.dropped + n, dropTb := tb0 } }).addSat eqDrop n

/-- A record goes to the EQ, waits for its first enable, or is dropped (R518, R519). The slot freed first after a drop needs no
keeping: the doorbell that frees it writes the OVERFLOW record. -/
def Dev.evPut (d : Dev) (e : EvRec) : Dev :=
  if !d.host.eqSeen then
    if d.host.evBuf.length < 256 then { d with host := { d.host with evBuf := d.host.evBuf ++ [e] } } else d.evDrop 1
  else if d.is hostEqEn && 0 < d.eqFree then d.eqWrite e
  else d.evDrop 1

/-- An event raised by a source (R516, R517). -/
def Dev.event (d : Dev) (src code payload : Nat) : Dev :=
  let p := d.nextEv src code payload
  p.1.evPut p.2

/-- The OVERFLOW record of the events dropped, once a slot is free (R518). -/
def Dev.evOverflow (d : Dev) : Dev :=
  if d.is hostEqEn && 0 < d.host.dropped && 0 < d.eqFree then
    let p := d.nextEv 0x008 0x0001 (d.host.dropped % 2 ^ 32 + 2 ^ 64 * (d.host.dropTb % 2 ^ 64))
    ({ p.1 with host := { p.1.host with dropped := 0, dropTb := 0 } }).eqWrite p.2
  else d

/-- Two events written together in adjacent slots, or dropped together (R518). -/
def Dev.eventPair (d : Dev) (src code1 pay1 code2 pay2 : Nat) : Dev :=
  let p := d.nextEv src code1 pay1
  let r := p.1.nextEv src code2 pay2
  let d := r.1
  if !d.host.eqSeen then
    if d.host.evBuf.length + 1 < 256 then
      { d with host := { d.host with evBuf := d.host.evBuf ++ [p.2, r.2] } }
    else d.evDrop 2
  else if d.is hostEqEn && 1 < d.eqFree then (d.eqWrite p.2).eqWrite r.2
  else d.evDrop 2

/-! ## Completion records (R488, R489, R503) -/

/-- Status codes (R504). -/
def stOk : Nat := 0
def stPartial : Nat := 1
def stAborted : Nat := 2
def stPrecondition : Nat := 3
def stRange : Nat := 4
def stLocked : Nat := 5
def stIntegrity : Nat := 6
def stUnderrun : Nat := 7
def stNotReady : Nat := 8
def stTwinHeld : Nat := 9

/-- A CQ has a slot for a record (R488). -/
def Dev.cqHasRoom (d : Dev) (cq : Nat) : Bool :=
  let n := ringSize (d.get (cqSizeLog cq))
  (d.get (cqTail cq) + 1) % n != d.get (cqHead cq)

/-- A completion record packed as it is written (R503). -/
def Comp.pack (c : Comp) (sqHead phase : Nat) : Nat :=
  c.cid % 2 ^ 16 + 2 ^ 16 * (c.opc % 256) + 2 ^ 24 * (c.status % 256) + 2 ^ 32 * (sqHead % 4096 + 4096 * (c.q % 16))
    + 2 ^ 48 * (phase % 2) + 2 ^ 64 * (c.result % 2 ^ 32) + 2 ^ 128 * (c.result64 % 2 ^ 64) + 2 ^ 192 * (c.tb % 2 ^ 64)

/-- A completion record written at its CQ's tail (R488). -/
def Dev.cqWrite (d : Dev) (cq : Nat) (c : Comp) : Dev :=
  let n := ringSize (d.get (cqSizeLog cq))
  let t := d.get (cqTail cq)
  let ph := d.get (cqPhase cq)
  let d := d.emit (.cqRecord cq (d.get2 (cqBase cq) (cqBaseHi cq) + 32 * t) (c.pack (d.get (sqHead c.q)) ph))
  let d := if t + 1 = n then (d.put (cqTail cq) 0).put (cqPhase cq) (1 - ph) else d.put (cqTail cq) (t + 1)
  d.ringMessage cq

/-- The CQ a submission ring posts to (R485). -/
def Dev.cqOf (d : Dev) (q : Nat) : Nat := d.get (sqCq q)

/-- The CQ is enabled. -/
def Dev.cqOn (d : Dev) (cq : Nat) : Bool := (d.get hostCqEn).testBit cq

/-- A record is held for a CQ (R489). -/
def Dev.cqHeld (d : Dev) (cq : Nat) : Bool := d.host.held.any fun c => d.cqOf c.q == cq

/-- A completion record is written, held while its CQ is full, or discarded when its CQ is disabled (R489). -/
def Dev.postComp (d : Dev) (c : Comp) : Dev :=
  let cq := d.cqOf c.q
  if !d.cqOn cq then d
  else if !d.cqHeld cq && d.cqHasRoom cq then d.cqWrite cq c
  else { d with host := { d.host with held := d.host.held ++ [c] } }

/-- The held records of a CQ that now fit are written, in order (R489). -/
def Dev.flushHeld (d : Dev) (cq : Nat) : List Comp → Dev
  | [] => d
  | c :: cs =>
    if d.cqOf c.q = cq ∧ d.cqHasRoom cq = true then
      Dev.flushHeld ({ d with host := { d.host with held := d.host.held.filter fun x => x.id != c.id } }.cqWrite cq c) cq cs
    else Dev.flushHeld d cq cs

/-- A descriptor completes: it leaves the work in progress, its SQ may go on, and its record is posted (R489, R491). -/
def Dev.complete (d : Dev) (w : Work) (status result result64 : Nat) : Dev :=
  let h := d.host
  let wait := match Tab.get (fun _ => none) h.waiting w.q with
    | some f => if f.id = w.id then Tab.set (fun _ => none) h.waiting w.q none else h.waiting
    | none => h.waiting
  let d := { d with host := { h with waiting := wait, work := h.work.filter fun x => x.id != w.id } }
  d.postComp
    { id := w.id, q := w.q, cid := w.cid, opc := w.opc, status := status, result := result, result64 := result64,
      tb := d.tb }

/-- A descriptor is accepted: its work goes on, and its SQ may fetch the next one (R491). -/
def Dev.accept (d : Dev) (w : Work) : Dev :=
  match Tab.get (fun _ => none) d.host.waiting w.q with
  | some f =>
    if f.id = w.id then { d with host := { d.host with waiting := Tab.set (fun _ => none) d.host.waiting w.q none } } else d
  | none => d

/-! ## Error reports (R455 to R459) -/

/-- Sources of events and faults. -/
def srcHkc : Nat := 0x000
def srcPwr : Nat := 0x001
def srcPll (p : Nat) : Nat := 0x002 + p
def srcHost : Nat := 0x008
def srcMer : Nat := 0x009
def srcTp : Nat := 0x00A
def srcCal : Nat := 0x00B
def srcAlm : Nat := 0x00C
def srcFcu : Nat := 0x00D
def srcSeq (s : Nat) : Nat := 0x010 + s
def srcAu (a : Nat) : Nat := 0x020 + a
def srcTmu (u : Nat) : Nat := 0x040 + u
def srcDse (e : Nat) : Nat := 0x080 + e
def srcDie (e : Nat) : Nat := 0x090 + e
def srcChan (c : Nat) : Nat := 0x100 + c

/-- The key of a checker. -/
def chkKey (src chk : Nat) : Nat := 16 * src + chk

/-- A report reaches the collector, unless the checker's wire pair has failed (R457). A level condition stays on record
while it lasts (R465). -/
def Dev.raise (d : Dev) (r : Report) : Dev :=
  let k := chkKey r.src r.chk
  let live := if r.level && !(d.fcu.live.contains (k, r.cls)) then (k, r.cls) :: d.fcu.live else d.fcu.live
  let raised := if d.fcu.wireBad.contains k then d.fcu.raised else d.fcu.raised ++ [r]
  { d with fcu := { d.fcu with live := live, raised := raised } }

/-- A level condition ends (R465). -/
def Dev.condEnd (d : Dev) (src chk : Nat) : Dev :=
  { d with fcu := { d.fcu with live := d.fcu.live.filter fun p => p.1 != chkKey src chk } }

/-- Whether a BAR0 write was refused under R10 or a rule that refers to GEN_ERR_LOCKED (R599). -/
def Dev.refuseWrite (d : Dev) (req : Requester) (addr : Nat) : Dev :=
  ((d.bump genErrLocked).put genErrAddr addr).put genErrReq (if req = .hkc then 1 else 0)

end Sys2Proof.Machine
end

