-- ==== Sys2Proof/Machine/Operands.lean ====
section
/-!
DEFINITION. The operand forms of the host interface: descriptors (R493 to R496, R499), test steps (R500, R501), PERCH records,
DSP job entries (R502) and COMMAND words (R508, R509), each read from its bits.
-/

namespace Sys2Proof.Machine

/-! ## Descriptors -/

/-- `w` bits of a descriptor from bit `lo` of byte `b`. -/
def dField (d : Nat) (b lo w : Nat) : Nat := bitsOf d (8 * b + lo) w

def dOpc (d : Nat) : Nat := dField d 0 0 8
def dCid (d : Nat) : Nat := dField d 2 0 16

/-- Opcodes (R495). -/
def opNop : Nat := 0x00
def opWriteVectors : Nat := 0x01
def opRun : Nat := 0x02
def opStreamAttach : Nat := 0x03
def opStreamDetach : Nat := 0x04
def opReadLedger : Nat := 0x05
def opReadCapture : Nat := 0x06
def opReadFaillog : Nat := 0x07
def opLoadKernel : Nat := 0x08
def opConfigBlock : Nat := 0x09
def opCalRun : Nat := 0x0A
def opPatUpdate : Nat := 0x0B
def opFlashRead : Nat := 0x0C
def opFlashWrite : Nat := 0x0D
def opFwStage : Nat := 0x0E
def opFwSwitch : Nat := 0x0F
def opSectorQuiesce : Nat := 0x10
def opSectorResume : Nat := 0x11
def opFence : Nat := 0x12

/-- The bytes of a descriptor that an opcode's row lists (R495): byte ranges, both ends included. -/
def dListed (opc : Nat) : List (Nat × Nat) :=
  match opc with
  | 0x01 => [(8, 8), (12, 15), (16, 19), (24, 31)]
  | 0x02 => [(8, 47)]
  | 0x03 => [(8, 13), (16, 27)]
  | 0x04 => [(8, 8)]
  | 0x05 => [(8, 14), (24, 31)]
  | 0x06 => [(8, 13), (16, 19), (24, 31)]
  | 0x07 => [(8, 8), (12, 19), (24, 31)]
  | 0x08 => [(8, 9), (16, 19), (24, 31)]
  | 0x09 => [(8, 8), (10, 11), (16, 31)]
  | 0x0A => [(8, 10), (12, 22)]
  | 0x0B => [(8, 11), (16, 31)]
  | 0x0C => [(8, 15), (24, 31)]
  | 0x0D => [(8, 15), (24, 31)]
  | 0x0E => [(8, 8), (12, 15), (24, 31)]
  | 0x0F => [(8, 8)]
  | 0x10 => [(8, 10)]
  | 0x11 => [(8, 10)]
  | 0x12 => [(8, 9)]
  | _ => []

/-- Every byte that is neither in the header nor listed is 0, and so are the reserved bytes of the header (R493, R494). -/
def dReservedZero (d : Nat) : Bool :=
  dField d 1 0 8 == 0 && dField d 4 0 32 == 0 &&
    ((List.range 56).all fun i =>
      (dListed (dOpc d)).any (fun r => decide (r.1 ≤ i + 8 ∧ i + 8 ≤ r.2)) || dField d (i + 8) 0 8 == 0)

def isMult (n v : Nat) : Bool := v % n == 0
def inRange (lo hi v : Nat) : Bool := decide (lo ≤ v) && decide (v ≤ hi)

/-- The operands lie in their ranges, the reserved bits of the listed bytes are 0 and the host addresses are aligned
(R494, R495, R496). What depends on the state of the device is judged by the descriptor's own command. -/
def dOperandsOk (d : Nat) : Bool :=
  match dOpc d with
  | 0x01 => dField d 8 4 4 == 0 && dField d 12 25 7 == 0 && inRange 1 (2 ^ 25) (dField d 16 0 32) && isMult 4 (dField d 24 0 64)
  | 0x02 => isMult 64 (dField d 16 0 64) && inRange 1 65535 (dField d 24 0 16)
  | 0x03 => dField d 8 4 4 == 0 && dField d 11 1 7 == 0
  | 0x04 => dField d 8 4 4 == 0
  | 0x05 => decide (dField d 8 0 8 ≤ 1) && dField d 9 6 2 == 0 && inRange 1 4096 (dField d 12 0 16) && dField d 14 1 7 == 0
      && isMult 32 (dField d 24 0 64)
  | 0x06 => dField d 8 5 3 == 0 && dField d 9 1 7 == 0 && inRange 1 65535 (dField d 12 0 16) && isMult 64 (dField d 24 0 64)
  | 0x07 => dField d 8 6 2 == 0 && inRange 1 (2 ^ 20) (dField d 16 0 32) && isMult 16 (dField d 24 0 64)
  | 0x08 => isMult 8 (dField d 24 0 64)
  | 0x09 => decide (dField d 8 0 8 ≤ 2) && inRange 1 4096 (dField d 10 0 16) && isMult 8 (dField d 24 0 64)
  | 0x0A => decide (dField d 8 0 8 ≤ 3) && dField d 9 1 7 == 0 && decide (dField d 10 0 8 ≤ 4) && dField d 14 7 9 == 0
  | 0x0B => decide (dField d 8 0 8 ≤ 3) && dField d 9 3 5 == 0 && inRange 1 4096 (dField d 10 0 16) && isMult 64 (dField d 16 0 64)
      && (dField d 8 0 8 != 2 || isMult 64 (dField d 24 0 64))
  | 0x0C => inRange 1 (8 * 2 ^ 20) (dField d 12 0 32)
  | 0x0D => inRange 1 (8 * 2 ^ 20) (dField d 12 0 32) && isMult 4096 (dField d 8 0 32) && isMult 4096 (dField d 12 0 32)
  | 0x0E => decide (dField d 8 0 8 ≤ 1) && inRange 1 4190208 (dField d 12 0 32) && isMult 4 (dField d 24 0 64)
  | 0x0F => decide (dField d 8 0 8 ≤ 1)
  | 0x10 => dField d 10 1 7 == 0
  | 0x11 => dField d 10 1 7 == 0
  | _ => true

/-- A descriptor that R494 completes with RANGE before anything else. -/
def dMalformed (d : Nat) : Bool := decide (0x12 < dOpc d) || !dReservedZero d || !dOperandsOk d

/-- The opcodes that are served in P2 and P3 without a wake (R40). -/
def dStandby (opc : Nat) : Bool := [opReadLedger, opReadCapture, opReadFaillog, opNop, opFence].contains opc

/-- The opcodes that are served when no firmware image is good (R580). -/
def dNoImage (opc : Nat) : Bool := [opFwStage, opFwSwitch, opFlashRead, opNop, opFence].contains opc


/-! ## Test steps (R500, R501) -/

/-- Step kinds (R222). -/
def kPattern : Nat := 1
def kPpmu : Nat := 2
def kTmu : Nat := 3
def kAcq : Nat := 4
def kDsp : Nat := 5

end Sys2Proof.Machine

namespace Sys2Proof

open Sys2Proof.Machine

/-- `w` bits of a step from bit `lo` of byte `b`. -/
def StepData.field (s : StepData) (b lo w : Nat) : Nat := bitsOf s.raw.toNat (8 * b + lo) w

def StepData.kind (s : StepData) : Nat := s.field 0 0 4
def StepData.stop (s : StepData) : Bool := s.field 0 4 1 == 1
def StepData.loEn (s : StepData) : Bool := s.field 0 5 1 == 1
def StepData.hiEn (s : StepData) : Bool := s.field 0 6 1 == 1
def StepData.guardF (s : StepData) : Nat := s.field 1 0 8
def StepData.repeatM (s : StepData) : Nat := s.field 2 0 4
def StepData.testNum (s : StepData) : Nat := s.field 4 0 32
def StepData.lo (s : StepData) : Int := toSigned 40 (s.field 8 0 40)
def StepData.hi (s : StepData) : Int := toSigned 40 (s.field 13 0 40)
def StepData.failBin (s : StepData) : Nat := s.field 18 0 16

/-- PATTERN: the sequencers named, as a mask. -/
def StepData.seqs (s : StepData) : Nat := s.field 32 0 16

/-- PATTERN: the start line named for a sequencer; none where SEQ_START applies. -/
def StepData.startLine (s : StepData) (q : Nat) : Option Nat :=
  let v := s.field (36 + 4 * q) 0 32
  if v = 0xFFFFFFFF then none else some (v % 2 ^ 25)

/-- PPMU: channel c is used. -/
def StepData.usesChan (s : StepData) (c : Nat) : Bool := s.raw.toNat.testBit (256 + c)

/-- PPMU: bytes 64 to 79 as they stand for a channel: the PERCH record replaces them (R501). -/
def StepData.perchan (s : StepData) (c : Nat) : Nat :=
  if s.field 84 0 64 = 0 then bitsOf s.raw.toNat (8 * 64) 128
  else match s.perch[c]? with
    | some r => r.toNat
    | none => bitsOf s.raw.toNat (8 * 64) 128

/-- PPMU: what the step makes of one channel (R98). -/
def StepData.ppmuUse (s : StepData) (td c : Nat) : PpmuUse :=
  let p := s.perchan c
  { td := td, force := bitsOf p 0 2, meas := bitsOf p 2 1, range := bitsOf p 3 3, wf := bitsOf p 6 1 == 1,
    iclamp := bitsOf p 8 7, code := bitsOf p 16 16, vhi := bitsOf p 32 16, vlo := bitsOf p 48 16, settle := bitsOf p 64 32,
    samples := bitsOf p 96 32, engine := s.field 80 0 4, kid := s.field 82 0 16 }

/-- PPMU: the mode byte of a channel holds FORCE 0b11 or a RANGE from 0b101 to 0b111 (R501). -/
def StepData.badMode (s : StepData) (c : Nat) : Bool :=
  let p := s.perchan c
  bitsOf p 0 2 == 3 || decide (5 ≤ bitsOf p 3 3)

/-- TMU: the TMUs named, as a mask, and the statistics of each. -/
def StepData.tmus (s : StepData) : Nat := s.field 32 0 64
def StepData.tmuStats (s : StepData) (u : Nat) : Nat := bitsOf s.raw.toNat (8 * 48 + 4 * u) 4
def StepData.tmuWait (s : StepData) : Nat := s.field 80 0 32

/-- ACQ: the AUs named, as a mask. -/
def StepData.aus (s : StepData) : Nat := s.field 32 0 32
def StepData.acqWait (s : StepData) : Nat := s.field 36 0 32

/-- DSP: the engines, the kernel and the number of jobs. -/
def StepData.engines (s : StepData) : Nat := s.field 32 0 16
def StepData.kid (s : StepData) : Nat := s.field 34 0 16
def StepData.jobCount (s : StepData) : Nat := s.field 36 0 16

/-- Every engine that a step names. -/
def StepData.enginesUsed (s : StepData) : Nat :=
  if s.kind = kPpmu then 2 ^ s.field 80 0 4 else if s.kind = kDsp then s.engines else 0

end Sys2Proof

namespace Sys2Proof.Machine

/-- DSP job entry: its site, views and parameters (R502). -/
def jobSite (j : JobEntry) : Nat := bitsOf j.toNat 0 6
def jobView (j : JobEntry) (k : Nat) : Nat := bitsOf j.toNat (8 * (4 + 4 * k)) 32
def jobParam (j : JobEntry) (k : Nat) : Nat := bitsOf j.toNat (8 * (24 + 5 * k)) 40

/-- Step `k` of a RUN (from 1). -/
def OpenRun.stepAt (r : OpenRun) (k : Nat) : Option StepData := if k = 0 then none else r.steps[k - 1]?

/-- The contact check as a step: kind CONTACT, test number 0, no limits (R35, R222). -/
def contactStep : StepData := { raw := 0, perch := [], jobs := [] }

/-- The step in progress or due; before step 1 the contact check. -/
def OpenRun.step? (r : OpenRun) : Option StepData := if r.k = 0 then some contactStep else r.stepAt r.k

/-- Every sequencer that some PATTERN step of a RUN names. -/
def OpenRun.seqs (r : OpenRun) : Nat :=
  r.steps.foldl (fun m s => if s.kind = kPattern then m ||| s.seqs else m) 0

/-! ## COMMAND words (R508, R509); the operand of a command is bits [31:4] -/

def cmdScope (w : BitVec 28) : Nat := bitsOf w.toNat 0 4
def cmdGroup (w : BitVec 28) : Nat := bitsOf w.toNat 4 2
def cmdMask (w : BitVec 28) : Nat := bitsOf w.toNat 12 16

/-- The command value as it was written. -/
def cmdValue (cmd : Nat) (w : BitVec 28) : Nat := cmd + 16 * w.toNat

/-- A command that R509 refuses. -/
def cmdRefused (w : BitVec 28) : Bool :=
  let sc := cmdScope w
  decide (4 < sc) || bitsOf w.toNat 6 6 != 0 || (sc != 0 && cmdMask w == 0) || (sc == 0 && cmdMask w != 0)
    || (sc == 3 && decide (16 ≤ cmdMask w)) || (sc != 2 && cmdGroup w != 0)

end Sys2Proof.Machine
end

