-- ==== Sys2Proof/Machine/Shadow.lean ====
section
/-!
DEFINITION. Shadow sets and their commits (R7 to R9), and the start of a lock attempt of a PLL (R401, R411, R413): what the host
interface, the clock block and the RUN engine share.
-/

namespace Sys2Proof

open Sys2Proof.Machine

/-- The registers of a shadow set (R7 and the register tables of its block). -/
def ShadowBlock.holds (b : ShadowBlock) (a : Nat) : Bool :=
  match b with
  | .clkRef => a == 0x20000
  | .pllFreq p => a == 0x20108 + 0x100 * p.val
  | .fcuClass => decide (0x30100 ≤ a) && decide (a < 0x30200)
  | .calCtrl => a == 0x40000
  | .almanac => decide (0x500000 ≤ a) && decide (a < 0x550000)
  | .seqMask s => a == 0x100020 + 0x10000 * s.val || a == 0x100024 + 0x10000 * s.val
  | .pedBudget e => a == 0x1120000 + 0x40000 * e.val

/-- The COMMIT_PENDING bit of a block, where its status has one. -/
def ShadowBlock.pendBit (b : ShadowBlock) : Option Fld :=
  match b with
  | .clkRef => some clkCommitPend
  | .pllFreq _ => none
  | .fcuClass => some fcuCommitPend
  | .calCtrl => some calCommitPend
  | .almanac => some almCommitPend
  | .seqMask s => some (seqCommitPend s.val)
  | .pedBudget _ => none

end Sys2Proof

namespace Sys2Proof.Machine

/-- The shadow set that an address belongs to. -/
def shadowBlockOf (a : Nat) : Option ShadowBlock :=
  if a = 0x20000 then some .clkRef
  else if a = 0x20208 then some (.pllFreq 1)
  else if a = 0x20308 then some (.pllFreq 2)
  else if 0x30100 ≤ a ∧ a < 0x30200 then some .fcuClass
  else if a = 0x40000 then some .calCtrl
  else if 0x500000 ≤ a ∧ a < 0x550000 then some .almanac
  else if 0x100000 ≤ a ∧ a < 0x200000 ∧ (a % 0x10000 = 0x20 ∨ a % 0x10000 = 0x24) then
    some (.seqMask (Fin.ofNat 16 ((a - 0x100000) / 0x10000)))
  else if 0x1100000 ≤ a ∧ a < 0x1200000 ∧ a % 0x40000 = 0x20000 then some (.pedBudget (Fin.ofNat 4 ((a - 0x1100000) / 0x40000)))
  else none

/-- A write waits in the shadow copy of a set. -/
def Dev.shadowPending (d : Dev) (b : ShadowBlock) : Bool := d.shadow.any fun p => b.holds p.1

/-- A write goes to the shadow copy, and the block's status shows that a commit is pending (R7, R8). -/
def Dev.shadowWrite (d : Dev) (b : ShadowBlock) (a v : Nat) : Dev :=
  let d := { d with shadow := Tab.set (fun _ => none) d.shadow a (some (BitVec.ofNat 32 v)) }
  match b.pendBit with
  | some f => d.put f 1
  | none => d

/-- The whole shadow set is copied into the values in force at one moment (R9). -/
def Dev.commitShadow (d : Dev) (b : ShadowBlock) : Dev :=
  let ws := d.shadow.filterMap fun p => match b.holds p.1, p.2 with
    | true, some w => some (p.1, w.toNat)
    | _, _ => none
  let d := { d with shadow := Tab.keep (fun a => !b.holds a) d.shadow }
  let d := ws.foldl (fun d w => d.storeReg w.1 w.2) d
  match b.pendBit with
  | some f => d.put f 0
  | none => d

/-! ## Lock attempts and the timebase (R409, R411, R413) -/

/-- A TB discontinuity (R409). -/
def Dev.tbDisc (d : Dev) : Dev := (d.put clkTbDisc 1).bump clkDisc

/-- The frequency a PLL is set to (R428). -/
def Dev.pllSet (d : Dev) (p : Nat) : Nat := if p = 0 then 1500000000 else clampNat 1000000 800000000 (d.get (pllHz p))

/-- A PLL starts SEARCH as a first attempt (R413). It keeps its lock average, where it holds one (R411). -/
def Dev.pllSearch (d : Dev) (p : Nat) : Dev :=
  let x := d.pll p
  let d := d.setPll p
    { x with fails := 0, toAt := d.mclk + us (max 50 (d.get (pllAcqTo p))), attempt := x.attempt + 1, measured := false,
             slewing := false, freqWait := false, walking := false }
  ((d.put (pllState p) 1).put (pllLockBit p) 0).put (pllFnow p) (d.pllSet p)

/-- A PLL that is OFF starts (R401, R411, R414, R415). SYS takes the REFCLK frequency that waits. -/
def Dev.pllStart (d : Dev) (p : Nat) : Dev :=
  if d.get (pllState p) ≠ 0 then d
  else (if p = 0 then d.commitShadow .clkRef else d).pllSearch p

/-- A PLL stops (R411, R414). -/
def Dev.pllStop (d : Dev) (p : Nat) : Dev :=
  let x := d.pll p
  let d := d.setPll p { PllSt.init with attempt := x.attempt + 1, lockHz := x.lockHz }
  (((d.put (pllState p) 0).put (pllLockBit p) 0).put (pllRamp p) 0).put (pllFnow p) 0

end Sys2Proof.Machine
end

