-- ==== Sys2Proof/Machine/Idle.lean ====
section
/-!
DEFINITION. When the device is idle, its idle timers and the entry of the standby states (R5, R40, R320, R574 to R578).
-/

namespace Sys2Proof.Machine

/-! ## Resources at work -/

/-- A sequencer that has started and not yet halted: STATE from RUN to halting (R198). -/
def Dev.seqBusy (d : Dev) (s : Nat) : Bool := inRange 1 5 (d.get (seqState s))

/-- Any sequencer plays. -/
def Dev.anySeqBusy (d : Dev) : Bool := (List.range 16).any d.seqBusy

/-- An engine is running (R320). -/
def Dev.dseRunning (d : Dev) (e : Nat) : Bool :=
  let x := d.dse e
  let named := d.runs.any fun r =>
    r.live && ((r.steps.zipIdx).any fun p =>
      decide (r.k ≤ p.2 + 1) && p.1.enginesUsed.testBit e &&
        (p.1.kind == kDsp || (List.range 256).any fun c => p.1.usesChan c && decide (2 ≤ (p.1.ppmuUse 0 c).samples))
        && !(r.k == p.2 + 1 && r.phase == .running && !r.res.isEmpty && r.res.all fun y => y.fin.isSome))
  d.get (dseState e) != 5 && (x.job.isSome || !x.queue.isEmpty || named)

/-! ## Idle (R40, R575, R578) -/

/-- A descriptor is fetched and not completed, held or waiting at a boundary. -/
def Dev.hostBusy (d : Dev) : Bool := !d.host.work.isEmpty || !d.host.cfgs.isEmpty || !d.host.held.isEmpty

/-- An owner of R5 runs, apart from the rings. -/
def Dev.ownersBusy (d : Dev) : Bool :=
  !d.runs.isEmpty || d.anySeqBusy || (List.range 32).any (fun a => d.get (auState a) != 0)
    || (List.range 64).any (fun u => d.get (tmuState u) != 0) || (List.range 16).any d.dseRunning
    || [1, 2].any (fun p => d.is (pllRamp p)) || d.get twinState == 2 || d.get tpState != 0
    || allChans.any (fun c => d.is (ppmuWfRun c)) || !d.cal.runs.isEmpty || !d.cal.stores.isEmpty

/-- A slot of an attached stream is being read. -/
def Dev.refilling (d : Dev) : Bool :=
  (List.range 16).any fun s => (d.strm s).slots.any fun p => match p.2.st with
    | .reading _ => true
    | _ => false

/-- The device is busy: it may not leave P1, P2 or the wake for a lower state (R575). -/
def Dev.busy (d : Dev) : Bool := d.hostBusy || d.ownersBusy || d.refilling || !d.pwr.flashOps.isEmpty || d.pwr.fwSwitch.isSome

/-- The idle time of the state the device is in, in master periods (R590). -/
def Dev.idleTime (d : Dev) : Nat :=
  if d.awake then us (1000 * max 1 (d.get pwrP1ms)) else us (1000000 * d.get pwrP2s)

/-- A change of the power state, with its event (R574, R588). -/
def Dev.stateTo (d : Dev) (st cause : Nat) : Dev :=
  (d.put pwrState st).event srcPwr 0x0C01 (d.get pwrState + 2 ^ 8 * st + 2 ^ 16 * cause)

/-- P2 is entered from P1: the reverse ramp begins, CKA and CKB stop, and a standby in which TB loses its relation to the other
packages counts as a discontinuity (R409, R414, R415). -/
def Dev.enterP2 (d : Dev) (cause : Nat) : Dev :=
  let loss := !d.is clkRefPresent || 1500000 % (clampNat 10000 250000 (d.get clkFreqKhz)) != 0
  let d := d.stateTo 2 cause
  let d := { d with pwr := { d.pwr with ramp := .down, rampEnd := d.mclk + us 100, rampDone := false, refLostInStandby := loss } }
  let d := if loss then d.tbDisc else d
  (d.pllStop 1).pllStop 2

/-- P3 is entered from P2: every edge die that is not parked is ordered to park, and PARK_P3 records which (R577). -/
def Dev.enterP3 (d : Dev) (cause : Nat) : Dev :=
  let d := (d.stateTo 3 cause).bump pwrP3s
  let es := [0, 1, 2, 3].filter fun e => !(d.die e).parked
  (d.forEach es fun d e => d.setDie e { d.die e with parkP3 := true }).put pwrParkP3 (listMask es)

/-- An idle device goes from P0 to P1, and on to the pinned state (R574, R575, R578). -/
def Dev.powerIdle (d : Dev) : Dev :=
  if d.busy || d.pwr.wakeWhy != 0 then d
  else
    let pin := d.get pwrPin
    let d := if d.get pwrState = 0 then d.stateTo 1 0 else d
    let d := if d.get pwrState = 1 ∧ 2 ≤ pin then d.enterP2 1 else d
    if d.get pwrState = 2 ∧ pin = 3 then d.enterP3 1 else d

/-- Something that kept the device from idling has ended: the idle timer restarts (R575). -/
def Dev.idleRestart (d : Dev) : Dev :=
  let d := d.powerIdle
  { d with pwr := { d.pwr with idleAt := d.mclk + d.idleTime } }

/-- What kept the device from idling has ended with a change of the device: the idle timers restart (R575). -/
def Dev.idleNote (d old : Dev) : Dev := if old.busy && !d.busy then d.idleRestart else d

end Sys2Proof.Machine
end

