-- ==== Sys2Proof/Machine/Lift.lean ====
section
/-!
DEFINITION. How a command's effect on the device becomes a meaning: the queue of waiting commands never changes, and the flash
changes only where a command is written over it. Every meaning is one of these two forms, so that both frames hold by
construction.
-/

namespace Sys2Proof.Machine

/-- What a meaning answers. -/
abbrev Answer := Host.Outcome State Fault Refusal

/-- A command that changes the device alone. -/
def onDev (s : State) (f : Dev → Dev) : Answer := .next { s with dev := f s.dev }

/-- A command that changes the device alone and may end the last work of a unit: the idle timers follow (R575). -/
def onDevIdle (s : State) (f : Dev → Dev) : Answer := .next { s with dev := (f s.dev).idleNote s.dev }

/-- A command that reads the flash and changes the device alone. -/
def onDevNv (s : State) (f : NonVol → Dev → Dev) : Answer := .next { s with dev := f s.nv s.dev }

/-- A command that changes the flash and the device. -/
def onNv (s : State) (f : NonVol → Dev → NonVol × Dev) : Answer :=
  let r := f s.nv s.dev
  .next { s with nv := r.1, dev := r.2 }

/-- A write to a command register of a block that stops in P2 and P3 acts at once while the clocks run; in standby it is held
and acts at wake, in order of arrival (R579). -/
def Dev.orHold (d : Dev) (addr v : Nat) (f : Dev → Dev) : Dev :=
  if d.awake then f d
  else { d with pwr := { d.pwr with heldWrites := d.pwr.heldWrites ++ [(false, addr, v)] } }

end Sys2Proof.Machine
end

