-- ==== Sys2Proof/Config.lean ====
section
/-!
DEFINITION. The values that the manual leaves open: constants with no body, so that no proof can see what they are.
The first argument is the model's count of open values taken so far, so that each occasion has a value of its own.
-/

namespace Sys2Proof.Config

/-- Whether a window compare with a departure from 100 ps to 200 ps fails on a channel: R135 does not specify it. -/
opaque windowVerdict : Nat → Nat → Bool

/-- Whether a converted result that is no whole number of units is rounded up: R100 states no rounding. -/
opaque convertUp : Nat → Bool

/-- Whether a hardware measurement of an acquisition record that is no whole number is rounded up, where R284 states no
rounding. -/
opaque measureUp : Nat → Bool

/-- Whether the mean temperature in a touchdown header that is no whole number is rounded up: R242 states no rounding. -/
opaque meanUp : Nat → Nat → Bool

/-- Whether the average of the link delays or offsets that is no whole number of units is rounded up: R530 states no rounding. -/
opaque linkUp : Nat → Nat → Bool

/-- A sample that an acquisition unit had taken when its record was cut off: open value, sample index, slot (R279). -/
opaque cutSample : Nat → Nat → Nat → Nat

/-- A flash byte that a write or a firmware image left unverified, or an interrupted operation left behind: open value, offset
within the range (R449, R496, R570, R581). -/
opaque flashByte : Nat → Nat → Byte

/-- A bit that a Transit transfer had received when it was cut off: open value, bit number (R548, R556). -/
opaque cutBit : Nat → Nat → Bool

/-- The stall of the first read of a view, within 160 cycles (R327). -/
opaque viewStall : Nat → Nat

/-- The target segment of a waveform jump request that a TRIG_IN edge makes: R112 and R120 name none. -/
opaque wfTarget : Nat → Nat → Nat

/-- A value that the manual states no result for: one outside its number format, a quotient by zero. -/
opaque openValue : Nat → Nat → Int

end Sys2Proof.Config
end

