-- ==== Sys2Proof/Machine/Flags.lean ====
section
/-!
DEFINITION. What a report says: the class of each checker, its detection latency bound L (R458, R459) and the injected
syndromes (R474); the result flags of DSP instructions stand in their own file.
-/

namespace Sys2Proof.Machine

/-- The class of a checker (R458); none: the source has no such checker. -/
def classOf (src chk : Nat) : Option Nat :=
  if src = 0x000 then [some 0x16, some 0x11, some 0x15, some 0x10].getD chk none
  else if src = 0x001 then if chk < 7 ∨ (8 ≤ chk ∧ chk < 12) then some 0x0D else none
  else if 0x002 ≤ src ∧ src < 0x005 then
    if chk = 0 then some 0x0C else if chk = 1 ∧ src = 0x002 then some 0x0E else none
  else if src = 0x008 then [some 0x13, some 0x10, some 0x11].getD chk none
  else if src = 0x009 then if chk = 0 then some 0x14 else none
  else if src = 0x00D then if chk = 0 then some 0x0F else none
  else if 0x010 ≤ src ∧ src < 0x020 then [some 0x02, some 0x01, some 0x00, some 0x10].getD chk none
  else if 0x020 ≤ src ∧ src < 0x040 then [some 0x00, some 0x10].getD chk none
  else if 0x080 ≤ src ∧ src < 0x090 then [some 0x00, some 0x10].getD chk none
  else if 0x090 ≤ src ∧ src < 0x094 then
    [some 0x03, some 0x04, some 0x05, some 0x06, some 0x0B, some 0x12].getD chk none
  else if 0x100 ≤ src ∧ src < 0x200 then [some 0x07, some 0x08, some 0x09, some 0x0A].getD chk none
  else none

/-- The classes whose faults affect verdicts (R460). -/
def verdictClass (k : Nat) : Bool := decide (k < 0x10)

/-- The default settle time of a range, in µs (R92). -/
def rangeSettle (r : Nat) : Nat :=
  match r with
  | 0 => 500
  | 1 => 200
  | 2 => 50
  | _ => 20

/-- The settle time in force of a channel, in µs (R101). -/
def Dev.settleUs (d : Dev) (c : Nat) : Nat :=
  match (d.chan c).ppmuUse with
  | some u => u.settle
  | none => rangeSettle (d.eget (ppmuRange c))

/-- REFCLK in kHz as it acts (R428). -/
def Dev.refKhz (d : Dev) : Nat := clampNat 10000 250000 (d.get clkFreqKhz)

/-- `n` reference periods in master periods, rounded up (1.5 GHz against FREQ_KHZ). -/
def Dev.refPeriods (d : Dev) (n : Nat) : Nat := (n * 1500000 + d.refKhz - 1) / d.refKhz

/-- The detection latency bound of a class for a source, with the settings as they stand (R458, R459); none: unbounded.
FCU_WIRE adds 600 to the bound of the failed checker's class, which its own report carries. -/
def Dev.latOf (d : Dev) (k src : Nat) : Option Nat :=
  match k with
  | 0x00 => some 16
  | 0x01 => some 16
  | 0x02 => some 8
  | 0x03 => some 128
  | 0x04 => some 32
  | 0x05 => some 128
  | 0x06 => some 12032
  | 0x07 => some (d.eget (peOclFilt (src - 0x100)) + 32)
  | 0x08 => some 15032
  | 0x09 => some 32
  | 0x0A => some (1500 * d.settleUs (src - 0x100) + 96)
  | 0x0B => some 1532
  | 0x0C => some (d.refPeriods (max 1 (d.get (pllUcnt (src - 0x002))) + 1) + 32)
  | 0x0D => some 1532
  | 0x0E => none
  | _ => some 0

/-- A report of a checker at the TB of now (R456, R461). -/
def Dev.report (d : Dev) (src chk syn det scope : Nat) (level : Bool) : Dev :=
  match classOf src chk with
  | some k =>
    d.raise
      { src := src, chk := chk, cls := k, t := d.tb, lat := d.latOf k src, syn := syn, det := det, scope := scope,
        level := level, inj := false, real := true }
  | none => d

/-- The checkers that accept injection and the syndrome each is given (R474). -/
def injSyndrome (src chk : Nat) : Option Nat :=
  if 0x010 ≤ src ∧ src < 0x020 then [some 0xFFFFFFFF, some 0xFFFFFFFF, some 0xFF].getD chk none
  else if 0x090 ≤ src ∧ src < 0x094 then [some 0xFFFF, some 0xFFFF, some 0xF].getD chk none
  else none

/-- The injection in progress names this checker. -/
def Dev.injecting (d : Dev) (src chk : Nat) : Bool :=
  d.is fcuInjBusy && d.fcu.injSrc == src && d.fcu.injChk == chk

/-- One check of the injection is used up (R474). -/
def Dev.injUse (d : Dev) : Dev :=
  let n := d.get fcuInjLeft - 1
  let d := d.put fcuInjLeft n
  if n = 0 then (d.put fcuInjBusy 0).put fcuInjBusyS 0 else d

/-- One check of a checker that found nothing real: under an injection it reports the injected syndrome with INJ = 1 and
REAL = 0 (R476). -/
def Dev.checkOnce (d : Dev) (src chk det scope : Nat) : Dev :=
  if d.injecting src chk then
    match injSyndrome src chk, classOf src chk with
    | some syn, some k =>
      (d.injUse).raise
        { src := src, chk := chk, cls := k, t := d.tb, lat := d.latOf k src, syn := syn, det := det, scope := scope,
          level := false, inj := true, real := false }
    | _, _ => d
  else d

/-- `n` checks that found nothing real. -/
def Dev.checkTimes (d : Dev) (src chk det scope : Nat) : Nat → Dev
  | 0 => d
  | n + 1 => if d.injecting src chk then Dev.checkTimes (d.checkOnce src chk det scope) src chk det scope n else d

/-- A check that met a real error with syndrome `syn`: under an injection the report carries INJ as well, and REAL unless
the syndrome equals the injected one (R476, R477). -/
def Dev.checkReal (d : Dev) (src chk syn det scope : Nat) : Dev :=
  if d.injecting src chk then
    let real := injSyndrome src chk != some syn
    let d := d.injUse
    let d := if real then d.put fcuInjReal 1 else d
    match classOf src chk with
    | some k =>
      d.raise
        { src := src, chk := chk, cls := k, t := d.tb, lat := d.latOf k src, syn := syn, det := det, scope := scope,
          level := false, inj := true, real := real }
    | none => d
  else d.report src chk syn det scope false

end Sys2Proof.Machine
end

