-- ==== Sys2Proof/Machine/Gnomon.lean ====
section
/-!
DEFINITION. The correction values of Gnomon (R432, R434, R436, R437): where a coefficient is kept, its interpolated value in
force, a corrected DAC code, a path delay, and the conversion of ADC codes to ledger values (R91, R100).
A coefficient is held in units of 2^-16; its index within an item is the model's own numbering, because the manual gives
no layout: LEVEL 2d gain and 2d + 1 offset of DAC d; CMP 0 VOH and 1 VOL; TIMING 0 DA, 1 DB, 2 DX, 3 strobe; TMU_PATH 0 VOH and
1 VOL; PPMU 8 × range + 0 to 7 for FV, FI, MV and MI, gain and offset; ALOAD gain and offset of IOH and IOL. A fall-back
entry is numbered 16 × line + upper 4 bits, or 32 × line + tap.
-/

namespace Sys2Proof.Machine

/-- The key of a value: channel, item, fall-back or coefficient, index. -/
def calKey (c item : Nat) (fb : Bool) (idx : Nat) : Nat := ((c * 8 + item) * 2 + fb.toNat) * 512 + idx % 512

/-- The key of a value at a temperature point. -/
def coefKey (key pt : Nat) : Nat := key * 5 + pt

/-- A value that is a gain: it is 1 where nothing has been measured; every other value is 0 (R450). -/
def isGain (key : Nat) : Bool :=
  let item := key / 1024 % 8
  key / 512 % 2 == 0 && (item == 0 || item == 5 || item == 6) && key % 2 == 0

def calDefault (key : Nat) : Rat := if isGain key then 1 else 0
def coefDefault (k : Nat) : Int := if isGain (k / 5) then 65536 else 0

/-- A value in force. -/
def Dev.calVal (d : Dev) (c item : Nat) (fb : Bool) (idx : Nat) : Rat :=
  Tab.get calDefault d.cal.force (calKey c item fb idx)

/-- The force mode, range and measure mode that a channel's settings ask for: those of the step that uses it, else its
registers (R98). -/
def Dev.forceMode (d : Dev) (c : Nat) : Nat :=
  match (d.chan c).ppmuUse with
  | some u => u.force
  | none => d.eget (ppmuForce c)

def Dev.rangeNow (d : Dev) (c : Nat) : Nat :=
  match (d.chan c).ppmuUse with
  | some u => u.range
  | none => d.eget (ppmuRange c)

def Dev.measNow (d : Dev) (c : Nat) : Nat :=
  match (d.chan c).ppmuUse with
  | some u => u.meas
  | none => d.eget (ppmuMeas c)

/-- The corrected code of DAC `k` of channel `c` before it is held to the range (R434); the comparator offsets are folded into
VOH and VOL (R432). -/
def Dev.corrRaw (d : Dev) (c k ideal : Nat) : Int :=
  let base := (ideal : Rat) * d.calVal c 0 false (2 * k) + d.calVal c 0 false (2 * k + 1)
    + d.calVal c 0 true (16 * k + ideal / 4096)
  let cmp (j : Nat) : Rat := d.calVal c 1 false j + d.calVal c 1 true (16 * j + ideal / 4096)
  let ld (j : Nat) : Rat := (ideal : Rat) * (d.calVal c 6 false (2 * j) - 1) + d.calVal c 6 false (2 * j + 1)
  let fr (r m : Nat) : Rat := (ideal : Rat) * (d.calVal c 5 false (8 * r + m) - 1) + d.calVal c 5 false (8 * r + m + 1)
  roundHalfUp
    (match k with
    | 3 => base + cmp 0
    | 4 => base + cmp 1
    | 6 => base + ld 0
    | 7 => base + ld 1
    | 10 => base + fr (d.rangeNow c) (if d.forceMode c = 2 then 2 else 0)
    | _ => base)

/-- The corrected code (R434). -/
def Dev.corrected (d : Dev) (c k ideal : Nat) : Nat := (clampInt 0 0xFFFF (d.corrRaw c k ideal)).toNat

/-- CAL_CH_STAT.CLIPPED is set when a corrected code is held to the range (R434). -/
def calClipped (c : Nat) : Fld := ⟨0x41000 + 0x10 * c, 9, 1⟩

def Dev.noteClip (d : Dev) (c k ideal : Nat) : Dev :=
  let v := d.corrRaw c k ideal
  if v < 0 ∨ 0xFFFF < v then d.put (calClipped c) 1 else d

/-- The delay from the ball to the TMU input for the VOH or the VOL comparator of a channel, in units of 62.5 fs (R300). -/
def Dev.tmuPath (d : Dev) (c thr : Nat) : Rat := d.calVal c 4 false thr

/-- The full scale of a range, in pA (R92). -/
def rangeFs (r : Nat) : Int :=
  match r with
  | 0 => 2000000
  | 1 => 20000000
  | 2 => 200000000
  | 3 => 2000000000
  | _ => 40000000000

/-- A number of units that may be no whole number: rounded down or up, which the manual leaves open. -/
def openRound (q : Rat) (up : Bool) : Int := if q.den = 1 then q.num else if up then q.floor + 1 else q.floor

/-- A value in the signed 40-bit ledger format; outside it the manual states no value. -/
def fit40 (v o : Int) : Int := if -(2 ^ 39) ≤ v ∧ v < 2 ^ 39 then v else toSigned 40 (ofSigned 40 o)

/-- An 18-bit ADC code as a ledger value: µV for MV, pA for MI, after the correction (R91, R100). -/
def Dev.convert (d : Dev) (c meas range code : Nat) : Int :=
  let m : Nat := if meas = 0 then 4 else 6
  let x : Rat := (code : Rat) * d.calVal c 5 false (8 * range + m) + d.calVal c 5 false (8 * range + m + 1)
  let q : Rat := if meas = 0 then -2000000 + x * 9500000 / 262144 else (x - 131072) * (rangeFs range : Rat) / 131072
  fit40 (openRound q (Config.convertUp d.freeCtr)) (Config.openValue d.freeCtr c)

end Sys2Proof.Machine
end

