-- ==== Sys2Proof/Machine/Levels.lean ====
section
/-!
DEFINITION. Level DACs (R55 to R61), high impedance (R72 to R77, R96, R97) and the force mode in effect: the operations that
level loads, strobes, calibration, faults and parks share.
-/

namespace Sys2Proof.Machine

/-! ## The deglitcher (R58 to R60) -/

/-- One DAC of a channel. -/
def Dev.dac (d : Dev) (c k : Nat) : Dac := Tab.get Dac.init (d.chan c).dacs k

def Dev.setDac (d : Dev) (c k : Nat) (x : Dac) : Dev :=
  let ch := d.chan c
  let t := Tab.set Dac.init ch.dacs k x
  (d.setChan c { ch with dacs := t }).putB (peHold c) (t.any fun p => p.2.holding)

/-- A corrected code reaches a DAC. A hold of 0 disables the hold; DAC 10 is not held while a waveform plays (R110). -/
def Dac.load (x : Dac) (now hold new : Nat) (bypass : Bool) : Dac :=
  if hold = 0 || bypass then { out := new, holding := false, holdEnd := x.holdEnd }
  else if x.holding then
    if new / 4096 = x.out / 4096 then x else { x with holdEnd := now + hold }
  else if new / 4096 = x.out / 4096 then { x with out := new }
  else { x with holding := true, holdEnd := now + hold }

/-- The converter of DAC `k` takes a corrected code. -/
def Dev.convertTo (d : Dev) (c k new : Nat) : Dev :=
  let bypass := k == 10 && d.is (ppmuWfRun c)
  let x := (d.dac c k).load d.mclk (d.eget (peDglHold c)) new bypass
  (d.put (peCorr c k) new).setDac c k x

/-- The ideal code that the converter works on: that of the sweep pass for VOH and VOL during a sweep (R291), that of the PPMU
step that uses the channel (R98), else the code in force. -/
def Dev.workCode (d : Dev) (c k : Nat) : Nat :=
  match (d.chan c).sweepV, (d.chan c).ppmuUse, k with
  | some p, _, 3 => p.1
  | some p, _, 4 => p.2
  | _, some u, 10 => u.code
  | _, _, _ => d.get (peIdeal c k)

/-- A DAC converts its working code again: after a load, a sweep pass or a change of its correction (R61). -/
def Dev.reconvert (d : Dev) (c k : Nat) : Dev :=
  let i := d.workCode c k
  (d.noteClip c k i).convertTo c k (d.corrected c k i)

/-! ## Events that reach the AUs (R281 to R283) -/

/-- The gate of R283 lets a trigger sample at a tick pass: it lies in a play of the gating sequencer with CE = 1. -/
def Dev.auGate (d : Dev) (a tick : Nat) : Bool :=
  if d.is (auGateEn a) then
    let x := d.seq (d.get (auGateSeq a))
    x.ce && decide (x.playPos ≤ (tick : Rat)) && decide ((tick : Rat) < x.pos)
  else true

/-- An event that is missed in re-arm or while FULL (R277). -/
def Dev.auMissed (d : Dev) (a : Nat) : Dev :=
  let x := d.au a
  let d := (d.setAu a { x with missed := x.missed + 1, missEv := true }).bump (auCntMiss a)
  if x.missEv then d else d.event (srcAu a) 0x0501 (x.seqNo % 2 ^ 32)

/-- The sample interval in ticks (R264); 0 for TMU results. -/
def Dev.auInterval (d : Dev) (a : Nat) : Nat :=
  match d.get (auType a) with
  | 0 => 2048 * 2 ^ d.get (auDecim a)
  | 1 => 1500 * 4096 * 2 ^ d.get (auDecim a)
  | _ => 0

/-- A tick lies before the sample time that follows the trigger sample of an event at tick `t`: the first sample at or after the event
(R282). -/
def Dev.auEvOpen (d : Dev) (a t tick : Nat) : Bool := d.get (auType a) == 2 || decide (tick < t + d.auInterval a)

/-- A MARKER, TRIG_IN, SEG or SOFTWARE event at a tick reaches an AU (R281, R282): it waits for its trigger sample, where the gate is
judged (R283), or is missed. Events of one sample time make one trigger. -/
def Dev.auEvent (d : Dev) (a tick : Nat) : Dev :=
  let st := d.get (auState a)
  if st = 1 then
    let one := match (d.au a).ev with
      | some t => d.auEvOpen a t tick
      | none => false
    if one then d else d.setAu a { d.au a with ev := some tick }
  else if (st = 3 ∨ st = 4) ∧ d.auGate a tick = true then d.auMissed a
  else d

/-- An event of a trigger kind and index reaches every AU that listens to it. -/
def Dev.auEvents (d : Dev) (kind idx : Nat) (rise : Option Bool) (tick : Nat) : Dev :=
  d.forEach (List.range 32) fun d a =>
    let i := d.get (auTrigIdx a)
    let same := match kind with
      | 6 => i % 128 == idx
      | 7 => i % 4 == idx
      | _ => i == idx
    let slopeOk := match rise with
      | some r => (match d.get (auSlope a) with
        | 0 => r
        | 1 => !r
        | _ => true)
      | none => true
    if d.get (auKind a) = kind ∧ same = true ∧ slopeOk = true then d.auEvent a tick else d

/-! ## Waveforms (R108 to R114) -/

/-- Waveform play is asked for: by the step that uses the channel, else by its register. -/
def Dev.wfOn (d : Dev) (c : Nat) : Bool :=
  match (d.chan c).ppmuUse with
  | some u => u.wf
  | none => d.eis (ppmuWfEn c)

/-- A segment that play refuses (R114). -/
def Dev.segBad (d : Dev) (e i : Nat) : Bool :=
  let n := d.eget (pedSegLength e i)
  decide (n < 16) || decide (32768 < d.eget (pedSegStart e i) + n)

/-- A sample of the waveform memory of a die (R121). -/
def Dev.wfSample (d : Dev) (e i : Nat) : Nat := d.eget ⟨0x1100000 + 0x40000 * e + i / 2 * 4, 16 * (i % 2), 16⟩

/-- A sample reaches DAC 10 unheld (R110): the code it works on is that of the step, else the code in force. -/
def Dev.wfPut (d : Dev) (c code : Nat) : Dev :=
  let x := d.chan c
  let d := match x.ppmuUse with
    | some u => d.setChan c { x with ppmuUse := some { u with code := code } }
    | none => d.put (peIdeal c 10) code
  d.reconvert c 10

/-- Waveform play stops on a channel. -/
def Dev.wfStop (d : Dev) (c : Nat) : Dev :=
  let d := d.put (ppmuWfRun c) 0
  d.setChan c { d.chan c with wfLeft := 0, wfReq := none, wfLate := none }

/-- Play meets a segment that R114 refuses: the last sample is held, WF_EN clears and WF_RANGE is raised. -/
def Dev.wfRange (d : Dev) (c seg : Nat) : Dev :=
  let d := ((d.wfStop c).put (ppmuWfEn c) 0).put (ppmuFaultF c) (d.get (ppmuFaultF c) ||| 4)
  let x := d.chan c
  let d := d.setChan c
    { x with wfRefused := true, ppmuUse := match x.ppmuUse with
        | some u => some { u with wf := false }
        | none => none }
  d.event (srcChan c) 0x0203 seg

/-- The sample clock divider of a channel (R108, R120). -/
def Dev.wfDiv (d : Dev) (c : Nat) : Nat := max 60 (d.eget (ppmuWfDiv c))

/-- One play of a segment begins (R109, R114): `left` plays of it follow. Its SEG trigger reaches the AUs (R111, R282). -/
def Dev.wfPlay (d : Dev) (c seg left : Nat) : Dev :=
  let e := dieOf c
  if d.segBad e seg then d.wfRange c seg
  else
    let d := (d.put (ppmuWfRun c) 1).put (ppmuWfSeg c) seg
    let d := d.setChan c { d.chan c with wfLeft := left, wfEnd := d.mclk + d.eget (pedSegLength e seg) * d.wfDiv c }
    let d := d.wfPut c (d.wfSample e (d.eget (pedSegStart e seg)))
    if d.eis (pedSegTrig e seg) then d.auEvents 8 c none (4096 * d.mclk) else d

/-- The first play of a segment begins: its repeat count is loaded. -/
def Dev.wfEnter (d : Dev) (c seg : Nat) : Dev := d.wfPlay c seg (d.eget (pedSegRepeat (dieOf c) seg))

/-- Waveform play starts at segment FIRST (R108). -/
def Dev.wfStart (d : Dev) (c : Nat) : Dev := (d.wfStop c).wfEnter c (d.eget (ppmuWfFirst c))

/-! ## High impedance (R72, R73) -/

/-- A reason of R73, or a quiesced sector (R584), holds the outputs at high impedance. -/
def Dev.hizReason (d : Dev) (c : Nat) : Bool :=
  !d.eis (peChEn c) || d.is (peParked c) || d.get (peFault c) % 8 != 0 || d.quiesced (sectorOf c)

/-- The outputs are held at high impedance: a reason of R73, or a wait of R77 or R81. -/
def Dev.hizHeld (d : Dev) (c : Nat) : Bool := d.hizReason c || (d.chan c).waitStep || (d.chan c).waitBound

/-- The force mode in effect (R95 to R98, R103). -/
def Dev.wantForce (d : Dev) (c : Nat) : Nat :=
  let x := d.chan c
  if d.is (peHiz c) || x.olHold || x.patStep || x.reconAt.isSome then 0 else d.forceMode c

/-- The open RUN of a channel's site notes the settle time in force of a channel that forces in FV (R459). -/
def Dev.noteFv (d : Dev) (c : Nat) : Dev :=
  match d.siteOf c with
  | some s =>
    let f (r : OpenRun) : OpenRun := if r.sites.testBit s then { r with maxSettle := max r.maxSettle (d.settleUs c) } else r
    { d with runs := d.runs.map f }
  | none => d

/-- PPMU_STATUS.FORCE_NOW follows, and with it waveform play, which runs only while the force mode is FV or FI (R108). -/
def Dev.syncForce (d : Dev) (c : Nat) : Dev :=
  let old := d.get (ppmuForceNow c)
  let want := d.wantForce c
  let d := d.put (ppmuForceNow c) want
  let d := if want = 1 then d.noteFv c else d
  if d.is (ppmuWfRun c) then (if want = 0 ∨ d.wfOn c = false then d.wfStop c else d)
  else if d.wfOn c && decide (want ≠ 0) && decide (old = 0) then d.wfStart c else d

/-- In P2 and P3 the status registers of a channel go on reading what they held when the clocks stopped (R579): the first change keeps
their words. -/
def Dev.keepStop (d : Dev) (c : Nat) : Dev :=
  if d.awake then d
  else
    let keep (t : Tab (Option Word)) (a : Nat) : Tab (Option Word) :=
      if (Tab.get (fun _ => none) t a).isSome then t else Tab.set (fun _ => none) t a (some (d.word a))
    { d with pwr := { d.pwr with stopWords := keep (keep d.pwr.stopWords (peHiz c).addr) (ppmuForceNow c).addr } }

/-- The outputs of a channel go high impedance (R72, R73), and the master period in which they do is noted for R82. -/
def Dev.toHiz (d : Dev) (c : Nat) : Dev :=
  let d := if d.is (peHiz c) then d else d.setChan c { d.chan c with hizAt := some d.mclk }
  ((d.keepStop c).put (peHiz c) 1).syncForce c

/-! ## Loads (R56, R57, R65, R67, R71) -/

/-- |VIH − VIL| ≤ 6.0 V, on the scale of R54. -/
def pairDriveOk (vih vil : Nat) : Bool := decide ((max vih vil - min vih vil) * 85 ≤ 60 * 65536)

/-- CLH ≥ CLL + 0.5 V. -/
def pairClampOk (clh cll : Nat) : Bool := decide (cll * 85 + 5 * 65536 ≤ clh * 85)

/-- The code a load gives a DAC: the one listed last, else the code in force. -/
def Dev.loadCode (d : Dev) (c : Nat) (codes : List (Nat × Nat)) (k : Nat) : Nat :=
  match codes.reverse.find? fun p => p.1 == k with
  | some p => p.2
  | none => d.get (peIdeal c k)

/-- The bit mask of a channel's site, as a fault scope (R79). -/
def Dev.chanScope (d : Dev) (c : Nat) : Nat := d.sitesOfChans [c]

/-- A level rejection (R57, R79). -/
def Dev.levelReject (d : Dev) (c : Nat) : Dev :=
  let d := (d.put (peFault c) (d.get (peFault c) ||| 4)).bump (peCntRej c)
  (d.report (srcChan c) 2 0 c (d.chanScope c) false).toHiz c

/-- New codes load on one channel: a list of DAC and ideal code (R56, R57). -/
def Dev.loadLevels (d : Dev) (c : Nat) (codes : List (Nat × Nat)) : Dev :=
  if codes.isEmpty then d
  else
    let v := d.loadCode c codes
    let badD := !pairDriveOk (v 0) (v 1)
    let badC := !pairClampOk (v 8) (v 9)
    let ok (k : Nat) : Bool := !((badD && (k == 0 || k == 1)) || (badC && (k == 8 || k == 9)))
    let ks := ((codes.map fun p => p.1).dedup.filter ok).filter fun k => v k != d.get (peIdeal c k)
    let d := d.forEach ks fun d k => (d.put (peIdeal c k) (v k)).reconvert c k
    let d := if ks.isEmpty then d else d.setChan c { d.chan c with loadAt := d.mclk }
    if badD || badC then d.levelReject c else d

/-- The DACs of a channel in class ON_STROBE (R64); DAC 10 is left out while a waveform plays (R110). -/
def Dev.strobeDacs (d : Dev) (c : Nat) : List Nat :=
  (maskList 11 (d.eget (peLvlUpd c))).filter fun k => !(k == 10 && d.is (ppmuWfRun c))

/-- A level-set strobe on one channel (R67, R68, R71). -/
def Dev.strobeChan (d : Dev) (k c : Nat) : Dev :=
  (d.loadLevels c ((d.strobeDacs c).map fun i => (i, d.eget (peLsetCode c k i)))).put (peLset c) k

/-- A level-set strobe of a sequencer (R67). -/
def Dev.strobe (d : Dev) (s k : Nat) : Dev := d.forEach (d.seqChans s) fun d c => d.strobeChan k c

/-! ## The fall and return of a fault (R73, R81) -/

/-- A channel fault of `PE_FAULT` bit `b` (R78, R79). -/
def Dev.chanFault (d : Dev) (c b chk : Nat) : Dev :=
  let d := d.put (peFault c) (d.get (peFault c) ||| 2 ^ b)
  (d.report (srcChan c) chk 0 c (d.chanScope c) false).toHiz c

/-- A channel may leave high impedance: no reason of R73, no wait of R77 or R81. -/
def Dev.mayExit (d : Dev) (c : Nat) : Bool := d.is (peHiz c) && !d.hizHeld c

end Sys2Proof.Machine
end

