-- ==== Sys2Proof/Machine/Results.lean ====
section
/-!
DEFINITION. Results of test steps (R222 to R229), adaptive repeat (R237 to R240), ledger entries (R243 to R247), the marks of the
downgrade rule (R252) and the release of a PPMU step's site (R98, R115, R117).
-/

namespace Sys2Proof.Machine

/-! ## Flags and classes (R226, R227, R244) -/

def fIntegrity : Nat := 0x0001
def fProvisional : Nat := 0x0002
def fEdgeAdjusted : Nat := 0x0004
def fStalled : Nat := 0x0008
def fReading : Nat := 0x0010
def fRepeated : Nat := 0x0020
def fStale : Nat := 0x0040
def fWarming : Nat := 0x0080
def fFlogDropped : Nat := 0x0100
def fBudgetWait : Nat := 0x0200
def fUnreferenced : Nat := 0x0400
def fStreamLine : Nat := 0x0800
def fCarried : Nat := 0x1000
def fReadingsLost : Nat := 0x4000
def fStopped : Nat := 0x8000

/-- A flag is set in a flag word. -/
def hasFlag (flags f : Nat) : Bool := flags &&& f != 0

/-- Result codes. -/
def rPass : Nat := 0x00
def rFailLo : Nat := 0x01
def rFailHi : Nat := 0x02
def rFailCount : Nat := 0x03
def rCompliance : Nat := 0x04
def rMatchTimeout : Nat := 0x05
def rContact : Nat := 0x06
def rPrecondition : Nat := 0x07
def rRange : Nat := 0x08
def rProgram : Nat := 0x09
def rSync : Nat := 0x0A
def rUnderrun : Nat := 0x0B
def rIncomplete : Nat := 0x0C
def rStallCount : Nat := 0x0D
def rFirstFail : Nat := 0x0E
def rSkipped : Nat := 0x0F

/-- A code of class fail. -/
def codeFail (r : Nat) : Bool := inRange 1 5 r

/-- A code of class no evidence. -/
def codeNone (r : Nat) : Bool := inRange 7 0xC r

/-- A code of class information. -/
def codeInfo (r : Nat) : Bool := inRange 0xD 0xF r

/-- An entry of class information (R227). -/
def Ent.info (e : Ent) : Bool := codeInfo e.result || hasFlag e.flags fReading

/-- An entry of class no evidence (R227). -/
def Ent.noEvidence (e : Ent) : Bool :=
  !e.info && (codeNone e.result || hasFlag e.flags (fStale + fUnreferenced))

/-- An entry of class fail. -/
def Ent.failed (e : Ent) : Bool := !e.info && !e.noEvidence && codeFail e.result

/-- A final entry (R622): not a reading, and no code of class information. -/
def Ent.final (e : Ent) : Bool := !e.info && decide (e.kind ≠ 0xF)

/-- The result code of a value under the limits (R225). -/
def judge (st : StepData) (v : Int) : Nat :=
  if st.loEn && decide (v < st.lo) then rFailLo else if st.hiEn && decide (st.hi < v) then rFailHi else rPass

/-! ## Adaptive repeat (R237, R238) -/

/-- The guard band in ‰ of the span. -/
def Dev.guardOf (d : Dev) (st : StepData) : Nat := if st.guardF = 0xFF then min 254 (d.get ledGuard) else st.guardF

/-- The further readings: from 1 to 15, an even value acting as the next odd value. -/
def Dev.repeatOf (d : Dev) (st : StepData) : Nat :=
  let m := if st.repeatM = 0 then d.get ledM else st.repeatM
  if m % 2 = 0 then m + 1 else m

/-- The guard band g (R237). -/
def guardBand (st : StepData) (permille : Nat) : Int :=
  let span : Int :=
    if st.loEn && st.hiEn then st.hi - st.lo
    else if st.loEn then (st.lo.natAbs : Int) else if st.hiEn then (st.hi.natAbs : Int) else 0
  span * permille / 1000

/-- A value is marginal: within g of an enabled limit, on either side. -/
def marginal (st : StepData) (g v : Int) : Bool :=
  decide (0 < g) && ((st.loEn && decide (((v - st.lo).natAbs : Int) ≤ g)) || (st.hiEn && decide (((v - st.hi).natAbs : Int) ≤ g)))

/-- The kinds that adaptive repeat applies to. -/
def repeats (st : StepData) : Bool := inRange kPpmu kDsp st.kind

/-- A number put in its place in an ascending list. -/
def insertUp (v : Int) : List Int → List Int
  | [] => [v]
  | x :: xs => if v ≤ x then v :: x :: xs else x :: insertUp v xs

/-- The median of an odd number of values. -/
def median (vs : List Int) : Int :=
  let s := vs.foldr insertUp []
  s.getD (s.length / 2) 0

/-- What a measurement says of one result. -/
structure Reading where
  value : Int
  code  : Nat
  flags : Nat
  startTb : Nat
  endTb : Nat
  deriving DecidableEq, Repr

/-- The entry a reading or a final value forms. -/
def Res.ent (r : Res) (st : StepData) (k : Nat) (x : Reading) (reading : Nat) : Ent :=
  { testNum := st.testNum + r.j, value := x.value, result := x.code, flags := x.flags, startTb := x.startTb, endTb := x.endTb,
    site := r.site, kind := st.kind, reading := reading, step := k }

/-- One measurement of a result (R237 to R239): it is final, begins a repeat, is a further reading of one or ends it.
`room`: a READING entry finds unreserved ledger space. -/
def Res.take (r : Res) (st : StepData) (k : Nat) (g : Int) (m : Nat) (room : Bool) (x : Reading) : Res :=
  if r.fin.isSome then r
  else
    let idx := r.readings.length
    let rd := r.ent st k { x with flags := x.flags ||| fReading } idx
    let ents := if room then r.ents ++ [rd] else r.ents
    let lost := if room then r.flags else r.flags ||| fReadingsLost
    if r.readings.isEmpty then
      if repeats st && decide (x.code ≤ 2) && marginal st g x.value then
        { r with startTb := x.startTb, readings := [(x.value, x.code)], left := m, ents := ents, flags := lost, samples := [], rdTb := x.endTb }
      else { r with fin := some (r.ent st k { x with flags := x.flags ||| r.flags } 0) }
    else
      let last := x.code
      if codeNone last || last == rCompliance then
        { r with
          readings := (x.value, last) :: r.readings, left := 0, ents := ents, flags := lost,
          fin := some (r.ent st k { x with flags := x.flags ||| lost ||| fRepeated, startTb := r.startTb } 0) }
      else if r.left ≤ 1 then
        let vs := ((x.value, last) :: r.readings).dropLast.map fun p => p.1
        let v := median vs
        { r with
          readings := (x.value, last) :: r.readings, left := 0, ents := ents, flags := lost,
          fin := some (r.ent st k
            { value := v, code := judge st v, flags := x.flags ||| lost ||| fRepeated, startTb := r.startTb, endTb := x.endTb } 0) }
      else
        { r with readings := (x.value, last) :: r.readings, left := r.left - 1, ents := ents, flags := lost, samples := [], rdTb := x.endTb }

/-! ## The ledger rings (R241, R243, R246) -/

def ledEntAddr (s i : Nat) : Nat := 0xF840000 + 0xF000 * s + 32 * i
def ledHdrAddr (i : Nat) : Nat := 0xF800000 + 64 * i

/-- An entry packed (R243). -/
def Ent.pack (e : Ent) : Nat :=
  e.testNum % 2 ^ 32 + 2 ^ 32 * ofSigned 40 e.value + 2 ^ 72 * (e.result % 256) + 2 ^ 80 * (e.flags % 2 ^ 16)
    + 2 ^ 96 * (e.startTb % 2 ^ 64) + 2 ^ 160 * (e.endTb % 2 ^ 64) + 2 ^ 224 * (e.site % 64)
    + 2 ^ 232 * (e.kind % 16 + 16 * (e.reading % 16)) + 2 ^ 240 * (e.step % 2 ^ 16)

/-- An entry read back. -/
def entOf (n : Nat) : Ent :=
  { testNum := bitsOf n 0 32, value := toSigned 40 (bitsOf n 32 40), result := bitsOf n 72 8, flags := bitsOf n 80 16,
    startTb := bitsOf n 96 64, endTb := bitsOf n 160 64, site := bitsOf n 224 6, kind := bitsOf n 232 4,
    reading := bitsOf n 236 4, step := bitsOf n 240 16 }

def Dev.entAt (d : Dev) (s i : Nat) : Ent := entOf (d.ld (ledEntAddr s i) 32)

/-- Entries in a site's ring. -/
def Dev.ledUsed (d : Dev) (s : Nat) : Nat := (d.get (ledWr s) + 1920 - d.get (ledRd s)) % 1920

/-- A number kept per site in a list. -/
def siteNum (l : List (Nat × Nat)) (s : Nat) : Nat :=
  match l.find? fun p => p.1 == s with
  | some p => p.2
  | none => 0

/-- A number kept per site replaced. -/
def setSiteNum (l : List (Nat × Nat)) (s v : Nat) : List (Nat × Nat) :=
  l.map fun p => if p.1 = s then (s, v) else p

/-- Entries reserved in a site's ring (R246). -/
def Dev.ledReserved (d : Dev) (s : Nat) : Nat := (d.runs.map fun r => siteNum r.reserve s).sum

/-- Unreserved free entries: `LED_FREE` (R263). -/
def Dev.ledFree (d : Dev) (s : Nat) : Nat := 1919 - d.ledUsed s - d.ledReserved s

/-- READING entries formed and not yet in the ring. -/
def OpenRun.readingsDue (r : OpenRun) (s : Nat) : Nat :=
  ((r.res.filter fun x => x.site == s && !x.written).map fun x => x.ents.length).sum

/-- The ring indices of a site's entries of a RUN, in order (R245). -/
def Dev.runEntIdx (d : Dev) (r : OpenRun) (s : Nat) : List Nat :=
  let f := siteNum r.first s
  (List.range ((d.get (ledWr s) + 1920 - f) % 1920)).map fun i => (f + i) % 1920

/-- A site's entries of a RUN. -/
def Dev.runEnts (d : Dev) (r : OpenRun) (s : Nat) : List Ent := (d.runEntIdx r s).map (d.entAt s)

/-- An entry carries INTEGRITY when it is written: a mark of R252 or a pending fault of R254. -/
def OpenRun.marked (r : OpenRun) (s endTb : Nat) : Bool :=
  r.pend.testBit s || r.marks.any fun m => m.sites.testBit s && decide (m.since ≤ endTb)

/-- The open RUN with a fetch number. -/
def Dev.runById (d : Dev) (id : Nat) : Option OpenRun := d.runs.find? fun r => r.id == id

/-- One more item has been written to a ring: that of a site, or under 64 the header ring. -/
def Dev.ledCount (d : Dev) (s : Nat) : Dev :=
  let n := Tab.get (fun _ => 0) d.led.wrote s
  { d with led := { d.led with wrote := Tab.set (fun _ => 0) d.led.wrote s (n + 1) } }

/-- One entry written to its site's ring (R245 to R247): PROVISIONAL, and INTEGRITY where it is due. -/
def Dev.writeEnt (d : Dev) (id : Nat) (e : Ent) : Dev :=
  match d.runById id with
  | none => d
  | some r =>
    let i := d.get (ledWr e.site)
    let fl := e.flags ||| fProvisional ||| (if e.kind ≠ 0xF ∧ r.marked e.site e.endTb = true then fIntegrity else 0)
    let d := d.st (ledEntAddr e.site i) 32 ({ e with flags := fl } : Ent).pack
    let d := (d.put (ledWr e.site) ((i + 1) % 1920)).ledCount e.site
    let res := if hasFlag e.flags fReading then r.reserve else setSiteNum r.reserve e.site (siteNum r.reserve e.site - 1)
    let late := if e.result = rFirstFail ∨ hasFlag e.flags fCarried = true then r.latestEnd else max r.latestEnd e.endTb
    d.setRun { r with reserve := res, latestEnd := late }

/-- Flags added to an entry in its place. -/
def Dev.flagEnt (d : Dev) (s i f : Nat) : Dev :=
  let a := ledEntAddr s i + 10
  d.st a 2 (d.ld a 2 ||| f)

/-- The downgrade rule on one open RUN (R252): entries already written are marked at once, later ones as they are written. -/
def Dev.markRun (d : Dev) (r : OpenRun) (sites since : Nat) : Dev :=
  let hit := sites &&& r.sites
  let d := d.setRun { r with marks := ⟨hit, since⟩ :: r.marks }
  d.forEach (maskList 64 hit) fun d s =>
    d.forEach (d.runEntIdx r s) fun d i =>
      let e := d.entAt s i
      if since ≤ e.endTb ∧ e.kind ≠ 0xF then d.flagEnt s i fIntegrity else d

/-! ## PPMU claims and the end of a PPMU step on a site (R98, R115, R117) -/

/-- A channel's claim in whole mA, rounded up (R115). -/
def PpmuUse.claim (u : PpmuUse) : Nat :=
  if u.range ≠ 4 ∨ u.force = 0 ∨ u.force = 3 then 0
  else if u.wf then 40
  else if u.force = 1 then (40 * clampNat 5 100 u.iclamp + 99) / 100
  else ((max u.code 32768 - min u.code 32768) * 40 + 32767) / 32768

/-- The channels that a PPMU step uses of one site, in ascending order. -/
def Dev.stepChans (d : Dev) (st : StepData) (s : Nat) : List Nat :=
  (d.siteChans s).filter fun c => st.usesChan c

/-- A site's claim on one edge die. -/
def Dev.siteClaim (d : Dev) (st : StepData) (s e : Nat) : Nat :=
  (((d.stepChans st s).filter fun c => dieOf c == e).map fun c => (st.ppmuUse 0 c).claim).sum

/-- Samples that a site needs in the sample buffer (R332). -/
def Dev.siteSamples (d : Dev) (st : StepData) (s : Nat) : Nat :=
  ((d.stepChans st s).map fun c =>
    let n := (st.ppmuUse 0 c).samples
    if 2 ≤ n then n else 0).sum

/-- A channel returns from a PPMU step to its register settings (R98): a played waveform has left DAC 10 to the code that its
class gives. -/
def Dev.ppmuReturn (d : Dev) (c : Nat) : Dev :=
  let wf := match (d.chan c).ppmuUse with
    | some u => u.wf
    | none => false
  let d := if wf then d.wfStop c else d
  let d := ((d.setChan c { d.chan c with ppmuUse := none }).syncForce c).put (ppmuCompl c) 0
  d.reconvert c 10

/-- A site's results of a PPMU step are complete: its channels return and its claim is released; the governor admits again
1 µs later (R98, R116, R117). -/
def Dev.ppmuSiteDone (d : Dev) (st : StepData) (s : Nat) : Dev :=
  let d := d.forEach [0, 1, 2, 3] fun d e => d.put (pedHeld e) (d.get (pedHeld e) - d.siteClaim st s e)
  let d := d.forEach (d.stepChans st s) fun d c => d.ppmuReturn c
  { d with admitAt := some (match d.admitAt with
    | some t => t
    | none => d.mclk + us 1) }

/-! ## Results into the ledger -/

/-- The results of a site, in result order. -/
def OpenRun.siteRes (r : OpenRun) (s : Nat) : List Res := r.res.filter fun x => x.site == s

/-- The results that can be written now: those whose earlier results of the site are all formed and written. -/
def writable : List Res → List Res
  | [] => []
  | x :: xs => if x.written then writable xs else if x.fin.isSome then x :: writable xs else []

/-- STOP: a result of class fail (R228). -/
def stopsSite (st : StepData) (rs : List Res) : Bool :=
  st.stop && rs.any fun x => match x.fin with
    | some e => e.failed
    | none => false

/-- The entries of one result, the last of them with STOPPED where it is due. -/
def Res.allEnts (x : Res) (stop : Bool) : List Ent :=
  let es := x.ents ++ x.fin.toList ++ x.post
  if stop then
    match es.reverse with
    | [] => []
    | e :: rest => (({ e with flags := e.flags ||| fStopped } : Ent) :: rest).reverse
  else es

/-- A PPMU result at its site's release: its completion timestamp is the release TB (R117), unless it was repeated (R238) or cut
off (R256, R618). -/
def Res.release (x : Res) (tb : Nat) : Res :=
  match x.fin with
  | some e => if hasFlag e.flags fRepeated || e.result == rIncomplete then x else { x with fin := some { e with endTb := tb } }
  | none => x

/-- The results of a site that are due are written in result order (R245): those of a PPMU step once the site has them all
(R117). The last one carries STOPPED where R228 asks. -/
def Dev.flushSite (d : Dev) (id s : Nat) : Dev :=
  match d.runById id with
  | none => d
  | some r =>
    match r.step? with
    | none => d
    | some st =>
      let all := r.siteRes s
      let done := !all.isEmpty && all.all (fun x => x.fin.isSome) && all.any (fun x => !x.written)
      let due := if st.kind = kPpmu then (if done then (writable all).map fun x => x.release d.tb else []) else writable all
      let stop := stopsSite st all
      let lastJ := (all.map fun x => x.j).foldl max 0
      let d := due.foldl (fun d x => (x.allEnts (stop && x.j == lastJ)).foldl (fun d e => d.writeEnt id e) d) d
      let d := match d.runById id with
        | some r => d.setRun
            { r with res := r.res.map fun x => if x.site = s ∧ due.any (fun y => y.j == x.j) = true then { x with written := true } else x }
        | none => d
      if done && st.kind == kPpmu && all.any (fun x => x.begun) then d.ppmuSiteDone st s else d

/-- A measurement of result `j` of a site in the step that a RUN runs: it enters the result, and what is due is written. -/
def Dev.putReading (d : Dev) (id s j : Nat) (x : Reading) : Dev :=
  match d.runById id with
  | none => d
  | some r =>
    match r.step? with
    | none => d
    | some st =>
      let room := decide (r.readingsDue s < d.ledFree s)
      let g := guardBand st (d.guardOf st)
      let m := d.repeatOf st
      let f (y : Res) : Res := if y.site = s ∧ y.j = j then { y.take st r.k g m room x with t0 := d.mclk } else y
      (d.setRun { r with res := r.res.map f }).flushSite id s

/-- A result that is cut off takes a final entry with VALUE 0 at once. -/
def Res.cutOff (r : Res) (st : StepData) (k code flags tb : Nat) : Res :=
  if r.fin.isSome then r
  else
    let rep := if r.readings.isEmpty then 0 else fRepeated
    { r with
      left := 0, samples := [],
      fin := some (r.ent st k
        { value := 0, code := code, flags := flags ||| r.flags ||| rep, startTb := if r.begun then r.startTb else tb, endTb := tb } 0) }

/-- Chosen results of a site that are still open take one code with VALUE 0 (R99, R150, R256, R618). -/
def Dev.cutRes (d : Dev) (id s : Nat) (p : Res → Bool) (code flags : Nat) : Dev :=
  match d.runById id with
  | none => d
  | some r =>
    match r.step? with
    | none => d
    | some st =>
      let f (y : Res) : Res := if y.site = s ∧ p y = true then y.cutOff st r.k code flags d.tb else y
      (d.setRun { r with res := r.res.map f }).flushSite id s

/-- The results of a site still to take readings of. -/
def OpenRun.openRes (r : OpenRun) : List Res := r.res.filter fun x => x.fin.isNone

/-- Every result of the step has its final entry (R240). -/
def OpenRun.resDone (r : OpenRun) : Bool := r.res.all fun x => x.written

/-- The STALE flag of a channel's result (R244, R441). -/
def Dev.staleFlag (d : Dev) (c : Nat) : Nat := if d.is (peStale c) then fStale else 0

end Sys2Proof.Machine
end

