-- ==== Sys2Proof/Machine/Acq.lean ====
section
/-!
DEFINITION. The acquisition units (chapter 8): sources, settling of the record at arming, triggers, records, measurements,
sweep capture, the host drain, and the rows that act on them. A time in ticks counts 1/4096 master periods from reset.
-/

namespace Sys2Proof.Machine

/-! ## Sources (R264 to R267) -/

/-- Channel slots per sample time. -/
def Dev.auSlots (d : Dev) (a : Nat) : Nat := if d.get (auType a) = 2 then 1 else 2 ^ d.get (auNch a)

/-- The channels of a comparator or ADC source. -/
def Dev.auChans (d : Dev) (a : Nat) : List Nat :=
  if d.get (auType a) = 2 then [] else (List.range (d.auSlots a)).map (· + d.get (auFirst a))

/-- The start channel of a TMU (R298). -/
def Dev.tmuStartChan (d : Dev) (u : Nat) : Nat := 64 * (u / 16) + d.get (tmuStartCh u)
def Dev.tmuStopChan (d : Dev) (u : Nat) : Nat := 64 * (u / 16) + d.get (tmuStopCh u)

/-- The site of an AU (R288). -/
def Dev.auSite (d : Dev) (a : Nat) : Option Nat :=
  if d.get (auType a) = 2 then d.siteOf (d.tmuStartChan (d.get (auTmu a))) else d.siteOf (d.get (auFirst a))

/-- The edge die of an AU's source. -/
def Dev.auDie (d : Dev) (a : Nat) : Nat :=
  if d.get (auType a) = 2 then d.get (auTmu a) / 16 else dieOf (d.get (auFirst a))

/-- Bits of one slot's field (R267). -/
def Dev.auFieldBits (d : Dev) (a : Nat) : Nat :=
  if d.is (auSweep a) then 8
  else match d.get (auType a) with
    | 0 => 2
    | 1 => 32
    | _ => 64

/-- Bits per sample time. -/
def Dev.auBits (d : Dev) (a : Nat) : Nat := d.auFieldBits a * d.auSlots a

/-! ## The record at arming (R268 to R270, R280) -/

/-- First byte and size of the allocation. -/
def Dev.auAllocAddr (d : Dev) (a : Nat) : Nat := 0xC000000 + 0x10000 * d.get (auBase a)
def Dev.auAllocBytes (d : Dev) (a : Nat) : Nat := 0x10000 * max 1 (d.get (auSize a))

/-- The capacity C (R269). -/
def Dev.auCapacity (d : Dev) (a : Nat) : Nat := (d.auAllocBytes a - 64) * 8 / d.auBits a

/-- Whole units of `n`, upwards. -/
def ceilDiv (v n : Nat) : Nat := (v + n - 1) / n

/-- The slot size for P + Q sample times of `b` bits (R269). -/
def slotBytes (pq b : Nat) : Nat := 64 * ceilDiv (64 + ceilDiv (pq * b) 8) 64

/-- A settled record: P, Q, PRE_REDUCED, drained, slot size, slots. -/
structure Settled where
  p       : Nat
  q       : Nat
  preRed  : Bool
  drained : Bool
  slotSz  : Nat
  slotsN  : Nat
  deriving DecidableEq, Repr

/-- The settlement of R270; none: refused. -/
def Dev.auSettleRec (d : Dev) (a : Nat) : Option Settled :=
  let p := d.get (auPre a)
  let q := max 1 (d.get (auPost a))
  let c := d.auCapacity a
  let b := d.auBits a
  let bytes := d.auAllocBytes a
  let plain (p : Nat) (red : Bool) : Option Settled :=
    some { p := p, q := q, preRed := red, drained := false, slotSz := slotBytes (p + q) b,
           slotsN := bytes / slotBytes (p + q) b }
  if p + q ≤ c then plain p false
  else if q ≤ c then plain (c - q) true
  else if d.is (auDrainEn a) && d.get (auDrainSize a) != 0 && !d.is (auSweep a) then
    let cut := decide (c < p + 1)
    some { p := if cut then 0 else p, q := q, preRed := cut && decide (0 < p), drained := true, slotSz := bytes, slotsN := 1 }
  else none

/-- The trigger kind suits the source (R281). -/
def kindSuits (kind ty : Nat) : Bool :=
  if kind < 5 then ty == 0 else if kind = 5 then ty == 1 else decide (kind < 10)

/-- A measurement code suits the source (R284). -/
def measSuits (code ty : Nat) : Bool :=
  code == 0 || (inRange 1 6 code && ty == 0) || (inRange 7 0xB code && ty == 1)

/-- Arming is accepted (R280): the settled record. -/
def Dev.auArmable (d : Dev) (a : Nat) : Option Settled :=
  let ty := d.get (auType a)
  let measOk := !d.is (auMeasEn a) || (List.range 4).all fun k => measSuits (d.get (auMsel a k) % 16) ty
  let sweepOk := !d.is (auSweep a) || ty == 0
  if kindSuits (d.get (auKind a)) ty && measOk && sweepOk && ty != 3 then d.auSettleRec a else none

/-! ## Readiness (R271, R272, R278, R291) -/

/-- The release index in effect: a record held by a job's view counts as not released (R330). -/
def Dev.auRelease (d : Dev) (a : Nat) : Nat :=
  let wr := d.get (auRecWr a)
  let back (x : Nat) : Nat := (wr + 65536 - x) % 65536
  (d.au a).holds.foldl (fun r h => if back r < back h then h else r) (d.get (auRecRd a))

/-- The AU is FULL (R272). -/
def Dev.auFull (d : Dev) (a : Nat) : Bool :=
  decide ((d.au a).slotsN ≤ (d.get (auRecWr a) + 65536 - d.auRelease a) % 65536)

/-- The AU becomes ready for a trigger, or waits in FULL. -/
def Dev.auToReady (d : Dev) (a : Nat) : Dev :=
  let x := d.au a
  if d.auFull a && x.passes == 0 then d.put (auState a) 4
  else
    let dead := match x.lastEnd with
      | some t => min (d.mclk - t) 0xFFFFFFFF
      | none => 0
    (d.put (auState a) 1).setAu a { x with readyAt := d.mclk, dead := if x.passes = 0 then dead else x.dead, tmuS := [], ev := none }

/-- The thresholds of sweep pass `k` load on the AU's channels (R291). -/
def Dev.sweepLoad (d : Dev) (a k : Nat) : Dev :=
  d.forEach (d.auChans a) fun d c =>
    let d := d.setChan c { d.chan c with sweepV := some (d.get (auSweepVoh a k), d.get (auSweepVol a k)) }
    (d.reconvert c 3).reconvert c 4

/-- VOH and VOL return to the codes in force (R293). -/
def Dev.sweepReturn (d : Dev) (a : Nat) : Dev :=
  d.forEach (d.auChans a) fun d c =>
    let d := d.setChan c { d.chan c with sweepV := none }
    (d.reconvert c 3).reconvert c 4

/-- The sweep settle time as it acts. -/
def Dev.auSettleMp (d : Dev) (a : Nat) : Nat := max 64 (d.get (auSettle a))

/-- A source of the AU lies in a quiesced sector, whose resources take no work (R584). -/
def Dev.auQuiesced (d : Dev) (a : Nat) : Bool :=
  if d.get (auType a) = 2 then d.quiesced (sectorOf (d.tmuStartChan (d.get (auTmu a))))
  else (d.auChans a).any fun c => d.quiesced (sectorOf c)

/-- An idle AU is armed (R276, R280, R291). `one`: an ACQ step arms for one record and first releases every slot (R272). -/
def Dev.auArmCore (d : Dev) (a : Nat) (run : Option Nat) (step : Nat) (one : Bool) (wait : Option Nat) : Dev :=
  if d.get (auState a) ≠ 0 ∨ d.auQuiesced a = true then d
  else match d.auArmable a with
    | none => (d.put (auArmErr a) 1).event (srcAu a) 0x0503 ((d.au a).seqNo % 2 ^ 32)
    | some r =>
      let d := if one then d.put (auRecRd a) (d.get (auRecWr a)) else d
      let d := (((d.put (auArmErr a) 0).put (auCntMiss a) 0).put (auCntGap a) 0).put (auPass a) 0
      let n := d.get (auRec a)
      let left := if one || d.is (auSweep a) then some 1 else if n = 0 then none else some n
      let d := d.setAu a
        { d.au a with
          slotSz := r.slotSz, slotsN := r.slotsN, pre := r.p, post := r.q, preRed := r.preRed, drained := r.drained,
          left := left, armTb := d.tb, lastEnd := none, dead := 0, missed := 0, missEv := false, ev := none, preS := [],
          preShort := false, noConv := false, loss := 0, soft := [], passes := 0, tmuS := [], run := run, step := step,
          waitEnd := wait.map fun w => d.mclk + us w }
      if d.is (auSweep a) then
        let d := (d.sweepLoad a 0).put (auState a) 5
        d.setAu a { d.au a with waitTo := d.mclk + d.auSettleMp a }
      else d.auToReady a

/-! ## Triggers (R281 to R283) -/

/-- The signal x of a comparator slot: CH, or the complement of CL. -/
def sigX (tcmp v : Nat) : Bool := if tcmp = 0 then v / 2 % 2 == 1 else v % 2 == 0

def sampCh (v : Nat) : Bool := v / 2 % 2 == 1
def sampCl (v : Nat) : Bool := v % 2 == 1

/-- An edge of the selected slope from `p` to `n`. -/
def edgeIs (slope : Nat) (p n : Bool) : Bool :=
  match slope with
  | 0 => !p && n
  | 1 => p && !n
  | _ => p != n

/-- The WIN test of WIDTH and SLEW. -/
def winTest (win tmin tmax t : Nat) : Bool :=
  let inside := inRange tmin tmax t
  if win = 0 then inside else !inside

/-- Samples, newest first, up to and without the last edge of the slope; none where no such edge stands. -/
def sinceEdge (slope : Nat) : List Bool → Option Nat
  | n :: p :: rest => if edgeIs slope p n then some 0 else (sinceEdge slope (p :: rest)).map (· + 1)
  | _ => none

/-- A pulse of level `lv` ends at the newest sample: its width, from edge sample to edge sample. -/
def pulseWidth (lv : Bool) : List Bool → Option Nat
  | n :: rest =>
    if n != lv then
      let run := rest.takeWhile fun x => x == lv
      if run.length = 0 ∨ run.length = rest.length then none else some run.length
    else none
  | [] => none

/-- A runt ends at the newest sample: `lo` says where the pin is back, `mid` where it is between. -/
def runtEnds (back mid : Nat → Bool) : List Nat → Bool
  | n :: rest =>
    let run := rest.takeWhile mid
    back n && decide (0 < run.length) && (match rest.drop run.length with
      | p :: _ => back p
      | [] => false)
  | [] => false

/-- A transition completes at the newest sample: from `from_` over samples that are `mid` to `dest`; the time from the first
crossing to the second. -/
def slewTime (from_ mid dest : Nat → Bool) : List Nat → Option Nat
  | n :: rest =>
    let run := rest.takeWhile mid
    match rest.drop run.length with
    | p :: _ => if dest n && from_ p then some run.length else none
    | [] => none
  | [] => none

/-- A comparator or ADC event qualifies at the newest sample of a stream of slot values (newest first). -/
def Dev.auQualifies (d : Dev) (a : Nat) (vs : List Nat) : Bool :=
  let slope := d.get (auSlope a)
  let xs := vs.map (sigX (d.get (auTcmp a)))
  let tmin := d.get (auTmin a)
  let win := winTest (d.get (auWin a)) tmin (d.get (auTmax a))
  let mid (v : Nat) : Bool := !sampCh v && !sampCl v
  match d.get (auKind a) with
  | 0x0 =>
    match xs with
    | n :: p :: _ => edgeIs slope p n
    | _ => false
  | 0x1 =>
    match pulseWidth (d.get (auPol a) == 0) xs with
    | some w => win w
    | none => false
  | 0x2 =>
    (slope != 1 && runtEnds sampCl mid vs) || (slope != 0 && runtEnds sampCh mid vs)
  | 0x3 =>
    (match sinceEdge slope xs with
    | some n => n
    | none => xs.length) == max 1 tmin
  | 0x4 =>
    (slope != 1 && (match slewTime sampCl mid sampCh vs with
      | some t => win t
      | none => false))
    || (slope != 0 && (match slewTime sampCh mid sampCl vs with
      | some t => win t
      | none => false))
  | 0x5 =>
    let code := d.get (auLevel a)
    match vs with
    | n :: p :: _ =>
      (slope != 1 && decide (p < code) && decide (code ≤ n)) || (slope != 0 && decide (code ≤ p) && decide (n < code))
    | _ => false
  | _ => false

/-! ## Measurements (R284, R285) -/

/-- The edges of x in a record: sample index and direction, oldest first. -/
def edgesOf : Nat → List Bool → List (Nat × Bool)
  | i, p :: n :: rest => if p != n then (i + 1, n) :: edgesOf (i + 1) (n :: rest) else edgesOf (i + 1) (n :: rest)
  | _, _ => []

/-- The lengths of the complete pulses of level `lv`. -/
def pulsesOf (lv : Bool) : List (Nat × Bool) → List Nat
  | (i, r) :: (j, r') :: rest => if r == lv then (j - i) :: pulsesOf lv ((j, r') :: rest) else pulsesOf lv ((j, r') :: rest)
  | _ => []

/-- A mean of sample counts. -/
def meanRat (l : List Nat) : Option Rat := if l.isEmpty then none else some ((l.sum : Rat) / l.length)

/-- The largest n with n × n ≤ v, by halving an interval; `fuel` bounds the halvings. -/
def sqrtIn (v lo hi : Nat) : Nat → Nat
  | 0 => lo
  | f + 1 =>
    if hi ≤ lo + 1 then lo
    else
      let m := (lo + hi) / 2
      if m * m ≤ v then sqrtIn v m hi f else sqrtIn v lo m f

/-- The whole part of a square root. -/
def sqrtNat (v : Nat) : Nat := sqrtIn v 0 (2 ^ (Nat.log2 v / 2 + 1)) (Nat.log2 v + 2)

/-- A comparator measurement; one sample time lasts `fs` femtoseconds. -/
def compMeas (code : Nat) (xs : List Bool) (fs : Rat) (up : Bool) : Option Int :=
  let es := edgesOf 0 xs
  let rises := (es.filter fun p => p.2).map fun p => p.1
  let period : Option Int :=
    match rises.head?, rises.getLast? with
    | some f, some l => if 2 ≤ rises.length then some (roundHalfUp (((l - f : Nat) : Rat) / ((rises.length - 1 : Nat) : Rat) * fs)) else none
    | _, _ => none
  let high := meanRat (pulsesOf true es)
  let low := meanRat (pulsesOf false es)
  match code with
  | 1 => period
  | 2 => period.map fun p => roundHalfUp (1000000000000000 / (p : Rat))
  | 3 => high.map fun h => roundHalfUp (h * fs)
  | 4 => low.map fun l => roundHalfUp (l * fs)
  | 5 =>
    match high, low with
    | some h, some l => some (openRound (h * 1000000 / (h + l)) up)
    | _, _ => none
  | 6 => some es.length
  | _ => none

/-- The fullest bin of a list of bins; a tie goes to the one that stands first. -/
def fullest (cnt : Nat → Nat) : List Nat → Nat
  | [] => 0
  | b :: bs => let r := fullest cnt bs; if bs.isEmpty ∨ cnt r ≤ cnt b then b else r

/-- An ADC measurement over values in µV or pA. -/
def adcMeas (code : Nat) (vs : List Int) (up : Bool) : Option Int :=
  match vs with
  | [] => none
  | v :: rest =>
    let mn := rest.foldl min v
    let mx := rest.foldl max v
    let n : Int := vs.length
    match code with
    | 7 => some mn
    | 8 => some mx
    | 9 => some (roundHalfUp (((vs.sum : Int) : Rat) / n))
    | 0xA =>
      let ms : Rat := (((vs.map fun x => x * x).sum : Int) : Rat) / n
      let f := sqrtNat ms.floor.toNat
      some (if ms = ((f * f : Nat) : Rat) then (f : Int) else if up then f + 1 else f)
    | 0xB =>
      let bin (x : Int) : Nat := if mx = mn then 0 else (min 255 ((x - mn) * 256 / (mx - mn))).toNat
      let cnt (b : Nat) : Nat := (vs.filter fun x => bin x == b).length
      let top := fullest cnt ((List.range 128).map fun i => 255 - i)
      let base := fullest cnt (List.range 128)
      some (openRound (((top - base : Nat) : Rat) * ((mx - mn : Int) : Rat) / 256) up)
    | _ => none

/-- Measurement k of a record's samples; `units` gives the measure mode and the range of each channel slot. -/
def Dev.auMeasure (d : Dev) (a k : Nat) (ss : List (List Nat)) (units : List (Nat × Nat)) : Option Int :=
  let m := d.get (auMsel a k)
  let code := m % 16
  let slot := m / 16 % 8
  let vs := ss.map fun s => s.getD slot 0
  let up := Config.measureUp d.freeCtr
  if !d.is (auMeasEn a) || d.is (auSweep a) || code = 0 then none
  else if d.get (auType a) = 0 then
    let fs : Rat := ((2048 * 2 ^ d.get (auDecim a) : Nat) : Rat) * 1000000000 / 6144000
    compMeas code (vs.map (sigX (m / 128))) fs up
  else
    let c := d.get (auFirst a) + slot
    let u := units.getD slot (0, 0)
    adcMeas code (vs.map fun v => d.convert c u.1 u.2 (v % 2 ^ 18)) up

/-- The results of the last finalised record stand in the registers (R286). -/
def Dev.auMeasSet (d : Dev) (a k : Nat) (v : Option Int) : Dev :=
  let n := ofSigned 40 (v.getD 0)
  (d.put (auMeas a k) (n % 2 ^ 32)).put (auMeasHi a k) (n / 2 ^ 32 + (if v.isSome then 2 ^ 31 else 0))

/-- Slots of AU_MSEL in use. -/
def Dev.auUsedSlots (d : Dev) (a : Nat) : List Nat :=
  if d.is (auMeasEn a) then (List.range 4).filter fun k => d.get (auMsel a k) % 16 != 0 else []

/-! ## Records (R269, R273, R274, R297) -/

/-- Fields packed from bit 0 upwards (R267). -/
def packFields (w : Nat) : List Nat → Nat
  | [] => 0
  | v :: vs => v % 2 ^ w + 2 ^ w * packFields w vs

/-- Drain blocks that the host ring has room for are written (R274). -/
def Dev.auDrainOut (d : Dev) (a : Nat) : Nat → Dev
  | 0 => d
  | n + 1 =>
    let blocks := d.get (auDrainSize a) * 64
    let wr := d.get (auDrainWr a)
    match (d.au a).fifo with
    | [] => d
    | b :: rest =>
      if (wr + 2 ^ 32 - d.get (auDrainRd a)) % 2 ^ 32 < blocks then
        let d := d.emit (.dma (d.get2 (auDrainAddr a) (auDrainAddrHi a) + 64 * (wr % blocks)) (toBytes 64 b))
        ((d.put (auDrainWr a) ((wr + 1) % 2 ^ 32)).setAu a { d.au a with fifo := rest }).auDrainOut a n
      else d

/-- One drain block (R273). -/
def drainBlock (ty rec count data : Nat) : Nat := ty + 2 ^ 16 * (rec % 2 ^ 16) + 2 ^ 32 * (count % 2 ^ 32) + 2 ^ 64 * data

/-- Sample blocks of a drained record: `per` sample times to a block. -/
def drainBlocks (rec per w : Nat) : Nat → List (List Nat) → List Nat
  | 0, _ => []
  | _, [] => []
  | f + 1, ss => drainBlock 0 rec (ss.take per).length (packFields w (ss.take per).flatten) :: drainBlocks rec per w f (ss.drop per)

/-- A record is finalised (R272, R278, R284 to R289, R297): header and samples into its slot, measurements, the ACQ results.
`ss`: the samples; `pre`: how many of them are pre-trigger; `extra`: further flags. -/
def Dev.auFinalise (d : Dev) (a : Nat) (ss : List (List Nat)) (pre extra : Nat) : Dev :=
  let x := d.au a
  let w := d.auFieldBits a
  let b := d.auBits a
  let ty := d.get (auType a)
  let sweep := d.is (auSweep a)
  let n := ss.length
  let slot := d.auAllocAddr a + d.get (auRecWr a) % max 1 x.slotsN * x.slotSz
  let meas := (List.range 4).map fun k => (d.auMeasure a k ss x.units).map fun v => fit40 v (Config.openValue d.freeCtr k)
  let d := { d with freeCtr := d.freeCtr + 1 }
  let d := d.forEach (List.range 4) fun d k => if d.is (auMeasEn a) then d.auMeasSet a k (meas.getD k none) else d
  let unref := ty == 2 && ss.any fun s => (s.getD 0 0).testBit 40
  -- the drain: what the ring takes, what waits in the allocation, what is dropped
  let per := 448 / b
  let blocks := if x.drained then drainBlocks x.seqNo per w (n + 1) ss else []
  let ring := d.get (auDrainSize a) * 64 - (d.get (auDrainWr a) + 2 ^ 32 - d.get (auDrainRd a)) % 2 ^ 32
  let fifoRoom := d.auCapacity a - per * x.fifo.length
  let fits := if x.drained then min n (per * (ring - x.fifo.length) + fifoRoom) else 0
  let gap := if x.drained then n - fits else 0
  let fl := x.preShort.toNat + 2 * x.preRed.toNat + 4 * x.drained.toNat + 8 * (decide (0 < gap)).toNat
    + 64 * (decide (0 < x.loss)).toNat + 128 * unref.toNat
    + 256 * (sweep && decide (x.passes < d.get (auKM1 a) + 1)).toNat + 512 * x.noConv.toNat
    + 1024 * (meas.any fun m => m.isSome).toNat
  let tb := ((d.tb : Int) + (x.trigAt / 4096 : Nat) - d.mclk) % (2 ^ 64 : Int)
  let first := if ty = 2 then d.get (auTmu a) else d.get (auFirst a)
  let td := match x.run with
    | some id => (match d.runById id with
      | some r => r.td
      | none => 0)
    | none =>
      match d.auSite a with
      | some s => (match d.runOfSite s with
        | some r => r.td
        | none => 0)
      | none => 0
  let isFirst := x.lastEnd.isNone
  let hdr := x.seqNo % 2 ^ 32 + 2 ^ 32 * (a + 32 * ty + 128 * sweep.toNat) + 2 ^ 40 * (d.get (auKind a) + 16 * d.get (auDecim a))
    + 2 ^ 48 * (fl ||| extra) + 2 ^ 64 * tb.toNat + 2 ^ 128 * (x.trigAt % 4096) + 2 ^ 144 * (if sweep then x.passes else 0)
    + 2 ^ 160 * (pre % 2 ^ 32) + 2 ^ 192 * ((if x.drained then 0 else n - pre) % 2 ^ 32) + 2 ^ 224 * (fits % 2 ^ 32)
    + 2 ^ 256 * (gap % 2 ^ 32) + 2 ^ 288 * (if isFirst then 0 else x.dead) + 2 ^ 320 * ((if isFirst then 0 else x.missed) % 2 ^ 32)
    + 2 ^ 352 * (x.loss % 2 ^ 32) + 2 ^ 384 * ((d.auSite a).getD 0) + 2 ^ 392 * first + 2 ^ 400 * (x.step % 2 ^ 16)
    + 2 ^ 416 * d.auSlots a + 2 ^ 448 * (td % 2 ^ 64)
  let d := d.st slot 64 hdr
  let d := if x.drained then d else d.st (slot + 64) (ceilDiv (n * b) 8) (packFields w ss.flatten)
  let kept := blocks.take (ceilDiv fits per)
  let tail := (if 0 < gap then [drainBlock 1 x.seqNo gap 0] else []) ++ [drainBlock 2 x.seqNo 0 0]
  let d := if x.drained then (d.setAu a { x with fifo := x.fifo ++ kept ++ tail }).auDrainOut a (x.fifo.length + kept.length + 2) else d
  let d := if 0 < gap then (d.addSat (auCntGap a) gap).event (srcAu a) 0x0502 (x.seqNo % 2 ^ 32 + 2 ^ 32 * (gap % 2 ^ 32)) else d
  let d := d.put (auRecWr a) ((d.get (auRecWr a) + 1) % 65536)
  let d := if d.is (auEvRec a) then d.event (srcAu a) 0x0504 (x.seqNo % 2 ^ 32) else d
  let d := d.setAu a { d.au a with
    seqNo := x.seqNo + 1, lastRec := slot, lastEnd := some d.mclk, missed := 0, dead := 0, preS := [], loss := 0, soft := [], passes := 0 }
  match x.run with
  | none => d
  | some id =>
    d.forEach (d.auUsedSlots a) fun d k =>
      match d.runById id, d.auSite a with
      | some r, some s =>
        match (r.siteRes s).find? fun y => y.unit == 4 * a + k, r.step? with
        | some y, some st =>
          let stale := (d.auChans a).foldl (fun f c => f ||| d.staleFlag c) 0
          let v := meas.getD k none
          d.putReading id s y.j
            { value := v.getD 0, code := match v with
                | some v => judge st v
                | none => rFailLo,
              flags := stale ||| (if unref then fUnreferenced else 0), startTb := x.armTb, endTb := d.tb }
        | _, _ => d
      | _, _ => d

/-- The re-arm time (R277). -/
def Dev.auRearm (d : Dev) (a : Nat) : Nat :=
  let t := if d.is (auMeasEn a) then 384 else 64
  if d.is (auSweep a) then max t (d.auSettleMp a) else t

/-- The samples of one pass added, index by index (R292). -/
def addSoft : List (List Nat) → List (List Nat) → List (List Nat)
  | [], ys => ys
  | xs, [] => xs
  | x :: xs, y :: ys => (List.range (max x.length y.length)).map (fun i => x.getD i 0 + y.getD i 0) :: addSoft xs ys

/-- A comparator sample as a soft contribution: CH + (1 − CL). -/
def softOf (v : Nat) : Nat := (sampCh v).toNat + (!sampCl v).toNat

/-- The soft contributions of a pass: `skip` sample indices it has no sample for. -/
def passSoft (skip slots : Nat) (ss : List (List Nat)) : List (List Nat) :=
  List.replicate skip (List.replicate slots 0) ++ ss.map fun s => s.map softOf

/-- The samples an AU holds of a record that is cut off now (R279): the trigger sample and what was taken since; what it was
is an open value. -/
def Dev.auCutSamples (d : Dev) (a : Nat) : List (List Nat) :=
  let x := d.au a
  let iv := d.auInterval a
  if iv = 0 then (x.preS ++ x.tmuS).take (x.preS.length - 1 + x.post)
  else
    let taken := min (x.post - 1) ((4096 * d.mclk - x.trigAt) / iv)
    x.preS ++ (List.range taken).map fun i =>
      (List.range (d.auSlots a)).map fun j => Config.cutSample d.freeCtr i j % 2 ^ (if d.get (auType a) = 0 then 2 else 18)

/-- An armed AU returns to IDLE (R279, R293); a record in progress is finalised as TRUNCATED. -/
def Dev.auDisarmCore (d : Dev) (a : Nat) (parked : Bool) : Dev :=
  let st := d.get (auState a)
  if st = 0 then d
  else
    let x := d.au a
    let fl := 16 + (if parked then 32 else 0)
    let d := match x.run, d.auSite a with
      | some id, some s => d.cutRes id s (fun y => y.unit / 4 == a) rIncomplete fIntegrity
      | _, _ => d
    let d := d.setAu a { d.au a with run := none }
    let d :=
      if d.is (auSweep a) then
        if st = 2 then
          let ss := d.auCutSamples a
          let soft := addSoft x.soft (passSoft (x.pre + 1 - x.preS.length) (d.auSlots a) ss)
          d.nextFree.auFinalise a soft x.pre fl
        else if 0 < x.passes then d.auFinalise a x.soft x.pre fl
        else d
      else if st = 2 then d.nextFree.auFinalise a (d.auCutSamples a) (x.preS.length - 1) fl
      else d
    let d := if d.is (auSweep a) then d.sweepReturn a else d
    ((d.put (auState a) 0).put (auPass a) 0).setAu a { (d.put (auState a) 0).au a with ev := none, step := 0xFFFF, waitEnd := none }

/-! ## The rows -/

/-- AU_ARM (R276). -/
def Dev.auArm (d : Dev) (a : Nat) : Dev := d.auArmCore a none 0xFFFF false none

/-- AU_DISARM (R279). -/
def Dev.auDisarm (d : Dev) (a : Nat) : Dev := d.auDisarmCore a false

/-- AU_SWTRIG (R281, R282): the event time is the master period in which the write reaches the AU. -/
def Dev.auSwtrig (d : Dev) (a : Nat) : Dev := if d.get (auKind a) = 9 then d.auEvent a (4096 * d.mclk) else d

/-- A FULL AU whose slots have been released becomes ready (R272). -/
def Dev.auUnfill (d : Dev) (a : Nat) : Dev :=
  if d.get (auState a) = 4 ∧ d.auFull a = false then d.auToReady a else d

/-- AU_REC_RELEASE (R272). -/
def Dev.auRecRelease (d : Dev) (a v : Nat) : Dev := (d.put (auRecRd a) (v % 65536)).auUnfill a

/-- AU_DRAIN_READ (R274). -/
def Dev.auDrainRead (d : Dev) (a v : Nat) : Dev :=
  (d.put (auDrainRd a) (v % 2 ^ 32)).auDrainOut a ((d.au a).fifo.length)

/-- AU_TRIGGER: a trigger event at a tick (R281 to R283). `stream` holds the samples taken since readiness, the newest the
trigger sample. -/
def Dev.auTrigger (d : Dev) (a : Nat) (stream : List (List Nat)) (tick : Nat) : Dev :=
  let st := d.get (auState a)
  let kind := d.get (auKind a)
  let tmu := d.get (auType a) == 2
  let x := d.au a
  let ss := if tmu then x.tmuS else stream
  let rev := ss.reverse
  let own := kind < 6
  let hit := if own then d.auQualifies a (rev.map fun s => s.getD (d.get (auTch a)) 0) else
    match x.ev with
    | some t => decide (t ≤ tick) && d.auEvOpen a t tick && !ss.isEmpty
    | none => false
  if !hit then d
  else if !d.auGate a tick then (if own then d else d.setAu a { x with ev := none })
  else if st = 1 then
    let d := d.advanceTo (tick / 4096)
    let have_ := ss.length - 1
    let kept := ss.drop (have_ - x.pre)
    let unit (j : Nat) : Nat × Nat := (d.measNow (d.get (auFirst a) + j), d.rangeNow (d.get (auFirst a) + j))
    (d.put (auState a) 2).setAu a
      { d.au a with
        trigAt := tick, ev := none, preS := kept, preShort := x.preShort || decide (have_ < x.pre), tmuS := [], waitEnd := none,
        units := if d.get (auType a) = 1 then (List.range (d.auSlots a)).map unit else [] }
  else if (st = 3 ∨ st = 4) ∧ own = true then (d.advanceTo (tick / 4096)).auMissed a
  else d

/-- AU_RECORD_END: the last post-trigger sample has been taken (R270, R277, R291, R292). `post` holds the samples after the
trigger sample. -/
def Dev.auRecordEnd (d : Dev) (a : Nat) (post : List (List Nat)) (noConv : Bool) : Dev :=
  let x := d.au a
  let tmu := d.get (auType a) == 2
  let rest := if tmu then x.tmuS else post
  if d.get (auState a) ≠ 2 ∨ rest.length + 1 < x.post then d
  else
    let d := if tmu then d else d.advanceTo ((x.trigAt + (x.post - 1) * d.auInterval a) / 4096 + 1)
    let ss := x.preS ++ rest.take (x.post - 1)
    let d := d.setAu a { d.au a with noConv := x.noConv || noConv }
    let d := d.put (auState a) 3
    let wait := d.mclk + d.auRearm a
    if d.is (auSweep a) then
      let soft := addSoft x.soft (passSoft (x.pre + 1 - x.preS.length) (d.auSlots a) ss)
      let d := d.setAu a { d.au a with soft := soft, passes := x.passes + 1, waitTo := wait, preS := [] }
      if x.passes + 1 < d.get (auKM1 a) + 1 then (d.put (auPass a) (x.passes + 1)).sweepLoad a (x.passes + 1)
      else
        let d := (d.auFinalise a soft x.pre 0).sweepReturn a
        d.setAu a { d.au a with left := some 0 }
    else
      let d := d.auFinalise a ss (x.preS.length - 1) 0
      d.setAu a { d.au a with waitTo := wait, left := x.left.map (· - 1), preShort := false, noConv := false }

/-- A result of an AU in the step is still open. -/
def Dev.auOpen (d : Dev) (a : Nat) : Bool :=
  match (d.au a).run with
  | some id => (match d.runById id with
    | some r => r.openRes.any fun y => y.unit / 4 == a
    | none => false)
  | none => false

/-- AU_REARM_END (R276, R277, R290): ready again, or IDLE; a repeat arms for a further record (R238). -/
def Dev.auRearmEnd (d : Dev) (a : Nat) : Dev :=
  let x := d.au a
  if d.get (auState a) ≠ 3 then d
  else
    let d := d.advanceTo x.waitTo
    if x.left = some 0 then
      let d := (d.put (auState a) 0).put (auPass a) 0
      if d.auOpen a then
        match (match x.run with
          | some id => d.runById id
          | none => none) with
        | some r => d.auArmCore a x.run x.step true (r.step?.map fun st => st.acqWait)
        | none => d
      else d.setAu a { d.au a with run := none, step := 0xFFFF, waitEnd := none }
    else d.auToReady a

/-- AU_SWEEP_SETTLE_END (R291). -/
def Dev.auSweepSettleEnd (d : Dev) (a : Nat) : Dev :=
  if d.get (auState a) = 5 then (d.advanceTo (d.au a).waitTo).auToReady a else d

/-- ACQ_WAIT_EXPIRY (R290): no trigger within WAIT; the AU is disarmed and its results take VALUE 0 and FAIL_LO. -/
def Dev.acqWaitExpiry (d : Dev) (a : Nat) : Dev :=
  let x := d.au a
  match x.waitEnd, x.run, d.auSite a with
  | some t, some id, some s =>
    let st := d.get (auState a)
    if st = 1 ∨ st = 4 ∨ st = 5 then
      let d := d.advanceTo t
      let js := match d.runById id with
        | some r => ((r.siteRes s).filter fun y => y.unit / 4 == a && y.fin.isNone).map fun y => y.j
        | none => []
      let d := d.forEach js fun d j => d.putReading id s j { value := 0, code := rFailLo, flags := 0, startTb := x.armTb, endTb := d.tb }
      let again := d.auOpen a
      let d := if d.is (auSweep a) then d.sweepReturn a else d
      let d := (d.put (auState a) 0).put (auPass a) 0
      let wait := match d.runById id with
        | some r => r.step?.map fun st => st.acqWait
        | none => none
      if again then d.auArmCore a x.run x.step true wait
      else d.setAu a { d.au a with run := none, step := 0xFFFF, waitEnd := none, ev := none }
    else d
  | _, _, _ => d

/-! ## The meanings -/

/-- AU_ARM (R276, R280). -/
def execAuArm (a : Fin 32) (s : State) : Answer := onDev s fun d => d.orHold (0x200008 + 0x1000 * a) 1 fun d => d.auArm a

/-- AU_DISARM (R279). -/
def execAuDisarm (a : Fin 32) (s : State) : Answer := onDevIdle s fun d => d.orHold (0x200008 + 0x1000 * a) 2 fun d => d.auDisarm a

/-- AU_SWTRIG (R281, R282). -/
def execAuSwtrig (a : Fin 32) (s : State) : Answer := onDev s fun d => d.orHold (0x20000C + 0x1000 * a) 1 fun d => d.auSwtrig a

/-- AU_REC_RELEASE (R272). -/
def execAuRecRelease (a : Fin 32) (v : Word) (s : State) : Answer := onDev s fun d => d.auRecRelease a v.toNat

/-- AU_DRAIN_READ (R274). -/
def execAuDrainRead (a : Fin 32) (v : Word) (s : State) : Answer := onDev s fun d => d.auDrainRead a v.toNat

/-- AU_TRIGGER (R281 to R283). -/
def execAuTrigger (a : Fin 32) (stream : List (List Nat)) (evAt : Nat) (s : State) : Answer :=
  onDev s fun d => d.auTrigger a stream evAt

/-- AU_RECORD_END (R270, R277). -/
def execAuRecordEnd (a : Fin 32) (post : List (List Nat)) (noConv : Bool) (s : State) : Answer :=
  onDevIdle s fun d => d.auRecordEnd a post noConv

/-- AU_REARM_END (R276, R277). -/
def execAuRearmEnd (a : Fin 32) (s : State) : Answer := onDevIdle s fun d => d.auRearmEnd a

/-- AU_SWEEP_SETTLE_END (R291). -/
def execAuSweepSettleEnd (a : Fin 32) (s : State) : Answer := onDev s fun d => d.auSweepSettleEnd a

/-- ACQ_WAIT_EXPIRY (R290). -/
def execAcqWaitExpiry (a : Fin 32) (s : State) : Answer := onDevIdle s fun d => d.acqWaitExpiry a

end Sys2Proof.Machine
end

