-- ==== Sys2Proof/Machine/DseUnit.lean ====
section
/-!
DEFINITION. The DSP engines (chapter 10): local memory and views, jobs and their results, dispatch, quiesce and kernels.
-/

namespace Sys2Proof.Machine

/-! ## Memories (R319, R326) -/

def dseLocal (e i : Nat) : Nat := 0xF000000 + 0x80000 * e + 8 * i
def dseInstr (e i : Nat) : Nat := 0xFC00000 + 0x10000 * e + 8 * i

/-- A local data word: 40 bits of an 8-byte slot. -/
def Dev.localWord (d : Dev) (e i : Nat) : Nat := d.ld (dseLocal e i) 5

def Dev.setLocal (d : Dev) (e i v : Nat) : Dev := d.st (dseLocal e i) 8 (v % 2 ^ 40)

/-- Element i of a view, as a 40-bit word (R329). -/
def Dev.viewElem (d : Dev) (j : Job) (v : View) (i : Nat) : Nat :=
  match v.kind with
  | 1 => ofSigned 40 (j.samples.getD i 0)
  | 2 =>
    let bit := i * v.bits
    let n := bitsOf (d.ld (v.base + bit / 8) 9) (bit % 8) v.bits
    if v.sgn then n % 2 ^ 40 else if v.bits = 32 then n % 2 ^ 18 else n
  | 3 =>
    let e := d.entAt j.site ((v.base + i / 2) % 1920)
    if i % 2 = 0 then e.testNum else ofSigned 40 e.value
  | _ => 0

/-- A view that gives nothing. -/
def View.none_ : View :=
  { kind := 0, au := 0, trunc := false, flags := 0, pre := 0, nch := 1, base := 0, bits := 1, sgn := false, count := 0 }

/-- At most 1,048,576 elements. -/
def View.limit (v : View) : View := if 1048576 < v.count then { v with count := 1048576, trunc := true } else v

/-- A view fixed at job start (R329). -/
def Dev.viewOf (d : Dev) (j : Job) (ask : Nat × Nat) : View :=
  match ask.1 with
  | 1 => { View.none_ with kind := 1, count := j.samples.length }.limit
  | 2 =>
    let a := ask.2
    let x := d.au a
    if x.seqNo = 0 then View.none_
    else
      let slot := x.lastRec
      let ty := d.ld (slot + 4) 1 / 32
      let bits := if 4 ≤ ty then 8 else if ty = 0 then 2 else if ty = 1 then 32 else 64
      let nch := d.ld (slot + 52) 1
      { kind := 2, au := a, trunc := false, flags := d.ld (slot + 6) 2, pre := d.ld (slot + 20) 4, nch := nch, base := slot + 64,
        bits := bits, sgn := decide (bits = 64),
        count := if (d.ld (slot + 6) 2).testBit 2 then 0 else (d.ld (slot + 20) 4 + d.ld (slot + 24) 4) * nch : View }.limit
  | 3 =>
    match (match j.run with
      | some id => d.runById id
      | none => none) with
    | some r => { View.none_ with kind := 3, base := siteNum r.first j.site, count := 2 * (d.runEntIdx r j.site).length : View }.limit
    | none => View.none_
  | _ => View.none_

/-! ## The job block (R328) -/

/-- The job block's words before the results. -/
def Job.block (j : Job) (vs : List View) : List Nat :=
  [if j.ppmu then 1 else 2, j.site, j.ch, j.unit, j.step, j.test, j.jobNo, 0]
    ++ (List.range 8).map (fun k => ofSigned 40 (j.params.getD k 0))
    ++ (List.range 4).flatMap fun k =>
      let v := vs.getD k View.none_
      [v.count, v.kind + 16 * v.au + 2 ^ 12 * v.trunc.toNat + 2 ^ 13 * v.flags, v.pre, v.nch]

/-- The job block is written and words 0x20 to 0x3F are cleared. -/
def Dev.writeBlock (d : Dev) (e : Nat) (j : Job) (vs : List View) : Dev :=
  let ws := (j.block vs).take 32 ++ List.replicate 32 0
  (ws.zipIdx).foldl (fun d p => d.setLocal e p.2 p.1) d

/-! ## Jobs -/

/-- The AU records that a job's views hold (R330). -/
def Dev.holdAus (d : Dev) (vs : List View) : Dev :=
  vs.foldl (fun d v =>
    if v.kind = 2 then
      let x := d.au v.au
      d.setAu v.au { x with holds := ((d.get (auRecWr v.au) + 65535) % 65536) :: x.holds }
    else d) d

/-- A job lets go of the AU records it held; a waiting release takes effect and a FULL AU may become ready (R330). -/
def Dev.freeAus (d : Dev) (vs : List View) : Dev :=
  vs.foldl (fun d v =>
    if v.kind = 2 then
      let x := d.au v.au
      let rest := x.holds.drop 1
      let d := if rest.isEmpty then
          match x.relTo with
          | some t => (d.put (auRecRd v.au) t).setAu v.au { (d.put (auRecRd v.au) t).au v.au with holds := [], relTo := none }
          | none => d.setAu v.au { x with holds := [] }
        else d.setAu v.au { x with holds := rest }
      d.auUnfill v.au
    else d) d

/-- The engine's registers at the start of a job (R325). -/
def Dse.start (x : Dse) (j : Job) : Dse :=
  { x with rf := Tab.set (fun _ => 0) [] 0x3A x.mode, pc := x.entry, rep := none, cycles := 0, lastV := [], job := some j }

/-- A job starts on an engine. `keep`: the same job again on the same views (R337). -/
def Dev.jobStart (d : Dev) (e : Nat) (j : Job) (keep : Bool) : Dev :=
  let vs := if keep then j.views else j.asks.map (d.viewOf j)
  let j := { j with views := vs, startTb := d.tb }
  let d := d.writeBlock e j vs
  let d := if keep then d else d.holdAus vs
  let d := d.setDse e ((d.dse e).start j)
  let d := if d.get (dseState e) = 4 then d else d.put (dseState e) 2
  d.putB (dseHoldAu e) (vs.any fun v => v.kind == 2)

/-- How a job ends (R335, R336, R338). -/
inductive JobEnd where
  | halt
  | err (cause : Nat)
  | cut
  deriving DecidableEq, Repr

/-- The reading that a job gives for its result i: a code of class no evidence comes before COMPLIANCE, and that before the limits
(R102, R227, R335). -/
def Dev.jobReading (d : Dev) (e : Nat) (j : Job) (st : StepData) (y : Res) (how : JobEnd) (i : Nat) : Reading :=
  let start := if j.ppmu then y.rdTb else j.startTb
  let fl := if j.ppmu then d.staleFlag j.ch else 0
  match how with
  | .err _ => { value := 0, code := rProgram, flags := fIntegrity ||| fl, startTb := start, endTb := d.tb }
  | .cut => { value := 0, code := rIncomplete, flags := fIntegrity ||| fl, startTb := start, endTb := d.tb }
  | .halt =>
    let v := toSigned 40 (d.localWord e (0x20 + i))
    let compl := j.ppmu && y.compl
    match d.localWord e (0x30 + i) % 256 with
    | 0 => { value := v, code := if compl then rCompliance else judge st v, flags := fl, startTb := start, endTb := d.tb }
    | 1 => { value := 0, code := if compl then rCompliance else rFailLo, flags := fl, startTb := start, endTb := d.tb }
    | _ => { value := v, code := rPrecondition, flags := fl, startTb := start, endTb := d.tb }

/-- The results of a job enter the step (R335 to R337); the result is whether one of them is still open. -/
def Dev.jobResults (d : Dev) (e : Nat) (j : Job) (how : JobEnd) : Dev × Bool :=
  match j.run with
  | none => (d, false)
  | some id =>
    let d := (List.range j.n).foldl (fun d i =>
      match d.runById id with
      | none => d
      | some r =>
        match r.step?, (r.siteRes j.site).find? fun y => y.j == j.j + i with
        | some st, some y => if how = .cut then d.cutRes id j.site (fun z => z.j == j.j + i) rIncomplete fIntegrity
            else d.putReading id j.site (j.j + i) (d.jobReading e j st y how i)
        | _, _ => d) d
    (d, match d.runById id with
      | some r => (r.siteRes j.site).any fun y => inRange j.j (j.j + j.n - 1) y.j && y.fin.isNone
      | none => false)

/-- The active job of an engine ends. A repeat runs the job again; else the engine is free. -/
def Dev.jobEnd (d : Dev) (e : Nat) (how : JobEnd) : Dev :=
  let x := d.dse e
  match x.job with
  | none => d
  | some j =>
    let d := (d.bump (dseCntJob e)).put (dseLastSt e) (Tab.get (fun _ => 0) x.rf 0x39)
    let d := match how with
      | .err c =>
        let d := (((d.put (dseErrPc e) x.pc).put (dseErrCause e) c).bump (dseCntErr e))
        d.event (srcDse e) 0x0704 (x.pc % 2 ^ 16 + 2 ^ 16 * c + 2 ^ 24 * j.site)
      | _ => d
    let d := if d.is (dseEvDone e) then d.event (srcDse e) 0x0703 (j.step + 2 ^ 16 * j.site) else d
    let p := d.jobResults e j how
    let d := p.1
    let again := p.2 && !j.ppmu
    if again && d.get (dseState e) == 2 then d.jobStart e j true
    else
      let d := if again then
          match j.run with
          | some id => d.cutRes id j.site (fun z => inRange j.j (j.j + j.n - 1) z.j) rPrecondition 0
          | none => d
        else d
      let d := (d.setDse e { d.dse e with job := none, rep := none }).freeAus j.views
      let d := d.put (dseHoldAu e) 0
      if d.get (dseState e) = 2 then d.put (dseState e) 1 else d

/-- A job that is not run: its results take PRECONDITION (R333, R334). -/
def Dev.jobRefused (d : Dev) (j : Job) : Dev :=
  match j.run with
  | none => d
  | some id =>
    (List.range j.n).foldl (fun d i =>
      match d.runById id with
      | none => d
      | some r =>
        match (r.siteRes j.site).find? fun y => y.j == j.j + i with
        | some y => d.putReading id j.site (j.j + i)
            { value := 0, code := rPrecondition, flags := 0, startTb := if j.ppmu then y.rdTb else d.tb, endTb := d.tb }
        | none => d) d

/-- An engine holds a kernel and is not QUIESCED (R333). -/
def Dev.holdsKernel (d : Dev) (e kid : Nat) : Bool :=
  let s := d.get (dseState e)
  d.get (dseKid e) == kid && (s == 1 || s == 2 || s == 4)

/-- The first listed DSP job that something can be done with: jobs of one RUN go in list order (R333). -/
def Dev.nextListed (d : Dev) (blocked : List (Option Nat)) : List Job → Option (Job × Option Nat)
  | [] => none
  | j :: js =>
    if blocked.contains j.run then Dev.nextListed d blocked js
    else
      let holders := (maskList 16 j.engines).filter fun e => d.holdsKernel e j.kid
      match holders.find? fun e => d.get (dseState e) == 1 && (d.dse e).queue.isEmpty with
      | some e => some (j, some e)
      | none => if holders.isEmpty then some (j, none) else Dev.nextListed d (j.run :: blocked) js

/-- DSP_JOB_DISPATCH (R333, R334): the first ready PPMU job whose engine is free, else the next listed DSP job. -/
def Dev.jobDispatch (d : Dev) : Dev :=
  let free (e : Nat) : Bool :=
    let s := d.get (dseState e)
    !(d.dse e).queue.isEmpty && s != 2 && s != 4
  match (List.range 16).find? free with
  | some e =>
    (match (d.dse e).queue with
    | [] => d
    | j :: js =>
      let d := d.setDse e { d.dse e with queue := js }
      if d.get (dseState e) = 1 ∧ d.get (dseKid e) = j.kid then d.jobStart e j false else d.jobRefused j)
  | none =>
    match d.nextListed [] d.jobs with
    | none => d
    | some (j, eng) =>
      let d := { d with jobs := d.jobs.erase j }
      match eng with
      | some e => d.jobStart e j false
      | none => d.jobRefused j

/-- The jobs of one RUN end (R338): the active ones are cut off, the queued and listed ones are not run. -/
def Dev.jobsCut (d : Dev) (id : Nat) (p : Job → Bool) : Dev :=
  let hit (j : Job) : Bool := j.run == some id && p j
  let d := { d with jobs := d.jobs.filter fun j => !hit j }
  d.forEach (List.range 16) fun d e =>
    let d := d.setDse e { d.dse e with queue := (d.dse e).queue.filter fun j => !hit j }
    match (d.dse e).job with
    | some j => if hit j then d.jobEnd e .cut else d
    | none => d

/-! ## Running, quiesce, kernels (R320, R339 to R341) -/

/-- DSE_QUIESCE (R341). -/
def Dev.dseQuiesce (d : Dev) (e : Nat) (force : Bool) : Dev :=
  match d.get (dseState e) with
  | 3 => d.setDse e { d.dse e with wasQ := true }
  | 5 => d
  | _ =>
    let d := d.put (dseState e) 4
    if force then d.jobEnd e .cut else d

/-- DSE_QUIESCED (R341). -/
def Dev.dseQuiesced (d : Dev) (e : Nat) : Dev :=
  if d.get (dseState e) = 4 ∧ (d.dse e).job.isNone = true then (d.put (dseState e) 5).event (srcDse e) 0x0702 0 else d

/-- DSE_RESUME (R341). -/
def Dev.dseResume (d : Dev) (e : Nat) : Dev :=
  if d.get (dseState e) = 5 then d.put (dseState e) (if d.get (dseKid e) = 0 then 0 else 1) else d

/-- DSE_RUN (R352): one job from the job block as it stands, with views of kind 0x0. -/
def Dev.dseRunRow (d : Dev) (e : Nat) : Dev :=
  if d.get (dseState e) = 1 ∧ d.dseRunning e = false then
    let j : Job :=
      { run := none, step := 0, ppmu := false, site := 0, ch := 0, unit := 0, j := 0, n := 0, jobNo := 0, test := 0,
        kid := d.get (dseKid e), engines := 2 ^ e, params := [], asks := [], samples := [], startTb := d.tb, views := [] }
    (d.setDse e ((d.dse e).start j)).put (dseState e) 2
  else d

/-- A kernel image keeps R339. -/
def imageOk (bytes : Nat) (im : List Byte) : Bool :=
  let f (a n : Nat) : Nat := ofBytes ((im.drop a).take n)
  let code := f 6 2
  let data := f 10 2
  let len := 64 + 8 * code + 8 * data
  f 0 2 == 0xD5E1 && f 2 2 != 0 && inRange 1 8192 code && decide (f 8 2 < code) && decide (data ≤ 65472)
    && decide (0x40 ≤ f 12 2) && decide (f 12 2 + data ≤ 65536) && inRange 1 16 (f 14 1) && decide (f 15 1 < 4)
    && ((im.drop 20).take 40).all (· == 0) && decide (bytes = len) && decide (im.length = len)
    && (List.range data).all (fun i => f (64 + 8 * code + 8 * i + 5) 3 == 0)
    && f 60 4 == crc32 (((im.take 60) ++ im.drop 64).map fun b => b.toNat)

/-- DSE_LOADED (R340): the code, the cleared local words, the data words and the image's parameters; the LOAD_KERNEL completes
with its last engine. -/
def Dev.dseLoaded (d : Dev) (e : Nat) : Dev :=
  let x := d.dse e
  match x.load with
  | none => d
  | some l =>
    if d.get (dseState e) ≠ 3 then d
    else
      let f (a n : Nat) : Nat := ofBytes ((l.image.drop a).take n)
      let code := f 6 2
      let data := f 10 2
      let lo := dseLocal e 0
      let d := { d with sram := Tab.keep (fun k => !(decide (lo ≤ k) && decide (k < lo + 0x80000))) d.sram }
      let d := d.stBytes (dseInstr e 0) ((l.image.drop 64).take (8 * code))
      let d := d.stBytes (dseLocal e (f 12 2)) ((l.image.drop (64 + 8 * code)).take (8 * data))
      let d := (d.put (dseKid e) (f 2 2)).put (dseVersion e) (f 4 2)
      let d := ((((d.put (dseCntJob e) 0).put (dseCntErr e) 0).put (dseCntCyc e) 0).put (dseCntCycHi e) 0)
      let d := d.setDse e
        { x with code := code, entry := f 8 2, nres := f 14 1, mode := f 15 1, limit := f 16 4, load := none, wasQ := false }
      let d := (d.put (dseState e) (if x.wasQ then 5 else 1)).event (srcDse e) 0x0701 (f 2 2 + 2 ^ 16 * f 4 2)
      let more := (List.range 16).any fun i => match (d.dse i).load with
        | some m => m.work == l.work
        | none => false
      if more then d
      else match d.host.work.find? fun w => w.id == l.work with
        | some w => d.complete w stOk 0 0
        | none => d

/-! ## The meanings -/

/-- DSE_QUIESCE (R341): bit 0 QUIESCE, bit 1 FORCE of `DSE_CMD`. -/
def execDseQuiesce (e : Fin 16) (force : Bool) (s : State) : Answer :=
  onDevIdle s fun d => d.orHold (0x400008 + 0x1000 * e) (1 + 2 * force.toNat) fun d => d.dseQuiesce e force

/-- DSE_QUIESCED (R341). -/
def execDseQuiesced (e : Fin 16) (s : State) : Answer := onDevIdle s fun d => d.dseQuiesced e

/-- DSE_RESUME (R341). -/
def execDseResume (e : Fin 16) (s : State) : Answer := onDev s fun d => d.orHold (0x400008 + 0x1000 * e) 4 fun d => d.dseResume e

/-- DSE_RUN (R352). -/
def execDseRun (e : Fin 16) (s : State) : Answer := onDev s fun d => d.orHold (0x400028 + 0x1000 * e) 1 fun d => d.dseRunRow e

/-- DSP_JOB_DISPATCH (R333, R334). -/
def execDspJobDispatch (s : State) : Answer := onDevIdle s fun d => d.jobDispatch

/-- DSE_LOADED (R340). -/
def execDseLoaded (e : Fin 16) (s : State) : Answer := onDevIdle s fun d => d.dseLoaded e

end Sys2Proof.Machine
end

