-- ==== Sys2Proof/Machine/Timing.lean ====
section
/-!
DEFINITION. Timing sets and edges (chapter 4): what one vector of a sequencer does at one pin. Driver events are made when the
vector starts and applied in order of absolute time; strobes are judged from what the comparators showed.
-/

namespace Sys2Proof.Machine

/-! ## Timing-set tables (R124, R154, R155) -/

def tsBase (s t : Nat) : Nat := 0x800000 + 0x80000 * s + 0x2000 * t

/-- The vector period of timing set t of sequencer s, in ticks (R124). -/
def Dev.tsPeriod (d : Dev) (s t : Nat) : Nat := max 4096 ((d.word (tsBase s t)).toNat + 1)

/-- The pin format byte of channel c (R155). -/
def Dev.pinFmt (d : Dev) (s t c : Nat) : Nat := bitsOf (d.word (tsBase s t + 0x100 + c / 4 * 4)).toNat (8 * (c % 4)) 8

def Dev.dfmt (d : Dev) (s t c : Nat) : Nat := d.pinFmt s t c % 8
def Dev.windowCompare (d : Dev) (s t c : Nat) : Bool := (d.pinFmt s t c).testBit 3
def Dev.holdSym (d : Dev) (s t c : Nat) : Nat := d.pinFmt s t c / 16

/-- The slot actions of a symbol of channel c: slot A and slot B (R126). -/
def Dev.slotActs (d : Dev) (s t c sym : Nat) : Nat × Nat :=
  let g := bitsOf (d.eget (peTimCtrl c)) 0 4
  let w := (d.word (tsBase s t + 0x400 + 0x40 * g + 4 * (sym % 16))).toNat
  (bitsOf w 0 3, bitsOf w 3 3)

/-- The clock a channel drives in place of its symbols: 1 CKA, 2 CKB, 0 none (R147, R157). -/
def Dev.clkMode (d : Dev) (c : Nat) : Nat :=
  let m := bitsOf (d.eget (peTimCtrl c)) 4 2
  if m = 3 then 0 else m

/-- The deskews of a channel, in ticks (R151, R157). -/
def Dev.drvDeskew (d : Dev) (c : Nat) : Int := max (-32767) (toSigned 16 (bitsOf (d.eget (peTimDsk c)) 0 16))

/-! ## Slot actions (R127, R130, R131) -/

/-- The on or off state a slot action gives the driver (R131). -/
def actOn (a : Nat) : Option Bool :=
  match a with
  | 0 => some true
  | 1 => some true
  | 6 => none
  | 7 => none
  | _ => some false

/-- The level of a drive action. -/
def actLvl (a : Nat) : Option Bool :=
  match a with
  | 0 => some false
  | 1 => some true
  | _ => none

/-- An expect action. -/
def isExpect (a : Nat) : Bool := a == 2 || a == 3 || a == 4

/-- The minimum pulse, in ticks (R139). -/
def minPulse : Nat := 983

/-- The offset of an edge as it is placed: at most 2 × period − 1 and 2^32 − 1 ticks (R129). -/
def placeEdge (period off : Nat) : Nat := min off (min (2 * period - 1) (2 ^ 32 - 1))

/-- An edge beyond its limit (R129). -/
def edgeOver (period off : Nat) : Bool := decide (min (2 * period - 1) (2 ^ 32 - 1) < off)

/-- A driver event: tick, vector, order (0 DX, 1 DA, 2 DB), on or off, level. -/
abbrev DrvEv := Int × Nat × Nat × Option Bool × Option Bool

/-- What one vector asks of one pin: its driver events, the edges it uses (DA, DB, DX) and whether a return was moved
(R130, R132). `a`, `b` are the slot actions; the offsets are placed under R129. -/
def vectorEvents (fmt a b : Nat) (vec : Nat) (t0 : Int) (da db dx : Nat) : List DrvEv × List Nat × Bool :=
  let on := actOn a
  let lv := actLvl a
  let at_ (o : Nat) : Int := t0 + o
  let evDX : List DrvEv := match on with
    | some x => [(at_ dx, vec, 0, some x, none)]
    | none => []
  let useDX := if on.isSome then [2] else []
  let evDA : List DrvEv := match lv with
    | some x => [(at_ da, vec, 1, none, some x)]
    | none => []
  let useDA := if lv.isSome then [0] else []
  let ret (x : Bool) : List DrvEv × List Nat × Bool :=
    let early := decide (db ≤ da)
    let t : Int := if early then at_ da + minPulse else at_ db
    (evDX ++ evDA ++ [(t, vec, 2, none, some x)], useDX ++ useDA ++ [1], early)
  match fmt with
  | 1 => if a = 1 then ret false else (evDX ++ evDA, useDX ++ useDA, false)
  | 2 => if a = 0 then ret true else (evDX ++ evDA, useDX ++ useDA, false)
  | 3 =>
    match lv with
    | some x =>
      let early := decide (db ≤ da)
      let t : Int := if early then at_ da + minPulse else at_ db
      let lead : List DrvEv :=
        if dx < da then [(at_ dx, vec, 0, some true, some (!x))] else [(at_ da, vec, 1, some true, none)]
      (lead ++ [(at_ da, vec, 1, none, some x), (t, vec, 2, none, some (!x))], [2, 0, 1], early)
    | none => (evDX, useDX, false)
  | 4 =>
    let evDB : List DrvEv := match actOn b with
      | some x => [(at_ db, vec, 2, some x, actLvl b)]
      | none => []
    (evDX ++ evDA ++ evDB, useDX ++ useDA ++ (if (actOn b).isSome then [1] else []), false)
  | _ =>
    let offB := match actOn b with
      | some x => if (actLvl b).isSome then none else some x
      | none => none
    let evDB : List DrvEv := match offB with
      | some x => [(at_ db, vec, 2, some x, none)]
      | none => []
    (evDX ++ evDA ++ evDB, useDX ++ useDA ++ (if offB.isSome then [1] else []), false)

/-- Event order: absolute time, then the earlier vector, then DX, DA, DB (R138). -/
def evBefore (x y : DrvEv) : Bool :=
  decide (x.1 < y.1) ||
    (decide (x.1 = y.1) && (decide (x.2.1 < y.2.1) || (decide (x.2.1 = y.2.1) && decide (x.2.2.1 ≤ y.2.2.1))))

/-- An event put in its place, after those it does not precede. -/
def evInsert (e : DrvEv) : List DrvEv → List DrvEv
  | [] => [e]
  | x :: xs => if evBefore x e then x :: evInsert e xs else e :: x :: xs

/-- Events of one tick merged into one: the later setting stands (R138). -/
def evMerge : List DrvEv → Option Bool × Option Bool
  | [] => (none, none)
  | e :: es =>
    let r := evMerge es
    (if r.1.isSome then r.1 else e.2.2.2.1, if r.2.isSome then r.2 else e.2.2.2.2)

/-- One merged event at tick `t` reaches the driver: it is applied no less than 983 ticks after the last applied event, and
an event that changes nothing at the pin is not an applied event (R138, R139). The Bool says that it was moved. -/
def Drv.apply (v : Drv) (t : Int) (on lvl : Option Bool) : Drv × Bool :=
  let on' := on.getD v.on
  let lvl' := lvl.getD v.lvl
  if on' != v.on || (on' && lvl' != v.lvl) then
    match v.lastT with
    | some l =>
      if t < l + minPulse then ({ v with on := on', lvl := lvl', lastT := some (l + minPulse) }, true)
      else ({ v with on := on', lvl := lvl', lastT := some t }, false)
    | none => ({ v with on := on', lvl := lvl', lastT := some t }, false)
  else ({ v with lvl := lvl' }, false)

/-- Every event before tick `t` (every event, where `t` is none) is applied, tick by tick; the number counts those moved.
`fuel` bounds the ticks. -/
def Drv.runTo (v : Drv) (t : Option Int) : Nat → Nat → Drv × Nat
  | 0, n => (v, n)
  | fuel + 1, n =>
    match v.evs with
    | [] => (v, n)
    | e :: _ =>
      if (match t with
        | some t => decide (e.1 < t)
        | none => true) then
        let now := v.evs.takeWhile fun x => decide (x.1 = e.1)
        let m := evMerge now
        let r := ({ v with evs := v.evs.dropWhile fun x => decide (x.1 = e.1) } : Drv).apply e.1 m.1 m.2
        r.1.runTo t fuel (n + r.2.toNat)
      else (v, n)

/-! ## Compares (R48, R134, R135) -/

/-- An expect action passes (R48). -/
def expectOk (a : Nat) (ch cl : Bool) : Bool :=
  match a with
  | 2 => cl
  | 3 => ch
  | 4 => !ch && !cl
  | _ => true

/-- The fail bit of one pin in one vector: slot A or slot B fails (R20, R48, R135). A window departure from 100 ps to 200 ps
takes an open value. -/
def compareFail (window single : Bool) (a b : Nat) (o : Strobe) (open_ : Bool) : Bool :=
  let failA :=
    if !isExpect a then false
    else if window && !single then
      if 200 ≤ o.depPs then true else if o.depPs < 100 then false else open_
    else !expectOk a o.chA o.clA
  let failB := isExpect b && !expectOk b o.chB o.clB
  failA || failB

/-- The first conflict or range adjustment of a channel in a step raises EDGE_CONFLICT (R141). -/
def Dev.noteConflict (d : Dev) (c step conflicts ranges : Nat) : Dev :=
  if conflicts + ranges = 0 then d
  else
    let cnt := d.get (peTimCnt c)
    let d := d.put (peTimCnt c) (satAdd 16 (cnt % 65536) conflicts + 65536 * satAdd 16 (cnt / 65536) ranges)
    let x := d.chan c
    if x.conflict then d else (d.setChan c { x with conflict := true }).event (srcChan c) 0x0204 step

/-- One vector of sequencer `s` at one pin: its driver events are added and every event before the next vector's start is
applied (R137 to R139). -/
def Dev.drivePin (d : Dev) (s t c sym step vec tick period : Nat) : Dev :=
  let acts := d.slotActs s t c sym
  let off (j : Nat) : Nat := d.eget (peTs c t j)
  let dsk := d.drvDeskew c
  let pl (j : Nat) : Nat := placeEdge period (off j)
  let r := vectorEvents (d.dfmt s t c) acts.1 acts.2 vec ((tick : Int) + dsk) (pl 0) (pl 1) (pl 2)
  let x := d.chan c
  let v := { x.drv with evs := r.1.foldl (fun l e => evInsert e l) x.drv.evs }
  let q := v.runTo (some ((tick : Int) + dsk + period)) (v.evs.length + 1) 0
  let win := d.windowCompare s t c
  let used := r.2.1 ++ (if isExpect acts.1 then [3] ++ (if win then [5] else []) else [])
    ++ (if isExpect acts.2 then [4] else [])
  let overs := used.any fun j => edgeOver period (off j)
  (d.setChan c { x with drv := q.1 }).noteConflict c step (q.2 + r.2.2.toNat) overs.toNat

/-- Whether one pin fails in one vector, from what its comparators showed. -/
def Dev.pinFails (d : Dev) (s t c sym : Nat) (o : Strobe) : Bool :=
  let acts := d.slotActs s t c sym
  let period := d.tsPeriod s t
  let sa := placeEdge period (d.eget (peTs c t 3))
  let we := placeEdge period (d.eget (peTs c t 5))
  compareFail (d.windowCompare s t c) (decide (we ≤ sa)) acts.1 acts.2 o (Config.windowVerdict d.freeCtr c)

end Sys2Proof.Machine
end

