-- ==== Sys2Proof/Machine/SeqFetch.lean ====
section
/-!
DEFINITION. Vector memory and the fetch of a sequencer: the placement of lines (R159, R163, R203), the line check (R164), the
control word (R166, R167), the decision of the flow (R170), segment commits (R190) and the look-ahead (R169).
-/

namespace Sys2Proof.Machine

/-! ## Vector memory -/

/-- The line size S of a sequencer: 8 + W/2 bytes, W = 4 × quads (R159). -/
def Dev.lineSize (d : Dev) (s : Nat) : Nat :=
  8 + 2 * ((List.range 64).filter fun q => (d.seqQuads s).testBit q).length

/-- Whole vector lines of size `sz` in `m` memory lines (R163). -/
def linesIn (sz m : Nat) : Nat := if sz ≤ 60 then m * (60 / sz) else 60 * m / sz

/-- The SRAM address of byte `i` of vector line `n` in an area that starts at memory line `b` (R163). -/
def lineByteAddr (b sz n i : Nat) : Nat :=
  if sz ≤ 60 then 64 * (b + n / (60 / sz)) + n % (60 / sz) * sz + i
  else 64 * (b + (n * sz + i) / 60) + (n * sz + i) % 60

/-- The bytes of a vector line. -/
def Dev.lineBytes (d : Dev) (b sz n : Nat) : List Byte :=
  (List.range sz).map fun i => d.byte (lineByteAddr b sz n i)

/-- The memory lines that hold a vector line, in order. -/
def lineMem (b sz n : Nat) : List Nat :=
  let a := lineByteAddr b sz n 0 / 64
  let z := lineByteAddr b sz n (sz - 1) / 64
  (List.range (z + 1 - a)).map (· + a)

/-- The line check a memory line carries when the device writes it (R164). -/
def lineCheck (ml vgen : Nat) : Nat := ml % 2 ^ 22 + 2 ^ 22 * (vgen % 2 ^ 10)

/-- One vector line written, with the line checks of its memory lines (R163, R164). -/
def Dev.writeLine (d : Dev) (b sz n vgen : Nat) (bs : List Byte) : Dev :=
  let d := (bs.zipIdx).foldl (fun d p => d.stBytes (lineByteAddr b sz n p.2) [p.1]) d
  d.forEach (lineMem b sz n) fun d ml => d.st (64 * ml + 60) 4 (lineCheck ml vgen)

/-- Memory lines of a sequencer's stream window; 0 with no stream (R201). -/
def Dev.windowLines (d : Dev) (s : Nat) : Nat :=
  if d.is (strmAttached s) then (d.strm s).slotsN * (d.strm s).chunkMb * 16384 else 0

/-- Vector lines of the resident part (R163, R201). -/
def Dev.residentLines (d : Dev) (s : Nat) : Nat :=
  linesIn (d.lineSize s) (d.get (seqVlines s) - d.windowLines s)

/-- First memory line of a slot of the window (R201). -/
def Dev.slotBase (d : Dev) (s i : Nat) : Nat :=
  d.get (seqVbase s) + d.get (seqVlines s) - d.windowLines s + i * (d.strm s).chunkMb * 16384

/-- Chunk and line within it of a stream line, from a directory index on (R203). -/
def chunkOf : List DirEntry → Nat → Nat → Option (Nat × Nat)
  | [], _, _ => none
  | e :: es, i, n => if n < e.lines then some (i, n) else chunkOf es (i + 1) (n - e.lines)

/-- Where a line lies: area and line within it; none: a stream line that no chunk holds. -/
def Dev.lineAt (d : Dev) (s : Nat) (r : LRef) : Option (Nat × Nat) :=
  if r.strm then
    match chunkOf (d.strm s).dir 0 r.n with
    | some (k, j) => some (d.slotBase s (k % (d.strm s).slotsN), j)
    | none => none
  else some (d.get (seqVbase s), r.n)

/-! ## The control word (R166, R167) -/

def cwTsi (w : Nat) : Nat := bitsOf w 0 6
def cwLset (w : Nat) : Nat := bitsOf w 6 4
def cwLsEn (w : Nat) : Bool := w.testBit 10
def cwCe (w : Nat) : Bool := w.testBit 11
def cwSe (w : Nat) : Bool := w.testBit 12
def cwMark (w : Nat) : Nat := bitsOf w 16 8
def cwOp (w : Nat) : Nat := bitsOf w 24 4
def cwCond (w : Nat) : Nat := bitsOf w 28 4
def cwOperand (w : Nat) : Nat := bitsOf w 32 32

def oAdv : Nat := 0x0
def oRpt : Nat := 0x1
def oLoop : Nat := 0x2
def oEndl : Nat := 0x3
def oCall : Nat := 0x4
def oRet : Nat := 0x5
def oJmp : Nat := 0x6
def oJmpc : Nat := 0x7
def oMatch : Nat := 0x8
def oSeg : Nat := 0x9
def oStrm : Nat := 0xA
def oLstb : Nat := 0xB
def oSyncw : Nat := 0xC
def oStamp : Nat := 0xD
def oCapt : Nat := 0xE
def oHalt : Nat := 0xF

/-- The level set a line's strobe names, if it carries one (R168). -/
def cwStrobe (w : Nat) : Option Nat :=
  if cwOp w = oLstb then some (cwOperand w % 16) else if cwLsEn w then some (cwLset w) else none

/-- A fail condition, which waits for H + 8 (R180). -/
def cwFailCond (w : Nat) : Bool := cwOp w == oJmpc && decide (cwCond w < 4)

/-- The symbols of a line, in ascending channel order (R159). -/
def lineSyms (bs : List Byte) : List Nat :=
  (bs.drop 8).flatMap fun b => [b.toNat % 16, b.toNat / 16]

/-- A line read from vector memory. -/
def Dev.readLine (d : Dev) (s : Nat) (r : LRef) : Option FLine :=
  match d.lineAt s r with
  | some (b, n) =>
    let bs := d.lineBytes b (d.lineSize s) n
    let w := ofBytes (bs.take 8)
    some
      { ref := r, cw := w, syms := lineSyms bs, plays := if cwOp w = oRpt then max 1 (cwOperand w) else 1, fresh := true,
        go := false, tgt := false }
  | none => none

/-- Each memory line read is checked against its own number and the generation at the start of the step; a mismatch is
VEC_CHECK (R164). Each read is also a check for the injections of R474. -/
def Dev.checkLine (d : Dev) (s : Nat) (r : LRef) : Dev :=
  match d.lineAt s r with
  | some (b, n) =>
    let det := if r.strm then 0x1FFFFFF else n % 2 ^ 25
    d.forEach (lineMem b (d.lineSize s) n) fun d ml =>
      let got := d.ld (64 * ml + 60) 4
      let want := lineCheck ml (d.seq s).vgen
      let d := d.checkOnce (srcSeq s) 2 (ml % 2 ^ 22) (d.seqSites s)
      if got = want then d.checkOnce (srcSeq s) 1 det (d.seqSites s)
      else d.checkReal (srcSeq s) 1 (got ^^^ want) det (d.seqSites s)
  | none => d

/-! ## Conditions (R176 to R180) -/

/-- The unmasked sites of a sequencer in its step. -/
def Dev.unmasked (d : Dev) (s : Nat) : Nat :=
  let m := d.seqSites s
  m - (m &&& (d.seq s).masked)

/-- The partner's flags of a sequencer, as last received (R177, R531). -/
def Dev.partnerFlag (d : Dev) (s : Nat) : Nat := Tab.get (fun _ => 0) d.twin.flags s

/-- A condition holds (R177). -/
def Dev.condition (d : Dev) (s cond i : Nat) : Bool :=
  let u := d.unmasked s
  let f := (d.seq s).failSeen
  match cond with
  | 0x0 => u &&& f != 0
  | 0x1 => u != 0 && u &&& f == u
  | 0x2 => u &&& f == 0
  | 0x3 => u == 0 || u &&& f != u
  | 0x4 => (d.seq s).matchOk
  | 0x5 => (d.seq s).matchTo
  | 0x6 => (d.get (seqFlag s)).testBit i
  | 0x7 => !(d.get (seqFlag s)).testBit i
  | 0x8 => d.trigIn.testBit (i % 4)
  | 0x9 => !d.trigIn.testBit (i % 4)
  | 0xA => (d.partnerFlag s).testBit i
  | 0xB => !(d.partnerFlag s).testBit i
  | _ => false

/-! ## The decision (R170) -/

/-- What deciding a line gives: a program error, the end of the flow, a stop of the fetch, or the next line with the stacks
as they then stand. -/
inductive Decision where
  | err (cause : Nat)
  | halt
  | hold (why : FetchStop)
  | go (r : LRef) (loops : List LoopLvl) (calls : List CallLvl)
  deriving DecidableEq, Repr

/-- The line after a line in order. -/
def LRef.succ (r : LRef) : LRef := { r with n := r.n + 1 }

/-- A jump target: a resident line of the region (R170, R206). -/
def target (last : Nat) (t : Nat) (loops : List LoopLvl) (calls : List CallLvl) : Decision :=
  if t < last then .go ⟨false, t⟩ loops calls else .err 0x6

/-- A STRM line (R205, R207): it enters the stream with both stacks empty, and leaves it with no loop open. With no stream
attached the next line is n + 1. -/
def decideStrm (r : LRef) (w lines pos : Nat) (attached : Bool) (loops : List LoopLvl) (calls : List CallLvl) : Decision :=
  if !attached then .go r.succ loops calls
  else if r.strm then
    if loops.any (fun l => l.start.strm) then .hold .range else target lines (cwOperand w % 2 ^ 25) loops calls
  else if loops.isEmpty && calls.isEmpty then .go ⟨true, pos⟩ loops calls
  else .hold .range

/-- `decide(n)` of R170, for a line `l`; `lines` counts the lines of the region, `cond` says whether the condition of a JMPC
holds. A fail condition is not known yet and holds the fetch (R180). -/
def decideLine (l : FLine) (lines pos : Nat) (attached cond : Bool) (loops : List LoopLvl) (calls : List CallLvl) :
    Decision :=
  let w := l.cw
  let o := cwOperand w
  let n1 := l.ref.succ
  let lpop := bitsOf o 25 3
  match cwOp w with
  | 0x2 => if loops.length = 8 then .err 0x1 else .go n1 (⟨o % 2 ^ 24, n1⟩ :: loops) calls
  | 0x3 =>
    match loops with
    | [] => .err 0x2
    | t :: ts => if 0 < t.count then .go t.start ({ t with count := t.count - 1 } :: ts) calls else .go n1 ts calls
  | 0x4 => if calls.length = 16 then .err 0x3 else target lines (o % 2 ^ 25) loops (⟨n1, loops.length⟩ :: calls)
  | 0x5 =>
    match calls with
    | [] => .err 0x4
    | c :: cs => .go c.ret (loops.drop (loops.length - c.depth)) cs
  | 0x6 => if loops.length < lpop then .err 0x5 else target lines (o % 2 ^ 25) (loops.drop lpop) calls
  | 0x7 =>
    if 0xC ≤ cwCond w then .err 0x7
    else if loops.length < lpop then .err 0x5
    else if lines ≤ o % 2 ^ 25 then .err 0x6
    else if cwFailCond w then .hold .jmpc
    else if cond then .go ⟨false, o % 2 ^ 25⟩ (loops.drop lpop) calls
    else .go n1 loops calls
  | 0x8 => .hold .matchL
  | 0xA => decideStrm l.ref w lines pos attached loops calls
  | 0xF => .halt
  | _ => .go n1 loops calls

/-- The depths that SEQ_STATUS shows (R198). -/
def Dev.setStacks (d : Dev) (s : Nat) (loops : List LoopLvl) (calls : List CallLvl) : Dev :=
  let x := d.seq s
  ((d.setSeq s { x with loops := loops, calls := calls }).put (seqLdepth s) loops.length).put (seqCdepth s) calls.length

/-- A program error met at the fetch of a line (R171). -/
def Dev.fetchErr (d : Dev) (s cause : Nat) (r : LRef) : Dev :=
  let x := d.seq s
  d.setSeq s { x with stop := .error, err := some (cause, if r.strm then 0x1FFFFFF else r.n % 2 ^ 25) }

/-- The next line, once it has been decided, is in the look-ahead. -/
def Dev.enqueue (d : Dev) (s : Nat) (l : FLine) : Dev :=
  let x := d.seq s
  d.setSeq s { x with queue := x.queue ++ [l] }

/-- What a decision does to the fetch of a sequencer. -/
def Dev.follow (d : Dev) (s : Nat) (r : LRef) (k : Decision) : Dev :=
  match k with
  | .err c => d.fetchErr s c r
  | .halt => d.setSeq s { d.seq s with stop := .halt }
  | .hold w => d.setSeq s { d.seq s with stop := w }
  | .go n loops calls => (d.setStacks s loops calls).setSeq s { (d.setStacks s loops calls).seq s with next := n }

/-- The loop that was opened in the stream is still open when the fetch leaves its chunk (R207). -/
def Dev.loopLeavesChunk (d : Dev) (s : Nat) (r : LRef) : Bool :=
  match chunkOf (d.strm s).dir 0 r.n with
  | some (k, 0) => decide (0 < k) && (d.seq s).loops.any fun l => l.start.strm
  | _ => false

/-- The chunk of a stream line is ready in its slot (R210). -/
def Dev.chunkReady (d : Dev) (s : Nat) (r : LRef) : Bool :=
  match chunkOf (d.strm s).dir 0 r.n with
  | some (k, _) =>
    let sl := Tab.get (fun _ => Slot.init) (d.strm s).slots (k % (d.strm s).slotsN)
    sl.chunk == k && sl.st == .ready
  | none => false

/-- Chunks ready at or ahead of the stream position, from the chunk that holds it (R220). -/
def Dev.readyAhead (d : Dev) (s : Nat) : Nat :=
  let x := d.strm s
  ((List.range x.slotsN).filter fun i =>
    let sl := Tab.get (fun _ => Slot.init) x.slots i
    sl.st == .ready && (match chunkOf x.dir 0 x.pos with
      | some (k, _) => decide (k ≤ sl.chunk)
      | none => false)).length

/-- After a stream line has been fetched, the position moves on (R204), and its chunk has been played (R213). -/
def Dev.streamFetched (d : Dev) (s : Nat) (n : Nat) : Dev :=
  let x := d.strm s
  match chunkOf x.dir 0 n with
  | some (k, _) =>
    let i := k % x.slotsN
    let sl := Tab.get (fun _ => Slot.init) x.slots i
    let x := { x with pos := n + 1, slots := Tab.set (fun _ => Slot.init) x.slots i { sl with used := true } }
    let d := (d.setStrm s x).put2 (strmPosLo s) (strmPosHi s) ((n + 1) % 2 ^ 40)
    d.put (strmReady s) (d.readyAhead s)
  | none => d

/-- The fetch leaves a stream line for good: it goes on behind it or in resident lines. An ENDL that goes back to its body start
stays in the chunk (R206). -/
def Decision.passes (k : Decision) (r : LRef) : Bool :=
  match k with
  | .err _ => false
  | .halt => false
  | .hold _ => true
  | .go n _ _ => !(n.strm && decide (n.n ≤ r.n))

/-- The fetch moves past stream line `n`: if it is the last of its chunk, the slot is released and takes the chunk N places further
on (R210). -/
def Dev.streamPast (d : Dev) (s : Nat) (n : Nat) : Dev :=
  let x := d.strm s
  match chunkOf x.dir 0 n with
  | some (k, j) =>
    let i := k % x.slotsN
    let sl := Tab.get (fun _ => Slot.init) x.slots i
    let lastOf := match x.dir[k]? with
      | some e => decide (j + 1 = e.lines)
      | none => false
    if lastOf then
      let sl : Slot :=
        if k + x.slotsN < x.dir.length then { chunk := k + x.slotsN, st := .reading false, used := false, vgen := d.get (seqVgen s) }
        else { sl with st := .empty, used := true }
      let d := d.setStrm s { x with slots := Tab.set (fun _ => Slot.init) x.slots i sl }
      d.put (strmReady s) (d.readyAhead s)
    else d
  | none => d

/-- One line fetched and decided (R169, R170). A SEG line that ends a segment is the commit point of a pending jump request,
and the line of the segment table takes its place (R189, R190). -/
def Dev.fetchLine (d : Dev) (s : Nat) : Dev :=
  let x := d.seq s
  let r := x.next
  let lines := d.residentLines s
  if !r.strm && lines ≤ r.n then d.fetchErr s 0x6 r
  else if r.strm && (chunkOf (d.strm s).dir 0 r.n).isNone then d.setSeq s { x with stop := .range }
  else if r.strm && d.loopLeavesChunk s r then d.setSeq s { x with stop := .range }
  else if r.strm && !d.chunkReady s r then d.setSeq s { x with stop := .chunk }
  else
    match d.readLine s r with
    | none => d.setSeq s { x with stop := .range }
    | some l =>
      let d := d.checkLine s r
      let d := if r.strm then d.streamFetched s r.n else d
      match (if cwOp l.cw = oSeg then x.jReq else none) with
      | some t =>
        let n := d.get (seqSegtab s t)
        let d := if r.strm then d.streamPast s r.n else d
        let d := (d.setSeq s { d.seq s with jReq := none }).put (seqJpend s) 0
        let d := d.setStacks s [] []
        if lines ≤ n then d.fetchErr s 0x6 ⟨false, n⟩
        else
          match d.readLine s ⟨false, n⟩ with
          | none => d.fetchErr s 0x6 ⟨false, n⟩
          | some l' =>
            let d := d.checkLine s ⟨false, n⟩
            if cwOp l'.cw ≠ oSeg then d.fetchErr s 0x8 ⟨false, n⟩
            else
              ((d.enqueue s { l' with tgt := true }).put (seqJcommit s) 1).setSeq s
                { ((d.enqueue s { l' with tgt := true }).put (seqJcommit s) 1).seq s with next := ⟨false, n + 1⟩ }
      | none =>
        let cond := d.condition s (cwCond l.cw) (bitsOf (cwOperand l.cw) 28 3)
        let k := decideLine l lines (d.strm s).pos (d.is (strmAttached s)) cond x.loops x.calls
        match k with
        | .err c => d.fetchErr s c r
        | .hold .range =>
          if cwOp l.cw = oStrm then d.setSeq s { d.seq s with stop := .range } else d
        | _ =>
          let d := (d.enqueue s l).follow s r k
          let d := if r.strm && k.passes r then d.streamPast s r.n else d
          if cwOp l.cw = oJmpc ∧ cwFailCond l.cw = false ∧ (cwOperand l.cw).testBit 31 = true then
            d.setSeq s { d.seq s with failSeen := 0 }
          else d

/-- Plays in the look-ahead (R169). -/
def Dev.ahead (d : Dev) (s : Nat) : Nat := ((d.seq s).queue.map fun l => l.plays).sum

/-- The look-ahead is brought up to 8 plays, as far as the flow can be decided (R169). -/
def Dev.fillAhead (d : Dev) (s : Nat) : Nat → Dev
  | 0 => d
  | n + 1 => if (d.seq s).stop = .none ∧ d.ahead s < 8 then Dev.fillAhead (d.fetchLine s) s n else d

/-- The fetch goes on where a chunk was missing (R214). -/
def Dev.resumeChunk (d : Dev) (s : Nat) : Dev :=
  let x := d.seq s
  if x.stop = .chunk then (d.setSeq s { x with stop := .none }).fillAhead s 9 else d

end Sys2Proof.Machine
end

