-- ==== Sys2Proof/Machine/TmuUnit.lean ====
section
/-!
DEFINITION. The time-measurement units (chapter 9): calibration of the interpolators, samples, statistics, the end of an arming,
and the rows that act on them. Times of events are exact, in units of 62.5 fs.
-/

namespace Sys2Proof.Machine

/-- The master period in ps and in units of 62.5 fs. -/
def masterPs : Rat := 2000 / 3
def masterUnits : Rat := 32000 / 3

/-! ## Inputs (R298, R300, R307) -/

/-- Channel and threshold of the start and the stop event of a mode. -/
def Dev.tmuInputs (d : Dev) (u : Nat) : (Nat × Nat) × (Nat × Nat) :=
  let c := d.tmuStartChan u
  let s := (c, d.get (tmuStartThr u))
  match d.get (tmuMode u) with
  | 0 => (s, (d.tmuStopChan u, d.get (tmuStopThr u)))
  | 4 => ((c, 1), (c, 0))
  | 5 => ((c, 0), (c, 1))
  | 6 => (s, (d.tmuStopChan u, d.get (tmuStopThr u)))
  | 7 => (s, (d.tmuStopChan u, d.get (tmuStopThr u)))
  | _ => (s, s)

/-- A mode uses the stop input (R314). -/
def Dev.tmuUsesStop (d : Dev) (u : Nat) : Bool :=
  let m := d.get (tmuMode u)
  m == 0 || m == 6 || m == 7

/-- What is subtracted from an input's event time: the path delay, and the compare deskew where DSK_EN is 1 (R300). -/
def Dev.tmuShift (d : Dev) (u : Nat) (i : Nat × Nat) : Rat :=
  let dsk := if d.is (tmuDskEn u) then
      ((max (-32767) (toSigned 16 (bitsOf (d.eget (peTimDsk i.1)) 16 16)) : Int) : Rat) * masterUnits / 4096
    else 0
  d.tmuPath i.1 i.2 + dsk

/-- The site of a TMU (R314). -/
def Dev.tmuSite (d : Dev) (u : Nat) : Option Nat := d.siteOf (d.tmuStartChan u)

/-- REFCLK is missing or SYS is not locked (R312). -/
def Dev.unreferenced (d : Dev) : Bool := !d.is clkRefPresent || d.get (pllState 0) != 3

/-! ## Arming (R304, R316) -/

/-- An idle TMU is armed and starts its calibration. -/
def Dev.tmuArmCore (d : Dev) (u : Nat) (run : Option Nat) (step : Nat) : Dev :=
  let i := d.tmuInputs u
  if d.get (tmuState u) ≠ 0 ∨ d.quiesced (sectorOf i.1.1) = true ∨ d.quiesced (sectorOf i.2.1) = true then d
  else
    let d := (((d.put (tmuState u) 1).put (tmuCalErr u) 0).put (tmuUnref u) 0).put (tmuStatCnt u) 0
    d.setTmu u
      { Tmu.init with
        run := run, step := step, armTb := d.tb, pathS := d.tmuShift u i.1, pathP := d.tmuShift u i.2, dirty := d.unreferenced }

/-- The sample time-out in µs: WAIT in a step, else the register (R309, R314). -/
def Dev.tmuLimit (d : Dev) (u : Nat) : Nat :=
  match (d.tmu u).run with
  | some id => (match d.runById id with
    | some r => (match r.stepAt (d.tmu u).step with
      | some st => st.tmuWait
      | none => d.get (tmuTimeoutUs u))
    | none => d.get (tmuTimeoutUs u))
  | none => d.get (tmuTimeoutUs u)

/-- The time-out runs from now. -/
def Dev.tmuTimer (d : Dev) (u : Nat) : Dev :=
  let n := d.tmuLimit u
  d.setTmu u { d.tmu u with toEnd := if n = 0 then none else some (d.mclk + us n) }

/-! ## The end of an arming (R309, R310, R315) -/

/-- How an arming ends. -/
inductive TmuEnd where
  | full
  | timeout
  | cut
  | calFail
  deriving DecidableEq, Repr

/-- The largest k with (2k − 1) n ≤ 2 √v: √v / n rounded half up. -/
def rootOver (v n : Nat) : Nat :=
  let k := sqrtNat (v / (n * n))
  if (2 * k + 1) * (2 * k + 1) * (n * n) ≤ 4 * v then k + 1 else k

/-- The statistics of an arming: MEAN, SDEV, MIN, MAX (R310). -/
def Tmu.stats (x : Tmu) (n : Nat) : List Int :=
  [roundHalfUp ((x.sum : Rat) / (n : Rat)), (rootOver ((n : Int) * x.sumSq - x.sum * x.sum).toNat n : Nat), x.minV, x.maxV]

/-- A value register pair with its flags. -/
def Dev.tmuReg (d : Dev) (lo hi : Fld) (v : Int) (valid unref : Bool) : Dev :=
  let n := ofSigned 40 v
  (d.put lo (n % 2 ^ 32)).put hi (n / 2 ^ 32 + (if unref then 2 ^ 30 else 0) + (if valid then 2 ^ 31 else 0))

/-- A result of a TMU in the step is still open. -/
def Dev.tmuOpen (d : Dev) (u : Nat) : Bool :=
  match (d.tmu u).run with
  | some id => (match d.runById id with
    | some r => r.openRes.any fun y => y.unit / 4 == u
    | none => false)
  | none => false

/-- The results of an arming enter the step's results (R315). -/
def Dev.tmuResults (d : Dev) (u : Nat) (why : TmuEnd) (stats : List Int) (unref : Bool) : Dev :=
  let x := d.tmu u
  match x.run, d.tmuSite u with
  | some id, some s =>
    match why with
    | .cut => d.cutRes id s (fun y => y.unit / 4 == u) rIncomplete fIntegrity
    | _ =>
      let i := d.tmuInputs u
      let fl := d.staleFlag i.1.1 ||| d.staleFlag i.2.1 ||| (if unref then fUnreferenced else 0)
      match d.runById id with
      | none => d
      | some r =>
        match r.step? with
        | none => d
        | some st =>
          let ys := (r.siteRes s).filter fun y => y.unit / 4 == u && y.fin.isNone
          ys.foldl (fun d y =>
            let v := stats.getD (y.unit % 4) 0
            d.putReading id s y.j
              (match why with
              | .full => { value := v, code := judge st v, flags := fl, startTb := x.armTb, endTb := d.tb }
              | .timeout => { value := 0, code := rFailLo, flags := fl, startTb := x.armTb, endTb := d.tb }
              | _ => { value := 0, code := rPrecondition, flags := fl, startTb := x.armTb, endTb := d.tb })) d
  | _, _ => d

/-- An arming ends (R309): statistics over the samples kept, the step's results, TMU_DONE, and a further arming for a
repeat (R316). -/
def Dev.tmuFinish (d : Dev) (u : Nat) (why : TmuEnd) : Dev :=
  let x := d.tmu u
  let n := d.get (tmuStatCnt u)
  let unref := d.is (tmuUnref u)
  let stats := if n = 0 then [0, 0, 0, 0] else (x.stats n).map fun v => fit40 v (Config.openValue d.freeCtr u)
  let d := d.put (tmuState u) 0
  let d := d.forEach [0, 1, 2, 3] fun d k => d.tmuReg (tmuStat u k) (tmuStatHi u k) (stats.getD k 0) (decide (0 < n)) (unref && decide (0 < n))
  let d := d.tmuResults u why stats unref
  let d := if d.is (tmuEvDone u) then d.event (srcTmu u) 0x0603 n else d
  if d.tmuOpen u then d.tmuArmCore u x.run x.step
  else d.setTmu u { d.tmu u with run := none, step := 0xFFFF, toEnd := none }

/-- An arming is cut off by a disarm, a command or a park. -/
def Dev.tmuCut (d : Dev) (u : Nat) : Dev := if d.get (tmuState u) = 0 then d else d.tmuFinish u .cut

/-! ## Samples (R303, R307) -/

/-- An event time in units of 62.5 fs (R302, R303): E × Tm − d, d = o + g × d_raw, less the input's shift. -/
def eventTime (v : Vernier) (g o shift : Rat) : Rat :=
  let raw : Rat := ((400 * (v.m : Int) - 399 * (v.n : Int) : Int) : Rat) / 2
  (v.edge : Rat) * masterUnits - (o + g * raw) * 16 - shift

/-- A remainder from 0 up to the divisor. -/
def ratMod (a p : Rat) : Rat := a - p * ((a / p).floor : Int)

/-- The sample of a mode (R307); none where the manual states no value. -/
def tmuValue (mode e c : Nat) (t0 t1 t2 : Rat) : Option Int :=
  match mode with
  | 1 => some (roundHalfUp ((t1 - t0) / (e : Rat)))
  | 2 => if t0 < t1 then some (roundHalfUp (((c - 1 : Nat) : Rat) * 1600000000000000 / (t1 - t0))) else none
  | 7 =>
    if t0 < t2 then some ((roundHalfUp (ratMod (t1 - t0) (t2 - t0) * 1000000 / (t2 - t0))) % 1000000) else none
  | _ => some (roundHalfUp (t1 - t0))

/-- A TMU result passes to the AU that it feeds (R311). -/
def Dev.tmuFeed (d : Dev) (u : Nat) (v : Int) (unref : Bool) : Dev :=
  d.forEach (List.range 32) fun d a =>
    if d.get (auType a) = 2 ∧ d.get (auTmu a) = u ∧ d.is (auSrcEn a) = true ∧ (d.get (auState a) = 1 ∨ d.get (auState a) = 2) then
      let x := d.au a
      d.setAu a { x with tmuS := x.tmuS ++ [[ofSigned 40 v + (if unref then 2 ^ 40 else 0)]] }
    else d

/-! ## The rows -/

/-- TMU_ARM (R304). -/
def Dev.tmuArm (d : Dev) (u : Nat) : Dev := d.tmuArmCore u none 0xFFFF

/-- TMU_DISARM (R309). -/
def Dev.tmuDisarm (d : Dev) (u : Nat) : Dev := d.tmuCut u

/-- A calibration reading pair fails (R306): D2 − D1 differs from Tm by more than 5 %. -/
def calFails (d1 d2 : Nat) : Bool :=
  let x : Rat := ((d2 : Int) - (d1 : Int) : Int) / 10
  let e := if x < masterPs then masterPs - x else x - masterPs
  decide (masterPs / 20 < e)

/-- Gain and offset of a calibration (R304), in ps. -/
def calGain (d1 d2 : Nat) : Rat × Rat :=
  let g := masterPs / (((d2 : Int) - (d1 : Int) : Int) / 10)
  (g, masterPs - g * ((d1 : Rat) / 10))

/-- A gain error in ppm, held to ±32,767 (R318). -/
def gainErr (g : Rat) (up : Bool) : Nat := ofSigned 16 (clampInt (-32767) 32767 (openRound ((1 - g) * 1000000) up))

/-- TMU_CAL_DONE (R304 to R306). -/
def Dev.tmuCalDone (d : Dev) (u s1 s2 p1 p2 : Nat) : Dev :=
  if d.get (tmuState u) ≠ 1 then d
  else
    let x := d.tmu u
    let d := d.nextFree
    let gs := calGain s1 s2
    let gp := calGain p1 p2
    let d := if s2 = s1 ∨ p2 = p1 then d
      else (d.put (tmuGerrStart u) (gainErr gs.1 (Config.measureUp d.freeCtr))).put (tmuGerrStop u) (gainErr gp.1 (Config.measureUp d.freeCtr))
    if calFails s1 s2 || calFails p1 p2 then
      if x.fails = 0 then d.setTmu u { x with fails := 1, dirty := d.unreferenced }
      else
        let d := (d.put (tmuStatCnt u) 0).put (tmuCalErr u) 1
        (d.event (srcTmu u) 0x0601 0).tmuFinish u .calFail
    else
      let d := (d.put (tmuState u) 2).setTmu u { x with fails := 0, gS := gs.1, oS := gs.2, gP := gp.1, oP := gp.2 }
      if x.toEnd.isNone then d.tmuTimer u else d

/-- TMU_SAMPLE (R307, R308). `edges` counts the start events from start to stop, both included. -/
def Dev.tmuSample (d : Dev) (u : Nat) (start stop next : Vernier) (edges : Nat) : Dev :=
  if d.get (tmuState u) ≠ 2 then d
  else
    let x := d.tmu u
    let t0 := eventTime start x.gS x.oS x.pathS
    let t1 := eventTime stop x.gP x.oP x.pathP
    let t2 := eventTime next x.gS x.oS x.pathS
    let o := Config.openValue d.freeCtr u
    let v := fit40 ((tmuValue (d.get (tmuMode u)) (max 1 (d.get (tmuEdges u))) edges t0 t1 t2).getD o) o
    let unref := x.dirty || d.unreferenced
    let d := d.nextFree
    let n := d.get (tmuStatCnt u) + 1
    let d := if unref then d.put (tmuUnref u) 1 else d
    let d := (d.put (tmuStatCnt u) n).tmuReg (tmuLast u) (tmuLastHi u) v true unref
    let d := d.setTmu u
      { x with
        sum := x.sum + v, sumSq := x.sumSq + v * v, minV := if n = 1 then v else min x.minV v,
        maxV := if n = 1 then v else max x.maxV v }
    let d := d.tmuFeed u v unref
    if n = d.get (tmuNM1 u) + 1 then d.tmuFinish u .full
    else
      let d := d.tmuTimer u
      if d.is (tmuIcal u) then (d.put (tmuState u) 1).setTmu u { d.tmu u with dirty := d.unreferenced } else d

/-- TMU_TIMEOUT (R309). -/
def Dev.tmuTimeoutRow (d : Dev) (u : Nat) : Dev :=
  match (d.tmu u).toEnd with
  | some t =>
    if d.get (tmuState u) = 0 then d
    else
      let d := d.advanceTo t
      ((d.bump (tmuCntTo u)).event (srcTmu u) 0x0602 (d.get (tmuStatCnt u))).tmuFinish u .timeout
  | none => d

/-- Every armed TMU notes that the reference is lost (R312). -/
def Dev.tmuDirty (d : Dev) : Dev :=
  d.forEach (List.range 64) fun d u => if d.get (tmuState u) = 0 then d else d.setTmu u { d.tmu u with dirty := true }

/-! ## The meanings -/

/-- TMU_ARM (R304). -/
def execTmuArm (u : Fin 64) (s : State) : Answer := onDev s fun d => d.orHold (0x300008 + 0x400 * u) 1 fun d => d.tmuArm u

/-- TMU_DISARM (R309). -/
def execTmuDisarm (u : Fin 64) (s : State) : Answer := onDevIdle s fun d => d.orHold (0x300008 + 0x400 * u) 2 fun d => d.tmuDisarm u

/-- TMU_CAL_DONE (R304 to R306). -/
def execTmuCalDone (u : Fin 64) (start1 start2 stop1 stop2 : Nat) (s : State) : Answer :=
  onDevIdle s fun d => d.tmuCalDone u start1 start2 stop1 stop2

/-- TMU_SAMPLE (R307, R308). -/
def execTmuSample (u : Fin 64) (start stop next : Vernier) (edges : Nat) (s : State) : Answer :=
  onDevIdle s fun d => d.tmuSample u start stop next edges

/-- TMU_TIMEOUT (R309). -/
def execTmuTimeout (u : Fin 64) (s : State) : Answer := onDevIdle s fun d => d.tmuTimeoutRow u

end Sys2Proof.Machine
end

