-- ==== Sys2Proof/Machine/Owners.lean ====
section
/-!
DEFINITION. Which owners run (R5, R28, R42, R121, R154, R197, R261, R295, R317, R320, R397, R427, R453, R478, R521, R544, R562,
R589), and the live writes that wait for their boundary (R6).
-/

namespace Sys2Proof.Machine

/-- A sequencer runs: it plays a step, or an open RUN has a PATTERN step that names it (R5). -/
def Dev.seqRunning (d : Dev) (s : Nat) : Bool := d.seqBusy s || d.runs.any fun r => r.seqs.testBit s

/-- A sector runs: an open RUN holds a site with a channel in it (R5). -/
def Dev.sectorRunning (d : Dev) (k : Nat) : Bool :=
  let m := d.sectorSites k
  d.runs.any fun r => r.sites &&& m != 0

/-- The AUs, TMUs that some step of a RUN names. -/
def OpenRun.ausUsed (r : OpenRun) : Nat := r.steps.foldl (fun m s => if s.kind = kAcq then m ||| s.aus else m) 0
def OpenRun.tmusUsed (r : OpenRun) : Nat := r.steps.foldl (fun m s => if s.kind = kTmu then m ||| s.tmus else m) 0

/-- A sequencer uses a PLL: SYS every one, a CKx those clocked from it or with a clock pin on it (R149, R147, R424). -/
def Dev.usesPll (d : Dev) (s p : Nat) : Bool :=
  p == 0 || d.get (seqClkSrc s) == p || (d.seqChans s).any fun c => d.clkMode c == p

/-- The owner is running. -/
def Dev.running (d : Dev) (o : Owner) : Bool :=
  match o with
  | .never => false
  | .sqRing q => (d.get hostSqEn).testBit q
  | .cqRing q => (d.get hostCqEn).testBit q
  | .eqRing => d.is hostEqEn
  | .seq s => d.seqRunning s
  | .chan c =>
    if d.quiesced (sectorOf c) then false
    else match d.chanSeq c with
      | some s => d.seqRunning s
      | none => d.sectorRunning (sectorOf c)
  | .die e => (dieChans e).any fun c => d.is (ppmuWfRun c)
  | .governor _ => !d.runs.isEmpty
  | .au a => d.get (auState a) != 0 || d.runs.any fun r => r.ausUsed.testBit a
  | .tmu u => d.get (tmuState u) != 0 || d.runs.any fun r => r.tmusUsed.testBit u
  | .dse e => d.dseRunning e
  | .almanac => d.alm.adding.isSome || !d.alm.queue.isEmpty
  | .clk => d.anySeqBusy
  | .pll p =>
    if p = 0 then
      d.anySeqBusy || (List.range 32).any (fun a => d.get (auState a) != 0) || (List.range 64).any fun u => d.get (tmuState u) != 0
    else (List.range 16).any (fun s => d.seqBusy s && d.usesPll s p) || d.is (pllRamp p)
  | .fcu => !d.runs.isEmpty
  | .gnomon => !d.cal.runs.isEmpty || !d.cal.stores.isEmpty
  | .twin => !d.runs.isEmpty || d.get twinState == 2
  | .tp => d.get tpState != 0
  | .siteMap _ => (List.range 16).any fun s => d.seqRunning s && d.seqSites s != 0
  | .ledger => !d.runs.isEmpty

/-- The owner of the register at an address. -/
def ownerAt (a : Nat) : Owner :=
  match regInfo a with
  | some r => r.owner
  | none => .never

/-- The sequencer whose vector boundary a live write of an owner waits for (R6); none: the test-step boundary. -/
def Dev.boundarySeq (d : Dev) (o : Owner) : Option Nat :=
  match o with
  | .seq s => some s
  | .chan c => d.chanSeq c
  | _ => none

/-! ## Live writes that take effect (R6, R65, R66) -/

/-- The channel and DAC of a `PE_LVL_CODE` register. -/
def lvlCodeAt (a : Nat) : Option (Nat × Nat) :=
  let o := a % 0x1000
  if 0x1000000 ≤ a ∧ a < 0x1100000 ∧ 0x40 ≤ o ∧ o < 0x6C then some ((a - 0x1000000) / 0x1000, (o - 0x40) / 4) else none

/-- A code written to DAC `k` loads: it is in class ON_WRITE, and no waveform drives DAC 10 (R64, R65, R110). -/
def Dev.loadsOnWrite (d : Dev) (c k : Nat) : Bool :=
  !(d.eget (peLvlUpd c)).testBit k && !(k == 10 && d.is (ppmuWfRun c))

/-- The ON_WRITE codes of one channel in a list of writes. -/
def Dev.writtenCodes (d : Dev) (c : Nat) (ws : List (Nat × Nat)) : List (Nat × Nat) :=
  ws.filterMap fun w => match lvlCodeAt w.1 with
    | some (x, k) => if x = c ∧ d.loadsOnWrite c k = true then some (k, w.2) else none
    | none => none

/-- Live writes take effect together: the registers take their values, and level codes load once per channel. -/
def Dev.applyLive (d : Dev) (ws : List (Nat × Nat)) : Dev :=
  let d := ws.foldl (fun d w => d.storeReg w.1 w.2) d
  let cs := (ws.filterMap fun w => (lvlCodeAt w.1).map fun p => p.1).dedup
  d.forEach cs fun d c => d.loadLevels c (d.writtenCodes c ws)

/-- The held writes that pass a test take effect, oldest first. -/
def Dev.commitHeld (d : Dev) (p : Nat → Bool) : Dev :=
  let due := d.held.filter fun w => p w.1
  if due.isEmpty then d else ({ d with held := d.held.filter fun w => !p w.1 }).applyLive due

/-- The vector boundary of a sequencer: the writes that wait for it take effect (R6, R70). -/
def Dev.vectorBoundary (d : Dev) (s : Nat) : Dev := d.commitHeld fun a => d.boundarySeq (ownerAt a) == some s

/-- A live write: at once while its owner is idle, held for the boundary while it runs (R6). -/
def Dev.liveWrite (d : Dev) (a v : Nat) : Dev :=
  if d.running (ownerAt a) then { d with held := d.held ++ [(a, v)] } else d.applyLive [(a, v)]

end Sys2Proof.Machine
end

