-- ==== Sys2Proof/Machine/Host.lean ====
section
/-!
DEFINITION. Host rings, doorbells, fetch and fences (R481 to R492, R507, R515), the debug window BAR4 (R484) and the idle
timers (R575).
-/

namespace Sys2Proof.Machine

/-! ## Doorbells (R483, R486 to R488, R507) -/

/-- A bad doorbell write (R483). -/
def Dev.doorbellErr (d : Dev) (off v : Nat) : Dev := (d.bump hostDbErr).event srcHost 0x0006 (off + 2 ^ 32 * v)

/-- HOST_SQ_EN_WRITE (R486). -/
def Dev.sqEnWrite (d : Dev) (v : Nat) : Dev :=
  let old := d.get hostSqEn
  let d := d.put hostSqEn (v % 65536)
  d.forEach ((List.range 16).filter fun q => v.testBit q && !old.testBit q) fun d q => (d.put (sqHead q) 0).put (sqTail q) 0

/-- An enabled SQ is bound to a CQ. -/
def Dev.cqBound (d : Dev) (cq : Nat) : Bool := (List.range 16).any fun q => (d.get hostSqEn).testBit q && d.get (sqCq q) == cq

/-- The buffered events are written in order once the EQ is first enabled (R519). -/
def Dev.evFlush (d : Dev) : List EvRec → Dev
  | [] => d
  | e :: es => if 0 < d.eqFree then Dev.evFlush (d.eqWrite e) es else d.evDrop (1 + es.length)

/-- The EQ is enabled: head and tail 0, phase 1 (R486), then what waited for it (R518, R519). -/
def Dev.eqEnable (d : Dev) : Dev :=
  let d := (((d.put hostEqEn 1).put eqTail 0).put eqHead 0).put eqPhase 1
  let buf := d.host.evBuf
  let d := { d with host := { d.host with eqSeen := true, evBuf := [] } }
  (d.evFlush buf).evOverflow

/-- HOST_CQ_EN_WRITE (R486, R489). -/
def Dev.cqEnWrite (d : Dev) (v : Nat) : Dev :=
  let old := d.get hostCqEn
  let off := (List.range 16).filter fun q => old.testBit q && !v.testBit q
  let keep := off.filter d.cqBound
  let d := if keep.isEmpty then d else d.bump hostDbErr
  let now := v % 65536 ||| listMask keep
  let d := d.put hostCqEn now
  let d := { d with host := { d.host with held := d.host.held.filter fun c => now.testBit (d.cqOf c.q) } }
  let d := d.forEach ((List.range 16).filter fun q => now.testBit q && !old.testBit q) fun d q =>
    ((d.put (cqHead q) 0).put (cqTail q) 0).put (cqPhase q) 1
  if v.testBit 16 then (if d.is hostEqEn then d else d.eqEnable) else d.put hostEqEn 0

/-- SQ_TAIL_DOORBELL (R487). -/
def Dev.sqTailBell (d : Dev) (q v : Nat) : Dev :=
  let n := ringSize (d.get (sqSizeLog q))
  let t := d.get (sqTail q)
  let used := (t + n - d.get (sqHead q)) % n
  if !(d.get hostSqEn).testBit q || decide (n ≤ v) then d.doorbellErr (8 * q) v
  else if v = t then d
  else if n - 1 < used + (v + n - t) % n then d.doorbellErr (8 * q) v
  else d.put (sqTail q) v

/-- CQ_HEAD_DOORBELL (R488, R489, R515). -/
def Dev.cqHeadBell (d : Dev) (q v : Nat) : Dev :=
  let n := ringSize (d.get (cqSizeLog q))
  let h := d.get (cqHead q)
  if !d.cqOn q || decide (n ≤ v) then d.doorbellErr (8 * q + 4) v
  else if v = h then d
  else if (d.get (cqTail q) + n - h) % n < (v + n - h) % n then d.doorbellErr (8 * q + 4) v
  else
    let d := d.put (cqHead q) v
    let d := { d with host := { d.host with msgSent := d.host.msgSent.filter fun r => r != q } }
    d.flushHeld q d.host.held

/-- EQ_HEAD_DOORBELL (R488, R515, R518). -/
def Dev.eqHeadBell (d : Dev) (v : Nat) : Dev :=
  let n := ringSize (d.get eqSizeLog)
  let h := d.get eqHead
  if !d.is hostEqEn || decide (n ≤ v) then d.doorbellErr 0x80 v
  else if v = h then d
  else if (d.get eqTail + n - h) % n < (v + n - h) % n then d.doorbellErr 0x80 v
  else
    let d := d.put eqHead v
    let d := { d with host := { d.host with msgSent := d.host.msgSent.filter fun r => r != 16 } }
    d.evOverflow

/-- MSIX_UNMASK (R515). -/
def Dev.msixUnmask (d : Dev) (vec : Nat) : Dev :=
  let b := BitVec.ofNat 64 (2 ^ vec)
  let h := d.host
  if h.vecPend.getLsbD vec then
    ({ d with host := { h with vecMask := h.vecMask &&& ~~~b, vecPend := h.vecPend &&& ~~~b } }).emit (.msix vec)
  else { d with host := { h with vecMask := h.vecMask &&& ~~~b } }

/-! ## Fetch (R490 to R494) -/

/-- The host link is up (R522). -/
def Dev.linkUp (d : Dev) : Bool := d.get hostGen != 0

/-- An SQ holds a descriptor that the device can take (R487, R489, R491). -/
def Dev.fetchable (d : Dev) (q : Nat) : Bool :=
  (d.get hostSqEn).testBit q && d.get (sqHead q) != d.get (sqTail q) && (Tab.get (fun _ => none) d.host.waiting q).isNone
    && !d.cqHeld (d.cqOf q) && decide (d.host.held.length < 256)

/-- The SQ that is served next: SQ0 first, the others in round robin (R490). -/
def Dev.nextSq (d : Dev) : Option Nat :=
  if d.fetchable 0 then some 0
  else ((List.range 15).map fun i => (d.host.rr + i) % 15 + 1).find? d.fetchable

/-- The device serves an opcode in the state it is in: awake, or one of those served in standby or without an image
(R31, R40, R580). -/
def Dev.serves (d : Dev) (opc : Nat) : Bool :=
  if d.pwr.noImage then dNoImage opc else d.awake || dStandby opc

/-- A wake begins (R40, R576); `why` as `PWR_STATUS.LAST_WAKE` codes it. A reverse ramp turns back. -/
def Dev.beginWake (d : Dev) (why : Nat) : Dev :=
  if d.awake || !d.pwr.booted || d.pwr.noImage then d
  else if d.pwr.ramp = .down then
    ({ d with pwr := { d.pwr with ramp := .up, wakeWhy := why, rampEnd := d.mclk + (us 100 - (d.pwr.rampEnd - d.mclk)) } }).put hostWaking 1
  else if d.pwr.wakeWhy ≠ 0 then d
  else (({ d with pwr := { d.pwr with wakeWhy := why } }).put hostWaking 1).pllStart 0

/-- DESCRIPTOR_FETCH (R490, R491, R494): the descriptor enters the device; a malformed one completes at once with RANGE; one
that needs the fast clocks starts the wake. -/
def Dev.fetch (d : Dev) (q : Nat) (desc : Nat) : Dev :=
  if d.linkUp = false ∨ d.nextSq ≠ some q then d
  else
    let n := ringSize (d.get (sqSizeLog q))
    let id := d.host.fetchNo
    let w : Work := { id := id, q := q, cid := dCid desc, opc := dOpc desc }
    let d := d.put (sqHead q) ((d.get (sqHead q) + 1) % n)
    let d := { d with host := { d.host with
      fetchNo := id + 1
      rr := if q = 0 then d.host.rr else q
      waiting := Tab.set (fun _ => none) d.host.waiting q (some ⟨id, desc⟩)
      work := d.host.work ++ [w] } }
    if dMalformed desc then d.complete w stRange 0 0
    else if dStandby (dOpc desc) then d
    else if d.awake then (if d.get pwrState = 1 then d.stateTo 0 2 else d)
    else d.beginWake 2

/-- The descriptor that waits in an SQ, when it has this opcode and the device serves it now. -/
def Dev.descOf (d : Dev) (q opc : Nat) : Option (Nat × Work) :=
  match Tab.get (fun _ => none) d.host.waiting q with
  | some f =>
    if dOpc f.d = opc ∧ d.serves opc = true then (d.host.work.find? fun w => w.id == f.id).map fun w => (f.d, w) else none
  | none => none

/-- A command that acts on the descriptor waiting in an SQ. -/
def Dev.onDesc (d : Dev) (q opc : Nat) (f : Dev → Nat → Work → Dev) : Dev :=
  match d.descOf q opc with
  | some (x, w) => f d x w
  | none => d

/-- A descriptor completes with a status alone; the idle timer restarts. -/
def Dev.done (d : Dev) (w : Work) (status : Nat) : Dev := (d.complete w status 0 0).idleRestart

/-- A descriptor completes with a status and results; the idle timer restarts. -/
def Dev.doneWith (d : Dev) (w : Work) (status result result64 : Nat) : Dev := (d.complete w status result result64).idleRestart

/-! ## FENCE (R492) -/

/-- Every descriptor fetched before number `id` from the named SQs has completed with its record written. -/
def Dev.fenceMet (d : Dev) (id mask : Nat) : Bool :=
  !(d.host.work.any fun w => decide (w.id < id) && mask.testBit w.q)
    && !(d.host.held.any fun c => decide (c.id < id) && mask.testBit c.q)

/-- FENCE (R492). -/
def Dev.fenceDesc (d : Dev) (q : Nat) : Dev :=
  d.onDesc q opFence fun d x w =>
    let m := dField x 8 0 16
    let mask := if m = 0 then 2 ^ q else m
    if d.host.fences.any fun f => f.id == w.id then d
    else if d.fenceMet w.id mask then d.done w stOk
    else { d with host := { d.host with fences := ⟨w.id, q, w.cid, mask⟩ :: d.host.fences } }

/-- FENCE_COMPLETE (R492). -/
def Dev.fenceComplete (d : Dev) (q : Nat) : Dev :=
  match d.host.fences.find? fun f => f.q == q with
  | some f =>
    if d.fenceMet f.id f.mask then
      let d := { d with host := { d.host with fences := d.host.fences.filter fun x => x.id != f.id } }
      d.done { id := f.id, q := f.q, cid := f.cid, opc := opFence } stOk
    else d
  | none => d

/-- NOP (R495). -/
def Dev.nopDesc (d : Dev) (q : Nat) : Dev := d.onDesc q opNop fun d _ w => d.done w stOk

/-! ## BAR4 (R484) -/

/-- The owner of an SRAM byte as the debug window sees it; none: never written through it. -/
def Dev.sramOwner (d : Dev) (a : Nat) : Option Owner :=
  if a < 0xC000000 then
    let ml := a / 64
    match (List.range 16).find? fun s => decide (d.get (seqVbase s) ≤ ml) && decide (ml < d.get (seqVbase s) + d.get (seqVlines s)) with
    | some s => some (.seq s)
    | none => some .never
  else if a < 0xE000000 then
    let u := (a - 0xC000000) / 65536
    match (List.range 32).find? fun i => decide (d.get (auBase i) ≤ u) && decide (u < d.get (auBase i) + d.get (auSize i)) with
    | some i => some (.au i)
    | none => some .never
  else if a < 0xF000000 then some .ledger
  else if a < 0xF800000 then some (.dse ((a - 0xF000000) / 0x80000))
  else if a < 0xFC00000 then some .ledger
  else if a < 0xFD00000 then some (.dse ((a - 0xFC00000) / 0x10000))
  else none

/-- BAR4_WRITE (R484). -/
def Dev.bar4Write (d : Dev) (off v : Nat) : Dev :=
  if d.get hostBar4 ≠ 2 then d
  else
    let a := off / 4 * 4
    match d.sramOwner a with
    | none => d
    | some o => if d.running o then d.bump genErrLocked else d.st a 4 v

/-! ## The meanings -/

/-- HOST_SQ_EN_WRITE (R486). -/
def execHostSqEnWrite (v : Word) (s : State) : Answer := onDev s fun d => d.sqEnWrite v.toNat

/-- SQ_TAIL_DOORBELL (R487). -/
def execSqTailDoorbell (q : Fin 16) (v : Word) (s : State) : Answer := onDev s fun d => d.sqTailBell q v.toNat

/-- EQ_HEAD_DOORBELL (R488). -/
def execEqHeadDoorbell (v : Word) (s : State) : Answer := onDev s fun d => d.eqHeadBell v.toNat

/-- MSIX_UNMASK (R515). -/
def execMsixUnmask (vec : Fin 64) (s : State) : Answer := onDev s fun d => d.msixUnmask vec

/-- DESCRIPTOR_FETCH (R491). -/
def execDescriptorFetch (q : Fin 16) (desc : Descriptor) (s : State) : Answer := onDev s fun d => d.fetch q desc.toNat

/-- NOP (R495). -/
def execNop (q : Fin 16) (s : State) : Answer := onDev s fun d => d.nopDesc q

/-- FENCE (R492). -/
def execFence (q : Fin 16) (s : State) : Answer := onDev s fun d => d.fenceDesc q

/-- FENCE_COMPLETE (R492). -/
def execFenceComplete (q : Fin 16) (s : State) : Answer := onDev s fun d => d.fenceComplete q

/-- BAR4_WRITE (R484). -/
def execBar4Write (_req : Requester) (off : BitVec 28) (v : Word) (s : State) : Answer := onDev s fun d => d.bar4Write off.toNat v.toNat

end Sys2Proof.Machine
end

