-- ==== Sys2Proof/Machine/Channel.lean ====
section
/-!
DEFINITION. The channel: writes of level codes and update classes (R64 to R70), the off states and faults of the outputs
(R72 to R82), the end of a deglitcher hold and the parks of an edge die (R75 to R77, R618).
-/

namespace Sys2Proof.Machine

/-! ## Register writes of a channel -/

def peCtrlAddr (c : Nat) : Nat := 0x1000000 + 0x1000 * c
def peLvlCodeAddr (c k : Nat) : Nat := 0x1000040 + 0x1000 * c + 4 * k

/-- A locked register of a channel is written (R10, R579): `eff` is the effect of the change from one word to another. -/
def Dev.lockedWrite (d : Dev) (req : Requester) (a v : Nat) (eff : Dev → Nat → Nat → Dev) : Dev :=
  if d.running (ownerAt a) then d.refuseWrite req a
  else if d.awake then
    let old := (d.edgeWord a).toNat
    eff (d.storeReg a v) old v
  else d.standbyWrite (req == .hkc) a v

/-- LEVEL_CODE_WRITE (R65). -/
def Dev.levelCodeWrite (d : Dev) (c k v : Nat) : Dev :=
  let a := peLvlCodeAddr c k
  if d.awake then d.liveWrite a (v % 65536) else d.standbyWrite false a (v % 65536)

/-- A change of update classes loads the level set's code into a DAC that comes to ON_STROBE, and the written code into one that
returns to ON_WRITE (R65, R69). -/
def Dev.lvlUpdEffect (d : Dev) (c old new : Nat) : Dev :=
  let free (k : Nat) : Bool := !(k == 10 && d.is (ppmuWfRun c))
  let codes := (List.range 11).filterMap fun k =>
    if old.testBit k == new.testBit k || !free k then none
    else if new.testBit k then some (k, d.eget (peLsetCode c (d.get (peLset c)) k)) else some (k, d.eget (peCode c k))
  d.loadLevels c codes

/-- PE_LVL_UPD_WRITE (R64, R69). -/
def Dev.lvlUpdWrite (d : Dev) (req : Requester) (c v : Nat) : Dev :=
  d.lockedWrite req (0x100000C + 0x1000 * c) (v % 2048) fun d old new => d.lvlUpdEffect c old new

/-- The active load is connected (R50, R95). -/
def Dev.loadOn (d : Dev) (c : Nat) : Bool :=
  d.eis (peAload c) && !d.eis (peOffMode c) && !(d.chan c).drv.on && !d.is (peHiz c) && d.get (ppmuForceNow c) == 0

/-- PE_CTRL takes a value (R50, R73, R77). -/
def Dev.peCtrlEffect (d : Dev) (c new : Nat) : Dev :=
  let d := if d.loadOn c then d else d.put (peLoadCompl c) 0
  if new.testBit 5 then
    if d.is (peParked c) || d.quiesced (sectorOf c) then d else d.setChan c { d.chan c with waitStep := false }
  else (d.put (peLoadCompl c) 0).toHiz c

/-- PE_CTRL_WRITE (R77, R84). -/
def Dev.peCtrlWrite (d : Dev) (req : Requester) (c v : Nat) : Dev :=
  d.lockedWrite req (peCtrlAddr c) (v % 64) fun d _ new => d.peCtrlEffect c new

/-- PE_FAULT bits are cleared (R81): with no channel fault left, the outputs may leave high impedance at once, or from the next
test-step boundary on while the owner runs. -/
def Dev.peFaultClear (d : Dev) (c v : Nat) : Dev :=
  let old := d.get (peFault c)
  let new := old - (old &&& v % 16)
  let d := d.put (peFault c) new
  let d := if v.testBit 2 then d.put (peCntRej c) 0 else d
  if new % 8 = 0 ∧ old % 8 ≠ 0 then d.setChan c { d.chan c with waitBound := d.running (.chan c) } else d

/-- In P2 and P3 the bits clear at once and the effect waits for the wake (R579). -/
def Dev.faultClearWrite (d : Dev) (addr v : Nat) (f : Dev → Dev) : Dev :=
  if d.awake then f d
  else { f d with pwr := { d.pwr with heldWrites := d.pwr.heldWrites ++ [(false, addr, v)] } }

/-! ## Outputs -/

/-- HIZ_EXIT: 2 µs after the codes in force were loaded, nothing else holds the outputs (R74). -/
def Dev.hizExit (d : Dev) (c : Nat) : Dev :=
  if d.awake && d.mayExit c then ((d.advanceTo ((d.chan c).loadAt + us 2)).put (peHiz c) 0).syncForce c else d

/-- DEGLITCH_RELEASE: a hold ends and the output steps to the latest code (R58, R60). -/
def Dev.deglitchRelease (d : Dev) (c k : Nat) : Dev :=
  let x := d.dac c k
  if x.holding then
    let d := d.advanceTo x.holdEnd
    d.setDac c k { out := d.get (peCorr c k), holding := false, holdEnd := x.holdEnd }
  else d

/-- The outputs have already gone high impedance, and not in this master period for another reason (R82). -/
def Dev.hizBefore (d : Dev) (c b : Nat) : Bool :=
  d.is (peHiz c) && ((d.chan c).hizAt != some d.mclk || (d.get (peFault c)).testBit b)

/-- A channel fault of the supervision: it can arise only while the outputs drive (R78, R79, R80), or in the master period in which
they cease to, as both are then latched (R82). -/
def Dev.superFault (d : Dev) (c b : Nat) : Dev :=
  if d.hizBefore c b || !d.awake then d else (d.put (peLoadCompl c) 0).chanFault c b b

/-- LOAD_COMPL: the connected load has been in compliance for 1 µs (R52). -/
def Dev.loadCompl (d : Dev) (c : Nat) : Dev :=
  if d.loadOn c && d.awake then
    ((d.put (peLoadCompl c) 1).put (peFault c) (d.get (peFault c) ||| 8)).event (srcChan c) 0x0201 0
  else d

/-! ## Parks (R75 to R77, R618) -/

/-- A park input of an edge die is asserted (R75). -/
def Dev.parkInput (d : Dev) (e : Nat) : Bool :=
  let x := d.die e
  d.pwr.parkIn || d.pwr.porstLow || x.parkOrd || x.parkRail || x.parkP3

/-- A sequencer of a PATTERN step owns a channel of a die. -/
def Dev.seqOnDie (d : Dev) (s e : Nat) : Bool := (d.seqChans s).any fun c => dieOf c == e

/-- The contact check or the step in progress of a RUN uses a channel of a die (R76). -/
def Dev.runOnDie (d : Dev) (r : OpenRun) (e : Nat) : Bool :=
  if r.phase = .contact then r.sites &&& d.dieSites e != 0
  else if r.phase = .running then
    match r.step? with
    | none => false
    | some st =>
      let act := (r.openRes.map fun x => x.site).dedup
      if st.kind = kPattern then (maskList 16 st.seqs).any fun s => d.seqBusy s && d.seqOnDie s e
      else if st.kind = kPpmu then act.any fun s => (d.stepChans st s).any fun c => dieOf c == e
      else if st.kind = kTmu then r.openRes.any fun x => x.unit / 4 / 16 == e
      else if st.kind = kAcq then r.openRes.any fun x => d.auDie (x.unit / 4) == e
      else false
  else false

/-- A test step uses a channel of a die. -/
def Dev.dieInUse (d : Dev) (e : Nat) : Bool := d.runs.any fun r => d.runOnDie r e

/-- The core die orders the park of an edge die (R75). -/
def Dev.orderPark (d : Dev) (e : Nat) : Dev :=
  let x := d.die e
  d.setDie e { x with parkOrd := true, inUse := x.inUse || d.dieInUse e }

/-- A PPMU result that still needs a sample of a channel on a die. -/
def resOnDie (e : Nat) (x : Res) : Bool := x.fin.isNone && dieOf x.unit == e

/-- A result of the contact check whose site has an enabled channel on a die. -/
def Dev.contactOnDie (d : Dev) (e : Nat) (x : Res) : Bool :=
  x.fin.isNone && (d.siteChans x.site).any fun c => dieOf c == e && d.eis (ppmuCcEn c)

/-- The samples and jobs of a cut-off result are dropped: the listed jobs of its channel. -/
def Dev.dropPpmuJobs (d : Dev) (id e : Nat) : Dev :=
  { d with jobs := d.jobs.filter fun j => !(j.ppmu && j.run == some id && dieOf j.ch == e && j.samples.isEmpty) }

/-- R618 on one RUN: the results of a PPMU step, and of the contact check, that still need a sample of the die complete with
INCOMPLETE and the INTEGRITY mark. -/
def Dev.parkResults (d : Dev) (e : Nat) (r : OpenRun) : Dev :=
  let cut (p : Res → Bool) : Dev :=
    d.forEach ((r.res.filter p).map fun x => x.site).dedup fun d s => d.cutRes r.id s p rIncomplete fIntegrity
  if r.phase = .contact then cut (d.contactOnDie e)
  else
    match r.phase, r.step? with
    | .running, some st => if st.kind = kPpmu then (cut (resOnDie e)).dropPpmuJobs r.id e else d
    | _, _ => d

/-- An edge die completes its park: the outputs of its channels are high impedance; its comparators, ADCs and TMUs stop (R73,
R75, R76, R279, R301, R618). -/
def Dev.edgePark (d : Dev) (e : Nat) : Dev :=
  let x := d.die e
  if x.parked || !d.parkInput e then d
  else
    let used := x.inUse || d.dieInUse e
    let d := d.setDie e { x with parked := true, inUse := false }
    let d := d.put pwrParked (d.get pwrParked ||| 2 ^ e)
    let d := d.forEach (dieChans e) fun d c =>
      let d := ((d.keepStop c).put (peParked c) 1).put (peLoadCompl c) 0
      (d.setChan c { d.chan c with waitStep := true }).toHiz c
    let d := d.runs.foldl (fun d r => d.parkResults e r) d
    let d := d.forEach ((List.range 32).filter fun a => d.auDie a == e) fun d a => d.auDisarmCore a true
    let d := d.forEach ((List.range 16).map (· + 16 * e)) fun d u => d.tmuCut u
    if used then d.report (srcDie e) 4 0 0 (d.dieSites e) true else d

/-- EDGE_UNPARK: no park input holds the die any longer; its channels stay high impedance until their next step (R77). -/
def Dev.edgeUnpark (d : Dev) (e : Nat) : Dev :=
  let x := d.die e
  if !x.parked || d.parkInput e then d
  else
    let d := d.setDie e { x with parked := false, inUse := false }
    let d := d.put pwrParked (d.get pwrParked - (d.get pwrParked &&& 2 ^ e))
    let d := d.forEach (dieChans e) fun d c =>
      if d.is (peParked c) then (d.keepStop c).put (peParked c) 0 else d
    d.condEnd (srcDie e) 4

/-! ## Die-to-die links (R21 to R24) -/

/-- The sites with a channel in the named sectors of a die. -/
def Dev.dieSectorSites (d : Dev) (e sec : Nat) : Nat :=
  (maskList 4 sec).foldl (fun m i => m ||| d.sectorSites (4 * e + i)) 0

/-- D2D_CRC_OUT: the symbols that the flit carried are lost and each affected pin plays its hold symbol (R22). -/
def Dev.d2dCrcOut (d : Dev) (e sec syn : Nat) : Dev :=
  if !d.awake then d
  else
    let x := d.die e
    (d.setDie e { x with crcHold := x.crcHold ||| sec }).checkReal (srcDie e) 0 syn sec (d.dieSectorSites e sec)

/-- D2D_CRC_IN: the content is lost, samples of AUs among it; the scope is the sites that the content served (R23). -/
def Dev.d2dCrcIn (d : Dev) (e sec syn sites : Nat) (lost : List (Nat × Nat)) : Dev :=
  if !d.awake then d
  else
    let d := lost.foldl (fun d p =>
      if d.auDie p.1 = e ∧ d.get (auState p.1) ≠ 0 then d.setAu p.1 { d.au p.1 with loss := (d.au p.1).loss + p.2 } else d) d
    d.checkReal (srcDie e) 1 syn sec (sites &&& d.dieSites e)

/-- D2D_ECHO: the parity of a sector's symbols differs from what was sent (R21). -/
def Dev.d2dEcho (d : Dev) (e sec syn : Nat) : Dev :=
  if !d.awake then d else d.checkReal (srcDie e) 2 syn sec (d.dieSectorSites e sec)

/-- What the loss of a write means on the edge die: it keeps the value it held (R24). -/
def Dev.loseWrite (d : Dev) (a old : Nat) : Dev :=
  let d := d.edgeTake a (BitVec.ofNat 32 old)
  match lvlCodeAt a with
  | some (c, k) => d.loadLevels c (if d.loadsOnWrite c k then [(k, old % 65536)] else [])
  | none =>
    if 0x1000000 ≤ a ∧ a < 0x1100000 ∧ a % 0x1000 = 0 then
      let c := (a - 0x1000000) / 0x1000
      if d.eis (peChEn c) then d else d.toHiz c
    else if 0x1000000 ≤ a ∧ a < 0x1100000 ∧ a % 0x1000 = 0x600 then d.syncForce ((a - 0x1000000) / 0x1000)
    else d

/-- D2D_CONFIG_ACK_TIMEOUT: the last write to an edge die has not been acknowledged within 2 µs: it is sent again, and after the
fourth attempt it is lost (R24). -/
def Dev.configTimeout (d : Dev) (e : Nat) : Dev :=
  let x := d.die e
  match x.lastWr with
  | none => d
  | some w =>
    if !d.awake then d
    else
      let d := d.advance (us 2)
      if w.attempts < 3 then d.setDie e { x with lastWr := some { w with attempts := w.attempts + 1 } }
      else
        let d := (d.setDie e { x with lastWr := none }).loseWrite w.addr w.old
        let d := d.report (srcDie e) 3 0 0 (d.dieSites e) false
        match w.descId.bind fun i => d.host.work.find? fun y => y.id == i with
        | some y => d.complete y stIntegrity 0 0
        | none => d

/-! ## The meanings -/

/-- LEVEL_CODE_WRITE (R65). -/
def execLevelCodeWrite (c : Fin 256) (dac : Fin 11) (v : Word) (s : State) : Answer :=
  onDevIdle s fun d => d.levelCodeWrite c dac v.toNat

/-- PE_LVL_UPD_WRITE (R69). -/
def execPeLvlUpdWrite (req : Requester) (c : Fin 256) (v : Word) (s : State) : Answer :=
  onDev s fun d => d.lvlUpdWrite req c v.toNat

/-- PE_CTRL_WRITE (R77). -/
def execPeCtrlWrite (req : Requester) (c : Fin 256) (v : Word) (s : State) : Answer :=
  onDevIdle s fun d => d.peCtrlWrite req c v.toNat

/-- PE_FAULT_CLEAR (R81). -/
def execPeFaultClear (c : Fin 256) (v : Word) (s : State) : Answer :=
  onDev s fun d => d.faultClearWrite (0x1000008 + 0x1000 * c) v.toNat fun d => d.peFaultClear c v.toNat

/-- PE_TIM_CLR (R157). -/
def execPeTimClr (c : Fin 256) (s : State) : Answer :=
  onDev s fun d => d.orHold (0x1000E0C + 0x1000 * c) 1 fun d => d.put (peTimCnt c) 0

/-- DEGLITCH_RELEASE (R58). -/
def execDeglitchRelease (c : Fin 256) (dac : Fin 11) (s : State) : Answer := onDev s fun d => d.deglitchRelease c dac

/-- DRV_OC (R78). -/
def execDrvOc (c : Fin 256) (s : State) : Answer := onDevIdle s fun d => d.superFault c 0

/-- CLAMP_OC (R78). -/
def execClampOc (c : Fin 256) (s : State) : Answer := onDevIdle s fun d => if d.eis (peClampEn c) then d.superFault c 1 else d

/-- LOAD_COMPL (R52). -/
def execLoadCompl (c : Fin 256) (s : State) : Answer := onDev s fun d => d.loadCompl c

/-- EDGE_UNPARK (R77). -/
def execEdgeUnpark (e : Fin 4) (s : State) : Answer := onDev s fun d => d.edgeUnpark e

/-- D2D_CRC_OUT (R22). -/
def execD2dCrcOut (e : Fin 4) (sectors : BitVec 4) (syn : Word) (s : State) : Answer :=
  onDev s fun d => d.d2dCrcOut e sectors.toNat syn.toNat

/-- D2D_CRC_IN (R23). -/
def execD2dCrcIn (e : Fin 4) (sectors : BitVec 4) (syn : Word) (sites : SiteMask) (auLost : List (Fin 32 × Nat)) (s : State) :
    Answer :=
  onDev s fun d => d.d2dCrcIn e sectors.toNat syn.toNat sites.toNat (auLost.map fun p => (p.1.val, p.2))

/-- D2D_ECHO (R21). -/
def execD2dEcho (e : Fin 4) (sectors : BitVec 4) (syn : Word) (s : State) : Answer :=
  onDev s fun d => d.d2dEcho e sectors.toNat syn.toNat

/-- D2D_CONFIG_ACK_TIMEOUT (R24). -/
def execD2dConfigAckTimeout (e : Fin 4) (s : State) : Answer := onDev s fun d => d.configTimeout e

end Sys2Proof.Machine
end

