-- ==== Sys2Proof/Machine/FailLog.lean ====
section
/-!
DEFINITION. Pattern evidence: fail counters (R230), first-fail capture (R231) and the fail log (R233 to R236).
-/

namespace Sys2Proof.Machine

/-- The TB of a master period counted from reset, as the timebase stands. -/
def Dev.tbAt (d : Dev) (mp : Nat) : Nat := (d.tb + 2 ^ 64 + mp - d.mclk) % 2 ^ 64

/-- The reserved fail-log area of a site and a block of the shared pool (R18, R235). -/
def flogArea (s : Nat) : Nat := 0xE000000 + 0x10000 * s
def flogBlock (b : Nat) : Nat := 0xE400000 + 0x1000 * b

def Dev.flog (d : Dev) (s : Nat) : FailLog := Tab.get (fun _ => FailLog.init) d.led.flogs s

/-- The address of entry `n` of a site's fail log, where it has space (R235). -/
def FailLog.addr (f : FailLog) (s n : Nat) : Option Nat :=
  if n < 4096 then some (flogArea s + 16 * n)
  else (f.blocks[(n - 4096) / 256]?).map fun b => flogBlock b + 16 * ((n - 4096) % 256)

/-- The lowest free block of the pool. -/
def Dev.freeBlock (d : Dev) : Option Nat := (List.range 3072).find? fun b => !d.led.poolUsed.contains b

/-- A site takes a pool block when the entry to come needs one (R235). -/
def Dev.flogGrow (d : Dev) (s n : Nat) : Dev :=
  let f := d.flog s
  match f.addr s n, d.freeBlock with
  | none, some b =>
    { d with led := { d.led with
        flogs := Tab.set (fun _ => FailLog.init) d.led.flogs s { f with blocks := f.blocks ++ [b] }
        poolUsed := b :: d.led.poolUsed } }
  | _, _ => d

/-- A fail-log entry dropped (R235). -/
def Dev.flogLost (d : Dev) (s : Nat) : Dev :=
  let d := d.bump (flogDrop s)
  match d.runOfSite s with
  | some r => d.setRun { r with flogDrop := r.flogDrop ||| 2 ^ s }
  | none => d

/-- One entry enters the queue of its channel's edge die and the fail log of its site (R233 to R235). -/
def Dev.flogPush (d : Dev) (c s entry : Nat) : Dev :=
  let e := dieOf c
  let q := Tab.get (fun _ => ((0, 0) : Nat × Nat)) d.led.queue e
  let fill := q.1 - 4 * (d.mclk - q.2)
  if 1024 ≤ fill then d.flogLost s
  else
    let d := { d with led := { d.led with queue := Tab.set (fun _ => ((0, 0) : Nat × Nat)) d.led.queue e (fill + 1, d.mclk) } }
    let n := d.get (flogCount s)
    let d := d.flogGrow s n
    match (d.flog s).addr s n with
    | some a => (d.st a 16 entry).bump (flogCount s)
    | none => d.flogLost s

/-- A fail-log entry packed (R233). -/
def flogPack (vec line c s : Nat) (strm contact : Bool) (step : Nat) : Nat :=
  vec % 2 ^ 48 + 2 ^ 48 * (line % 2 ^ 40) + 2 ^ 88 * c + 2 ^ 96 * s + 2 ^ 102 * strm.toNat + 2 ^ 103 * contact.toNat
    + 2 ^ 104 * (step % 2 ^ 16)

/-- A site's fail log emptied and its pool blocks returned (R236). -/
def Dev.flogClear (d : Dev) (s : Nat) : Dev :=
  let f := d.flog s
  let d := { d with led := { d.led with
    flogs := Tab.set (fun _ => FailLog.init) d.led.flogs s FailLog.init
    poolUsed := d.led.poolUsed.filter fun b => !f.blocks.contains b } }
  (d.put (flogCount s) 0).put (flogDrop s) 0

/-- The fail counter and the first-fail capture of a site cleared for a PATTERN step (R230, R231). -/
def Dev.failClear (d : Dev) (s : Nat) : Dev :=
  let d := d.put2 (fcntLo s) (fcntHi s) 0
  let d := d.put2 (ffLineLo s) (ffLineHi s) 0
  let d := d.put2 (ffVecLo s) (ffVecHi s) 0
  let d := d.put2 (ffTbLo s) (ffTbHi s) 0
  ((d.put (ffCh s) 0).put (ffStrm s) 0).put (ffValid s) 0

/-- A counted play in which the channels `cs` of site `s` (ascending) failed: fail counter, first fail and fail log
(R230, R231, R233). -/
def Dev.countFails (d : Dev) (s : Nat) (cs : List Nat) (line : Nat) (strm : Bool) (vec tb step : Nat) : Dev :=
  match cs with
  | [] => d
  | c0 :: _ =>
    let d := d.put2 (fcntLo s) (fcntHi s) (min (d.get2 (fcntLo s) (fcntHi s) + cs.length) (2 ^ 40 - 1))
    let d :=
      if d.is (ffValid s) then d
      else
        let d := d.put2 (ffLineLo s) (ffLineHi s) (line % 2 ^ 40)
        let d := d.put2 (ffVecLo s) (ffVecHi s) (vec % 2 ^ 64)
        let d := d.put2 (ffTbLo s) (ffTbHi s) tb
        ((d.put (ffCh s) c0).putB (ffStrm s) strm).put (ffValid s) 1
    cs.foldl (fun d c => d.flogPush c s (flogPack vec line c s strm false step)) d

end Sys2Proof.Machine
end

