-- ==== Sys2Proof/Machine/Ppmu.lean ====
section
/-!
DEFINITION. The parametric unit: register writes (R103, R108, R112), the supply budget governor (R115 to R117, R332), sampling and
results (R99 to R102), supervision (R101 to R104), waveform segments (R109 to R114) and the contact check (R105 to R107).
-/

namespace Sys2Proof.Machine

/-! ## What a refused waveform segment means for a step (R114) -/

/-- A PPMU step in whose waveform a segment was refused completes on that site with RANGE. -/
def Dev.wfSettle (d : Dev) (c : Nat) : Dev :=
  let x := d.chan c
  if !x.wfRefused then d
  else
    let d := d.setChan c { x with wfRefused := false }
    match x.ppmuUse, d.siteOf c with
    | some u, some s =>
      match d.findRun u.td with
      | some r => if r.phase = .running then d.cutRes r.id s (fun _ => true) rRange fIntegrity else d
      | none => d
    | _, _ => d

/-! ## Register writes -/

/-- PPMU_CTRL as it is stored: FORCE 0b11 and RANGE 0b101 to 0b111 leave their fields unchanged (R120). -/
def ppmuCtrlStored (old v : Nat) : Nat :=
  let force := if v % 4 = 3 then old % 4 else v % 4
  let range := if 4 < bitsOf v 3 3 then bitsOf old 3 3 else bitsOf v 3 3
  force + 4 * bitsOf v 2 1 + 8 * range + 64 * bitsOf v 6 1 + 256 * bitsOf v 8 3

/-- PPMU_CTRL takes a value: the force mode follows, and setting WF_EN starts play (R108). -/
def Dev.ppmuCtrlEffect (d : Dev) (c old new : Nat) : Dev :=
  let d := (d.put (ppmuCompl c) 0).syncForce c
  let d := d.reconvert c 10
  let rise := new.testBit 6 && !old.testBit 6
  let d := if rise && (d.chan c).ppmuUse.isNone && d.get (ppmuForceNow c) != 0 then d.wfStart c else d
  d.wfSettle c

/-- PPMU_CTRL_WRITE (R108, R120). -/
def Dev.ppmuCtrlWrite (d : Dev) (req : Requester) (c v : Nat) : Dev :=
  let a := 0x1000600 + 0x1000 * c
  d.lockedWrite req a (ppmuCtrlStored (d.word a).toNat v) fun d old new => d.ppmuCtrlEffect c old new

/-- PPMU_FAULT bits are cleared: the clearing of OPEN_LOOP lets the programmed mode return at once, or from the next test-step
boundary on while the owner runs (R103). -/
def Dev.ppmuFaultClear (d : Dev) (c v : Nat) : Dev :=
  let old := d.get (ppmuFaultF c)
  let d := d.put (ppmuFaultF c) (old - (old &&& v % 8))
  let x := d.chan c
  if v.testBit 1 && x.olHold then
    if d.running (.chan c) then d.setChan c { x with olWait := true }
    else ((d.setChan c { x with olHold := false, olWait := false }).syncForce c).wfSettle c
  else d

/-- A waveform jump request (R112, R113): before the commit point of the play in progress it acts at its end, later at the end of
the next one. Each part holds one request, the latest. -/
def Dev.wfJump (d : Dev) (c t : Nat) : Dev :=
  if !d.is (ppmuWfRun c) then d
  else
    let x := d.chan c
    if d.mclk + 8 * d.wfDiv c < x.wfEnd then d.setChan c { x with wfReq := some t } else d.setChan c { x with wfLate := some t }

/-- WF_SEGMENT_END: the last sample of a play has played in full (R109, R112 to R114). -/
def Dev.wfSegmentEnd (d : Dev) (c : Nat) : Dev :=
  if !d.is (ppmuWfRun c) then d
  else
    let e := dieOf c
    let seg := d.get (ppmuWfSeg c)
    let d := d.advanceTo (d.chan c).wfEnd
    let d := d.wfPut c (d.wfSample e (d.eget (pedSegStart e seg) + d.eget (pedSegLength e seg) - 1))
    let x := d.chan c
    let d := d.setChan c { x with wfReq := x.wfLate, wfLate := none }
    let d := match x.wfReq with
      | some t => d.wfEnter c t
      | none =>
        if 0 < x.wfLeft then d.wfPlay c seg (x.wfLeft - 1)
        else if d.eis (pedSegEnd e seg) then d.wfStop c
        else d.wfEnter c (d.eget (pedSegNext e seg))
    d.wfSettle c

/-! ## The governor (R115 to R117, R332) -/

/-- A result of a PPMU step that takes up space in the sample buffer. -/
def Dev.bufferOf (r : OpenRun) (st : StepData) (y : Res) : Nat :=
  let n := (st.ppmuUse 0 y.unit).samples
  let cut := match y.fin with
    | some e => e.result == rIncomplete && (r.siteRes y.site).any fun z => z.fin.isNone
    | none => true
  if y.begun && cut && decide (2 ≤ n) then n else 0

/-- The steps of kind PPMU in progress. -/
def Dev.ppmuSteps (d : Dev) : List (OpenRun × StepData) :=
  d.runs.filterMap fun r =>
    if r.phase = .running then
      match r.step? with
      | some st => if st.kind = kPpmu then some (r, st) else none
      | none => none
    else none

/-- Samples of the buffer in use. -/
def Dev.bufferUsed (d : Dev) : Nat := (d.ppmuSteps.map fun p => (p.1.res.map fun y => Dev.bufferOf p.1 p.2 y).sum).sum

/-- A site of a step waits for admission. -/
def waitsFor (r : OpenRun) (s : Nat) : Bool := (r.siteRes s).any fun y => !y.begun && y.fin.isNone

/-- The waiting sites, in ascending order: site, RUN, step (R116). -/
def Dev.waiters (d : Dev) : List (Nat × OpenRun × StepData) :=
  (List.range 64).flatMap fun s => d.ppmuSteps.filterMap fun p => if waitsFor p.1 s then some (s, p.1, p.2) else none

/-- The budget in force of an edge die (R122). -/
def Dev.budget (d : Dev) (e : Nat) : Nat := clampNat 100 2560 (d.eget (pedLimit e))

/-- A site's claim and its samples fit (R116, R332). -/
def Dev.siteFits (d : Dev) (st : StepData) (s : Nat) : Bool :=
  ([0, 1, 2, 3].all fun e => decide (d.get (pedHeld e) + d.siteClaim st s e ≤ d.budget e))
    && decide (d.bufferUsed + d.siteSamples st s ≤ 262144)

/-- A channel takes the settings of the step that uses it (R98, R108). -/
def Dev.ppmuApply (d : Dev) (c : Nat) (u : PpmuUse) : Dev :=
  let d := (d.wfStop c).setChan c { (d.wfStop c).chan c with ppmuUse := some u }
  let d := (d.put (ppmuCompl c) 0).put (ppmuWait c) 0
  let was := d.get (ppmuForceNow c)
  let d := (d.syncForce c).reconvert c 10
  let d := if u.wf && was != 0 && d.get (ppmuForceNow c) != 0 then d.wfStart c else d
  d.wfSettle c

/-- A site is admitted: its step begins on it (R116, R117, R256). Results of channels on a parked die can take no sample and
complete at once (R618). -/
def Dev.admitSite (d : Dev) (s : Nat) (r : OpenRun) (st : StepData) : Dev :=
  let d := d.forEach [0, 1, 2, 3] fun d e => d.put (pedHeld e) (d.get (pedHeld e) + d.siteClaim st s e)
  let wait := if r.dueAt < d.mclk then fBudgetWait else 0
  let d := match d.runById r.id with
    | some r =>
      let f (y : Res) : Res :=
        if y.site = s ∧ y.fin.isNone = true then { y with begun := true, startTb := d.tb, rdTb := d.tb, t0 := d.mclk, flags := y.flags ||| wait } else y
      d.setRun { r with res := r.res.map f }
    | none => d
  let d := d.forEach (d.stepChans st s) fun d c => d.ppmuApply c (st.ppmuUse r.td c)
  d.cutRes r.id s (fun y => d.is (peParked y.unit)) rIncomplete fIntegrity

/-- `PED_CLAIM.WAITING` and `PPMU_STATUS.WAIT` follow. -/
def Dev.countWaiting (d : Dev) : Dev :=
  let ws := d.waiters
  let d := d.forEach [0, 1, 2, 3] fun d e =>
    d.put (pedWaiting e) ((ws.filter fun w => (d.stepChans w.2.2 w.1).any fun c => dieOf c == e).length)
  ws.foldl (fun d w => d.forEach (d.stepChans w.2.2 w.1) fun d c => d.put (ppmuWait c) 1) d

/-- The governor admits waiting sites in ascending order as long as they fit (R116). -/
def Dev.admitAll (d : Dev) : Nat → Dev
  | 0 => d.countWaiting
  | n + 1 =>
    match d.waiters with
    | [] => d.countWaiting
    | w :: _ => if d.siteFits w.2.2 w.1 then (d.admitSite w.1 w.2.1 w.2.2).admitAll n else d.countWaiting

/-- BUDGET_ADMIT: 1 µs after a release the governor admits again (R116). -/
def Dev.budgetAdmit (d : Dev) (td : Nat) : Dev :=
  match d.admitAt with
  | some t => if (d.findRun td).isSome then ({ d.advanceTo t with admitAt := none }).admitAll 4096 else d
  | none => d

/-! ## Samples (R99, R100, R102, R238) -/

/-- The result of a channel in the PPMU step that a RUN runs. -/
def OpenRun.chanRes (r : OpenRun) (c : Nat) : Option Res := r.res.find? fun y => y.unit == c

/-- A change of one result of a RUN's step. -/
def Dev.mapRes (d : Dev) (id c : Nat) (f : Res → Res) : Dev :=
  match d.runById id with
  | some r => d.setRun { r with res := r.res.map fun y => if y.unit = c then f y else y }
  | none => d

/-- The value that a code stands for on a channel, and the model's note that its rounding is open. -/
def Dev.ppmuValue (d : Dev) (c meas range code : Nat) : Dev × Int := (d.nextFree, d.convert c meas range code)

/-- The job of a channel whose samples have all been converted (R99, R332, R334). -/
def Dev.ppmuJob (d : Dev) (r : OpenRun) (st : StepData) (y : Res) (u : PpmuUse) : Job :=
  { run := some r.id, step := r.k, ppmu := true, site := y.site, ch := y.unit, unit := y.unit, j := y.j, n := 1, jobNo := y.j,
    test := st.testNum + y.j, kid := u.kid, engines := 2 ^ u.engine, params := [], asks := [(1, 0)],
    samples := (y.samples.reverse).map fun c => d.convert y.unit u.meas u.range c, startTb := y.startTb, views := [] }

/-- One ADC sample of a channel in a PPMU step: the last sample of a reading forms the result, or readies its DSP job. -/
def Dev.ppmuTake (d : Dev) (r : OpenRun) (st : StepData) (c code : Nat) : Dev :=
  match r.chanRes c with
  | none => d
  | some y =>
    let u := st.ppmuUse r.td c
    let n := max 1 u.samples
    if !y.begun || !y.settled || y.fin.isSome || d.is (peParked c) || decide (n ≤ y.samples.length) then d
    else
      let new := y.samples.isEmpty
      let d := d.advanceTo (y.t0 + us (y.samples.length + 1))
      let d := d.put (ppmuResult c) code
      let compl := (if new then false else y.compl) || d.is (ppmuCompl c)
      let y' := { y with samples := code :: y.samples, compl := compl }
      let d := d.mapRes r.id c fun _ => y'
      if y'.samples.length < n then d
      else if n = 1 then
        let v := d.ppmuValue c u.meas u.range code
        let rc := if compl then rCompliance else judge st v.2
        v.1.putReading r.id y.site y.j
          { value := v.2, code := rc, flags := (y.flags &&& fBudgetWait) ||| d.staleFlag c, startTb := y.rdTb, endTb := d.tb }
      else
        let e := u.engine
        let j := d.ppmuJob r st y' u
        let d := d.nextFree
        d.setDse e { d.dse e with queue := (d.dse e).queue ++ [j] }

/-- PPMU_SETTLE_EXPIRY: the settle time of a site's channels ends, and each takes its first sample (R99). -/
def Dev.ppmuSettle (d : Dev) (td s : Nat) (codes : List (Nat × Nat)) : Dev :=
  match d.findRun td with
  | none => d
  | some r =>
    match r.phase, r.step? with
    | .running, some st =>
      if st.kind ≠ kPpmu then d
      else
        let due := codes.filter fun p => match r.chanRes p.1 with
          | some y => y.site == s && y.begun && !y.settled && y.fin.isNone
          | none => false
        let at_ (c : Nat) : Nat := match r.chanRes c with
          | some y => y.t0 + us (st.ppmuUse td c).settle
          | none => 0
        let d := d.advanceTo ((due.map fun p => at_ p.1).foldl max 0)
        let d := due.foldl (fun d p => d.mapRes r.id p.1 fun y => { y with settled := true, t0 := at_ p.1 }) d
        due.foldl (fun d p =>
          match d.runById r.id with
          | some r => d.ppmuTake r st p.1 p.2
          | none => d) d
    | _, _ => d

/-- PPMU_SAMPLE: a further ADC sample converts (R99, R238); outside a step it only shows in PPMU_RESULT (R100). -/
def Dev.ppmuSample (d : Dev) (td c code : Nat) : Dev :=
  if d.is (peParked c) || !d.awake then d
  else
    match d.findRun td with
    | none => d.put (ppmuResult c) code
    | some r =>
      match r.phase, r.step? with
      | .running, some st => if st.kind = kPpmu ∧ (r.chanRes c).isSome = true then d.ppmuTake r st c code else d.put (ppmuResult c) code
      | _, _ => d.put (ppmuResult c) code

/-! ## Supervision (R97, R101 to R104) -/

/-- PPMU_RECONNECT: 2 µs after a PATTERN step's last vector the programmed mode returns (R97). -/
def Dev.ppmuReconnect (d : Dev) (c : Nat) : Dev :=
  let x := d.chan c
  match x.reconAt with
  | some t => (((d.advanceTo t).setChan c { x with reconAt := none }).syncForce c).wfSettle c
  | none => d

/-- The index of the step that a channel's use belongs to. -/
def Dev.chanStep (d : Dev) (c : Nat) : Nat :=
  match (d.chan c).ppmuUse with
  | some u => match d.findRun u.td with
    | some r => r.k
    | none => 0
  | none => 0

/-- PPMU_COMPL: the compliance condition has lasted the filter time (R101); an open loop in the same master period does not hide
it (R104). -/
def Dev.ppmuComplRow (d : Dev) (c : Nat) : Dev :=
  if (d.get (ppmuForceNow c) = 0 ∧ (d.chan c).olAt ≠ some d.mclk) ∨ d.awake = false then d
  else
    ((d.put (ppmuCompl c) 1).put (ppmuFaultF c) (d.get (ppmuFaultF c) ||| 1)).event (srcChan c) 0x0202 (d.chanStep c % 65536)

/-- PPMU_OPEN_LOOP: the force loop error has outlasted the settle time in force; the force mode is FN (R101, R103). -/
def Dev.ppmuOpenLoop (d : Dev) (c : Nat) : Dev :=
  if d.get (ppmuForceNow c) ≠ 1 ∨ d.awake = false then d
  else
    let d := d.put (ppmuFaultF c) (d.get (ppmuFaultF c) ||| 2)
    let d := d.report (srcChan c) 3 0 c (d.chanScope c) false
    (d.setChan c { d.chan c with olHold := true, olWait := false, olAt := some d.mclk }).syncForce c

/-! ## The contact check (R35, R105 to R107, R233) -/

/-- The settings that the contact check forces with: FI, MV, ±200 µA, code 0x4000, clamps at −1.5 V and +1.0 V (R105). -/
def contactUse (td : Nat) : PpmuUse :=
  { td := td, force := 2, meas := 0, range := 2, wf := false, iclamp := 100, code := 0x4000, vhi := 0x50D8, vlo := 0x0D79,
    settle := 0, samples := 1, engine := 0, kid := 0 }

/-- The enabled channels of a site, in ascending order. -/
def Dev.ccChans (d : Dev) (s : Nat) : List Nat := (d.siteChans s).filter fun c => d.eis (ppmuCcEn c)

/-- The contact settle time of a channel, in µs (R120). -/
def Dev.ccSettle (d : Dev) (c : Nat) : Nat := clampNat 10 127 (d.eget (ppmuCcSettle c))

/-- The contact check begins on the sites of a RUN: every enabled channel whose outputs nothing holds is forced (R105). -/
def Dev.contactStart (d : Dev) (id : Nat) : Dev :=
  match d.runById id with
  | none => d
  | some r =>
    let cs := (maskList 64 r.sites).flatMap d.siteChans
    let d := cs.foldl (fun d c =>
      let x := d.chan c
      let d := if d.is (peParked c) || d.quiesced (sectorOf c) then d else d.setChan c { x with waitStep := false }
      if d.eis (ppmuCcEn c) && !d.hizHeld c then
        ((d.wfStop c).setChan c { (d.wfStop c).chan c with ppmuUse := some { contactUse r.td with settle := d.ccSettle c } }).syncForce c
          |>.reconvert c 10
      else d) d
    let forced := cs.filter fun c => (d.chan c).ppmuUse.isSome
    let at_ := d.mclk + us ((forced.map d.ccSettle).foldl max 0)
    match d.runById id with
    | some r => d.setRun { r with ccAt := at_ }
    | none => d

/-- What the contact check makes of one channel: its reading and whether it passes (R105, R106). -/
def Dev.ccReading (d : Dev) (codes : List (Nat × Nat)) (c : Nat) : Int × Bool :=
  match (d.chan c).ppmuUse, codes.find? fun p => p.1 == c with
  | some _, some p =>
    let v := d.convert c 0 2 p.2
    let lo := toSigned 12 (d.eget (ppmuCcLo c)) * 1000
    let hi := toSigned 12 (d.eget (ppmuCcHi c)) * 1000
    (v, decide (lo ≤ v) && decide (v ≤ hi) && !d.is (ppmuCompl c))
  | _, _ => (-(2 ^ 39), false)

/-- The test 0 result of one site (R106, R107): the fail log takes one entry for each failing channel. It completes with the last
sample of the site, and a site that takes no sample at the start. -/
def Dev.contactSite (d : Dev) (r : OpenRun) (codes : List (Nat × Nat)) (s : Nat) : Dev :=
  match (r.siteRes s).find? fun y => y.fin.isNone with
  | none => d
  | some y =>
    let rs := (d.ccChans s).map fun c => (c, d.ccReading codes c)
    let bad := rs.filter fun p => !p.2.2
    let x : Int × Nat := match bad, rs with
      | p :: _, _ => (p.2.1, rContact)
      | [], p :: ps => (ps.foldl (fun m q => max m q.2.1) p.2.1, rPass)
      | [], [] => (0, rPass)
    let d := bad.foldl (fun d p => d.flogPush p.1 s (flogPack (ofSigned 48 p.2.1) 0 p.1 s false true 0)) d
    let stale := (d.ccChans s).foldl (fun f c => f ||| d.staleFlag c) 0
    let last := (((d.siteChans s).filter fun c => (d.chan c).ppmuUse.isSome).map d.ccSettle).foldl max 0
    d.putReading r.id s 0
      { value := x.1, code := x.2, flags := stale, startTb := y.startTb, endTb := (y.startTb + us last) % 2 ^ 64 }

/-- CONTACT_CHECK_SAMPLE: the settle time has ended and every forced channel of the RUN has taken one MV sample (R105 to
R107). The command tells the code of each. -/
def Dev.contactSample (d : Dev) (td : Nat) (codes : List (Nat × Nat)) : Dev :=
  match d.findRun td with
  | none => d
  | some r =>
    let cs := (maskList 64 r.sites).flatMap d.siteChans
    let forced := cs.filter fun c => (d.chan c).ppmuUse.isSome && !d.is (peParked c)
    if r.phase ≠ .contact ∨ r.openRes.isEmpty = true ∨ (forced.all fun c => codes.any fun p => p.1 == c) = false then d
    else
      let d := d.advanceTo r.ccAt
      let d := forced.foldl (fun d c => match codes.find? fun p => p.1 == c with
        | some p => d.put (ppmuResult c) p.2
        | none => d) d.nextFree
      let d := d.forEach (maskList 64 r.sites) fun d s => d.contactSite r codes s
      d.forEach (cs.filter fun c => (d.chan c).ppmuUse.isSome) fun d c => d.ppmuReturn c

/-! ## The meanings -/

/-- PPMU_FAULT_CLEAR (R103). -/
def execPpmuFaultClear (c : Fin 256) (v : Word) (s : State) : Answer :=
  onDev s fun d => d.faultClearWrite (0x1000608 + 0x1000 * c) v.toNat fun d => d.ppmuFaultClear c v.toNat

/-- PPMU_CTRL_WRITE (R108). -/
def execPpmuCtrlWrite (req : Requester) (c : Fin 256) (v : Word) (s : State) : Answer :=
  onDevIdle s fun d => d.ppmuCtrlWrite req c v.toNat

/-- PPMU_WF_JUMP (R112). -/
def execPpmuWfJump (c : Fin 256) (v : Word) (s : State) : Answer :=
  onDev s fun d => d.orHold (0x1000624 + 0x1000 * c) v.toNat fun d => d.wfJump c (v.toNat % 256)

/-- HIZ_EXIT (R74). -/
def execHizExit (c : Fin 256) (s : State) : Answer := onDev s fun d => (d.hizExit c).wfSettle c

/-- BUDGET_ADMIT (R116). -/
def execBudgetAdmit (td : DWord) (s : State) : Answer := onDev s fun d => d.budgetAdmit td.toNat

/-- PPMU_SETTLE_EXPIRY (R99). -/
def execPpmuSettleExpiry (td : DWord) (site : Fin 64) (codes : List (Fin 256 × BitVec 18)) (s : State) : Answer :=
  onDev s fun d => d.ppmuSettle td.toNat site (codes.map fun p => (p.1.val, p.2.toNat))

/-- PPMU_SAMPLE (R99). -/
def execPpmuSample (td : DWord) (c : Fin 256) (code : BitVec 18) (s : State) : Answer :=
  onDev s fun d => d.ppmuSample td.toNat c code.toNat

/-- PPMU_RECONNECT (R97). -/
def execPpmuReconnect (c : Fin 256) (s : State) : Answer := onDevIdle s fun d => d.ppmuReconnect c

/-- PPMU_COMPL (R101). -/
def execPpmuCompl (c : Fin 256) (s : State) : Answer := onDev s fun d => d.ppmuComplRow c

/-- PPMU_OPEN_LOOP (R103). -/
def execPpmuOpenLoop (c : Fin 256) (s : State) : Answer := onDev s fun d => d.ppmuOpenLoop c

/-- WF_SEGMENT_END (R109). -/
def execWfSegmentEnd (c : Fin 256) (s : State) : Answer := onDevIdle s fun d => d.wfSegmentEnd c

end Sys2Proof.Machine
end

