-- ==== Sys2Proof/Machine/Cal.lean ====
section
/-!
DEFINITION. Gnomon (chapter 14): temperatures and interpolation, pending values, calibration runs, the store in flash, and the
rows that act on them. The flash bytes and the park of an edge die stand here as well.
-/

namespace Sys2Proof.Machine

/-! ## The flash (R16) -/

/-- `n` flash bytes from an offset. -/
def NonVol.bytes (nv : NonVol) (a n : Nat) : List Byte := Tab.getList flashDefault nv.flash a n

/-- `n` flash bytes as a number. -/
def NonVol.ld (nv : NonVol) (a n : Nat) : Nat := ofBytes (nv.bytes a n)

/-- Bytes programmed into the flash. -/
def NonVol.write (nv : NonVol) (a : Nat) (bs : List Byte) : NonVol := { nv with flash := Tab.setList flashDefault nv.flash a bs }

/-- A range of the flash erased. -/
def NonVol.erase (nv : NonVol) (a n : Nat) : NonVol :=
  { nv with flash := Tab.keep (fun k => !(decide (a ≤ k) && decide (k < a + n))) nv.flash }

/-- The CRC-32 of bytes (R202). -/
def crcOf (bs : List Byte) : Nat := crc32 (bs.map fun b => b.toNat)

/-! ## Temperatures (R436, R438) -/

/-- A temperature point, in 1/64 °C. -/
def pointTemp (i : Nat) : Int := [-2560, 0, 1920, 4480, 6720].getD i 0

/-- The reading of sensor i (4 × die + number). -/
def Dev.tempAt (d : Dev) (i : Nat) : Int := toSigned 16 (d.get (calTemp i))

/-- The valid sensors of a die. -/
def Dev.validTemps (d : Dev) (e : Nat) : List Int :=
  ((List.range 4).filter fun j => d.is (calTempValid (4 * e + j))).map fun j => d.tempAt (4 * e + j)

/-- The mean of a list of readings. -/
def meanTemp (l : List Int) : Option Rat := if l.isEmpty then none else some (((l.sum : Int) : Rat) / l.length)

/-- The temperature of a sector: its sensor, else the mean of the die's valid sensors (R436, R438). -/
def Dev.sectorTemp (d : Dev) (k : Nat) : Option Rat :=
  if d.is (calTempValid k) then some ((d.tempAt k : Int) : Rat) else meanTemp (d.validTemps (k / 4))

/-- The median of readings; of an even number, the mean of the two in the middle. -/
def medianTemp (l : List Int) : Option Rat :=
  let s := l.foldr insertUp []
  let n := s.length
  if n = 0 then none
  else if n % 2 = 1 then some ((s.getD (n / 2) 0 : Int) : Rat)
  else some (((s.getD (n / 2 - 1) 0 + s.getD (n / 2) 0 : Int) : Rat) / 2)

/-- A reading from −55 °C to +150 °C. -/
def tempInRange (t : Int) : Bool := decide (-3520 ≤ t) && decide (t ≤ 9600)

/-- Reading j of a die's four is plausible (R438): in range, and within 15 °C of the median of the others in range. -/
def plausible (ts : List Int) (j : Nat) : Bool :=
  let t := ts.getD j 0
  let others := (((List.range 4).filter fun i => i != j).map fun i => ts.getD i 0).filter tempInRange
  tempInRange t && (match medianTemp others with
    | some m => decide (((t : Rat) - m) ≤ 960) && decide (-960 ≤ ((t : Rat) - m))
    | none => true)

/-! ## Interpolation (R437) -/

/-- A coefficient at a point. -/
def Dev.coefAt (d : Dev) (key pt : Nat) : Rat := ((Tab.get coefDefault d.cal.coefs (coefKey key pt) : Int) : Rat) / 65536

/-- The value of a key at a temperature, from the valid points of its channel and item; none valid: unit gain, zero offset. -/
def Dev.interpolate (d : Dev) (key : Nat) (t : Rat) : Rat :=
  let pts := maskList 5 (d.get (calItemPts (key / 8192) (key / 1024 % 8)))
  let below := pts.filter fun i => decide ((pointTemp i : Rat) ≤ t)
  let above := pts.filter fun i => decide (t < (pointTemp i : Rat))
  match below.getLast?, above.head? with
  | some a, some b =>
    let ca := d.coefAt key a
    let ta : Rat := (pointTemp a : Rat)
    ca + (d.coefAt key b - ca) * (t - ta) / ((pointTemp b : Rat) - ta)
  | some a, none => d.coefAt key a
  | none, some b => d.coefAt key b
  | none, none => calDefault key

/-- The keys that Gnomon holds something for in a sector. -/
def Dev.calKeys (d : Dev) (k : Nat) : List Nat :=
  (((d.cal.coefs.map fun (p : Nat × Int) => p.1 / 5) ++ d.cal.force.map fun (p : Nat × Rat) => p.1).filter fun y => sectorOf (y / 8192) == k).dedup

/-! ## Pending values (R439, R440) -/

/-- A sector has a role in a MEASURE or EYE run. -/
def Dev.sectorCal (d : Dev) (k : Nat) : Bool := d.cal.runs.any fun r => r.sectors.testBit k

/-- A number kept per sector. -/
def tempOf (t : Tab Rat) (k : Nat) : Rat := Tab.get (fun _ => 0) t k

/-- The settle time of a DAC, in master periods (R62). -/
def dacSettle (k : Nat) : Nat := if k < 5 then 450 else 1500

/-- The pending values of a sector take effect (R440): the changed DAC codes load, and the answer says until when the next step
waits for them. -/
def Dev.applyCal (d : Dev) (k : Nat) : Dev × Nat :=
  let t := tempOf d.cal.pendT k
  let ys := d.calKeys k
  let dacs := (sectorChans k).flatMap fun c => (List.range 11).map fun i => (c, i)
  let was := dacs.map fun p => d.get (peCorr p.1 p.2)
  let force := ys.foldl (fun f y => Tab.set calDefault f y (d.interpolate y t)) d.cal.force
  let d := { d with cal := { d.cal with force := force, usedT := Tab.set (fun _ => 0) d.cal.usedT k t } }
  let d := d.put calPending (d.get calPending - (d.get calPending &&& 2 ^ k))
  if ys.isEmpty then (d, 0)
  else
    let changed := ((dacs.zip was).filter fun p => d.corrected p.1.1 p.1.2 (d.workCode p.1.1 p.1.2) != p.2).map fun p => p.1
    let d := changed.foldl (fun d p => d.reconvert p.1 p.2) d
    let ends := changed.map fun p =>
      (if (d.dac p.1 p.2).holding then (d.dac p.1 p.2).holdEnd else d.mclk) + dacSettle p.2
    (d, ends.foldl max 0)

/-- The interpolated values of a sector are recomputed and are pending (R439). -/
def Dev.recompute (d : Dev) (k : Nat) : Dev :=
  match d.sectorTemp k with
  | some t =>
    if d.is calInterpEn && d.awake && !d.sectorCal k then
      ({ d with cal := { d.cal with pendT := Tab.set (fun _ => 0) d.cal.pendT k t } }).put calPending (d.get calPending ||| 2 ^ k)
    else d
  | none => d

/-- An idle sector takes its pending values at once (R440). -/
def Dev.applyIdle (d : Dev) (k : Nat) : Dev :=
  if (d.get calPending).testBit k && !d.sectorRunning k && !d.sectorCal k then (d.applyCal k).1 else d

/-- The sectors with a channel in a site of a mask. -/
def Dev.sectorsOf (d : Dev) (sites : Nat) : List Nat := (List.range 16).filter fun k => d.sectorSites k &&& sites != 0

/-- A calibration-safe boundary of sectors: their pending values take effect; the answer says until when the next step waits. -/
def Dev.calBoundary (d : Dev) (ks : List Nat) : Dev × Nat :=
  ks.foldl (fun p k =>
    if (p.1.get calPending).testBit k && !p.1.sectorCal k then
      let q := p.1.applyCal k
      (q.1, max p.2 q.2)
    else p) (d, 0)

/-- The open of a RUN brings its sectors up to date (R34, R439); a sector that another RUN uses waits for a test-step
boundary. While the HKC restarts nothing is recomputed (R570). -/
def Dev.calOpen (d : Dev) (sites : Nat) : Dev :=
  d.forEach (d.sectorsOf sites) fun d k => (if d.pwr.hkcReady then d.recompute k else d).applyIdle k

/-- CAL_RECOMPUTE_PERIOD (R439). -/
def Dev.calPeriodic (d : Dev) : Dev :=
  if !d.awake || !d.pwr.hkcReady then d
  else
    let d := d.advanceTo d.cal.due
    let d := { d with cal := { d.cal with due := d.mclk + us (1000 * max 10 (d.get calPeriod)) } }
    d.forEach (List.range 16) fun d k => (d.recompute k).applyIdle k

/-- The THERMAL condition of a die follows its sensors (R458). -/
def Dev.thermal (d : Dev) (e : Nat) : Dev :=
  let lim : Int := clampNat 85 150 (d.get fcuTherm)
  let isLive := d.fcu.live.any fun p => p.1 == chkKey (srcDie e) 5
  match meanTemp (d.validTemps e) with
  | some m =>
    if ((lim * 64 : Int) : Rat) < m then (if isLive then d else d.report (srcDie e) 5 0 0 0 true)
    else if isLive then d.condEnd (srcDie e) 5 else d
  | none => d

/-- One sensor's reading is stored; a sensor that becomes implausible is reported (R438). -/
def Dev.storeTemp (d : Dev) (i : Nat) (t : Int) (ok : Bool) : Dev :=
  let was := d.is (calTempValid i) || d.word (0x40040 + 4 * i) == 0
  let d := (d.put (calTemp i) (ofSigned 16 t)).putB (calTempValid i) ok
  if was && !ok then d.event (srcDie (i / 4)) 0x0906 (i % 4) else d

/-- A sector's reading has moved by DELTA, or a pending value's by LAG (R439, R440). -/
def Dev.sectorMoved (d : Dev) (k : Nat) : Dev :=
  match d.sectorTemp k with
  | none => d
  | some t =>
    let u := tempOf d.cal.usedT k
    let gap := if t < u then u - t else t - u
    let d := if ((max 16 (d.get calDelta) : Nat) : Rat) ≤ gap then (d.recompute k).applyIdle k else d
    if (d.get calPending).testBit k && decide (((d.get calLag : Nat) : Rat) ≤ gap) && !d.cal.lagged.testBit k then
      ({ d with cal := { d.cal with lagged := d.cal.lagged ||| 2 ^ k } }).event srcCal 0x0904 k
    else d

/-- TEMP_SENSOR_READ (R438 to R440): 16 readings of the edge dies and 8 of the core die. -/
def Dev.tempRead (d : Dev) (edge core : List Int) : Dev :=
  if !d.pwr.booted || !d.pwr.hkcReady then d
  else
    let d := d.forEach (List.range 16) fun d i =>
      d.storeTemp i (edge.getD i 0) (plausible ((List.range 4).map fun j => edge.getD (i / 4 * 4 + j) 0) (i % 4))
    let d := d.forEach (List.range 8) fun d k =>
      (d.put (calTempC k) (ofSigned 16 (core.getD k 0))).putB (calTempCValid k) (tempInRange (core.getD k 0))
    let d := d.forEach [0, 1, 2, 3] fun d e => d.thermal e
    d.forEach (List.range 16) fun d k => d.sectorMoved k

/-! ## Calibration runs (R443 to R447) -/

/-- Operands of a CAL_RUN (R495). -/
def calOp (x : Nat) : Nat := dField x 8 0 8
def calResel (x : Nat) : Bool := dField x 9 0 1 == 1
def calPoint (x : Nat) : Nat := dField x 10 0 8
def calSectors (x : Nat) : Nat := dField x 12 0 16
def calItems (x : Nat) : Nat := dField x 14 0 7

/-- `CAL_STATUS.STATE` follows: the run that began first, else a STORE. -/
def Dev.calSync (d : Dev) : Dev :=
  d.put calState (match d.cal.runs with
    | r :: _ => if r.op = 0 then 1 else 3
    | [] => if d.cal.stores.isEmpty then 0 else 2)

/-- A sector is busy (R444). -/
def Dev.sectorBusy (d : Dev) (k : Nat) : Bool :=
  d.sectorRunning k || d.sectorCal k || (sectorChans k).any fun c => match d.chanSeq c with
    | some s => d.seqRunning s
    | none => false

/-- A run ends (R441, R446): the values of its sectors are recomputed and take effect, STALE clears, the descriptor completes. -/
def Dev.calFinish (d : Dev) (r : CalRun) : Dev :=
  let d := { d with cal := { d.cal with runs := d.cal.runs.filter fun x => x.work.id != r.work.id } }
  let d := d.forEach (maskList 16 r.sectors) fun d k =>
    let d := (d.recompute k).applyIdle k
    d.forEach (sectorChans k) fun d c => d.put (peStale c) 0
  d.calSync.doneWith r.work r.status r.aborted 0

/-- A run with a changed list of steps goes on, or ends when no step is left. -/
def Dev.calUpdate (d : Dev) (r : CalRun) : Dev :=
  if r.todo.isEmpty then d.calFinish r
  else { d with cal := { d.cal with runs := d.cal.runs.map fun x => if x.work.id = r.work.id then r else x } }

/-- A run begins: its channels are STALE until it ends (R441). -/
def Dev.calBegin (d : Dev) (r : CalRun) : Dev :=
  let d := d.accept r.work
  let d := d.forEach (maskList 16 r.sectors) fun d k => d.forEach (sectorChans k) fun d c =>
    ((d.put (peStale c) 1).put (calNotMet c) 0).put (calPrecond c) 0
  let d := { d with cal := { d.cal with runs := d.cal.runs ++ [r] } }
  if r.todo.isEmpty then d.calFinish r else d.calSync

/-- A CAL_RUN descriptor of an operation that the HKC can serve now. -/
def Dev.onCal (d : Dev) (q op : Nat) (f : Dev → Nat → Work → Dev) : Dev :=
  if !d.pwr.hkcReady then d
  else d.onDesc q opCalRun fun d x w => if calOp x = op then (if d.get twinState = 2 then d.done w stTwinHeld else f d x w) else d

/-- The descriptor waits for no run of its own yet. -/
def Dev.calFresh (d : Dev) (w : Work) : Bool := !d.cal.stores.any (fun y => y.id == w.id) && !d.cal.runs.any fun r => r.work.id == w.id

/-- CAL_RUN MEASURE (R435, R444). -/
def Dev.calMeasure (d : Dev) (q : Nat) : Dev :=
  d.onCal q 0 fun d x w =>
    let ks := maskList 16 (calSectors x)
    let p := calPoint x
    let near (k : Nat) : Bool := match d.sectorTemp k with
      | some t => decide (t - (pointTemp p : Rat) ≤ 320) && decide (-320 ≤ t - (pointTemp p : Rat))
      | none => false
    if (calResel x && p != 2) || !ks.all near then d.done w stRange
    else if ks.any d.sectorBusy then d.done w stLocked
    else
      let todo := ks.flatMap fun k => (sectorChans k).flatMap fun c => (maskList 7 (calItems x)).map fun i => (c, i)
      d.calBegin
        { work := w, op := 0, sectors := calSectors x, items := calItems x, point := p, resel := calResel x, todo := todo,
          aborted := 0, status := stOk }

/-- CAL_RUN EYE (R443, R452). -/
def Dev.calEye (d : Dev) (q : Nat) : Dev :=
  d.onCal q 2 fun d x w =>
    let ks := maskList 16 (calSectors x)
    if dField x 16 0 32 < 4096 ∨ inRange 100 6000 (dField x 20 0 16) = false ∨ inRange 10 24 (dField x 22 0 8) = false then
      d.done w stRange
    else if ks.any d.sectorBusy then d.done w stLocked
    else
      d.calBegin
        { work := w, op := 2, sectors := calSectors x, items := 0, point := 0, resel := false,
          todo := ks.flatMap fun k => (sectorChans k).map fun c => (c, 0), aborted := 0, status := stOk }

/-- CAL_RUN REFCHECK (R430): `vref` in µV; `devs`: reference minus VREF_EXT of each die, in µV. -/
def Dev.calRefcheck (d : Dev) (q : Nat) (vref : Int) (devs : List Int) : Dev :=
  d.onCal q 3 fun d _ w =>
    let near := decide (4900000 ≤ vref) && decide (vref ≤ 5100000)
    let d := d.forEach [0, 1, 2, 3] fun d e =>
      if !near then d.put (calRefChecked e) 0
      else
        let v := devs.getD e 0
        let bad := decide (1000 < v.natAbs)
        let d := ((d.put (calRefDev e) (ofSigned 24 v)).put (calRefChecked e) 1).putB (calRefMismatch e) bad
        if bad then d.event (srcDie e) 0x0905 (ofSigned 24 v) else d
    d.done w stOk

/-! ### Steps (R429, R430, R433, R435, R445, R446, R451) -/

/-- A step may not run: its pin does not pass, or a condition of its item is missing. -/
def Dev.calBlocked (d : Dev) (r : CalRun) (c item : Nat) (pinPa : Int) : Bool :=
  decide (100000 < pinPa.natAbs)
    || (r.op == 0 && (item == 3 || item == 4) && (d.get (pllState 0) != 3 || !d.is clkRefPresent))
    || (r.op == 0 && (item == 0 || item == 1 || item == 5 || item == 6) && d.is (calRefMismatch (dieOf c)))

/-- An item with a redundant selection and a fall-back table: LEVEL, CMP and TIMING (R432). -/
def itemSelects (item : Nat) : Bool := item == 0 || item == 1 || item == 3

/-- The values of one item of a channel at a point are replaced. The last index of the fall-back entries marks that the point holds
a fall-back table, whatever its entries are (R433). -/
def Dev.calStoreCoefs (d : Dev) (c item pt : Nat) (cs : List Coef) (fb : Option (List Coef)) : Dev :=
  let lo := calKey c item false 0
  let t := Tab.keep (fun k => !(decide (lo ≤ k / 5) && decide (k / 5 < lo + 1024) && k % 5 == pt)) d.cal.coefs
  let put1 (b : Bool) (t : Tab Int) (x : Coef) : Tab Int := Tab.set coefDefault t (coefKey (calKey c item b x.idx) pt) x.val
  let t := cs.foldl (put1 false) t
  let t := match fb with
    | some l => Tab.set coefDefault (l.foldl (put1 true) t) (coefKey (calKey c item true 511) pt) 1
    | none => t
  { d with cal := { d.cal with coefs := t } }

/-- A fall-back table of the channel is in use. -/
def Dev.fallbackUsed (d : Dev) (c : Nat) : Bool :=
  d.cal.coefs.any fun p => p.1 / 5 / 8192 == c && p.1 / 5 / 512 % 2 == 1
    && (d.get (calItemPts c (p.1 / 5 / 1024 % 8))).testBit (p.1 % 5)

/-- VALID and PTS follow the masks (R442, R454). -/
def Dev.calChanSync (d : Dev) (c : Nat) : Dev :=
  let ms := (List.range 7).map fun i => d.get (calItemPts c i)
  ((d.putB (calValid c) (ms.all fun m => m != 0)).put (calPts c) (ms.foldl (fun a m => a &&& m) 31)).putB (calFallback c)
    (d.fallbackUsed c)

/-- The residuals of a step stand in the quality registers (R451). -/
def Dev.calQuality (d : Dev) (r : CalRun) (c item rt rl : Nat) : Dev :=
  let seen (i : Nat) : Bool := r.items.testBit i && !r.todo.contains (c, i)
  if item = 3 then d.put (calResT c) (min rt 0xFFFF)
  else if item = 0 then d.put (calResL c) (min (if seen 1 then max rl (d.get (calResL c)) else rl) 0xFFFFFF)
  else if item = 1 then d.put (calResL c) (min (if seen 0 then max rl (d.get (calResL c)) else rl) 0xFFFFFF)
  else d

/-- A MEASURE step that ran to its end. A fall-back table is computed when the selection misses its target, and sets FALLBACK (R433); a
RESELECT clears the other points of an item that has selections (R435). -/
def Dev.calMeasured (d : Dev) (r : CalRun) (o : CalObs) : Dev :=
  let c := o.ch.val
  let i := o.item.val
  let d := d.calQuality r c i o.residT o.residL
  let d := if i = 0 then d.put (calClipped c) 0 else d
  let d := if !o.met && itemSelects i then d.put (calFallback c) 1 else d
  if o.met || (o.metFb && itemSelects i) then
    let d := d.calStoreCoefs c i r.point o.coefs (if o.met then none else some o.fallback)
    let old := if r.resel && itemSelects i then 0 else d.get (calItemPts c i)
    (d.put (calItemPts c i) (old ||| 2 ^ r.point)).calChanSync c
  else (d.put (calNotMet c) 1).event (srcChan c) 0x0205 (2 ^ i + 256 * r.point)

/-- CAL_STEP_DONE. -/
def Dev.calStepDone (d : Dev) (k : Nat) (o : CalObs) : Dev :=
  let c := o.ch.val
  let mine (r : CalRun) : Bool := r.sectors.testBit k && sectorOf c == k && r.todo.contains (c, if r.op = 0 then o.item.val else 0)
  match d.cal.runs.find? mine with
  | none => d
  | some r =>
    let i := if r.op = 0 then o.item.val else 0
    let rest := r.todo.erase (c, i)
    if d.calBlocked r c i o.pinPa then
      let d := (d.put (calPrecond c) 1).event (srcChan c) 0x0206 (if r.op = 0 then 2 ^ i + 256 * r.point else 0)
      d.calUpdate { r with todo := rest, aborted := r.aborted + 1, status := if r.status = stOk then stPrecondition else r.status }
    else
      let d := if r.op = 0 then d.calMeasured r o
        else (d.put (calEyeWidth c) (min o.eyeWidth 0xFFFF)).put (calEyeHeight c) (min o.eyeHeight 0xFFFF)
      d.calUpdate { r with todo := rest }

/-- The weight of a completion status that ends a run early: INTEGRITY, ABORTED, PARTIAL. -/
def calRank (s : Nat) : Nat := if s = stIntegrity then 3 else if s = stAborted then 2 else if s = stPartial then 1 else 0

/-- The steps of a run on the sectors of a mask stop (R447). -/
def Dev.calStopRun (d : Dev) (r : CalRun) (mask status : Nat) : Dev :=
  let hit := (maskList 16 (r.sectors &&& mask)).filter fun k => r.todo.any fun p => sectorOf p.1 == k
  if hit.isEmpty then d
  else
    d.calUpdate
      { r with
        todo := r.todo.filter fun p => !hit.contains (sectorOf p.1), aborted := r.aborted + hit.length,
        status := if calRank r.status < calRank status then status else r.status }

/-- The runs that R447 stops on the sectors of a mask. -/
def Dev.calHit (d : Dev) (mask : Nat) : List CalRun :=
  d.cal.runs.filter fun r => (maskList 16 (r.sectors &&& mask)).any fun k => r.todo.any fun p => sectorOf p.1 == k

/-- R447 on every run. -/
def Dev.calStop (d : Dev) (mask status : Nat) : Dev := (d.calHit mask).foldl (fun d r => d.calStopRun r mask status) d

/-! ## The store in flash (R448 to R450) -/

def calBankAddr (b : Nat) : Nat := 0x800000 + 0x800000 * (b % 2)

/-- The body of a store image, in the model's own layout: per channel the masks, FALLBACK and the residuals; then the
coefficients. -/
def Dev.calBody (d : Dev) : List Byte :=
  let chans := allChans.flatMap fun c =>
    toBytes 4 (d.word (0x42000 + 8 * c)).toNat ++ toBytes 4 (d.word (0x42004 + 8 * c)).toNat
      ++ toBytes 4 (d.get (calResT c)) ++ toBytes 4 (d.get (calResL c))
  (chans ++ toBytes 4 d.cal.coefs.length ++ d.cal.coefs.flatMap fun p => toBytes 5 p.1 ++ toBytes 7 (ofSigned 56 p.2)).take 0x7FFD00

/-- The header of a bank: magic, layout version, generation, body length, body CRC, in that order (R448). -/
def calHeader (gen : Nat) (body : List Byte) : List Byte :=
  toBytes 2 0xCA1B ++ toBytes 2 1 ++ toBytes 4 gen ++ toBytes 4 body.length ++ toBytes 4 (crcOf body) ++ List.replicate 240 0

/-- The commit page (R448). -/
def calCommit (gen bodyCrc : Nat) : List Byte :=
  let p := toBytes 4 0xC0D1 ++ toBytes 4 gen ++ toBytes 4 bodyCrc ++ List.replicate 240 0
  p ++ toBytes 4 (crcOf p)

/-- The generation in a bank's header, where the header is good. -/
def NonVol.bankGen (nv : NonVol) (b : Nat) : Option Nat :=
  let a := calBankAddr b
  if nv.ld a 2 = 0xCA1B ∧ nv.ld (a + 8) 4 ≤ 0x7FFD00 then some (nv.ld (a + 4) 4) else none

/-- A bank is committed (R448). -/
def NonVol.bankCommitted (nv : NonVol) (b : Nat) : Bool :=
  let a := calBankAddr b
  let p := a + 0x7FFF00
  (nv.bankGen b).isSome && nv.ld p 4 == 0xC0D1 && nv.ld (p + 252) 4 == crcOf (nv.bytes p 252) && nv.ld (p + 4) 4 == nv.ld (a + 4) 4
    && nv.ld (p + 8) 4 == nv.ld (a + 12) 4 && crcOf (nv.bytes (a + 0x100) (nv.ld (a + 8) 4)) == nv.ld (a + 12) 4

/-- The bank that a boot loads: the committed one with the higher generation (R450). -/
def NonVol.bankBest (nv : NonVol) : Option Nat :=
  match nv.bankCommitted 0, nv.bankCommitted 1 with
  | true, true => if nv.ld (calBankAddr 0 + 4) 4 < nv.ld (calBankAddr 1 + 4) 4 then some 1 else some 0
  | true, false => some 0
  | false, true => some 1
  | false, false => none

/-- The coefficients of a body. -/
def bodyCoefs (bs : List Byte) : Nat → Tab Int
  | 0 => []
  | n + 1 =>
    let e := bs.take 12
    (ofBytes (e.take 5), toSigned 56 (ofBytes (e.drop 5))) :: bodyCoefs (bs.drop 12) n

/-- A bank is loaded (R450). -/
def Dev.calLoad (d : Dev) (nv : NonVol) (b : Nat) : Dev :=
  let a := calBankAddr b
  let body := a + 0x100
  let d := { d with cal := { d.cal with coefs := bodyCoefs (nv.bytes (body + 4100) (nv.ld (a + 8) 4 - 4100)) (nv.ld (body + 4096) 4) } }
  let d := d.forEach allChans fun d c =>
    let d := (d.setWord (0x42000 + 8 * c) (BitVec.ofNat 32 (nv.ld (body + 16 * c) 4))).setWord (0x42004 + 8 * c)
      (BitVec.ofNat 32 (nv.ld (body + 16 * c + 4) 4))
    let d := (d.put (calResT c) (nv.ld (body + 16 * c + 8) 4)).put (calResL c) (nv.ld (body + 16 * c + 12) 4)
    d.calChanSync c
  ((d.put calStoreBank b).put calStoreGen (nv.ld (a + 4) 4)).put calStoreNone 0

/-- The store at boot (R450). -/
def Dev.calBoot (d : Dev) (nv : NonVol) : Dev :=
  let best := nv.bankBest
  let d := match best with
    | some b => d.calLoad nv b
    | none => (d.put calStoreNone 1).event srcCal 0x0902 0
  let loaded := match best with
    | some b => nv.bankGen b
    | none => none
  let torn (b : Nat) : Option Nat :=
    if nv.bankCommitted b then none
    else match nv.bankGen b, loaded with
      | some g, some h => if h < g then some g else none
      | some g, none => some g
      | none, _ => none
  let d := match best with
    | some b => (match torn (1 - b) with
      | some g => d.event srcCal 0x0903 g
      | none => d)
    | none => [0, 1].foldl (fun d b => match torn b with
      | some g => d.event srcCal 0x0903 g
      | none => d) d
  { d with cal := { d.cal with bank := match best with
      | some b => 1 - b
      | none => 1 } }

/-- A STORE begins: the bank is erased (R449). -/
def Dev.storeBegin (nv : NonVol) (d : Dev) (w : Work) : NonVol × Dev :=
  let g := max ((nv.bankGen 0).getD 0) ((nv.bankGen 1).getD 0) + 1
  (nv.erase (calBankAddr d.cal.bank) 0x800000, ({ d with cal := { d.cal with gen := g % 2 ^ 32 } }).accept w)

/-- CAL_RUN STORE (R449): a second STORE waits for the first. -/
def Dev.calStoreRow (nv : NonVol) (d : Dev) (q : Nat) : NonVol × Dev :=
  match d.descOf q opCalRun with
  | none => (nv, d)
  | some (x, w) =>
    if !d.pwr.hkcReady || calOp x != 1 || !d.calFresh w then (nv, d)
    else if d.get twinState = 2 then (nv, d.done w stTwinHeld)
    else
      let first := d.cal.stores.isEmpty
      let d := { d with cal := { d.cal with stores := d.cal.stores ++ [w] } }
      if first then
        let r := Dev.storeBegin nv d w
        (r.1, r.2.calSync)
      else (nv, d)

/-- CAL_STORE_DONE (R449). -/
def Dev.calStoreDone (nv : NonVol) (d : Dev) (ok : Bool) : NonVol × Dev :=
  match d.cal.stores with
  | [] => (nv, d)
  | w :: rest =>
    let a := calBankAddr d.cal.bank
    let body := d.calBody
    let nv := (nv.write a (calHeader d.cal.gen body)).write (a + 0x100) body
    let nv := if ok then nv.write (a + 0x7FFF00) (calCommit d.cal.gen (crcOf body)) else nv
    let d := { d with cal := { d.cal with stores := rest } }
    let d := if ok then d.done w stOk else (d.event srcCal 0x0901 0).done w stIntegrity
    match rest with
    | w2 :: _ =>
      let r := Dev.storeBegin nv d w2
      (r.1, r.2.calSync)
    | [] => (nv, d.calSync)

/-! ## The park of an edge die (R75, R447) -/

/-- EDGE_PARK. -/
def Dev.edgeParkRow (d : Dev) (e : Nat) : Dev :=
  if (d.die e).parked || !d.parkInput e then d
  else (d.edgePark e).calStop (15 * 2 ^ (4 * e)) stPartial

/-! ## The meanings -/

/-- CAL_RUN_MEASURE (R446). -/
def execCalRunMeasure (q : Fin 16) (s : State) : Answer := onDev s fun d => d.calMeasure q

/-- CAL_RUN_STORE (R449). -/
def execCalRunStore (q : Fin 16) (s : State) : Answer := onNv s fun nv d => Dev.calStoreRow nv d q

/-- CAL_RUN_EYE (R452). -/
def execCalRunEye (q : Fin 16) (s : State) : Answer := onDev s fun d => d.calEye q

/-- CAL_RUN_REFCHECK (R430). -/
def execCalRunRefcheck (q : Fin 16) (vrefUv : Int) (devUv : BitVec 96) (s : State) : Answer :=
  onDev s fun d => d.calRefcheck q vrefUv ((List.range 4).map fun e => toSigned 24 (bitsOf devUv.toNat (24 * e) 24))

/-- CAL_STEP_DONE (R446). -/
def execCalStepDone (sector : Fin 16) (obs : CalObs) (s : State) : Answer := onDev s fun d => d.calStepDone sector obs

/-- CAL_STORE_DONE (R449). -/
def execCalStoreDone (readbackOk : Bool) (s : State) : Answer := onNv s fun nv d => Dev.calStoreDone nv d readbackOk

/-- TEMP_SENSOR_READ (R438). -/
def execTempSensorRead (edge core : List (BitVec 16)) (s : State) : Answer :=
  onDev s fun d => d.tempRead (edge.map fun x => x.toInt) (core.map fun x => x.toInt)

/-- CAL_RECOMPUTE_PERIOD (R439). -/
def execCalRecomputePeriod (s : State) : Answer := onDev s fun d => d.calPeriodic

/-- EDGE_PARK (R75). -/
def execEdgePark (e : Fin 4) (s : State) : Answer := onDevIdle s fun d => d.edgeParkRow e

end Sys2Proof.Machine
end

