-- ==== Sys2Proof/Machine/Seq.lean ====
section
/-!
DEFINITION. A pattern sequencer at its vector boundaries (chapters 4 to 6): plays, fills, MATCH, JMPC, SYNCW, underruns and halts.
-/

namespace Sys2Proof.Machine

/-! ## Time of a sequencer -/

/-- Master periods in one period of a sequencer's clock (R149). -/
def Dev.clkRatio (d : Dev) (s : Nat) : Rat :=
  let p := d.get (seqClkSrc s)
  if p = 1 ∨ p = 2 then
    let f := d.get (pllFnow p)
    if f = 0 then 1 else (1500000000 : Rat) / f
  else 1

/-- The master period in which an absolute position (1/4096 master periods) lies. -/
def periodOf (pos : Rat) : Nat := (pos / 4096).floor.toNat

/-- The first whole master period at or after an absolute position. -/
def periodUp (pos : Rat) : Nat := (pos / 4096).ceil.toNat

/-- The absolute position of an own tick of a sequencer. -/
def Dev.posOfTick (d : Dev) (s : Nat) (t : Int) : Rat :=
  let x := d.seq s
  x.pos + ((t - (x.tick : Int) : Int) : Rat) * d.clkRatio s

/-- The result time H of the vector that starts at the next boundary, with timing set t (R179). -/
def Dev.horizon (d : Dev) (s t : Nat) : Rat :=
  (d.seq s).pos + 2 * (d.tsPeriod s t : Rat) * d.clkRatio s + 128 * 4096

/-! ## Events of a stream (R211, R214 to R217) -/

/-- The payload of a stream event: stream position and the directory index of the chunk that holds it. -/
def Dev.strmPayload (d : Dev) (s : Nat) : Nat :=
  let x := d.strm s
  let k := match chunkOf x.dir 0 x.pos with
    | some (k, _) => k
    | none => x.dir.length
  x.pos % 2 ^ 40 + 2 ^ 64 * (k % 2 ^ 32)

/-! ## Jump requests (R189 to R191) -/

/-- A jump request discarded (R191). -/
def Dev.jumpDropped (d : Dev) (s t : Nat) : Dev := (d.bump (seqCntJrej s)).event (srcSeq s) 0x0402 (t % 256)

/-- A jump request (R189, R190, R191). -/
def Dev.jumpRequest (d : Dev) (s t : Nat) : Dev :=
  if inRange 1 4 (d.get (seqState s)) then
    (d.setSeq s { d.seq s with jReq := some (t % 256) }).put (seqJpend s) 1
  else d.jumpDropped s t

/-- The committed targets that have not played. -/
def Seq.committed (x : Seq) : List Nat := (x.queue.filter fun l => l.tgt).map fun l => cwOperand l.cw % 256

/-- Open and committed requests discarded when the sequencer halts (R191). -/
def Dev.dropJumps (d : Dev) (s : Nat) : Dev :=
  let x := d.seq s
  let ts := x.jReq.toList ++ x.committed
  let d := d.forEach ts fun d t => d.jumpDropped s t
  ((d.setSeq s { d.seq s with jReq := none }).put (seqJpend s) 0).put (seqJcommit s) 0

/-! ## Markers, stamps, segments, arming (R184 to R188) -/

/-- The markers of the vector that starts at `pos`: AUs see the rises, and TRIG_OUT follows the routed ones (R184, R185, R281). -/
def Dev.setMarkers (d : Dev) (s m : Nat) (pos : Rat) : Dev :=
  let x := d.seq s
  if x.mark = m then d
  else
    let d := d.setSeq s { x with mark := m }
    let up := (List.range 8).filter fun b => m.testBit b && !x.mark.testBit b
    let d := d.forEach up fun d b => d.auEvents 6 (s + 16 * b) none pos.ceil.toNat
    let r := d.get (seqMkrOut s)
    if (m &&& r) = (x.mark &&& r) then d else d.emit (.trigLevel s (m &&& r) (d.tbAt (periodOf pos + 40)))

/-- A stamp record, or its drop (R186). `tag`: TAG and SRC as the record holds them (R198). -/
def Dev.stamp (d : Dev) (s line tag : Nat) : Dev :=
  let w := d.get (seqStampWr s)
  if (w + 1) % 256 = d.get (seqStampRd s) then d.bump (seqCntSdrop s)
  else
    let a := 0x101000 + 0x10000 * s + 16 * w
    let tb := d.tbAt (periodOf (d.seq s).pos)
    let d := (d.setWord a (BitVec.ofNat 32 (tb % 2 ^ 32))).setWord (a + 4) (BitVec.ofNat 32 (tb / 2 ^ 32))
    let d := (d.setWord (a + 8) (BitVec.ofNat 32 line)).setWord (a + 12) (BitVec.ofNat 32 tag)
    d.put (seqStampWr s) ((w + 1) % 256)

/-- What the first play of a line does besides its symbols: strobe, stamp, arming, segment (R67, R186 to R188). A STAMP line
with SE set writes one record, with the tag of its operand. -/
def Dev.firstPlay (d : Dev) (s : Nat) (l : FLine) : Dev :=
  let w := l.cw
  let d := match cwStrobe w with
    | some k => d.strobe s k
    | none => d
  let line := if l.ref.strm then 0x1FFFFFF else l.ref.n % 2 ^ 25
  let d :=
    if cwOp w = oStamp then d.stamp s line (cwOperand w % 2 ^ 24 + 2 ^ 24)
    else if cwSe w then d.stamp s line 0 else d
  let d :=
    if cwOp w = oCapt then
      d.forEach (maskList 32 (cwOperand w)) fun d a => d.auArmCore a none 0xFFFF false none
    else d
  if cwOp w = oSeg then
    let m := bitsOf (cwOperand w) 8 8
    let d := if m = 0 then d else d.emit (.trigOut m (d.tbAt (periodOf (d.seq s).pos + 40)))
    let d := d.put (seqSeg s) (cwOperand w % 256)
    d.putB (seqJcommit s) ((d.seq s).queue.any fun x => x.tgt)
  else d

/-! ## One vector at the pins -/

/-- A channel whose symbols act and whose compare logic runs: no clock pin, and not parked (R49, R75, R147). -/
def Dev.pinLive (d : Dev) (c : Nat) : Bool := d.clkMode c == 0 && !d.is (peParked c)

/-- The comparators' deskew of a channel, in ticks (R151). -/
def Dev.cmpDeskew (d : Dev) (c : Nat) : Int := max (-32767) (toSigned 16 (bitsOf (d.eget (peTimDsk c)) 16 16))

/-- The tick after the last strobe of a pin in a vector. -/
def Dev.pinStrobeEnd (d : Dev) (s t c sym tick : Nat) : Int :=
  let acts := d.slotActs s t c sym
  let p := d.tsPeriod s t
  let off (j : Nat) : Int := (tick : Int) + d.cmpDeskew c + placeEdge p (d.eget (peTs c t j))
  let a := if isExpect acts.1 then max (off 3) (if d.windowCompare s t c then off 5 else off 3) else 0
  let b := if isExpect acts.2 then off 4 else 0
  max a b

/-- One vector of sequencer `s` in timing set `t` at its pins: pairs of channel and symbol. A clock pin drives its clock during
plays and idles during fills (R147, R148). -/
def Dev.issue (d : Dev) (s t : Nat) (pins : List (Nat × Nat)) (play : Bool) : Dev :=
  let x := d.seq s
  let period := d.tsPeriod s t
  let d := pins.foldl (fun d p =>
    let c := p.1
    if d.clkMode c ≠ 0 then d.setChan c { d.chan c with drv := { (d.chan c).drv with clk := play } }
    else d.drivePin s t c p.2 x.step x.serial x.tick period) d
  let ends := pins.map fun p => if d.clkMode p.1 = 0 then d.pinStrobeEnd s t p.1 p.2 x.tick else 0
  let d := d.forEach (List.range 4) fun d e =>
    if pins.any fun p => dieOf p.1 == e then
      let sec := listMask ((pins.filter fun p => dieOf p.1 == e).map fun p => sectorOf p.1 % 4)
      let sc := d.dieSites e
      ((d.checkOnce (srcDie e) 0 sec sc).checkOnce (srcDie e) 1 sec sc).checkOnce (srcDie e) 2 sec sc
    else d
  let line := d.get (seqLine s)
  let n := (((period : Rat) * d.clkRatio s) / 4096).ceil.toNat
  let d := d.checkTimes (srcSeq s) 0 line (d.seqSites s) n
  d.setSeq s
    { d.seq s with
      playPos := x.pos, tsi := t, tick := x.tick + period, pos := x.pos + (period : Rat) * d.clkRatio s, serial := x.serial + 1,
      edgeEnd := ends.foldl max x.edgeEnd }

/-- Each owned channel with its hold symbol in a timing set (R145). -/
def Dev.holdPinsOf (d : Dev) (s t : Nat) : List (Nat × Nat) := (d.seqChans s).map fun c => (c, d.holdSym s t c)

/-- A fill vector (R145, R172). -/
def Dev.fillVector (d : Dev) (s : Nat) : Dev :=
  let x := d.seq s
  let d := (d.setMarkers s 0 (d.seq s).pos).bump (seqCntFill s)
  let d := (d.setSeq s { d.seq s with ce := false }).issue s x.tsi (d.holdPinsOf s x.tsi) false
  if x.stall then
    let d := d.put2 (strmStallLo s) (strmStallHi s) ((d.get2 (strmStallLo s) (strmStallHi s) + 1) % 2 ^ 64)
    d.setSeq s { d.seq s with stalls := x.stalls + 1 }
  else d

/-- What the comparators of a channel showed; a channel that the observation leaves out shows neither comparator. -/
def strobeOf (obs : List Strobe) (c : Nat) : Strobe :=
  match obs.find? fun o => o.ch.val == c with
  | some o => o
  | none => { ch := 0, chA := false, clA := false, chB := false, clB := false, depPs := 0 }

/-- The failing pins of a vector among the unmasked sites: site and channel, in ascending channel order. -/
def Dev.failingPins (d : Dev) (s t um : Nat) (pins : List (Nat × Nat)) (obs : List Strobe) : List (Nat × Nat) :=
  pins.filterMap fun p =>
    match d.siteOf p.1 with
    | some x => if um.testBit x && d.pinLive p.1 && d.pinFails s t p.1 p.2 (strobeOf obs p.1) then some (x, p.1) else none
    | none => none

/-- The lost symbols of the sectors that a vector reaches have been replaced (R22). -/
def Dev.crcClear (d : Dev) (pins : List (Nat × Nat)) : Dev :=
  d.forEach (List.range 4) fun d e =>
    let x := d.die e
    if x.crcHold = 0 then d
    else
      let hit := listMask ((pins.filter fun p => dieOf p.1 == e).map fun p => sectorOf p.1 % 4)
      d.setDie e { x with crcHold := x.crcHold - (x.crcHold &&& hit) }

/-- One play of a line: its symbols, masked sites on their hold symbols (R175), its markers and CE, and its vector number
(R173). Answers the failing pins. -/
def Dev.playLine (d : Dev) (s : Nat) (l : FLine) (obs : List Strobe) : Dev × List (Nat × Nat) × Nat :=
  let t := cwTsi l.cw
  let um := d.unmasked s
  let all := d.seqSites s
  let pins := ((d.seqChans s).zipIdx).map fun p =>
    let masked := match d.siteOf p.1 with
      | some x => all.testBit x && !um.testBit x
      | none => false
    let lost := (d.die (dieOf p.1)).crcHold.testBit (sectorOf p.1 % 4)
    (p.1, if masked || lost then d.holdSym s t p.1 else l.syms.getD p.2 0)
  let vec := d.get2 (seqCntVec s) (seqCntVecHi s)
  let d := d.put2 (seqCntVec s) (seqCntVecHi s) ((vec + 1) % 2 ^ 64)
  let d := d.put (seqLine s) (if l.ref.strm then 0x1FFFFFF else l.ref.n % 2 ^ 25)
  let pos := (d.seq s).pos
  let d := if l.fresh then d.firstPlay s l else d
  let fails := d.failingPins s t um pins obs
  let d := (d.setSeq s { d.seq s with ce := cwCe l.cw }).nextFree
  (((d.issue s t pins true).setMarkers s (cwMark l.cw) pos).crcClear pins, fails, vec)

/-- The compare results of a counted play enter FAILSEEN and the evidence of each site (R176, R230). `pos`: its start. -/
def Dev.countPlay (d : Dev) (s : Nat) (l : FLine) (fails : List (Nat × Nat)) (vec : Nat) (pos : Rat) : Dev :=
  let x := d.seq s
  let hit := (fails.map fun p => p.1).dedup
  let d := d.setSeq s { x with failSeen := x.failSeen ||| listMask hit }
  let tb := d.tbAt (periodOf pos)
  d.forEach ((List.range 64).filter hit.contains) fun d site =>
    d.countFails site ((fails.filter fun p => p.1 == site).map fun p => p.2) l.ref.n l.ref.strm vec tb x.step

/-! ## Halts (R142, R146, R171, R196) -/

/-- The latest pending driver event of a sequencer's pins, every event applied (R142). -/
def Dev.drvEnd (d : Dev) (s : Nat) : Int :=
  ((d.seqChans s).map fun c =>
    let v := (d.chan c).drv
    if v.evs.isEmpty then 0
    else
      let late := (v.evs.map fun e => e.1).foldl max 0
      let w := (v.runTo none (v.evs.length + 1) 0).1
      match w.lastT with
      | some t => max t late
      | none => late).foldl max 0

/-- The end of the last vector's period and of every spilled edge, as an absolute position. -/
def Dev.edgesDone (d : Dev) (s : Nat) : Rat :=
  let t := max (d.drvEnd s) (d.seq s).edgeEnd
  if t ≤ ((d.seq s).tick : Int) then (d.seq s).pos else d.posOfTick s t

/-- The sequencer halts: it reaches its hold state once its last vector has ended (R142, R146). -/
def Dev.toHalting (d : Dev) (s : Nat) (why : HaltWhy) : Dev :=
  let d := (d.setMarkers s 0 (d.seq s).pos).put (seqState s) 5
  d.setSeq s
    { d.seq s with
      why := why, haltSites := d.unmasked s, endPos := d.edgesDone s, stall := false, stallEnd := none, ce := false, mtch := none,
      jline := none }

/-- A halt is asked of a playing sequencer: at once in a SYNCW wait, else at its next vector boundary (R146, R192, R511). -/
def Dev.haltSeq (d : Dev) (s : Nat) (why : HaltWhy) : Dev :=
  let st := d.get (seqState s)
  if st = 4 then
    let x := d.seq s
    let now : Rat := (d.mclk : Rat) * 4096
    let d := d.setSeq s { x with syncT := none, syncEnd := none, pos := if x.pos < now then now else x.pos }
    d.toHalting s why
  else if inRange 1 3 st && (d.seq s).haltReq.isNone then d.setSeq s { d.seq s with haltReq := some why }
  else d

/-- The registers and events that a halt's cause asks for (R171, R207, R217). -/
def Dev.haltNote (d : Dev) (s : Nat) (why : HaltWhy) : Dev :=
  match why with
  | .program =>
    match (d.seq s).err with
    | some (cause, line) =>
      (d.setWord (0x10003C + 0x10000 * s) (BitVec.ofNat 32 (line % 2 ^ 25 + 2 ^ 25 * (cause % 16)))).event (srcSeq s) 0x0401
        (line % 2 ^ 25 + 2 ^ 32 * cause)
    | none => d
  | .range => d.event (srcSeq s) 0x0406 (d.strmPayload s)
  | .underrun => (d.bump (strmUnderruns s)).event (srcSeq s) 0x0404 (d.strmPayload s)
  | _ => d

/-! ## Look-ahead, MATCH and JMPC -/

/-- The look-ahead is rebuilt (R169). -/
def Dev.lookAhead (d : Dev) (s : Nat) : Dev := d.fillAhead s 9

/-- The MATCH in progress ends at boundary B: the sequencer fetches line n + 1 and fills until B + 8 (R181, R182). -/
def Dev.endMatch (d : Dev) (s : Nat) (lost : Nat) : Dev :=
  let x := d.seq s
  let nxt := match x.queue with
    | l :: _ => l.ref.succ
    | [] => x.next
  let d := d.setSeq s
    { x with
      mtch := none, queue := x.queue.drop 1, next := nxt, stop := .none, matchOk := lost == 0, matchTo := lost != 0,
      timedOut := x.timedOut ||| lost, masked := x.masked ||| lost, fillTo := x.pos + 8 * 4096 }
  (d.put (seqState s) 1).lookAhead s

/-- What a MATCH waits for at the next boundary: true, it ends there with every site matched; false, it times out there; none:
it goes on. -/
def Dev.matchDue (d : Dev) (s : Nat) : Option Bool :=
  let x := d.seq s
  match x.mtch with
  | some m =>
    match m.endAt with
    | some e => if e ≤ x.pos then some true else none
    | none => if m.limit ≤ m.played && decide (m.lastH ≤ x.pos) then some false else none
  | none => none

/-- Sites that have not matched. -/
def Dev.unmatched (d : Dev) (s : Nat) : Nat :=
  match (d.seq s).mtch with
  | some m => m.start - (m.start &&& m.matched)
  | none => 0

/-- One play of a MATCH line (R181 to R183). -/
def Dev.playMatch (d : Dev) (s : Nat) (l : FLine) (m : MatchSt) (obs : List Strobe) : Dev :=
  let h := d.horizon s (cwTsi l.cw)
  let r := d.playLine s l obs
  let d := r.1
  let bad := listMask ((r.2.1.map fun p => p.1).dedup)
  let good := m.start - (m.start &&& bad)
  let matched := m.matched ||| good
  let endAt := match m.endAt with
    | some e => some e
    | none =>
      if m.start = 0 then some (d.seq s).pos
      else if m.start &&& matched = m.start then some h else none
  let x := d.seq s
  let q := match x.queue with
    | f :: rest => { f with fresh := false } :: rest
    | [] => []
  d.setSeq s { x with queue := q, mtch := some { m with matched := matched, played := m.played + 1, lastH := h, endAt := endAt } }

/-- The condition of a JMPC line that waits is evaluated, and the chosen line is fetched (R176, R180). -/
def Dev.resolveJmpc (d : Dev) (s : Nat) : Dev :=
  let x := d.seq s
  match x.jline with
  | some (ref, cw) =>
    let o := cwOperand cw
    let c := d.condition s (cwCond cw) (bitsOf o 28 3)
    let d := if c then d.setStacks s (x.loops.drop (bitsOf o 25 3)) x.calls else d
    let nxt : LRef := if c then ⟨false, o % 2 ^ 25⟩ else ref.succ
    let y := d.seq s
    let d := d.setSeq s
      { y with jline := none, stop := .none, next := nxt, failSeen := if o.testBit 31 then 0 else y.failSeen }
    (d.put (seqState s) 1).lookAhead s
  | none => d

/-! ## The boundary (R161, R169 to R172, R214) -/

/-- The next line of the look-ahead plays. -/
def Dev.playNext (d : Dev) (s : Nat) (l : FLine) (rest : List FLine) (obs : List Strobe) : Dev :=
  let x := d.seq s
  if cwOp l.cw = oMatch then
    let um := d.unmasked s
    let m : MatchSt :=
      { start := um, matched := 0, played := 0, limit := if um = 0 then 1 else max 1 (cwOperand l.cw), endAt := none, lastH := 0 }
    (d.put (seqState s) 3).playMatch s l m obs
  else
    let keep : List FLine := if 1 < l.plays then { l with plays := l.plays - 1, fresh := false } :: rest else rest
    let d := (d.setSeq s { x with queue := keep }).lookAhead s
    let h := d.horizon s (cwTsi l.cw)
    let r := d.playLine s l obs
    let d := r.1.countPlay s l r.2.1 r.2.2 x.pos
    if cwFailCond l.cw then
      (d.put (seqState s) 2).setSeq s
        { (d.put (seqState s) 2).seq s with jline := some (l.ref, l.cw), fillTo := h + 8 * 4096 }
    else if cwOp l.cw = oHalt then d.toHalting s .line
    else d

/-- The look-ahead is empty at a boundary: a program error takes effect, or an underrun begins (R171, R214 to R217). -/
def Dev.playEmpty (d : Dev) (s : Nat) : Dev :=
  let x := d.seq s
  match x.stop with
  | .error => (d.haltNote s .program).toHalting s .program
  | .chunk =>
    let st := d.strm s
    let broken := match chunkOf st.dir 0 x.next.n with
      | some (k, _) => (Tab.get (fun _ => Slot.init) st.slots (k % st.slotsN)).st == .broken
      | none => false
    if broken || !d.is (strmStallOk s) then (d.haltNote s .underrun).toHalting s .underrun
    else if x.stall then d.fillVector s
    else
      let d := if x.stallEv then d else d.event (srcSeq s) 0x0403 (d.strmPayload s)
      let lim := if st.stallMax = 0 then none else some (d.mclk + 1024 * st.stallMax)
      let d := (d.setSeq s { d.seq s with stall := true, stallEv := true, stallEnd := lim }).put (strmState s) 4
      d.fillVector s
  | _ => d

/-- A vector boundary of a sequencer that plays: live writes take effect, then a halt that was asked for, a stream range error,
the end of a wait, a fill or the next play (R6, R70, R146, R161, R172). -/
def Dev.vectorPlay (d : Dev) (s : Nat) (obs : List Strobe) : Dev :=
  if !inRange 1 3 (d.get (seqState s)) then d
  else
    let d := (d.advanceTo (periodOf (d.seq s).pos)).vectorBoundary s
    let x := d.seq s
    match x.haltReq with
    | some w => (d.haltNote s w).toHalting s w
    | none =>
      if x.stop = .range then (d.haltNote s .range).toHalting s .range
      else
        match x.mtch, x.queue with
        | some m, l :: _ =>
          match d.matchDue s with
          | some true => (d.endMatch s 0).fillVector s
          | some false => (d.endMatch s (d.unmatched s)).fillVector s
          | none => if m.played < m.limit then d.playMatch s l m obs else d.fillVector s
        | _, _ =>
          if x.pos < x.fillTo then d.fillVector s
          else
            let d := d.resolveJmpc s
            let x := d.seq s
            match x.queue with
            | l :: rest =>
              if cwOp l.cw = oSyncw && !l.go then d
              else
                let d := if x.stall then
                    (d.setSeq s { x with stall := false, stallEnd := none }).put (strmState s) (if d.get (strmState s) = 5 then 5 else 3)
                  else d
                d.playNext s l rest obs
            | [] => d.playEmpty s

/-! ## Commands of the flow -/

/-- JMPC_RESOLVE: the compare results of a JMPC play have all arrived (R180). -/
def Dev.jmpcResolve (d : Dev) (s : Nat) : Dev :=
  let x := d.seq s
  if d.get (seqState s) = 2 ∧ x.jline.isSome = true ∧ x.haltReq.isNone = true then
    (d.advanceTo (periodUp (x.fillTo - 8 * 4096))).resolveJmpc s
  else d

/-- MATCH_END and MATCH_TIMEOUT: the MATCH ends at the boundary that stands next (R181, R182). -/
def Dev.matchEnds (d : Dev) (s : Nat) (ok : Bool) : Dev :=
  let x := d.seq s
  if d.get (seqState s) = 3 ∧ x.haltReq.isNone = true ∧ d.matchDue s = some ok then
    (d.advanceTo (periodOf x.pos)).endMatch s (if ok then 0 else d.unmatched s)
  else d

/-- The wait of a SYNCW line begins once the period of the play before it and its spilled edges have ended (R192, R194). -/
def Dev.syncwBegin (d : Dev) (s : Nat) : Dev :=
  let x := d.seq s
  match x.queue with
  | l :: _ =>
    if cwOp l.cw = oSyncw ∧ l.go = false ∧ d.get (seqState s) = 1 ∧ x.pos ≥ x.fillTo ∧ x.haltReq.isNone = true
        ∧ x.stop ≠ .range then
      let d := d.advanceTo (periodUp (d.edgesDone s))
      let d := (d.setMarkers s 0 (d.seq s).pos).put (seqState s) 4
      let n := bitsOf (cwOperand l.cw) 8 24
      let pins := (d.seqChans s).filter fun c => d.clkMode c != 0
      let d := d.forEach pins fun d c => d.setChan c { d.chan c with drv := { (d.chan c).drv with clk := false } }
      d.setSeq s { d.seq s with syncT := none, syncEnd := if n = 0 then none else some (d.mclk + 1024 * n), ce := false }
    else d
  | [] => d

/-- The source a waiting SYNCW line names: true for the twin start (R192). -/
def Dev.syncwTwin (d : Dev) (s : Nat) : Bool :=
  match (d.seq s).queue with
  | l :: _ => cwOperand l.cw % 4 == 1
  | [] => false

/-- The start time of a SYNCW wait is known: TB `t` (R193). -/
def Dev.syncwTime (d : Dev) (s t : Nat) : Dev :=
  if d.get (seqState s) = 4 ∧ (d.seq s).syncT.isNone = true then d.setSeq s { d.seq s with syncT := some t } else d

/-- SYNCW_START: the vector of the SYNCW line starts at fine part 0 of master period T; a sequencer on a CKx starts at its first
boundary at or after T (R193). -/
def Dev.syncwStart (d : Dev) (s : Nat) : Dev :=
  let x := d.seq s
  match x.syncT with
  | some t =>
    if d.get (seqState s) = 4 then
      let gap := (t + 2 ^ 64 - d.tb) % 2 ^ 64
      let d := if gap < 2 ^ 63 then d.advance gap else d
      let r := d.clkRatio s
      let now : Rat := (d.mclk : Rat) * 4096
      let old := x.pos
      let own := ((now - old) / (4096 * r)).ceil
      let pos := if r = 1 then now else old + 4096 * r * own
      let tick := ((x.tick : Rat) + (pos - old) / r).floor.toNat
      let q := match x.queue with
        | l :: rest => { l with go := true } :: rest
        | [] => []
      d.setSeq s { d.seq s with pos := pos, tick := tick, queue := q, syncT := none, syncEnd := none }
        |>.put (seqState s) 1
    else d
  | none => d

/-- SYNCW_TIMEOUT: the event has not arrived in time (R194). -/
def Dev.syncwTimeout (d : Dev) (s : Nat) : Dev :=
  let x := d.seq s
  match x.syncEnd, x.syncT with
  | some t, none => if d.get (seqState s) = 4 then (d.advanceTo t).haltSeq s .sync else d
  | _, _ => d

/-- STALL_MAX_EXPIRY: one stall has lasted its limit (R217). -/
def Dev.stallMaxExpiry (d : Dev) (s : Nat) : Dev :=
  let x := d.seq s
  match x.stallEnd with
  | some t => if x.stall then (d.advanceTo t).haltSeq s .underrun else d
  | none => d

/-! ## The end of the step on a sequencer -/

/-- The flags of a site's PATTERN entry (R141, R216, R235). -/
def Dev.patFlags (d : Dev) (r : OpenRun) (s site : Nat) : Nat :=
  let x := d.seq s
  (if (d.siteChans site).any fun c => (d.chan c).conflict then fEdgeAdjusted else 0)
    + (if x.stalls = 0 then 0 else fStalled) + (if r.flogDrop.testBit site then fFlogDropped else 0)

/-- The code a halted sequencer gives one of its sites, and whether it is of class no evidence (R171, R182, R194, R207, R217). -/
def Dev.patCode (d : Dev) (s site : Nat) (st : StepData) : Nat × Bool :=
  let x := d.seq s
  let hit := x.haltSites.testBit site
  let n : Int := d.get2 (fcntLo site) (fcntHi site)
  let hi : Int := if st.hiEn then st.hi else 0
  let own := if x.timedOut.testBit site then rMatchTimeout else if hi < n then rFailCount else rPass
  match x.why with
  | .program => if hit then (rProgram, true) else (own, false)
  | .range => if hit then (rRange, true) else (own, false)
  | .underrun => if hit then (rUnderrun, true) else (own, false)
  | .sync => if hit then (rSync, true) else (own, false)
  | _ => (own, false)

/-- The STALL_COUNT and FIRST_FAIL entries that follow a site's PATTERN entry (R216, R231); `lost`: the site's fail log dropped an
entry in the step (R235). -/
def Dev.patPost (d : Dev) (s site : Nat) (st : StepData) (k startTb endTb : Nat) (lost : Bool) : List Ent :=
  let x := d.seq s
  let e (code : Nat) (v : Int) (fl a b : Nat) : Ent :=
    { testNum := st.testNum, value := v, result := code, flags := fl, startTb := a, endTb := b, site := site, kind := kPattern,
      reading := 0, step := k }
  let drop := if lost then fFlogDropped else 0
  (if x.stalls = 0 then [] else [e rStallCount x.stalls drop startTb endTb])
    ++ (if d.is (ffValid site) then
        [e rFirstFail (d.get2 (ffLineLo site) (ffLineHi site)) ((if d.is (ffStrm site) then fStreamLine else 0) + drop)
          (d.get2 (ffTbLo site) (ffTbHi site)) (d.get2 (ffVecLo site) (ffVecHi site))]
      else [])

/-- A site's PATTERN result once its sequencer has halted (R223 to R231). -/
def Dev.patResult (d : Dev) (s site : Nat) : Dev :=
  let x := d.seq s
  match x.run.bind d.runById with
  | none => d
  | some r =>
    match r.step?, r.res.find? fun y => y.site == site && y.unit == s with
    | some st, some y =>
      if y.fin.isSome then d
      else
        let tb := d.tb
        let skip := (d.get2 (seqSmaskLo s) (seqSmaskHi s)).testBit site
        if skip then d.putReading r.id site 0 { value := 0, code := rSkipped, flags := 0, startTb := y.startTb, endTb := tb }
        else
          let c := d.patCode s site st
          let v : Int := if c.2 then 0 else d.get2 (fcntLo site) (fcntHi site)
          let fl := d.patFlags r s site + (if c.2 then fIntegrity else 0)
          let post := d.patPost s site st r.k y.startTb tb (r.flogDrop.testBit site)
          let d := d.setRun { r with res := r.res.map fun z => if z.site = site then { z with post := post } else z }
          d.putReading r.id site 0 { value := v, code := c.1, flags := fl, startTb := y.startTb, endTb := tb }
    | _, _ => d

/-- The pins reach their hold state and every driver event is applied; a sequencer that has played nothing plays no hold symbol
(R146, R196). -/
def Dev.holdState (d : Dev) (s : Nat) : Dev :=
  let x := d.seq s
  let d := if x.serial = 0 then d
    else
      (d.seqChans s).foldl (fun d c =>
        if d.clkMode c ≠ 0 then d.setChan c { d.chan c with drv := { (d.chan c).drv with clk := false } }
        else d.drivePin s x.tsi c (d.holdSym s x.tsi c) x.step x.serial x.tick (d.tsPeriod s x.tsi)) d
  d.forEach (d.seqChans s) fun d c =>
    let y := d.chan c
    d.setChan c { y with drv := (y.drv.runTo none (y.drv.evs.length + 1) 0).1 }

/-- SEQ_HALT: the final vector's period and its spilled edges have ended (R142, R146, R191, R196, R217). The sites of a stream
underrun are masked for every later step of the RUN. -/
def Dev.seqHalt (d : Dev) (s : Nat) : Dev :=
  if d.get (seqState s) ≠ 5 then d
  else
    let x := d.seq s
    let d := ((d.advanceTo (periodUp x.endPos)).vectorBoundary s).dropJumps s
    let d := (d.holdState s).put (seqState s) (if x.why = HaltWhy.line ∨ x.why = HaltWhy.command then 0 else 6)
    let d := d.setStacks s [] []
    let d := d.setSeq s
      { d.seq s with
        queue := [], stop := .none, err := none, mtch := none, jline := none, haltReq := none, failSeen := 0, endTb := d.tb }
    let d := if d.is (strmAttached s) && d.get (strmState s) != 5 then d.put (strmState s) 2 else d
    let d := match x.run.bind d.runById with
      | some r =>
        if x.why = HaltWhy.underrun then
          d.setRun { r with underrun := true, masked := r.masked ||| (x.haltSites &&& r.sites) }
        else d
      | none => d
    d.forEach (maskList 64 (d.seqSites s)) fun d site => d.patResult s site

/-! ## The meanings -/

/-- VECTOR_PLAY (R161). -/
def execVectorPlay (s : Fin 16) (obs : List Strobe) (st : State) : Answer := onDev st fun d => d.vectorPlay s obs

/-- JMPC_RESOLVE (R180). -/
def execJmpcResolve (s : Fin 16) (st : State) : Answer := onDev st fun d => d.jmpcResolve s

/-- MATCH_END (R181). -/
def execMatchEnd (s : Fin 16) (st : State) : Answer := onDev st fun d => d.matchEnds s true

/-- MATCH_TIMEOUT (R182). -/
def execMatchTimeout (s : Fin 16) (st : State) : Answer := onDev st fun d => d.matchEnds s false

/-- SEQ_HALT (R142, R196). -/
def execSeqHalt (s : Fin 16) (st : State) : Answer := onDevIdle st fun d => d.seqHalt s

/-- SYNCW_START (R193). -/
def execSyncwStart (s : Fin 16) (st : State) : Answer := onDev st fun d => d.syncwStart s

/-- SYNCW_TIMEOUT (R194). -/
def execSyncwTimeout (s : Fin 16) (st : State) : Answer := onDev st fun d => d.syncwTimeout s

/-- STALL_MAX_EXPIRY (R217). -/
def execStallMaxExpiry (s : Fin 16) (st : State) : Answer := onDev st fun d => d.stallMaxExpiry s

/-- SEQ_JUMP (R189). -/
def execSeqJump (s : Fin 16) (v : Word) (st : State) : Answer := onDev st fun d => d.orHold (0x10002C + 0x10000 * s) v.toNat fun d => d.jumpRequest s (v.toNat % 256)

end Sys2Proof.Machine
end

