-- ==== Sys2Proof/Machine/Clock.lean ====
section
/-!
DEFINITION. REFCLK, SYNC and the timebase (R401 to R409), the three PLLs (R410 to R426) and the ramps of CKA and CKB (R419).
-/

namespace Sys2Proof.Machine

/-! ## Coast, return, unlock (R411, R420 to R425) -/

/-- REFCLK is reported present. -/
def Dev.refOn (d : Dev) : Bool := d.is clkRefPresent

/-- Master periods that the ramp segment in progress has run (R419). -/
def Dev.rampElapsed (d : Dev) (p : Nat) : Nat :=
  let x := d.pll p
  x.rampRan + (if d.get (pllState p) = 3 then d.mclk - x.rampAt else 0)

/-- A ramp pauses while its PLL is not LOCKED (R419). -/
def Dev.rampPause (d : Dev) (p : Nat) : Dev :=
  if d.is (pllRamp p) then d.setPll p { d.pll p with rampRan := d.rampElapsed p, rampAt := d.mclk } else d

/-- A PLL leaves LOCKED, or a closed loop, for another state. -/
def Dev.pllLeave (d : Dev) (p st : Nat) : Dev :=
  let d := ((d.rampPause p).put (pllState p) st).put (pllLockBit p) 0
  let d := d.setPll p { d.pll p with toAt := 0, measured := false, slewing := false, freqWait := (d.pll p).freqWait || (d.pll p).walking, walking := false }
  if p = 0 then d.tmuDirty else d

/-- A PLL enters COAST (R411, R420). -/
def Dev.pllCoast (d : Dev) (p : Nat) : Dev :=
  let d := (d.pllLeave p 4).bump (pllCoasts p)
  (d.setPll p { d.pll p with coastAt := d.mclk }).event (srcPll p) 0x0104 0

/-- The sites of the TMU and ACQ steps in progress (R424). -/
def Dev.timedSites (d : Dev) : Nat :=
  d.runs.foldl (fun m r =>
    match r.phase, r.step? with
    | .running, some st => if st.kind = kTmu ∨ st.kind = kAcq then m ||| listMask (r.res.map fun y => y.site) else m
    | _, _ => m) 0

/-- The unlock criterion is met, or a return has not locked in time (R412, R424): OPEN, the affected sequencers halt, and the
loss is a PLL_LOCK fault whose condition lasts until the PLL is LOCKED again (R465). -/
def Dev.pllUnlock (d : Dev) (p : Nat) : Dev :=
  let hit := (List.range 16).filter fun s => inRange 1 4 (d.get (seqState s)) && d.usesPll s p
  let d := (d.pllLeave p 6).bump (pllUnlocks p)
  let d := d.setPll p { d.pll p with affected := listMask hit }
  let sites := hit.foldl (fun m s => m ||| d.seqSites s) (if p = 0 then d.timedSites else 0)
  let d := d.forEach hit fun d s => d.haltSeq s .fault
  d.report (srcPll p) 0 0 (listMask hit) sites true

/-- LOCK_LOST (R412, R424): the unlock criterion applies in LOCKED only. -/
def Dev.lockLost (d : Dev) (p : Nat) : Dev := if d.get (pllState p) = 3 then d.pllUnlock p else d

/-- PLL_OPEN_RECOVERY (R425): every affected sequencer has halted. -/
def Dev.openRecovery (d : Dev) (p : Nat) : Dev :=
  let x := d.pll p
  if d.get (pllState p) ≠ 6 ∨ ((maskList 16 x.affected).any d.seqBusy) = true then d
  else if d.refOn then
    (d.setPll p { x with fails := 0, toAt := d.mclk + us (max 50 (d.get (pllAcqTo p))), attempt := x.attempt + 1 }).put (pllState p) 2
  else d.pllCoast p

/-! ## Frequency (R417) -/

/-- A frequency lies within ±5 % of the frequency at which the PLL last locked. -/
def Dev.nearLock (d : Dev) (p f : Nat) : Bool :=
  let l := (d.pll p).lockHz
  decide (95 * l ≤ 100 * f) && decide (100 * f ≤ 105 * l)

/-- A CKx moves to its set frequency: a walk, or a new SEARCH; while it coasts, returns or attempts to lock the move waits. A ramp
ends there. -/
def Dev.pllMove (d : Dev) (p : Nat) : Dev :=
  let st := d.get (pllState p)
  if p = 0 then d
  else if st = 3 then
    let d := d.put (pllRamp p) 0
    if d.nearLock p (d.pllSet p) then d.setPll p { d.pll p with walking := true } else d.pllSearch p
  else if st = 0 ∨ st = 7 then d
  else d.setPll p { d.pll p with freqWait := true }

/-- A committed frequency (R417). -/
def Dev.pllCommit (d : Dev) (p : Nat) : Dev :=
  if d.shadowPending (.pllFreq (Fin.ofNat 3 p)) then (d.commitShadow (.pllFreq (Fin.ofNat 3 p))).pllMove p else d

/-- PLL_FREQ_COMMIT: a written frequency waits and the PLL's owner is idle (R417, R427). -/
def Dev.pllFreqCommit (d : Dev) (p : Nat) : Dev := if d.running (.pll p) then d else d.pllCommit p

/-- PLL_FREQ_WALK_DONE (R417). -/
def Dev.walkDone (d : Dev) (p : Nat) : Dev :=
  let x := d.pll p
  if x.walking ∧ d.get (pllState p) = 3 then (d.setPll p { x with walking := false }).put (pllFnow p) (d.pllSet p) else d

/-! ## Lock (R411 to R413, R421 to R423) -/

/-- An entry to LOCKED (R411, R428). -/
def Dev.pllLock (d : Dev) (p : Nat) : Dev :=
  let x := d.pll p
  let d := d.setPll p
    { x with avg := true, fails := 0, toAt := 0, lockHz := d.get (pllFnow p), measured := false, slewing := false, freqWait := false,
             attempt := x.attempt + 1, rampAt := d.mclk }
  let d := ((d.put (pllState p) 3).put (pllLockBit p) 1).condEnd (srcPll p) 0
  let d := if d.is (pllEvLock p) then d.event (srcPll p) 0x0105 (d.get (pllFnow p)) else d
  if x.freqWait then d.pllMove p else d

/-- The lock criterion is met (R412): in ACQUIRE, or in RETURN once the offset has been built out or slewed away. -/
def Dev.lockCriterion (d : Dev) (p : Nat) : Dev :=
  let st := d.get (pllState p)
  let x := d.pll p
  if st == 2 || (st == 5 && x.measured && !x.slewing) then d.pllLock p else d

/-- A lock attempt reaches its time limit (R412, R413, R425). -/
def Dev.acqTimeout (d : Dev) (p : Nat) : Dev :=
  let st := d.get (pllState p)
  let x := d.pll p
  if x.toAt = 0 then d
  else if st = 5 then (d.advanceTo x.toAt).pllUnlock p
  else if st = 1 ∨ st = 2 then
    let d := d.advanceTo x.toAt
    if x.fails < 2 then
      let d := d.pllSearch p
      d.setPll p { d.pll p with fails := x.fails + 1, freqWait := x.freqWait }
    else
      let d := (d.pllLeave p 7).event (srcPll p) 0x0106 0
      d.setPll p { d.pll p with avg := false, fails := 0, freqWait := false, attempt := x.attempt + 1 }
  else d

/-- How far the DCO lies from 6.8 GHz with divider Q (R410). -/
def dcoOff (f q : Nat) : Nat := max (f * q) 6800000000 - min (f * q) 6800000000

/-- The divider that a band search chooses: the one that puts the DCO nearest to 6.8 GHz; of two equally near, the one that the
search reports (R410). -/
def dcoQ (f q : Nat) : Nat :=
  let lo := clampNat 7 8000 (6800000000 / f)
  let best := if dcoOff f (lo + 1) < dcoOff f lo then lo + 1 else lo
  if 7 ≤ q ∧ q ≤ 8000 ∧ dcoOff f q = dcoOff f best then q else clampNat 7 8000 best

/-- PLL_BAND_CHOSEN (R410, R411). -/
def Dev.bandChosen (d : Dev) (p band q : Nat) : Dev :=
  if d.get (pllState p) = 1 then
    let d := (d.put (pllState p) 2).put (pllBand p) band
    if p = 0 then d else d.put (pllQ p) (dcoQ (d.get (pllFnow p)) q)
  else d

/-- PLL_RETURN_MEASURED (R409, R412, R421 to R423): SYS builds the offset out, a CKx starts to slew. -/
def Dev.returnMeasured (d : Dev) (p off : Nat) : Dev :=
  let x := d.pll p
  if d.get (pllState p) ≠ 5 ∨ x.measured = true ∨ d.refOn = false then d
  else
    let d := d.put (pllBuildout p) off
    if p = 0 then
      let d := (d.setPll 0 { x with measured := true, toAt := d.mclk + us (max 50 (d.get (pllAcqTo 0))) }).tbDisc
      d.event (srcPll 0) 0x0103 (ofSigned 32 (toSigned 24 off) + 2 ^ 32 * (x.coastLen / 1500 % 2 ^ 32) + 2 ^ 64 * d.tb)
    else d.setPll p { x with measured := true, slewing := true, toAt := 0 }

/-- CKX_SLEW_DONE (R412, R423). -/
def Dev.slewDone (d : Dev) (p : Nat) : Dev :=
  let x := d.pll p
  if d.get (pllState p) = 5 ∧ x.slewing = true then
    d.setPll p { x with slewing := false, toAt := d.mclk + us (max 50 (d.get (pllAcqTo p))) }
  else d

/-! ## REFCLK (R402, R403, R409, R411) -/

/-- A PLL that a missing REFCLK sends to COAST (R411). -/
def Dev.coasts (d : Dev) (p : Nat) : Bool :=
  let st := d.get (pllState p)
  (d.pll p).avg && (st == 1 || st == 2 || st == 3 || st == 5)

/-- REF_LOST (R402, R403, R409, R411). -/
def Dev.refLost (d : Dev) : Dev :=
  if !d.refOn then d
  else
    let d := ((d.put clkRefPresent 0).bump clkRefLoss).event (srcPll 0) 0x0101 0
    let d := if d.awake || d.pwr.refLostInStandby then d
      else ({ d with pwr := { d.pwr with refLostInStandby := true } }).tbDisc
    let d := d.tmuDirty
    d.forEach [0, 1, 2] fun d p => if d.coasts p then d.pllCoast p else d

/-- REF_FOUND (R402, R403, R411, R421). -/
def Dev.refFound (d : Dev) : Dev :=
  if d.refOn then d
  else
    let d := (d.put clkRefPresent 1).event (srcPll 0) 0x0102 0
    d.forEach [0, 1, 2] fun d p =>
      if d.get (pllState p) = 4 then
        let x := d.pll p
        (d.setPll p { x with coastLen := d.mclk - x.coastAt, measured := false, slewing := false, toAt := 0 }).put (pllState p) 5
      else d

/-! ## Ramps (R419) -/

/-- Points of a ramp (R428). -/
def Dev.rampPoints (d : Dev) (p : Nat) : Nat := clampNat 1 64 (d.get (pllNpts p))

/-- The segment time of a point in master periods (R428). -/
def Dev.rampDur (d : Dev) (p k : Nat) : Nat := us (max 1 (d.get (pllRptDur p k)))

/-- The frequency that a ramp has reached. -/
def Dev.rampFreq (d : Dev) (p : Nat) : Nat :=
  let x := d.pll p
  let t : Int := d.get (pllRptTarget p x.rampIdx)
  let dur := d.rampDur p x.rampIdx
  ((x.rampFrom : Int) + (t - x.rampFrom) * (min (d.rampElapsed p) dur : Nat) / dur).toNat

/-- A ramp start (R419): refused when the PLL is not LOCKED or a point lies outside ±5 %. -/
def Dev.rampStart (d : Dev) (p : Nat) : Dev :=
  if d.get (pllState p) = 3 ∧ ((List.range (d.rampPoints p)).all fun k => d.nearLock p (d.get (pllRptTarget p k))) = true then
    let from_ := if d.is (pllRamp p) then d.rampFreq p else d.get (pllFnow p)
    let d := (d.put (pllRamp p) 1).put (pllSlewLim p) 0
    (d.put (pllFnow p) from_).setPll p
      { d.pll p with rampIdx := 0, rampFrom := from_, rampAt := d.mclk, rampRan := 0, walking := false }
  else d.event (srcPll p) 0x0108 0

/-- The start source in force: 0 software, 1 TRIG_IN, 2 marker (R428). -/
def Dev.rampSource (d : Dev) (p : Nat) : Nat := if d.get (pllRampSrc p) = 3 then 0 else d.get (pllRampSrc p)

/-- RAMP_GO (R419). -/
def Dev.rampGo (d : Dev) (p : Nat) : Dev := if p = 0 ∨ d.rampSource p ≠ 0 then d else d.rampStart p

/-- RAMP_TRIGGER (R419). -/
def Dev.rampTrigger (d : Dev) (p : Nat) : Dev := if p = 0 ∨ d.rampSource p = 0 ∨ d.awake = false then d else d.rampStart p

/-- RAMP_SEGMENT_END (R419): the target of the segment is reached. -/
def Dev.rampSegmentEnd (d : Dev) (p : Nat) (slewLimited : Bool) : Dev :=
  if !d.is (pllRamp p) || d.get (pllState p) != 3 then d
  else
    let x := d.pll p
    let d := d.advanceTo (x.rampAt + (d.rampDur p x.rampIdx - x.rampRan))
    let d := if slewLimited then d.put (pllSlewLim p) 1 else d
    let t := d.get (pllRptTarget p x.rampIdx)
    let d := d.put (pllFnow p) t
    if x.rampIdx + 1 < d.rampPoints p then
      d.setPll p { x with rampIdx := x.rampIdx + 1, rampFrom := t, rampAt := d.mclk, rampRan := 0 }
    else (d.put (pllRamp p) 0).event (srcPll p) 0x0107 (x.rampIdx + 1)

/-- RAMP_STOP (R419): the frequency holds where it stands. -/
def Dev.rampStop (d : Dev) (p : Nat) : Dev :=
  if d.is (pllRamp p) then (d.put (pllFnow p) (d.rampFreq p)).put (pllRamp p) 0 else d

/-! ## RELOCK (R411, R413, R419, R426) -/

/-- RELOCK: refused while the owner runs; from a frequency that a ramp has left behind a LOCKED CKx walks back; else SEARCH starts
without a lock average. -/
def Dev.relock (d : Dev) (req : Requester) (p : Nat) : Dev :=
  if d.running (.pll p) then d.refuseWrite req (0x20124 + 0x100 * p)
  else
    let st := d.get (pllState p)
    let x := d.pll p
    if st = 3 ∧ p ≠ 0 ∧ x.walking = false ∧ d.get (pllFnow p) ≠ d.pllSet p then d.pllMove p
    else if st = 3 ∨ st = 7 then
      let d := d.pllLeave p st
      (d.setPll p { d.pll p with avg := false }).pllSearch p
    else d

/-! ## SYNC and the timebase (R405 to R409) -/

/-- The condition of an alignment at a recognised SYNC (R406). -/
def Dev.alignNow (d : Dev) : Bool :=
  let idle := !d.anySeqBusy && d.runs.isEmpty
  (d.is clkSyncAuto && idle) || (d.is clkAlignPend && (d.clk.alignForce || idle))

/-- The sequencers that wait for SYNC. -/
def Dev.syncWaiters (d : Dev) : List Nat :=
  (List.range 16).filter fun s => d.get (seqState s) == 4 && !d.syncwTwin s

/-- TB takes the value LOAD in the master period of recognition (R406, R407, R409). A start time that was already known keeps its
moment. -/
def Dev.align (d : Dev) : Dev :=
  let forced := d.is clkAlignPend && d.clk.alignForce && !d.runs.isEmpty
  let load := d.get2 clkSyncLoad clkSyncLoadHi
  let old := d.tb
  let d := d.forEach d.syncWaiters fun d s =>
    let x := d.seq s
    match x.syncT with
    | some t => d.setSeq s { x with syncT := some ((load + 2 ^ 64 + t - old) % 2 ^ 64) }
    | none => d
  let d := { d with tb := load, tbFrac := 0, clk := { d.clk with alignForce := false } }
  let d := d.put clkAlignPend 0
  let d := if d.refOn && d.get (pllState 0) == 3 then d.put clkTbDisc 0 else d
  if forced then d.report (srcPll 0) 1 0 0 (d.runs.foldl (fun m r => m ||| r.sites) 0) false else d

/-- SYNC_ARRIVAL (R193, R405 to R407, R576): a SYNC that wakes the device does not align TB. -/
def Dev.syncArrival (d : Dev) : Dev :=
  let wakes := !d.awake && d.pwr.booted && !d.pwr.noImage && (d.pwr.wakeWhy == 0 || d.pwr.ramp == .down)
  let d := if wakes then d.beginWake 3 else if d.alignNow then d.align else d
  let d := d.put2 clkTbSyncLo clkTbSyncHi d.tb
  d.forEach d.syncWaiters fun d s => d.syncwTime s ((d.tb + max 32 (d.get (seqSyncReg s))) % 2 ^ 64)

/-- A write of `CLK_SYNC_CMD` (R406, R428). -/
def Dev.syncRequest (d : Dev) (force : Bool) : Dev :=
  ({ d with clk := { d.clk with alignForce := force } }).put clkAlignPend 1

def Dev.syncCancel (d : Dev) : Dev := ({ d with clk := { d.clk with alignForce := false } }).put clkAlignPend 0

/-! ## The start ramp (R415) -/

/-- SYS_RAMP_START: SYS first meets the lock window, or has entered FAILED, while the device wakes. -/
def Dev.sysRampStart (d : Dev) : Dev :=
  let st := d.get (pllState 0)
  if d.pwr.wakeWhy ≠ 0 ∧ d.pwr.ramp = .none ∧ d.pwr.rampDone = false ∧ (st = 2 ∨ st = 3 ∨ st = 7) then
    { d with pwr := { d.pwr with ramp := .up, rampEnd := d.mclk + us 100 } }
  else d

/-! ## The meanings -/

/-- SYS_RAMP_START (R415). -/
def execSysRampStart (s : State) : Answer := onDev s fun d => d.sysRampStart

/-- REF_LOST (R402). -/
def execRefLost (s : State) : Answer := onDev s fun d => d.refLost

/-- REF_FOUND (R402). -/
def execRefFound (s : State) : Answer := onDev s fun d => d.refFound

/-- PLL_BAND_CHOSEN (R411). -/
def execPllBandChosen (p : Fin 3) (band : Fin 64) (q : BitVec 13) (s : State) : Answer := onDev s fun d => d.bandChosen p band q.toNat

/-- LOCK_LOST (R424). -/
def execLockLost (p : Fin 3) (s : State) : Answer := onDev s fun d => d.lockLost p

/-- PLL_OPEN_RECOVERY (R425). -/
def execPllOpenRecovery (p : Fin 3) (s : State) : Answer := onDev s fun d => d.openRecovery p

/-- PLL_RETURN_MEASURED (R421). -/
def execPllReturnMeasured (p : Fin 3) (offset : BitVec 24) (s : State) : Answer := onDev s fun d => d.returnMeasured p offset.toNat

/-- CKX_SLEW_DONE (R423). -/
def execCkxSlewDone (p : Fin 3) (s : State) : Answer := onDev s fun d => d.slewDone p

/-- PLL_FREQ_COMMIT (R417). -/
def execPllFreqCommit (p : Fin 3) (s : State) : Answer := onDev s fun d => d.pllFreqCommit p

/-- PLL_FREQ_WALK_DONE (R417). -/
def execPllFreqWalkDone (p : Fin 3) (s : State) : Answer := onDev s fun d => d.walkDone p

/-- RAMP_GO (R419). -/
def execRampGo (p : Fin 3) (s : State) : Answer := onDev s fun d => d.orHold (0x20124 + 0x100 * p) 1 fun d => d.rampGo p

/-- RAMP_TRIGGER (R419). -/
def execRampTrigger (p : Fin 3) (s : State) : Answer := onDev s fun d => d.rampTrigger p

/-- RAMP_SEGMENT_END (R419). -/
def execRampSegmentEnd (p : Fin 3) (slewLimited : Bool) (s : State) : Answer := onDevIdle s fun d => d.rampSegmentEnd p slewLimited

/-- RAMP_STOP (R419). -/
def execRampStop (p : Fin 3) (s : State) : Answer := onDevIdle s fun d => d.orHold (0x20124 + 0x100 * p) 2 fun d => d.rampStop p

/-- RELOCK (R426). -/
def execRelock (req : Requester) (p : Fin 3) (s : State) : Answer := onDevIdle s fun d => d.orHold (0x20124 + 0x100 * p) 4 fun d => d.relock req p

/-- SYNC_ARRIVAL (R406). -/
def execSyncArrival (s : State) : Answer := onDev s fun d => d.syncArrival

/-- SYNC_ALIGN_REQUEST (R406). -/
def execSyncAlignRequest (force : Bool) (s : State) : Answer := onDev s fun d => d.syncRequest force

/-- SYNC_CANCEL (R428). -/
def execSyncCancel (s : State) : Answer := onDev s fun d => d.syncCancel

end Sys2Proof.Machine
end

