-- ==== Sys2Proof/Machine/Meridian.lean ====
section
/-!
DEFINITION. Meridian messages (R526 to R528): how a message is framed, sent, sent again and acknowledged. The layout of the payloads,
which R527 names by content only, is the model's own (DESIGN CHOICE).
-/

namespace Sys2Proof.Machine

/-! ## Link and pair state -/

/-- The link is UP (R525). -/
def Dev.merUp (d : Dev) : Bool := d.get twinLink == 2

/-- The package is PAIRED (R524, R545). -/
def Dev.paired (d : Dev) : Bool := d.get twinState == 1

/-- Pairing is asked for: not SOLO under R524. -/
def Dev.wantsPair (d : Dev) : Bool := d.is twinEn && !d.is twinSolo && !d.is twinRoleConf

/-! ## Messages (R526, R527) -/

def mHeartbeat : Nat := 0x01
def mFlag : Nat := 0x02
def mOpen : Nat := 0x10
def mMirror : Nat := 0x11
def mIntent : Nat := 0x12
def mIntentAck : Nat := 0x13
def mComplete : Nat := 0x14
def mAbandon : Nat := 0x15
def mAlmFull : Nat := 0x20
def mAlmDelta : Nat := 0x21
def mStartReady : Nat := 0x30
def mStart : Nat := 0x31
def mNotify : Nat := 0x40
def mTakeReq : Nat := 0x50
def mTaken : Nat := 0x51

/-- Bytes filled up with zeros to whole 64-bit blocks. -/
def toBlocks (bs : List Byte) : List Byte := bs ++ List.replicate ((8 - bs.length % 8) % 8) 0

/-- A message as it is sent (R526): header, payload blocks, trailer with the CRC. -/
def Dev.merFrame (d : Dev) (kind seq : Nat) (payload : List Byte) : List Byte :=
  let p := toBlocks payload
  let h := toBytes 8 (kind + 2 ^ 8 * (p.length / 8) + 2 ^ 16 * (seq % 2 ^ 16) + 2 ^ 32 * ((d.twin.rxSeq + 65535) % 65536))
  h ++ p ++ toBytes 8 (crc32 ((h ++ p).map fun b => b.toNat))

/-- An unreliable message is sent while the link is UP. -/
def Dev.sendRaw (d : Dev) (kind : Nat) (payload : List Byte) : Dev :=
  if d.merUp then d.emit (.twin kind (d.merFrame kind 0 payload)) else d

/-- A payload cut into messages of at most 255 blocks. -/
def splitPayload : Nat → List Byte → List (List Byte)
  | 0, _ => []
  | n + 1, bs => if bs.length ≤ 2040 then [bs] else bs.take 2040 :: splitPayload n (bs.drop 2040)

/-- One reliable message is sent and kept until it is acknowledged (R528). -/
def Dev.sendOne (d : Dev) (kind : Nat) (payload : List Byte) : Dev :=
  let t := d.twin
  let at_ := if t.unacked.isEmpty then d.mclk + us 20 else t.retxAt
  let d := { d with twin := { t with
    txSeq := (t.txSeq + 1) % 65536, unacked := t.unacked ++ [({ seq := t.txSeq, kind := kind, payload := payload, due := d.mclk + us 20 } : TwinMsg)],
    retxAt := at_ } }
  d.emit (.twin kind (d.merFrame kind t.txSeq payload))

/-- A reliable message is sent while the link is UP; a long payload takes several messages. -/
def Dev.sendRel (d : Dev) (kind : Nat) (payload : List Byte) : Dev :=
  if d.merUp then (splitPayload (payload.length / 2040 + 1) payload).foldl (fun d p => d.sendOne kind p) d else d

/-- A message that carries a touchdown ID alone. -/
def Dev.sendTd (d : Dev) (kind td : Nat) : Dev := d.sendRel kind (toBytes 8 td)

/-- `SEQ_FLAG` as last written: a value that waits for its boundary counts (R531). -/
def Dev.flagWritten (d : Dev) (s : Nat) : Nat :=
  match (d.held.filter fun w => w.1 == (seqFlag s).addr).getLast? with
  | some w => w.2 % 256
  | none => d.get (seqFlag s)

/-- The SEQ_FLAG bytes. -/
def Dev.flagBytes (d : Dev) : List Byte := (List.range 16).map fun s => BitVec.ofNat 8 (d.flagWritten s)

/-- OPEN of a RUN (R535). -/
def Dev.sendOpen (d : Dev) (r : OpenRun) : Dev :=
  d.sendRel mOpen (toBytes 8 r.td ++ toBytes 8 r.sites ++ toBytes 8 r.startTb ++ toBytes 8 r.retestBin)

/-- The close entries of a frozen RUN, with MIRRORED set (R534); a released one is left out. -/
def Dev.closeBytes (d : Dev) (hdr : Nat) : List Byte :=
  match d.led.frozen.find? fun p => p.1 == hdr with
  | some p => p.2.flatMap fun q => toBytes 32 (d.ld (ledEntAddr q.1 ((q.2.2 + 1919) % 1920)) 32 ||| 2 ^ 93)
  | none => []

/-- MIRROR of a frozen RUN: the touchdown header, then the close entry of each of its sites (R535). -/
def Dev.sendMirror (d : Dev) (r : OpenRun) : Dev := d.sendRel mMirror (d.ldBytes (ledHdrAddr r.hdr) 64 ++ d.closeBytes r.hdr)

/-- INTENT is sent for every frozen RUN whose MIRROR has been acknowledged (R535). -/
def Dev.mirrorAcked (d : Dev) : Dev :=
  let acked (r : OpenRun) : Bool := r.mirSt == 1 && !d.twin.unacked.any fun m => m.seq == r.mirSeq
  let hit := d.twin.closing.filter acked
  let mark (r : OpenRun) : OpenRun := if acked r then { r with mirSt := 2 } else r
  let d := { d with twin := { d.twin with closing := d.twin.closing.map mark } }
  hit.foldl (fun d r => d.sendTd mIntent r.td) d

/-- The partner acknowledges every message up to a number; the oldest one left keeps its own 20 µs (R528). -/
def Dev.merAck (d : Dev) (ack : Nat) : Dev :=
  let t := d.twin
  let left := t.unacked.filter fun m => decide (32768 ≤ (ack + 65536 - m.seq) % 65536)
  if left.length = t.unacked.length then d
  else ({ d with twin := { t with unacked := left, retxAt := (left.head?.map fun (m : TwinMsg) => m.due).getD t.retxAt } }).mirrorAcked

/-- A message received in order (R526 to R528): its ACK counts, a reliable one is taken, and then it acts. -/
def Dev.merRecv (d : Dev) (ack : Nat) (reliable : Bool) (f : Dev → Dev) : Dev :=
  if d.merUp then
    let d := d.merAck ack
    let d := if reliable then { d with twin := { d.twin with rxSeq := (d.twin.rxSeq + 1) % 65536 } } else d
    f d
  else d

/-- MERIDIAN_RETX_TIMEOUT (R528): the first unacknowledged message and every later one are sent again. -/
def Dev.retxTimeout (d : Dev) : Dev :=
  let t := d.twin
  if t.unacked.isEmpty || !d.merUp then d
  else
    let d := d.advanceTo t.retxAt
    let d := t.unacked.foldl (fun d m => (d.emit (.twin m.kind (d.merFrame m.kind m.seq m.payload))).bump twinRetx) d
    let again (m : TwinMsg) : TwinMsg := { m with due := d.mclk + us 20 }
    { d with twin := { d.twin with unacked := d.twin.unacked.map again, retxAt := d.mclk + us 20 } }

/-- MERIDIAN_MESSAGE_DISCARDED (R526 to R528). -/
def Dev.merDiscard (d : Dev) (why : DiscardReason) : Dev :=
  match why with
  | .crc => d.bump twinCrcErr
  | _ => d

/-! ## The meanings -/

/-- MERIDIAN_RETX_TIMEOUT (R528). -/
def execMeridianRetxTimeout (s : State) : Answer := onDev s fun d => d.retxTimeout

/-- MERIDIAN_MESSAGE_DISCARDED (R526). -/
def execMeridianMessageDiscarded (why : DiscardReason) (s : State) : Answer := onDev s fun d => d.merDiscard why

end Sys2Proof.Machine
end

