-- ==== Sys2Proof/Machine/Stream.lean ====
section
/-!
DEFINITION. WRITE_VECTORS (R165) and stream windows (R199 to R218): attach, refill, reload and detach.
-/

namespace Sys2Proof.Machine

/-- WRITE_VECTORS (R165). `data` is what host memory holds at ADDR. -/
def Dev.writeVectors (d : Dev) (q : Nat) (data : List Byte) (readOk : Bool) : Dev :=
  d.onDesc q opWriteVectors fun d x w =>
    let s := dField x 8 0 4
    let first := dField x 12 0 25
    let count := dField x 16 0 32
    let sz := d.lineSize s
    let lines := d.residentLines s
    if first < lines ∧ d.seqRunning s = true then d.done w stLocked
    else if lines < first + count then d.done w stRange
    else if readOk = false ∨ data.length < count * sz then d.done w stIntegrity
    else
      let g := d.get (seqVgen s)
      let b := d.get (seqVbase s)
      let d := d.forEach (List.range count) fun d i => d.writeLine b sz (first + i) g ((data.drop (i * sz)).take sz)
      d.doneWith w stOk count 0

/-- Vector lines that one slot of `mb` MB holds (R202). -/
def slotCapacity (sz mb : Nat) : Nat := linesIn sz (mb * 16384)

/-- Chunks in the window at the start of a step (R200, R213). -/
def Strm.loaded (x : Strm) : Nat := min x.slotsN x.dir.length

def Strm.slot (x : Strm) (i : Nat) : Slot := Tab.get (fun _ => Slot.init) x.slots i

/-- A slot has been read: its chunk is ready or broken. -/
def Slot.settled (x : Slot) : Bool := x.st == .ready || x.st == .broken

/-- Every slot's first chunk has been read (R200, R213). -/
def Strm.preloaded (x : Strm) : Bool := (List.range x.loaded).all fun i => (x.slot i).settled

/-- `STRM_RATE` from the reads of the last 1 ms, in MB/s (R212, R220). -/
def Dev.strmRateNow (d : Dev) (s : Nat) : Nat :=
  min 65535 ((((d.strm s).reads.filter fun p => decide (d.mclk ≤ p.1 + us 1000)).map fun p => p.2).sum / 1000)

/-- A chunk that has been read: its lines are written, or it is read again, or it is broken (R210, R211). -/
def Dev.chunkRead (d : Dev) (s i : Nat) (data : List Byte) (linkOk : Bool) : Dev :=
  let x := d.strm s
  let sl := x.slot i
  match sl.st, x.dir[sl.chunk]? with
  | .reading again, some e =>
    let sz := d.lineSize s
    let n := e.lines * sz
    let bytes := data.take n
    let ok := linkOk && decide (data.length = n) && crc32 (bytes.map fun b => b.toNat) == e.crc.toNat
    let setSlot (d : Dev) (v : Slot) : Dev :=
      d.setStrm s { d.strm s with slots := Tab.set (fun _ => Slot.init) (d.strm s).slots i v }
    if ok then
      let g := d.get (seqVgen s)
      let b := d.slotBase s i
      let d := d.forEach (List.range e.lines) fun d k => d.writeLine b sz k g ((bytes.drop (k * sz)).take sz)
      let d := setSlot d { sl with st := .ready, used := false, vgen := g }
      let d := d.setStrm s { d.strm s with reads := (d.mclk, n) :: (d.strm s).reads.filter fun p => decide (d.mclk ≤ p.1 + us 1000) }
      let d := (d.put (strmRate s) (d.strmRateNow s)).put (strmReady s) (d.readyAhead s)
      if d.get (strmState s) = 1 && (d.strm s).attach.isNone && (d.strm s).preloaded then d.put (strmState s) 2 else d
    else if again then
      ((setSlot d { sl with st := .broken }).put (strmState s) 5).event (srcSeq s) 0x0405
        (x.pos % 2 ^ 40 + 2 ^ 64 * (sl.chunk % 2 ^ 32))
    else (setSlot d { sl with st := .reading true }).bump (strmRetries s)
  | _, _ => d

/-- A STREAM_ATTACH whose preload has ended completes (R200). -/
def Dev.attachDone (d : Dev) (s : Nat) : Dev :=
  let x := d.strm s
  match x.attach with
  | some w =>
    if x.preloaded then
      let d := d.setStrm s { x with attach := none }
      let d := if d.get (strmState s) = 5 then d else d.put (strmState s) 2
      d.done w stOk
    else d
  | none => d

/-- A directory entry keeps R202. -/
def dirOk (cap : Nat) (e : DirEntry) : Bool := isMult 4 e.addr.toNat && inRange 1 cap e.lines

/-- The parameters of a STREAM_ATTACH lie in their ranges (R199). -/
def attachParams (x : Nat) : Bool :=
  let c := dField x 9 0 8
  let n := dField x 10 0 8
  inRange 1 16 c && inRange 2 32 n && inRange 2 32 (n * c) && isMult 16 (dField x 16 0 64) && inRange 1 16777216 (dField x 24 0 32)

/-- The slots that wait for their first chunks. -/
def freshSlots (n : Nat) : Tab Slot :=
  (List.range n).foldl (fun t i => Tab.set (fun _ => Slot.init) t i { chunk := i, st := .reading false, used := false, vgen := 0 }) []

/-- STREAM_ATTACH (R199 to R202). `chunks` holds the preloaded chunks that the reads have brought so far; the others arrive
with CHUNK_READ_DONE. -/
def Dev.streamAttach (d : Dev) (q : Nat) (dir : List DirEntry) (chunks : List (List Byte)) (readOk : Bool) : Dev :=
  d.onDesc q opStreamAttach fun d x w =>
    let s := dField x 8 0 4
    let c := dField x 9 0 8
    let n := dField x 10 0 8
    if (d.strm s).attach = some w then d
    else if d.seqRunning s then d.done w stLocked
    else if d.is (strmAttached s) || !attachParams x || decide (d.get (seqVlines s) < n * c * 16384) then d.done w stRange
    else if readOk = false ∨ dir.length ≠ dField x 24 0 32 then d.done w stIntegrity
    else if !dir.all (dirOk (slotCapacity (d.lineSize s) c)) then d.done w stRange
    else
      let st : Strm :=
        { chunkMb := c, slotsN := n, stallMax := dField x 12 0 16, dir := dir, slots := freshSlots (min n dir.length), pos := 0,
          attach := some w, reads := [] }
      let d := d.setStrm s st
      let d := ((d.put (strmAttached s) 1).put (strmStallOk s) (dField x 11 0 1)).putB (strmLoopX s) (dir.any fun e => e.loopXing)
      let d := ((d.put (strmState s) 1).put (strmCsizeM1 s) (c - 1)).put (strmNslot s) n
      let d := (d.put2 (strmPosLo s) (strmPosHi s) 0).put (strmReady s) 0
      let d := ((d.put2 (strmStallLo s) (strmStallHi s) 0).put (strmRetries s) 0).put (strmUnderruns s) 0
      let d := d.put (strmRate s) 0
      let d := (chunks.zipIdx).foldl (fun d p => d.chunkRead s p.2 p.1 true) d
      d.attachDone s

/-- A sequencer that waits for a chunk goes on once it is ready (R172, R214). -/
def Dev.chunkResume (d : Dev) (s : Nat) : Dev :=
  let x := d.seq s
  if x.stop = .chunk ∧ d.chunkReady s x.next = true then
    let d := d.resumeChunk s
    if x.stall then
      let t : Rat := ((d.mclk + 8 : Nat) : Rat) * 4096
      d.setSeq s { d.seq s with fillTo := t, stallEnd := none }
    else d
  else d

/-- CHUNK_READ_DONE (R210, R211). -/
def Dev.chunkReadDone (d : Dev) (s i : Nat) (data : List Byte) (linkOk : Bool) : Dev :=
  (((d.chunkRead s i data linkOk).attachDone s).chunkResume s).idleRestart

/-- The window already holds the first chunks, unplayed and written under the generation in force (R213). -/
def Dev.windowFresh (d : Dev) (s : Nat) : Bool :=
  let x := d.strm s
  (List.range x.loaded).all fun i =>
    let sl := x.slot i
    sl.chunk == i && sl.st == .ready && !sl.used && sl.vgen == d.get (seqVgen s)

/-- The reload at the start of a PATTERN step (R204, R213). -/
def Dev.streamReload (d : Dev) (s : Nat) : Dev :=
  if !d.is (strmAttached s) then d
  else
    let d := (d.setStrm s { d.strm s with pos := 0 }).put2 (strmPosLo s) (strmPosHi s) 0
    let d := if d.windowFresh s then d
      else (d.setStrm s { d.strm s with slots := freshSlots (d.strm s).loaded }).put (strmState s) 1
    d.put (strmReady s) (d.readyAhead s)

/-- The stream of a sequencer lets a step start: none attached, or its window is loaded (R213). -/
def Dev.streamReady (d : Dev) (s : Nat) : Bool := !d.is (strmAttached s) || (d.strm s).preloaded

/-- STREAM_DETACH (R218). -/
def Dev.streamDetach (d : Dev) (q : Nat) : Dev :=
  d.onDesc q opStreamDetach fun d x w =>
    let s := dField x 8 0 4
    if d.seqRunning s then d.done w stLocked
    else if !d.is (strmAttached s) then d.done w stOk
    else
      let n := d.windowLines s
      let b := d.get (seqVbase s) + d.get (seqVlines s) - n
      let d := d.forEach (List.range n) fun d i =>
        let a := 64 * (b + i) + 60
        d.st a 4 (putBits (d.ld a 4) 0 22 0x3FFFFF)
      let d := (d.setStrm s Strm.init).setWord (0x18000 + 0x40 * s) 0
      ((d.put2 (strmPosLo s) (strmPosHi s) 0).put (strmReady s) 0).done w stOk

/-! ## The meanings -/

/-- WRITE_VECTORS (R165). -/
def execWriteVectors (q : Fin 16) (data : List Byte) (readOk : Bool) (s : State) : Answer :=
  onDev s fun d => d.writeVectors q data readOk

/-- STREAM_ATTACH (R200). -/
def execStreamAttach (q : Fin 16) (dir : List DirEntry) (chunks : List (List Byte)) (readOk : Bool) (s : State) : Answer :=
  onDev s fun d => d.streamAttach q dir chunks readOk

/-- STREAM_DETACH (R218). -/
def execStreamDetach (q : Fin 16) (s : State) : Answer := onDev s fun d => d.streamDetach q

/-- CHUNK_READ_DONE (R210). -/
def execChunkReadDone (n : Fin 16) (slot : Fin 32) (data : List Byte) (linkOk : Bool) (s : State) : Answer :=
  onDev s fun d => d.chunkReadDone n slot data linkOk

end Sys2Proof.Machine
end

