-- ==== Sys2Proof/Machine/RunCheck.lean ====
section
/-!
DEFINITION. What a RUN descriptor is judged by before it opens: its operands (R499), its steps (R222, R223, R500 to R502, R118, R280,
R288, R314, R332), the touchdown it resumes (R258) and what it needs to open (R32, R246, R442, R444, R535, R585). The results that a
step forms for a site (R223, R224) stand here as well.
-/

namespace Sys2Proof.Machine

/-! ## Results of a step (R223, R224, R289, R315) -/

/-- The job-list entries of a DSP step for a site, in list order. -/
def siteJobs (st : StepData) (s : Nat) : List JobEntry := st.jobs.filter fun j => jobSite j == s

/-- Results of one job of a DSP step: NRES of the lowest engine of the set that holds the kernel; 1 where none holds it. -/
def Dev.stepNres (d : Dev) (st : StepData) : Nat :=
  match (maskList 16 st.engines).find? fun e => d.get (dseKid e) == st.kid && d.get (dseState e) != 0 with
  | some e => max 1 (d.dse e).nres
  | none => 1

/-- What forms each result of a site in a step, in result order (`Res.unit`). -/
def Dev.stepUnits (d : Dev) (st : StepData) (s : Nat) : List Nat :=
  if st.kind = kPattern then ((maskList 16 st.seqs).filter fun q => (d.seqSites q).testBit s).take 1
  else if st.kind = kPpmu then d.stepChans st s
  else if st.kind = kTmu then
    ((maskList 64 st.tmus).filter fun u => d.tmuSite u == some s).flatMap fun u => (maskList 4 (st.tmuStats u)).map fun k => 4 * u + k
  else if st.kind = kAcq then
    ((maskList 32 st.aus).filter fun a => d.auSite a == some s).flatMap fun a => (d.auUsedSlots a).map fun k => 4 * a + k
  else (siteJobs st s).flatMap fun _ => List.range (d.stepNres st)

/-- A step uses a site (R224). -/
def Dev.stepUses (d : Dev) (st : StepData) (s : Nat) : Bool :=
  if st.kind = kPattern then (maskList 16 st.seqs).any fun q => (d.seqSites q).testBit s
  else if st.kind = kPpmu then !(d.stepChans st s).isEmpty
  else if st.kind = kTmu then (maskList 64 st.tmus).any fun u => d.tmuSite u == some s
  else if st.kind = kAcq then (maskList 32 st.aus).any fun a => d.auSite a == some s
  else !(siteJobs st s).isEmpty

/-- The channels of a site that a step uses (R442). -/
def Dev.stepUsedChans (d : Dev) (st : StepData) (s : Nat) : List Nat :=
  let tmuChans (u : Nat) : List Nat := [(d.tmuInputs u).1.1, (d.tmuInputs u).2.1]
  if st.kind = kPattern then (d.siteChans s).filter fun c => (maskList 16 st.seqs).any fun q => (d.seqQuads q).testBit (quadOf c)
  else if st.kind = kPpmu then d.stepChans st s
  else if st.kind = kTmu then ((maskList 64 st.tmus).filter fun u => d.tmuSite u == some s).flatMap tmuChans
  else if st.kind = kAcq then
    ((maskList 32 st.aus).filter fun a => d.auSite a == some s).flatMap fun a =>
      if d.get (auType a) = 2 then tmuChans (d.get (auTmu a)) else d.auChans a
  else []

/-- A step may not start on a site: a channel it uses there is not valid (R442). -/
def Dev.stepInvalid (d : Dev) (st : StepData) (s : Nat) : Bool :=
  !d.is calAllowInvalid && (d.stepUsedChans st s).any fun c => !d.is (calValid c)

/-- A result that nothing has formed yet. -/
def Res.new (s j u : Nat) : Res :=
  { site := s, j := j, unit := u, begun := false, startTb := 0, settled := false, t0 := 0, rdTb := 0, compl := false, samples := [],
    readings := [], left := 0, flags := 0, ents := [], fin := none, post := [], written := false }

/-- The results of a site in a step. -/
def Dev.stepResults (d : Dev) (st : StepData) (s : Nat) : List Res :=
  ((d.stepUnits st s).zipIdx).map fun p => Res.new s p.2 p.1

/-! ## Steps (R222, R223, R494, R500 to R502) -/

/-- The reserved bits of a step are 0 (R500, R501). -/
def stepReservedZero (st : StepData) : Bool :=
  st.field 0 7 1 == 0 && st.field 2 4 4 == 0 && st.field 3 0 8 == 0 && st.field 20 0 96 == 0 &&
    (if st.kind = kPattern then
      st.field 34 0 16 == 0 && st.field 100 0 224 == 0
        && (List.range 16).all fun q => st.field (36 + 4 * q) 0 32 == 0xFFFFFFFF || st.field (36 + 4 * q) 25 7 == 0
    else if st.kind = kPpmu then
      st.field 64 7 1 == 0 && st.field 65 7 1 == 0 && st.field 80 4 4 == 0 && st.field 81 0 8 == 0 && st.field 92 0 288 == 0
        && (List.range 256).all fun c => !st.usesChan c || (bitsOf (st.perchan c) 7 1 == 0 && bitsOf (st.perchan c) 15 1 == 0)
    else if st.kind = kTmu then st.field 40 0 64 == 0 && st.field 84 0 352 == 0
    else if st.kind = kAcq then st.field 40 0 704 == 0
    else st.field 38 0 16 == 0 && st.field 48 0 640 == 0)

/-- A job-list entry keeps R502. -/
def jobOk (j : JobEntry) : Bool :=
  let view (k : Nat) : Bool :=
    let v := jobView j k
    let kind := v % 16
    (kind == 0 || kind == 2 || kind == 3) && bitsOf v 4 4 == 0 && bitsOf v 13 19 == 0 && (kind == 2 || bitsOf v 8 5 == 0)
  bitsOf j.toNat 6 2 == 0 && bitsOf j.toNat 8 24 == 0 && bitsOf j.toNat 160 32 == 0 && (List.range 4).all view

/-- The MODE byte of a PPMU step, or the PERCH record that replaces it, holds no code that R501 refuses. -/
def stepModeOk (st : StepData) : Bool :=
  st.field 64 0 2 != 3 && decide (st.field 64 3 3 ≤ 4) && (List.range 256).all fun c => !st.usesChan c || !st.badMode c

/-- The channels of an AU's source lie in one site (R288). -/
def Dev.auOneSite (d : Dev) (a : Nat) : Bool := (d.auChans a).all fun c => d.siteOf c == d.auSite a

/-- A step keeps the rules of its kind for a RUN on `sites`. -/
def Dev.stepOk (d : Dev) (sites : Nat) (st : StepData) : Bool :=
  inRange kPattern kDsp st.kind && stepReservedZero st &&
    (if st.kind = kPattern then (maskList 16 st.seqs).all fun q => d.seqSites q &&& sites != 0
    else if st.kind = kPpmu then
      stepModeOk st
        && ((List.range 256).all fun c => !st.usesChan c || ((d.siteOf c).isSome && inRange 1 65536 (st.ppmuUse 0 c).samples))
        && (maskList 64 sites).all fun s =>
          ([0, 1, 2, 3].all fun e => decide (d.siteClaim st s e ≤ d.budget e)) && decide (d.siteSamples st s ≤ 262144)
    else if st.kind = kTmu then
      (maskList 64 st.tmus).all fun u =>
        (d.tmuSite u).isSome && st.tmuStats u != 0 && (!d.tmuUsesStop u || d.siteOf (d.tmuStopChan u) == d.tmuSite u)
    else if st.kind = kAcq then (maskList 32 st.aus).all fun a => (d.auArmable a).isSome && d.auOneSite a
    else isMult 64 (st.field 40 0 64) && decide (1 ≤ st.jobCount) && st.jobs.all jobOk)

/-- The test numbers of a step lie from 1 to 0xFFFF_FFFF on every site (R223). -/
def Dev.testNumsOk (d : Dev) (sites : Nat) (st : StepData) : Bool :=
  (maskList 64 sites).all fun s =>
    let n := (d.stepUnits st s).length
    n == 0 || (st.testNum != 0 && decide (st.testNum + n - 1 ≤ 0xFFFFFFFF))

/-- What the reads of a step list brought is whole: the PERCH table and the job list of each step. -/
def stepReadWhole (st : StepData) : Bool :=
  (st.kind != kPpmu || st.field 84 0 64 == 0 || st.perch.length == 256) && (st.kind != kDsp || st.jobs.length == st.jobCount)

/-! ## The descriptor (R499) -/

def runTd (x : Nat) : Nat := dField x 8 0 64
def runCount (x : Nat) : Nat := dField x 24 0 16
def runStart (x : Nat) : Nat := dField x 26 0 16
def runPrior (x : Nat) : Nat := dField x 28 0 64
def runSites (x : Nat) : Nat := dField x 36 0 64

/-- The operands keep R499. -/
def Dev.runOperandsOk (d : Dev) (x : Nat) : Bool :=
  runTd x != 0 && runSites x != 0 && ((maskList 64 (runSites x)).all fun s => !(d.siteChans s).isEmpty)
    && decide (runStart x ≤ runCount x) && (decide (2 ≤ runStart x) == (runPrior x != 0))

/-! ## Resumption (R258) -/

/-- The frozen touchdown with an ID that the header ring still holds, the newest first: its header, and the first and the end index of
each site that has had nothing released. -/
def Dev.priorOf (d : Dev) (td : Nat) : Option (Nat × List (Nat × Nat × Nat)) :=
  if (d.findRun td).isSome then none else d.led.frozen.find? fun p => d.ld (ledHdrAddr p.1) 8 == td

/-- The prior touchdown of a resuming RUN keeps R258. -/
def Dev.resumeOk (d : Dev) (x : Nat) : Bool :=
  if runStart x < 2 then true
  else match d.priorOf (runPrior x) with
    | none => false
    | some p =>
      let a := ledHdrAddr p.1
      d.ld (a + 8) 4 == d.mapHash && runSites x &&& d.ld (a + 48) 8 == runSites x
        && ((maskList 64 (runSites x)).all fun s => p.2.any fun q => q.1 == s)
        && (match d.led.mapTb with
          | some t => decide (t < d.ld (a + 16) 8)
          | none => true)

/-! ## What a RUN needs to open -/

/-- The results that the steps of a RUN form for a site. -/
def Dev.siteResults (d : Dev) (steps : List StepData) (s : Nat) : Nat := (steps.map fun st => (d.stepUnits st s).length).sum

/-- Entries reserved in a site's ring (R246). -/
def Dev.reserveOf (d : Dev) (steps : List StepData) (s : Nat) : Nat := 3 * d.siteResults steps s + 2

/-- A RUN cannot open now (R32, R246, R442, R444, R535, R585). -/
def Dev.runNotReady (d : Dev) (sites : Nat) (steps : List StepData) : Bool :=
  d.runs.any (fun r => r.sites &&& sites != 0)
    || ((List.range 16).any fun k => d.sectorSites k &&& sites != 0 && (d.quiesced k || d.sectorCal k))
    || ((maskList 64 sites).any fun s => decide (d.ledFree s < d.reserveOf steps s))
    || (d.get ledHdrWr + 1) % 4096 == d.get ledHdrRd
    || (d.paired && decide (64 < d.runs.length + d.twin.closing.length + 1))

/-- The status that a RUN completes with at once; none: it opens. -/
def Dev.runRefusal (d : Dev) (x : Nat) (steps : List StepData) (readOk : Bool) : Option Nat :=
  if d.get twinState = 2 then some stTwinHeld
  else if !d.runOperandsOk x then some stRange
  else if !readOk || steps.length != runCount x || !steps.all stepReadWhole then some stIntegrity
  else if !(steps.all fun st => d.stepOk (runSites x) st && d.testNumsOk (runSites x) st) || !d.resumeOk x then some stRange
  else if d.runNotReady (runSites x) steps then some stNotReady
  else none

end Sys2Proof.Machine
end

