-- ==== Sys2Proof/Machine/Run.lean ====
section
/-!
DEFINITION. A touchdown from its open to its freeze and completion record (R32 to R40, R242 to R260, R499, R535): the open, the
test-step boundaries, stop-on-fail and carried evidence, the close guard, verdicts, the freeze, and the commands that end RUNs
(R508 to R512).
-/

namespace Sys2Proof.Machine

/-! ## State of the ledger and of the RUNs -/

/-- LED_STATUS follows the RUNs (R263). -/
def Dev.ledSync (d : Dev) : Dev :=
  (d.put ledRuns d.runs.length).putB ledClosing
    (d.runs.any (fun r => r.phase == .guard || r.phase == .almWait) || !d.twin.closing.isEmpty)

/-- A RUN with a fetch number changes. -/
def Dev.modRun (d : Dev) (id : Nat) (f : OpenRun → OpenRun) : Dev :=
  { d with runs := d.runs.map fun r => if r.id = id then f r else r }

/-- The lowest site of a mask. -/
def lowSite (m : Nat) : Nat := ((maskList 64 m).head?).getD 64

/-! ## Quiesced sectors (R584, R586) -/

/-- Sectors go out of service: their channels' outputs are high impedance, and stay so until a step uses them (R77, R584). -/
def Dev.quiesceSectors (d : Dev) (mask dies : Nat) : Dev :=
  let new := mask - (mask &&& d.get pwrQuiesced)
  let d := d.put pwrQuiesced (d.get pwrQuiesced ||| mask)
  let d := d.forEach (maskList 16 new) fun d k => d.forEach (sectorChans k) fun d c =>
    (d.setChan c { d.chan c with waitStep := true }).toHiz c
  if new = 0 then d else d.event srcPwr 0x0C02 (new + 2 ^ 16 * dies)

/-- The stop of a QUIESCE_SECTOR reaction has ended on a sector: no RUN that holds one of its sites is still live. -/
def Dev.quiesceDue (d : Dev) : Dev :=
  let due := (maskList 16 d.pwr.quiesce).filter fun k => d.liveSites &&& d.sectorSites k = 0
  if due.isEmpty then d
  else
    let m := listMask due
    ({ d with pwr := { d.pwr with quiesce := d.pwr.quiesce - m } }).quiesceSectors m 0

/-! ## What becomes idle (R6, R7) -/

/-- A shadow set commits at once when its owner is idle. -/
def Dev.idleShadows (d : Dev) : Dev :=
  let d := if d.shadowPending .fcuClass && d.runs.isEmpty then d.commitShadow .fcuClass else d
  let d := if d.shadowPending .calCtrl && !d.running .gnomon then d.commitShadow .calCtrl else d
  let d := d.forEach [1, 2] fun d p => if d.running (.pll p) then d else d.pllCommit p
  let d := d.forEach [0, 1, 2, 3] fun d e =>
    if d.shadowPending (.pedBudget (Fin.ofNat 4 e)) && d.runs.isEmpty then d.commitShadow (.pedBudget (Fin.ofNat 4 e)) else d
  d.forEach (List.range 16) fun d s =>
    if d.shadowPending (.seqMask (Fin.ofNat 16 s)) && !d.seqBusy s then d.commitShadow (.seqMask (Fin.ofNat 16 s)) else d

/-- Held writes and shadow copies of owners that have become idle take effect. -/
def Dev.settleIdle (d : Dev) : Dev := (d.commitHeld fun a => !d.running (ownerAt a)).idleShadows

/-! ## The open (R34, R242, R246, R254, R414, R535) -/

/-- The mean of sensor readings, in 1/64 °C, as 16 bits. -/
def Dev.headerTemp (d : Dev) (i : Nat) (ts : List Nat) : Nat :=
  let sum : Int := (ts.map fun t => toSigned 16 t).sum
  ofSigned 16 (openRound ((sum : Rat) / (ts.length : Nat)) (Config.meanUp d.freeCtr i))

/-- A touchdown header at open (R242). -/
def Dev.header (d : Dev) (x : Nat) : Nat :=
  let te := (List.range 4).map fun e => d.headerTemp e ((List.range 4).map fun j => d.get (calTemp (4 * e + j)))
  let tc := d.headerTemp 4 ((List.range 8).map fun k => d.get (calTempC k))
  runTd x + 2 ^ 64 * d.mapHash + 2 ^ 96 * 0xFF + 2 ^ 112 * runCount x + 2 ^ 128 * (d.tb % 2 ^ 64)
    + 2 ^ 256 * te.getD 0 0 + 2 ^ 272 * te.getD 1 0 + 2 ^ 288 * te.getD 2 0 + 2 ^ 304 * te.getD 3 0 + 2 ^ 320 * tc
    + 2 ^ 384 * runSites x + 2 ^ 448 * runPrior x

/-- CKA or CKB in AUTO starts for a RUN with a PATTERN step that needs it (R414). -/
def Dev.autoClock (d : Dev) (seqs p : Nat) : Dev :=
  if 2 ≤ d.get (pllEn p) ∧ ((maskList 16 seqs).any fun s => d.usesPll s p) = true then d.pllStart p else d

/-- The largest settle time of the channels of a RUN that force in FV now (R459). -/
def Dev.noteSettle (d : Dev) (id : Nat) : Dev :=
  match d.runById id with
  | none => d
  | some r =>
    let cs := (maskList 64 r.sites).flatMap d.siteChans
    let now := (cs.filter fun c => d.get (ppmuForceNow c) == 1).map d.settleUs
    d.setRun { r with maxSettle := now.foldl max r.maxSettle }

/-- A RUN opens (R32, R34, R35, R236, R242, R246, R254). -/
def Dev.runOpen (d : Dev) (q x : Nat) (w : Work) (steps : List StepData) : Dev :=
  let sites := runSites x
  let ss := maskList 64 sites
  let hdr := d.get ledHdrWr
  let d := (d.accept w).nextFree
  let d := (d.st (ledHdrAddr hdr) 64 (d.header x)).put ledHdrWr ((hdr + 1) % 4096) |>.ledCount 64
  let d := d.forEach ss fun d s => d.flogClear s
  let d := d.calOpen sites
  let r : OpenRun :=
    { id := w.id, q := q, cid := w.cid, td := runTd x, sites := sites, stepCount := runCount x, startStep := runStart x,
      prior := runPrior x, passBin := dField x 44 0 16, retestBin := dField x 46 0 16, steps := steps, hdr := hdr, startTb := d.tb,
      phase := .contact, k := 0, dueAt := d.mclk, ccAt := 0, startAt := d.mclk, reloading := false, pllWait := [],
      res := ss.map fun s => { Res.new s 0 0 with begun := true, startTb := d.tb, rdTb := d.tb, t0 := d.mclk }, masked := 0, carryBad := 0,
      progress := 0, cut := false, aborted := false, partialE := false, underrun := false, marks := [],
      pend := d.get2 ledPendLo ledPendHi &&& sites, first := ss.map fun s => (s, d.get (ledWr s)),
      reserve := ss.map fun s => (s, d.reserveOf steps s), latestEnd := d.tb, guardEnd := 0, verdicts := [], maxSettle := 0,
      flogDrop := 0, missing := [], mirSt := 0, mirSeq := 0, twinHeld := false }
  let d := ({ d with runs := d.runs ++ [r] }).ledSync
  let d := (d.autoClock r.seqs 1).autoClock r.seqs 2
  let d := if d.paired then d.sendOpen r else d
  (d.noteSettle r.id).contactStart r.id

/-- RUN (R32, R499). -/
def Dev.runDesc (d : Dev) (q : Nat) (steps : List StepData) (readOk : Bool) : Dev :=
  d.onDesc q opRun fun d x w =>
    if d.runs.any fun r => r.id == w.id then d
    else match d.runRefusal x steps readOk with
      | some st => d.doneWith w st 0 (runTd x)
      | none => d.runOpen q x w steps

/-! ## The end of a RUN's work: the close guard (R36, R38, R459) -/

/-- The largest detection latency bound of the classes whose scope can include a site of a RUN, with FCU_WIRE beyond it (R36,
R458, R459). TB_FORCE adds nothing. -/
def Dev.guardLen (d : Dev) (r : OpenRun) : Nat :=
  let cs := (maskList 64 r.sites).flatMap d.siteChans
  let ocl := cs.map fun c => d.eget (peOclFilt c) + 32
  let pll := [0, 1, 2].map fun p => (d.latOf 0x0C (srcPll p)).getD 0
  let loop := if r.maxSettle = 0 then [] else [1500 * r.maxSettle + 96]
  600 + (([16, 8, 128, 32, 12032, 15032, 1532] ++ ocl ++ pll ++ loop).foldl max 0)

/-- The close guard of a RUN begins: it counts from the latest completion timestamp (R36). -/
def Dev.toGuard (d : Dev) (id : Nat) : Dev :=
  match (d.noteSettle id).runById id with
  | none => d
  | some r =>
    let gap := (r.latestEnd + d.guardLen r + 2 ^ 64 - d.tb) % 2 ^ 64
    let end_ := if gap < 2 ^ 63 then d.mclk + gap else d.mclk
    ((d.setRun { r with phase := .guard, guardEnd := end_, res := [], reloading := false, pllWait := [] }).ledSync).quiesceDue

/-! ## Masks at a test-step boundary (R35, R228, R229) -/

/-- The ring indices of a site's entries of one step. -/
def Dev.stepEntIdx (d : Dev) (r : OpenRun) (s k : Nat) : List Nat :=
  (d.runEntIdx r s).filter fun i => (d.entAt s i).step == k && (d.entAt s i).kind != 0xF

/-- An entry for which R229 masks its site. -/
def Ent.integ (e : Ent) : Bool := hasFlag e.flags fIntegrity || e.noEvidence

/-- What the end of the step in progress does to one of its sites: masked where R35, R228 or R229 asks; the entry of R229 carries
STOPPED. -/
def Dev.maskSite (d : Dev) (id : Nat) (st : StepData) (s : Nat) : Dev :=
  match d.runById id with
  | none => d
  | some r =>
    let fins := (r.siteRes s).filterMap fun y => y.fin
    let contact := r.k == 0 && fins.any fun e => e.result == rContact
    let stop := stopsSite st (r.siteRes s)
    let hit := if d.is ledStopInteg then (d.stepEntIdx r s r.k).find? fun i => (d.entAt s i).integ else none
    let d := if contact || stop || hit.isSome then d.setRun { r with masked := r.masked ||| 2 ^ s } else d
    match hit with
    | some i => d.flagEnt s i fStopped
    | none => d

/-- The masks of the step that ends. -/
def Dev.maskSites (d : Dev) (id : Nat) : Dev :=
  match d.runById id with
  | none => d
  | some r =>
    match r.step? with
    | none => d
    | some st => d.forEach ((r.res.map fun y => y.site).dedup) fun d s => d.maskSite id st s

/-! ## Carried evidence (R259, R260) -/

/-- An entry that R259 copies. -/
def carries (k : Nat) (e : Ent) : Bool :=
  inRange 1 (k - 1) e.step && e.kind != 0xF
    && (e.final || (!hasFlag e.flags fReading && [rStallCount, rFirstFail, rSkipped].contains e.result))

/-- The prior entries of a site are copied. -/
def Dev.carrySite (d : Dev) (r : OpenRun) (pri : List (Nat × Nat × Nat)) (s : Nat) : Dev :=
  match pri.find? fun q => q.1 == s with
  | none => d
  | some q =>
    let n := (q.2.2 + 1920 - q.2.1) % 1920
    let es := ((List.range n).map fun i => d.entAt s ((q.2.1 + i) % 1920)).filter (carries r.startStep)
    es.foldl (fun d e => d.writeEnt r.id { e with flags := e.flags ||| fCarried }) d

/-- What the carried entries of a site say (R260): masked, and masked with verdict RETEST, INCOMPLETE. -/
def Dev.carriedMask (d : Dev) (r : OpenRun) (s : Nat) : Bool × Bool :=
  let es := (d.runEnts r s).filter fun e => hasFlag e.flags fCarried
  let standing := es.any fun e => e.failed && !hasFlag e.flags fIntegrity
  let missing := (r.steps.zipIdx).any fun p =>
    let k := p.2 + 1
    decide (k < r.startStep) && d.stepUses p.1 s
      && decide ((es.filter fun e => e.step == k && (e.final || e.result == rSkipped)).length < (d.stepUnits p.1 s).length)
  let bad := missing || es.any fun e => e.integ
  (standing || bad, bad && !standing)

/-- After the contact check of a resuming RUN: each site that passes takes its prior evidence, and the sites of R260 are masked. -/
def Dev.carry (d : Dev) (id : Nat) : Dev :=
  match d.runById id with
  | none => d
  | some r =>
    if r.startStep < 2 then d
    else
      let pri := match d.priorOf r.prior with
        | some p => p.2
        | none => []
      let pass := (r.res.filter fun y => match y.fin with
        | some e => e.result == rPass
        | none => false).map fun y => y.site
      let live := (r.res.filter fun y => match y.fin with
        | some e => e.result != rContact
        | none => false).map fun y => y.site
      let d := pass.foldl (fun d s => d.carrySite r pri s) d
      let ms := live.map fun s => (s, d.carriedMask r s)
      let m := listMask ((ms.filter fun p => p.2.1).map fun p => p.1)
      let b := listMask ((ms.filter fun p => p.2.2).map fun p => p.1)
      d.modRun id fun r => { r with masked := r.masked ||| m, carryBad := b, progress := r.startStep - 1 }

/-! ## Test-step boundaries (R6, R7, R33, R81, R103, R257, R440, R497) -/

/-- A step in progress has completed on every site, with no result cut off. -/
def OpenRun.stepWhole (r : OpenRun) : Bool :=
  r.resDone && r.res.all fun y => match y.fin with
    | some e => e.result != rIncomplete
    | none => true

/-- The progress word at the end of the step in progress (R257). -/
def OpenRun.advanceProgress (r : OpenRun) : OpenRun :=
  let done := r.res.filterMap fun y => if y.written then some (y.site, r.k) else none
  let left := r.missing.filter fun p => !done.contains p
  if r.stepWhole && !r.cut then { r with progress := max r.progress r.k, missing := left } else { r with cut := true, missing := left }

/-- A channel at a test-step boundary: the waits of R81 and R103 end. -/
def Dev.chanBoundary (d : Dev) (c : Nat) : Dev :=
  let x := d.chan c
  if x.waitBound || x.olWait then
    ((d.setChan c { x with waitBound := false, olHold := x.olHold && !x.olWait, olWait := false }).syncForce c).wfSettle c
  else d

/-- A live write of an owner that no sequencer plays for takes effect at a test-step boundary of a RUN that its owner runs for. -/
def Dev.atStepBoundary (d : Dev) (r : OpenRun) (a : Nat) : Bool :=
  (d.boundarySeq (ownerAt a)).isNone && (match ownerAt a with
    | .chan c => d.sectorSites (sectorOf c) &&& r.sites != 0
    | _ => true)

/-- What a test-step boundary of a RUN applies: held live writes, shadow copies, calibration values; the answer says until when the
next step waits (R440). -/
def Dev.boundary (d : Dev) (r : OpenRun) : Dev × Nat :=
  let d := d.commitHeld (d.atStepBoundary r)
  let d := if d.shadowPending .fcuClass then d.commitShadow .fcuClass else d
  let d := d.forEach [1, 2] fun d p => d.pllCommit p
  let d := d.forEach [0, 1, 2, 3] fun d e =>
    if d.shadowPending (.pedBudget (Fin.ofNat 4 e)) then d.commitShadow (.pedBudget (Fin.ofNat 4 e)) else d
  let d := d.settleIdle
  let d := d.forEach ((maskList 64 r.sites).flatMap d.siteChans ++ (maskList 16 r.seqs).flatMap d.seqChans).dedup fun d c => d.chanBoundary c
  let rdy (c : CfgWait) : CfgWait := if c.td = r.td ∧ c.boundary = 1 then { c with ready := true } else c
  let d := { d with
    cal := { d.cal with lagged := d.cal.lagged - (d.cal.lagged &&& listMask (d.sectorsOf r.sites)) },
    host := { d.host with cfgs := d.host.cfgs.map rdy } }
  d.calBoundary (d.sectorsOf r.sites)

/-- The sequencers of a PATTERN step that have a site to run, and the sites of a step that it works on (R174, R175). -/
def Dev.activeSites (d : Dev) (r : OpenRun) (st : StepData) : List Nat :=
  (maskList 64 r.sites).filter fun s => !r.masked.testBit s && d.stepUses st s

/-- What a PLL lets a resource do (R620): none, start; some true, wait for the attempt in progress; some false, PRECONDITION. -/
def Dev.pllGate (d : Dev) (p : Nat) : Option Bool :=
  match d.get (pllState p) with
  | 3 => none
  | 1 => some true
  | 2 => some true
  | 4 => if p = 0 then none else some false
  | 5 => if p = 0 then none else some false
  | _ => some false

/-- The PLLs that R620 asks for a sequencer. -/
def Dev.seqPlls (d : Dev) (s : Nat) : List Nat :=
  (if d.get (seqClkSrc s) = 1 ∨ d.get (seqClkSrc s) = 2 then [] else [0]) ++ [1, 2].filter fun p => d.usesPll s p

/-- The PLLs that a step's resources need. -/
def Dev.stepPlls (d : Dev) (r : OpenRun) (st : StepData) : List Nat :=
  if st.kind = kPattern then
    (((maskList 16 st.seqs).filter fun s => d.seqSites s &&& listMask (d.activeSites r st) != 0).flatMap d.seqPlls).dedup
  else if st.kind = kTmu ∨ st.kind = kAcq then [0] else []

/-- A due step notes the lock attempts in progress that it waits for. -/
def Dev.notePlls (d : Dev) (id : Nat) : Dev :=
  match d.runById id with
  | none => d
  | some r =>
    match r.step? with
    | none => d
    | some st =>
      let new := (d.stepPlls r st).filter fun p => d.pllGate p == some true && !r.pllWait.any fun w => w.1 == p
      d.setRun { r with pllWait := r.pllWait ++ new.map fun p => (p, (d.pll p).attempt) }

/-- The step in progress has completed: masks, carried evidence, the progress word, the boundary, and the next step becomes due or the
close guard begins (R33, R36). -/
def Dev.stepEnd (d : Dev) (id : Nat) : Dev :=
  let d := (d.noteSettle id).maskSites id
  let d := match d.runById id with
    | some r => if r.k = 0 ∧ (r.aborted || r.partialE) = false then d.carry id else d
    | none => d
  let d := d.modRun id fun r => if r.k = 0 then { r with res := [] } else { r.advanceProgress with res := [] }
  match d.runById id with
  | none => d
  | some r =>
    let b := d.boundary r
    let d := b.1
    if r.aborted || r.partialE then d.toGuard id
    else
      let k := max (r.k + 1) r.startStep
      if r.stepCount < k then d.toGuard id
      else
        (d.modRun id fun r => { r with phase := .due, k := k, dueAt := d.mclk, startAt := max d.mclk b.2, pllWait := [], flogDrop := 0 }).notePlls id

/-! ## Verdicts (R250, R251, R622) -/

/-- A verdict. -/
def Verdict.mk' (s result test bin reason : Nat) : Verdict :=
  { site := s, result := result, testNum := test, bin := bin, reason := reason, flags := 0 }

/-- A step of the RUN uses a site, was not masked for it and has no final entry (R250 rule 6); a SKIPPED site was masked for the
step. -/
def Dev.stepMissing (d : Dev) (r : OpenRun) (s : Nat) (es : List Ent) : Bool :=
  (r.steps.zipIdx).any fun p =>
    let k := p.2 + 1
    d.stepUses p.1 s && !(es.any fun e => e.step == k && (e.final || e.result == rSkipped))
      && (if k ≤ r.k then r.missing.contains (s, k) else !r.masked.testBit s)

/-- The verdict of a site by the rules of R250, in their order; R260 gives its own verdict before the third. -/
def Dev.verdict (d : Dev) (r : OpenRun) (s : Nat) : Verdict :=
  let es := (d.runEnts r s).filter fun e => e.kind != 0xF
  let v := Verdict.mk' s
  let contact := es.any fun e => e.step == 0 && e.result == rContact && !hasFlag e.flags fIntegrity
  if contact then v 0x82 0 r.retestBin 0x01
  else match es.find? fun e => e.failed && !hasFlag e.flags fIntegrity with
    | some e => v 0x81 e.testNum (match r.stepAt e.step with
        | some st => st.failBin
        | none => 0) 0
    | none =>
      if r.carryBad.testBit s then v 0x82 0 r.retestBin 0x04
      else match es.find? fun e => hasFlag e.flags fIntegrity with
        | some e => v 0x82 e.testNum r.retestBin 0x02
        | none =>
          match es.find? Ent.noEvidence with
          | some e => v 0x82 e.testNum r.retestBin 0x03
          | none =>
            if !(es.any fun e => e.step != 0 && e.final) then v 0x84 0 0 0
            else if d.stepMissing r s es then v 0x82 0 r.retestBin 0x04
            else v 0x80 0 r.passBin 0

/-- A close in the Almanac's order of service: earlier close guards first, and lower sites first among those of one master period
(R383). -/
def Dev.queueIn (d : Dev) (r : OpenRun) : List Nat → List Nat
  | [] => [r.id]
  | i :: is =>
    match d.runById i with
    | some x =>
      if x.guardEnd < r.guardEnd ∨ (x.guardEnd = r.guardEnd ∧ lowSite x.sites < lowSite r.sites) then i :: d.queueIn r is
      else r.id :: i :: is
    | none => i :: d.queueIn r is

/-- CLOSE_GUARD_EXPIRY (R36, R37): the verdicts are formed and the close waits for the Almanac. Reports that the collector has seen
act first (R470). -/
def Dev.guardExpiry (d : Dev) (td : Nat) : Dev :=
  match d.findRun td with
  | none => d
  | some r =>
    if r.phase != .guard || !d.fcu.raised.isEmpty then d
    else
      let d := d.advanceTo r.guardEnd
      let vs := (maskList 64 r.sites).map fun s => d.verdict r s
      let d := d.setRun { r with phase := .almWait, verdicts := vs }
      { d with alm := { d.alm with queue := d.queueIn r d.alm.queue } }

/-! ## Freeze and completion (R37, R247, R251, R254, R505, R535, R540) -/

/-- The status of a RUN (R256, R504, R540). -/
def OpenRun.status (r : OpenRun) : Nat :=
  if r.twinHeld then stTwinHeld else if r.aborted then stAborted else if r.partialE then stPartial
  else if r.underrun then stUnderrun else stOk

/-- The close entry of a site (R251). -/
def OpenRun.closeEnt (r : OpenRun) (v : Verdict) (tb : Nat) : Ent :=
  { testNum := v.testNum, value := (v.bin % 65536 + 65536 * (v.reason % 256) : Nat), result := v.result, flags := v.flags,
    startTb := r.startTb, endTb := tb, site := v.site, kind := 0xF, reading := 0, step := 0xFFFF }

/-- TAKEN is sent once a package that became TAKEN has completed every RUN that it ended (R540). -/
def Dev.takenDue (d : Dev) : Dev :=
  if d.twin.owesTaken && d.runs.isEmpty && d.twin.closing.isEmpty then
    ({ d with twin := { d.twin with owesTaken := false } }).sendRel mTaken []
  else d

/-- COMPLETE, or ABANDON when the host link is down, follows a completion record that has been written (R535). -/
def Dev.tellTwin (d : Dev) (r : OpenRun) : Dev :=
  let other (x : OpenRun) : Bool := x.id != r.id
  ({ d with twin := { d.twin with closing := d.twin.closing.filter other } }).sendTd (if d.linkUp then mComplete else mAbandon) r.td

/-- A RUN completes: its completion record is written and the twin learns of it (R37 step 6, R535, R540). While the record is held
under R489, COMPLETE waits for it. -/
def Dev.runComplete (d : Dev) (r : OpenRun) (paired : Bool) : Dev :=
  let w : Work := { id := r.id, q := r.q, cid := r.cid, opc := opRun }
  let other (x : OpenRun) : Bool := x.id != r.id
  let mark (x : OpenRun) : OpenRun := if x.id = r.id then { x with mirSt := 3 } else x
  let d := d.complete w r.status r.progress r.td
  let d := if paired then
      if d.host.held.any fun c => c.id == r.id then { d with twin := { d.twin with closing := d.twin.closing.map mark } } else d.tellTwin r
    else { d with twin := { d.twin with closing := d.twin.closing.filter other } }
  d.ledSync.settleIdle.takenDue.idleRestart

/-- Held completion records have been written: what the twin waits for is sent. -/
def Dev.tellHeld (d : Dev) : Dev :=
  let due := d.twin.closing.filter fun r => r.mirSt == 3 && !d.host.held.any fun c => c.id == r.id
  if due.isEmpty then d else (due.foldl (fun d r => d.tellTwin r) d).ledSync.settleIdle.takenDue.idleRestart

/-- A frozen RUN of a paired package sends its MIRROR (R535). -/
def Dev.mirrorOut (d : Dev) (r : OpenRun) : Dev :=
  if d.merUp then
    let d := d.sendMirror r
    let sq := (d.twin.txSeq + 65535) % 65536
    { d with twin := { d.twin with closing := d.twin.closing.map fun x => if x.id = r.id then { x with mirSt := 1, mirSeq := sq } else x } }
  else d

/-- The verdicts of a RUN freeze (R37 steps 4 to 6): close entries, the header, the reservation, LED_PEND; then MIRROR while paired,
else the completion record. -/
def Dev.freezeRun (d : Dev) (id : Nat) : Dev :=
  match d.runById id with
  | none => d
  | some r =>
    let tb := d.tb
    let d := r.verdicts.foldl (fun d v => d.writeEnt id (r.closeEnt v tb)) d
    let ss := maskList 64 r.sites
    let d := d.forEach ss fun d s => d.forEach (d.runEntIdx r s) fun d i =>
      let a := ledEntAddr s i + 10
      d.st a 2 (d.ld a 2 - (d.ld a 2 &&& fProvisional))
    let h := ledHdrAddr r.hdr
    let d := ((d.st (h + 12) 1 r.status).st (h + 24) 8 tb).st (h + 44) 4 r.progress
    let pend := match d.runById id with
      | some r => r.pend
      | none => 0
    let p := d.get2 ledPendLo ledPendHi
    let d := d.put2 ledPendLo ledPendHi (p - (p &&& pend))
    let ends := ss.map fun s => (s, siteNum r.first s, d.get (ledWr s))
    let rdy (c : CfgWait) : CfgWait := if c.td = r.td then { c with ready := true } else c
    let other (x : OpenRun) : Bool := x.id != id
    let d := { d with
      runs := d.runs.filter other, led := { d.led with frozen := (r.hdr, ends) :: d.led.frozen },
      host := { d.host with cfgs := d.host.cfgs.map rdy } }
    let d := d.quiesceDue
    if d.paired then ({ d with twin := { d.twin with closing := d.twin.closing ++ [r] } }).mirrorOut r |>.ledSync
    else d.runComplete r false

/-! ## Ending RUNs early (R256, R338, R510 to R512) -/

/-- The sequencers, AUs, TMUs and engines at work for a RUN. -/
def Dev.seqsOf (d : Dev) (id : Nat) : List Nat := (List.range 16).filter fun s => d.seqBusy s && (d.seq s).run == some id
def Dev.ausOf (d : Dev) (id : Nat) : List Nat := (List.range 32).filter fun a => d.get (auState a) != 0 && (d.au a).run == some id
def Dev.tmusOf (d : Dev) (id : Nat) : List Nat := (List.range 64).filter fun u => d.get (tmuState u) != 0 && (d.tmu u).run == some id
def Dev.dsesOf (d : Dev) (id : Nat) : List Nat :=
  (List.range 16).filter fun e => match (d.dse e).job with
    | some j => j.run == some id
    | none => false

/-- IN_FLIGHT and IN_FLIGHT_TMU of a RUN that ends (R256, R520). -/
def Dev.inFlight (d : Dev) (id td : Nat) : Dev :=
  d.eventPair srcHost 0x0002 (td % 2 ^ 64 + 2 ^ 64 * listMask (d.seqsOf id) + 2 ^ 80 * listMask (d.dsesOf id) + 2 ^ 96 * listMask (d.ausOf id))
    0x0003 (listMask (d.tmusOf id) + 2 ^ 64 * (td % 2 ^ 64))

/-- A site is masked by SEQ_SMASK of a sequencer. -/
def Dev.smasked (d : Dev) (s site : Nat) : Bool := (d.get2 (seqSmaskLo s) (seqSmaskHi s)).testBit site

/-- A PATTERN step in flight is cut off: its results take INCOMPLETE at once, with what their sites' evidence adds, and its sequencers
halt (R216, R231, R256, R511). -/
def Dev.cutPattern (d : Dev) (id : Nat) (st : StepData) (k : Nat) : Dev :=
  let open_ := match d.runById id with
    | some r => r.openRes
    | none => []
  let d := open_.foldl (fun d y =>
    if d.smasked y.unit y.site then d
    else match d.runById id with
      | none => d
      | some r =>
        let post := d.patPost y.unit y.site st k y.startTb d.tb (r.flogDrop.testBit y.site)
        let fl := d.patFlags r y.unit y.site
        let d := d.setRun { r with res := r.res.map fun z => if z.site = y.site then { z with post := post } else z }
        d.cutRes id y.site (fun z => z.unit == y.unit) rIncomplete (fIntegrity ||| fl)) d
  d.forEach (d.seqsOf id) fun d s => d.haltSeq s .command

/-- A PPMU step in flight is cut off: begun results take INCOMPLETE, sites that still wait for admission have not begun (R256). -/
def Dev.cutPpmu (d : Dev) (id : Nat) : Dev :=
  let waits := match d.runById id with
    | some r => (r.openRes.filter fun y => !y.begun).map fun y => y.unit
    | none => []
  let d := d.modRun id fun r => { r with res := r.res.filter fun y => y.begun || y.fin.isSome }
  let d := d.forEach waits fun d c => d.put (ppmuWait c) 0
  let d := d.jobsCut id fun _ => true
  let ss := match d.runById id with
    | some r => (r.openRes.map fun y => y.site).dedup
    | none => []
  (d.forEach ss fun d s => d.cutRes id s (fun _ => true) rIncomplete fIntegrity).countWaiting

/-- Every result of a RUN's step that is still open takes INCOMPLETE. -/
def Dev.cutAll (d : Dev) (id : Nat) : Dev :=
  match d.runById id with
  | none => d
  | some r => d.forEach ((r.openRes.map fun y => y.site).dedup) fun d s => d.cutRes id s (fun _ => true) rIncomplete fIntegrity

/-- The contact check in flight is cut off; its channels return. -/
def Dev.cutContact (d : Dev) (id : Nat) (r : OpenRun) : Dev :=
  let cs := ((maskList 64 r.sites).flatMap d.siteChans).filter fun c => (d.chan c).ppmuUse.isSome
  (d.cutAll id).forEach cs fun d c => d.ppmuReturn c

/-- The work in flight of a RUN is cut off. -/
def Dev.cutWork (d : Dev) (r : OpenRun) : Dev :=
  let id := r.id
  let d := d.noteSettle id
  if r.phase = .contact then d.cutContact id r
  else if r.phase = .running then
    match r.step? with
    | none => d
    | some st =>
      if st.kind = kPattern then d.cutPattern id st r.k
      else if st.kind = kPpmu then d.cutPpmu id
      else if st.kind = kTmu then (d.forEach (d.tmusOf id) fun d u => d.tmuCut u).cutAll id
      else if st.kind = kAcq then (d.forEach (d.ausOf id) fun d a => d.auDisarmCore a false).cutAll id
      else (d.jobsCut id fun _ => true).cutAll id
  else d

/-- A live RUN ends on all of its sites (R256): its work is cut off, and the close guard begins once no sequencer of it is still
halting. -/
def Dev.endRun (d : Dev) (id : Nat) (abort : Bool) : Dev :=
  match d.runById id with
  | none => d
  | some r =>
    if !r.live then d
    else if r.aborted || r.partialE then d.setRun { r with aborted := r.aborted || abort }
    else
      let d := d.inFlight id r.td
      let d := d.setRun { r with
        aborted := abort, partialE := !abort, k := if r.phase = .due then r.k - 1 else r.k, phase := if r.phase = .due then .contact else r.phase,
        res := if r.phase = .due then [] else r.res }
      let d := if r.phase = .due then d else d.cutWork r
      let open_ := match d.runById id with
        | some r => !r.openRes.isEmpty
        | none => false
      if (d.seqsOf id).isEmpty && !open_ then
        let d := if r.phase = .running then (d.maskSites id).modRun id OpenRun.advanceProgress else d
        (d.modRun id fun r => { r with res := [] }).toGuard id
      else d

/-- The live RUNs that hold a site of a mask end; the answer counts them. -/
def Dev.endRuns (d : Dev) (sites : Nat) (abort : Bool) : Dev × Nat :=
  let hit := (d.runs.filter fun r => r.live && r.sites &&& sites != 0).map fun r => r.id
  (hit.foldl (fun d i => d.endRun i abort) d, hit.length)

/-- The sites in the scope of a command (R508). -/
def Dev.cmdSites (d : Dev) (w : BitVec 28) : Nat :=
  let m := cmdMask w
  match cmdScope w with
  | 0 => 2 ^ 64 - 1
  | 1 => (maskList 16 m).foldl (fun a s => a ||| d.seqSites s) 0
  | 2 => m * 2 ^ (16 * cmdGroup w)
  | 3 => (maskList 4 m).foldl (fun a e => a ||| d.dieSites e) 0
  | _ => (maskList 16 m).foldl (fun a k => a ||| d.sectorSites k) 0

/-- The sectors in the scope of a command (R510). -/
def Dev.cmdSectors (d : Dev) (w : BitVec 28) : Nat :=
  let m := cmdMask w
  match cmdScope w with
  | 0 => 0xFFFF
  | 3 => (maskList 4 m).foldl (fun a e => a ||| 15 * 2 ^ (4 * e)) 0
  | 4 => m
  | _ => listMask (d.sectorsOf (d.cmdSites w))

/-- The edge dies that a PARK parks (R510). -/
def Dev.cmdDies (d : Dev) (w : BitVec 28) : List Nat :=
  match cmdScope w with
  | 0 => [0, 1, 2, 3]
  | 3 => maskList 4 (cmdMask w)
  | _ => [0, 1, 2, 3].filter fun e => d.dieSites e &&& d.cmdSites w != 0

/-- A COMMAND write: 1 STOP, 2 ABORT, 3 PARK (R508 to R512). -/
def Dev.command (d : Dev) (cmd : Nat) (w : BitVec 28) : Dev :=
  if cmdRefused w then (d.bump hostCmdRef).event srcHost 0x0005 (cmdValue cmd w)
  else
    let tb := d.tb
    let d := if cmd = 3 then d.forEach (d.cmdDies w) fun d e => d.orderPark e else d
    let r := d.endRuns (d.cmdSites w) (cmd != 1)
    let hit := if cmd = 1 then 0 else (r.1.calHit (d.cmdSectors w)).length
    let d := if cmd = 1 then r.1 else r.1.calStop (d.cmdSectors w) stAborted
    (d.put hostCmdLast (cmdValue cmd w)).event srcHost 0x0004
      (cmdValue cmd w + 2 ^ 32 * (r.2 % 65536) + 2 ^ 48 * (hit % 65536) + 2 ^ 64 * (tb % 2 ^ 64))

/-! ## The meanings -/

/-- HOST_CQ_EN_WRITE (R486). -/
def execHostCqEnWrite (v : Word) (s : State) : Answer := onDevIdle s fun d => (d.cqEnWrite v.toNat).tellHeld

/-- CQ_HEAD_DOORBELL (R488). -/
def execCqHeadDoorbell (q : Fin 16) (v : Word) (s : State) : Answer := onDevIdle s fun d => (d.cqHeadBell q v.toNat).tellHeld

/-- RUN (R32). -/
def execRun (q : Fin 16) (steps : List StepData) (readOk : Bool) (s : State) : Answer := onDev s fun d => d.runDesc q steps readOk

/-- CONTACT_CHECK_SAMPLE (R106). -/
def execContactCheckSample (td : DWord) (codes : List (Fin 256 × BitVec 18)) (s : State) : Answer :=
  onDev s fun d => d.contactSample td.toNat (codes.map fun p => (p.1.val, p.2.toNat))

/-- CLOSE_GUARD_EXPIRY (R36). -/
def execCloseGuardExpiry (td : DWord) (s : State) : Answer := onDev s fun d => d.guardExpiry td.toNat

/-- COMMAND_STOP (R510). -/
def execCommandStop (w : BitVec 28) (s : State) : Answer := onDev s fun d => d.command 1 w

/-- COMMAND_ABORT (R510). -/
def execCommandAbort (w : BitVec 28) (s : State) : Answer := onDev s fun d => d.command 2 w

/-- COMMAND_PARK (R510). -/
def execCommandPark (w : BitVec 28) (s : State) : Answer := onDev s fun d => d.command 3 w

end Sys2Proof.Machine
end

