-- ==== Sys2Proof/Machine/Almanac.lean ====
section
/-!
DEFINITION. The Almanac (R374 to R400, R619): tracked tests, the population, statistics and limits, closes, process shift, the twin and
external components, and PAT_UPDATE.
-/

namespace Sys2Proof.Machine

/-! ## Tracked tests (R374, R375, R399) -/

/-- One `ALM_TEST` entry, its fields as they act. -/
structure AlmCfg where
  test   : Nat
  lo     : Int
  hi     : Int
  flo    : Int
  fhi    : Int
  /-- 0 DISABLED, 1 DYNAMIC, 2 FIXED, 3 OBSERVE -/
  mode   : Nat
  kX16   : Nat
  bin    : Nat
  w      : Nat
  minCnt : Nat
  shift  : Nat
  deriving DecidableEq, Repr

/-- The address of a word of an entry. -/
def almTestAddr (i w : Nat) : Nat := 0x510000 + 64 * i + 4 * w

/-- An entry as a register table holds it. -/
def almCfgIn (t : Tab Word) (i : Nat) : AlmCfg :=
  let g (w : Nat) : Nat := (Tab.get regReset t (almTestAddr i w)).toNat
  let s40 (w : Nat) : Int := toSigned 40 (g w + 2 ^ 32 * (g (w + 1) % 256))
  { test := g 0, lo := s40 1, hi := s40 3, flo := s40 5, fhi := s40 7, mode := g 9 % 4, kX16 := max 8 (bitsOf (g 9) 8 8),
    bin := bitsOf (g 9) 16 16, w := clampNat 32 65536 (g 10 % 2 ^ 17), minCnt := max 8 (g 11 % 2 ^ 16), shift := g 12 }

/-- The tracked entries of a register table, in ascending order: only a written word 9 can hold a MODE. -/
def almTrackedIn (t : Tab Word) : List Nat :=
  (t.filterMap fun p =>
    if 0x510000 ≤ p.1 ∧ p.1 < 0x550000 ∧ (p.1 - 0x510000) % 64 = 36 ∧ p.2.toNat % 4 ≠ 0 then some ((p.1 - 0x510000) / 64) else none).dedup

/-- No number stands twice in a list. -/
def noTwice : List Nat → Bool
  | [] => true
  | x :: xs => !xs.contains x && noTwice xs

/-- A register table keeps R375. -/
def almValid (t : Tab Word) : Bool :=
  let cs := (almTrackedIn t).map (almCfgIn t)
  cs.all (fun c => c.test != 0 && decide (c.lo < c.hi) && (c.mode != 2 || decide (c.flo ≤ c.fhi)))
    && noTwice (cs.map fun c => c.test) && decide ((cs.map fun c => c.w).sum ≤ 4194304)

/-- The registers as they would stand if the shadow set were committed. -/
def Dev.almShadow (d : Dev) : Tab Word :=
  d.shadow.foldl (fun t p => match ShadowBlock.almanac.holds p.1, p.2 with
    | true, some w => Tab.set regReset t p.1 w
    | _, _ => t) d.regs

def Dev.almCfg (d : Dev) (i : Nat) : AlmCfg := almCfgIn d.regs i
def Dev.almTracks (d : Dev) : List Nat := almTrackedIn d.regs

/-- The tracked entry of a test number. -/
def Dev.almOf (d : Dev) (test : Nat) : Option Nat := d.almTracks.find? fun i => (d.almCfg i).test == test

def Dev.almEnt (d : Dev) (i : Nat) : AlmEnt := Tab.get (fun _ => AlmEnt.init) d.alm.ents i
def Dev.setAlmEnt (d : Dev) (i : Nat) (e : AlmEnt) : Dev :=
  { d with alm := { d.alm with ents := Tab.set (fun _ => AlmEnt.init) d.alm.ents i e } }

/-! ## The population (R376, R379) -/

/-- The code of a value: 0 UNDER, 1 + b for bin b, 1,025 OVER (R376). -/
def AlmCfg.code (c : AlmCfg) (v : Int) : Nat :=
  if v < c.lo then 0
  else if c.hi < v then 1025
  else if v = c.hi then 1024
  else 1 + ((v - c.lo) * 1024 / (c.hi - c.lo)).toNat

/-- Counts by code. -/
abbrev Hist := Tab Nat

def Hist.get (h : Hist) (c : Nat) : Nat := Tab.get (fun _ => 0) h c
def Hist.put (h : Hist) (c n : Nat) : Hist := Tab.set (fun _ => 0) h c n
def Hist.total (h : Hist) : Nat := (h.map fun p => p.2).sum

/-- The counts of a list of codes. -/
def histOf (codes : List Nat) : Hist := codes.foldl (fun h c => Hist.put h c (Hist.get h c + 1)) []

/-- Two histograms added. -/
def Hist.add (a b : Hist) : Hist := b.foldl (fun h p => Hist.put h p.1 (Hist.get h p.1 + p.2)) a

/-- The population of an entry (R379, R389, R391). -/
def Dev.population (d : Dev) (e : AlmEnt) : Hist :=
  let h := histOf e.win
  let h := if d.is almTwinEn then Hist.add h e.twin else h
  if d.is almExtEn then Hist.add h e.ext else h

/-! ## Statistics and limits (R380 to R382) -/

/-- The statistics of an entry. -/
structure AlmStat where
  n      : Nat
  med    : Rat
  scale  : Rat
  dlo    : Rat
  dhi    : Rat
  edge   : Bool
  warm   : Bool
  deriving DecidableEq, Repr

/-- A quantile over the counted codes in order (R380), and whether it falls on UNDER or OVER. -/
def quantile (lo hi : Int) (w t : Rat) : Nat → Hist → Rat × Bool
  | _, [] => (lo, true)
  | cum, (c, k) :: rest =>
    if t ≤ ((cum + k : Nat) : Rat) then
      if c = 0 then (lo, true)
      else if c = 1025 then (hi, true)
      else ((lo : Rat) + w * (((c - 1 : Nat) : Rat) + (t - (cum : Rat)) / (k : Rat)), false)
    else quantile lo hi w t (cum + k) rest

/-- The statistics of a configuration over a population. -/
def AlmCfg.stats (c : AlmCfg) (h : Hist) : AlmStat :=
  let n := Hist.total h
  let w : Rat := ((c.hi - c.lo : Int) : Rat) / 1024
  let q (i : Nat) : Rat × Bool := quantile c.lo c.hi w ((i * n : Nat) / 4) 0 h
  let iqr := ((q 3).1 - (q 1).1) / (1349 / 1000)
  let s := if iqr < w then w else iqr
  let k : Rat := (c.kX16 : Rat) / 16
  let edge := (q 1).2 || (q 2).2 || (q 3).2
  { n := n, med := (q 2).1, scale := s, dlo := (q 2).1 - k * s, dhi := (q 2).1 + k * s, edge := edge,
    warm := c.mode != 2 && (decide (n < c.minCnt) || edge) }

def Dev.almStats (d : Dev) (i : Nat) : AlmStat := (d.almCfg i).stats (d.population (d.almEnt i))

/-- The limits that a check compares with (R381, R382). -/
def AlmStat.limits (s : AlmStat) (c : AlmCfg) : Int × Int :=
  if c.mode = 2 then (c.flo, c.fhi) else (roundHalfUp s.dlo, roundHalfUp s.dhi)

/-! ## Commits and the view (R377, R388, R392, R397, R619) -/

/-- The entries follow the configuration in force: an entry no longer tracked, or tracked under another test number or range, starts
anew, and a shorter window loses its oldest codes. -/
def Dev.almReconcile (d : Dev) : Dev :=
  let tr := d.almTracks
  let kept := d.alm.ents.filter fun p => tr.contains p.1
  let d := { d with alm := { d.alm with ents := kept } }
  d.forEach tr fun d i =>
    let c := d.almCfg i
    let e := d.almEnt i
    let key : Nat × Int × Int := (c.test, c.lo, c.hi)
    let e := if e.key = key then e else { AlmEnt.init with key := key, range := e.range }
    d.setAlmEnt i { e with win := e.win.drop (e.win.length - c.w) }

/-- An event of an entry. -/
def Dev.almEvent (d : Dev) (code i : Nat) (more : Nat) : Dev :=
  d.event srcAlm code (i + 2 ^ 16 * (d.almCfg i).test + 2 ^ 48 * more)

/-- An entry that begins or stops WARMING (R388). -/
def Dev.almWarm (d : Dev) (i : Nat) (s : AlmStat) : Dev :=
  let m := (d.almCfg i).mode
  let e := d.almEnt i
  if m ≠ 1 ∧ m ≠ 3 then d
  else if !e.warmed && !s.warm then
    let d := d.setAlmEnt i { e with warmed := true, mref := s.med, since := 0 }
    if d.is almEvReady then d.almEvent 0x0802 i 0 else d
  else if e.warmed && s.warm then d.setAlmEnt i { e with warmed := false }
  else d

/-- A register word that shows a number. -/
def Dev.showWord (d : Dev) (a v : Nat) : Dev := d.setWord a (BitVec.ofNat 32 v)

/-- A rounded value in two words of `ALM_STAT`; one beyond 40 bits is an open value. -/
def Dev.showRat (d : Dev) (a j : Nat) (q : Rat) : Dev :=
  let n := ofSigned 40 (fit40 (roundHalfUp q) (Config.openValue d.freeCtr j))
  (d.showWord a (n % 2 ^ 32)).showWord (a + 4) (n / 2 ^ 32)

/-- The words of `ALM_STAT[i]` (R400). -/
def Dev.almShow (d : Dev) (i : Nat) (s : AlmStat) : Dev :=
  let a := 0x550000 + 64 * i
  let e := d.almEnt i
  let used := (d.is almTwinEn && !e.twin.isEmpty).toNat * 4 + (d.is almExtEn && !e.ext.isEmpty).toNat * 8
  let d := (((d.showRat a 0 s.med).showRat (a + 8) 1 s.scale).showRat (a + 16) 2 s.dlo).showRat (a + 24) 3 s.dhi
  let d := (d.showWord (a + 32) e.win.length).showWord (a + 36) (Hist.total e.twin % 2 ^ 17)
  let d := d.showWord (a + 40) (min (Hist.total e.ext) 0xFFFFFFFF)
  let d := d.showWord (a + 44) (s.warm.toNat + 2 * s.edge.toNat + used + 16 * e.range.toNat)
  (d.showWord (a + 48) (min e.ocount 0xFFFFFFFF)).showRat (a + 52) 4 e.mref

/-- An update of the view (R619): the statistics of every tracked entry, `ALM_STATUS`, `ALM_POOL` and what `ALM_HWIN` shows. -/
def Dev.almUpdate (d : Dev) : Dev :=
  let tr := d.almTracks
  let d := tr.foldl (fun d i => d.almWarm i (d.almStats i)) d.nextFree
  let d := { d with regs := Tab.keep (fun a => !(decide (0x550000 ≤ a) && decide (a < 0x590000))) d.regs }
  let d := tr.foldl (fun d i => d.almShow i (d.almStats i)) d
  let d := (d.put almTracked tr.length).put almPool (4194304 - (tr.map fun i => (d.almCfg i).w).sum)
  { d with alm := { d.alm with view := d.alm.ents } }

/-- The shadow set takes effect (R9, R392). -/
def Dev.almCommit (d : Dev) : Dev := if d.shadowPending .almanac then ((d.commitShadow .almanac).almReconcile).almUpdate else d

/-! ## PAT_UPDATE (R393 to R395) -/

/-- A number of `n` bytes from byte `a` of some data. -/
def dataNum (bs : List Byte) (a n : Nat) : Nat := ofBytes ((bs.drop a).take n)

/-- A configuration record: its entry and its words; none where it breaks R395. -/
def patCfg (bs : List Byte) : Option (Nat × List Nat) :=
  let ws := (List.range 13).map fun j => dataNum bs (4 * j) 4
  let bad := (ws.zipIdx).any fun p => match almTestWord p.2 with
    | some r => p.1 &&& r.mask != p.1
    | none => true
  let i := dataNum bs 52 2
  if bad || decide (4095 < i) || dataNum bs 54 10 != 0 then none else some (i, ws)

/-- CONFIG: every record, or none where one breaks a rule. -/
def Dev.patConfig (d : Dev) (count : Nat) (bs : List Byte) : Option Dev :=
  let rs := (List.range count).map fun k => patCfg ((bs.drop (64 * k)).take 64)
  if rs.any Option.isNone then none
  else
    let d := rs.foldl (fun d r => match r with
      | some (i, ws) => (ws.zipIdx).foldl (fun d p => d.setWord (almTestAddr i p.2) (BitVec.ofNat 32 p.1)) d
      | none => d) d
    if almValid d.regs then some (d.almReconcile.almUpdate) else none

/-- A histogram record of LOAD_EXT: its entry and its counts; none where it breaks R394 or R395. -/
def Dev.patHist (d : Dev) (bs : List Byte) : Option (Nat × Hist) :=
  match d.almOf (dataNum bs 0 4) with
  | none => none
  | some i =>
    let c := d.almCfg i
    let counts := dataNum bs 16 4 :: (List.range 1024).map (fun b => dataNum bs (32 + 4 * b) 4) ++ [dataNum bs 20 4]
    let ok := toSigned 40 (dataNum bs 4 5) == c.lo && toSigned 40 (dataNum bs 9 5) == c.hi && dataNum bs 14 1 == 2
      && dataNum bs 15 1 == 0 && dataNum bs 28 4 == 0 && counts.all (fun n => decide (n < 2 ^ 24)) && dataNum bs 24 4 == counts.sum
    if ok then some (i, (counts.zipIdx).filterMap fun p => if p.1 = 0 then none else some (p.2, p.1)) else none

/-- LOAD_EXT. -/
def Dev.patLoad (d : Dev) (count : Nat) (bs : List Byte) : Option Dev :=
  let rs := (List.range count).map fun k => d.patHist ((bs.drop (4128 * k)).take 4128)
  if rs.any Option.isNone then none
  else
    some (rs.foldl (fun d r => match r with
      | some (i, h) => d.setAlmEnt i { d.almEnt i with ext := h }
      | none => d) d).almUpdate

/-- The tracked entries that a list of test numbers names. -/
def Dev.patList (d : Dev) (count : Nat) (bs : List Byte) : Option (List Nat) :=
  let is_ := (List.range count).map fun k => d.almOf (dataNum bs (4 * k) 4)
  if is_.any Option.isNone then none else some (is_.filterMap id)

/-- A histogram record (R395). -/
def histRecord (c : AlmCfg) (comp : Nat) (h : Hist) : List Byte :=
  toBytes 4 c.test ++ toBytes 5 (ofSigned 40 c.lo) ++ toBytes 5 (ofSigned 40 c.hi) ++ toBytes 1 comp ++ toBytes 1 0
    ++ toBytes 4 (Hist.get h 0) ++ toBytes 4 (Hist.get h 1025) ++ toBytes 4 (Hist.total h) ++ toBytes 4 0
    ++ (List.range 1024).flatMap fun b => toBytes 4 (Hist.get h (b + 1))

/-- EXPORT: one record per test and component, in that order. -/
def Dev.patExport (d : Dev) (p : PatWait) : Option Dev :=
  (d.patList p.count p.data).map fun es =>
    let recs := es.flatMap fun i =>
      let e := d.almEnt i
      let h (k : Nat) : Hist := if k = 0 then histOf e.win else if k = 1 then e.twin else e.ext
      (maskList 3 p.comp).flatMap fun k => histRecord (d.almCfg i) k (h k)
    if recs.isEmpty then d else d.emit (.dma p.out recs)

/-- CLEAR. -/
def Dev.patClear (d : Dev) (p : PatWait) : Option Dev :=
  (d.patList p.count p.data).map fun es =>
    (d.forEach es fun d i =>
      let e := d.almEnt i
      d.setAlmEnt i { e with
        win := if p.comp.testBit 0 then [] else e.win, twin := if p.comp.testBit 1 then [] else e.twin,
        ext := if p.comp.testBit 2 then [] else e.ext }).almUpdate

/-- A PAT_UPDATE is applied whole or not at all, and completes (R394). -/
def Dev.patApply (d : Dev) (p : PatWait) : Dev :=
  let r := match p.op with
    | 0 => d.patConfig p.count p.data
    | 1 => d.patLoad p.count p.data
    | 2 => d.patExport p
    | 3 => d.patClear p
    | _ => none
  match r with
  | some d => d.done p.work stOk
  | none => d.done p.work stRange

/-! ## Partner data (R389, R390) -/

/-- The entry that partner data for a test number may change; a range that differs is reported once after each link-up. -/
def Dev.almPartner (d : Dev) (test : Nat) (lo hi : Int) (f : AlmEnt → AlmEnt) : Dev :=
  match d.almOf test with
  | none => d
  | some i =>
    let c := d.almCfg i
    let e := d.almEnt i
    if c.lo = lo ∧ c.hi = hi then d.setAlmEnt i (f e)
    else if e.range then d
    else (d.setAlmEnt i { e with range := true }).almEvent 0x0803 i 0

/-- Data from the partner enter the twin components. -/
def Dev.almReceive (d : Dev) (x : AlmRx) : Dev :=
  if !d.is almTwinEn then d
  else match x with
    | .full cs => cs.foldl (fun d c => d.almPartner c.testNum c.loS c.hiS fun e =>
        { e with twin := c.counts.foldl (fun h p => Hist.put h p.1.val p.2) [] }) d
    | .delta ds => ds.foldl (fun d x => d.almPartner x.testNum x.loS x.hiS fun e =>
        let h := x.entered.foldl (fun h c => Hist.put h c.val (Hist.get h c.val + 1)) e.twin
        { e with twin := x.evicted.foldl (fun h c => Hist.put h c.val (Hist.get h c.val - 1)) h }) d

/-! ## The boundary (R383, R394, R397) -/

/-- The close boundary: commits, then PAT_UPDATEs in order of fetch, then what the partner has sent. -/
def Dev.almBoundary (d : Dev) : Dev :=
  let d := d.almCommit
  let ps := d.alm.pats
  let d := ps.foldl (fun d p => d.patApply p) { d with alm := { d.alm with pats := [] } }
  let rs := d.alm.rx
  rs.foldl (fun d x => d.almReceive x) { d with alm := { d.alm with rx := [] } }

/-- The boundary stands at once while no close waits (R397). In standby it waits for the wake (R579). -/
def Dev.almIdle (d : Dev) : Dev := if d.running .almanac || !d.awake then d else d.almBoundary

/-- Partner data arrive. -/
def Dev.almRxPut (d : Dev) (x : AlmRx) : Dev := ({ d with alm := { d.alm with rx := d.alm.rx ++ [x] } }).almIdle

/-- A PAT_UPDATE takes its place among those that wait, in order of fetch. -/
def patInsert (p : PatWait) : List PatWait → List PatWait
  | [] => [p]
  | x :: xs => if x.work.id < p.work.id then x :: patInsert p xs else p :: x :: xs

/-- Bytes that a PAT_UPDATE reads at ADDR. -/
def patBytes (op count : Nat) : Nat := if op = 0 then 64 * count else if op = 1 then 4128 * count else 4 * count

/-- PAT_UPDATE with OP `op`: `data` is what host memory holds at ADDR. -/
def Dev.patUpdate (d : Dev) (q op : Nat) (data : List Byte) (readOk : Bool) : Dev :=
  d.onDesc q opPatUpdate fun d x w =>
    let n := dField x 10 0 16
    if dField x 8 0 8 ≠ op ∨ d.pwr.hkcReady = false then d
    else if !readOk || decide (data.length < patBytes op n) then d.done w stIntegrity
    else
      let p : PatWait := { work := w, op := op, comp := dField x 9 0 3, count := n, out := dField x 24 0 64, data := data }
      let d := d.accept w
      ({ d with alm := { d.alm with pats := patInsert p d.alm.pats } }).almIdle

/-! ## Register writes (R375) -/

/-- A write to a shadowed Almanac register (R7, R397, R579). -/
def Dev.almShadowWrite (d : Dev) (req : Requester) (a v : Nat) : Dev :=
  if d.awake then (d.shadowWrite .almanac a v).almIdle else d.standbyWrite (req = .hkc) a v

/-- ALM_TEST_WRITE: refused where the shadow set would break R375. -/
def Dev.almTestWrite (d : Dev) (req : Requester) (i w v : Nat) : Dev :=
  let a := almTestAddr i w
  match almTestWord w with
  | none => d
  | some r =>
    let v := v &&& r.mask
    if almValid (Tab.set regReset d.almShadow a (BitVec.ofNat 32 v)) then d.almShadowWrite req a v else d.refuseWrite req a

/-! ## A close (R378, R383 to R388) -/

/-- MIRRORED (R244). -/
def fMirrored : Nat := 0x2000

/-- The entries that the Almanac takes of a site (R378), in ledger order: ring index, tracked entry, value. -/
def Dev.almChosen (d : Dev) (r : OpenRun) (s : Nat) : List (Nat × Nat × Int) :=
  let es := (d.runEntIdx r s).filterMap fun j =>
    let e := d.entAt s j
    if e.result = rPass ∧ e.kind ≠ 0xF ∧ hasFlag e.flags (fReading + fMirrored) = false then (d.almOf e.testNum).map fun i => (j, i, e.value)
    else none
  es.foldr (fun x acc => if acc.any fun y => y.2.1 == x.2.1 then acc else x :: acc) []

/-- One chosen value is checked (R384, R385): the device with its flag or its count, and whether it makes the site OUTLIER. -/
def Dev.almCheckOne (d : Dev) (stats : List (Nat × AlmStat)) (s : Nat) (x : Nat × Nat × Int) : Dev × Bool :=
  match stats.find? fun p => p.1 == x.2.1 with
  | none => (d, false)
  | some p =>
    let c := d.almCfg x.2.1
    if p.2.warm then (d.flagEnt s x.1 fWarming, false)
    else
      let l := p.2.limits c
      if l.1 ≤ x.2.2 ∧ x.2.2 ≤ l.2 then (d, false)
      else
        let e := d.almEnt x.2.1
        (d.setAlmEnt x.2.1 { e with ocount := e.ocount + 1 }, c.mode != 3)

/-- A provisionally passing site is checked; the answer names the entry of its first value outside the limits. -/
def Dev.almCheckSite (d : Dev) (stats : List (Nat × AlmStat)) (s : Nat) (xs : List (Nat × Nat × Int)) : Dev × Option Nat :=
  xs.foldl (fun a x =>
    let r := a.1.almCheckOne stats s x
    (r.1, match a.2 with
      | some i => some i
      | none => if r.2 then some x.2.1 else none)) (d, none)

/-- The verdict of an OUTLIER site (R384). -/
def Dev.outlier (d : Dev) (v : Verdict) (i : Nat) : Verdict :=
  let c := d.almCfg i
  { v with result := 0x83, testNum := c.test, bin := if c.bin = 0xFFFF then d.get almBin else c.bin, reason := 0 }

/-- ALMANAC_CLOSE_CHECK: the next close in the order of service is checked, and its verdicts freeze (R37, R383 to R387). -/
def Dev.almCloseCheck (d : Dev) (td : Nat) : Dev :=
  match d.findRun td with
  | none => d
  | some r =>
    if r.phase ≠ .almWait ∨ d.alm.adding.isSome = true ∨ d.alm.queue.head? ≠ some r.id then d
    else
      let d := d.almBoundary
      let d := { d with alm := { d.alm with queue := d.alm.queue.drop 1 } }
      if !d.is almEn then (d.freezeRun r.id).almIdle
      else
        let stats := d.almTracks.map fun i => (i, d.almStats i)
        let pass := (r.verdicts.filter fun v => v.result == 0x80).map fun v => v.site
        let chosen := pass.map fun s => (s, d.almChosen r s)
        let res := chosen.foldl (fun a p =>
          let c := Dev.almCheckSite a.1 stats p.1 p.2
          (c.1, match c.2 with
            | some i => (p.1, i) :: a.2
            | none => a.2)) ((d, []) : Dev × List (Nat × Nat))
        let d := res.1
        let out (v : Verdict) : Verdict := match res.2.find? fun p => p.1 == v.site with
          | some p => d.outlier v p.2
          | none => v
        let add := chosen.flatMap fun p => p.2.map fun x => (x.2.1, (d.almCfg x.2.1).code x.2.2)
        let d := d.modRun r.id fun r => { r with verdicts := r.verdicts.map out }
        let d := { d with alm := { d.alm with adding := some (td, add) } }
        (d.putB almBusy true).freezeRun r.id

/-- The codes of a close enter an entry's window: the new entry and the codes evicted (R377). -/
def AlmEnt.enter (e : AlmEnt) (w : Nat) (codes : List Nat) : AlmEnt × List Nat :=
  let win := e.win ++ codes
  let out := win.length - w
  ({ e with win := win.drop out, since := e.since + codes.length }, win.take out)

/-- The reference median after a close that added values to an entry (R388). -/
def Dev.almShift (d : Dev) (i : Nat) : Dev :=
  let c := d.almCfg i
  let s := d.almStats i
  let e := d.almEnt i
  if c.mode ≠ 1 ∧ c.mode ≠ 3 then d
  else if !e.warmed || s.warm then d.almWarm i s
  else
    let gap := if s.med < e.mref then e.mref - s.med else s.med - e.mref
    if c.shift ≠ 0 ∧ (c.shift : Rat) < gap then
      let five (q : Rat) : Nat := ofSigned 40 (roundHalfUp q)
      let d := (d.almEvent 0x0801 i (five s.med + 2 ^ 40 * five e.mref)).bump almCntShift
      d.setAlmEnt i { e with mref := s.med, since := 0 }
    else if c.w ≤ e.since then d.setAlmEnt i { e with mref := s.med, since := 0 }
    else d

/-- One entry of an ALM_DELTA message. -/
def deltaBytes (c : AlmCfg) (ins outs : List Nat) : List Byte :=
  toBytes 4 c.test ++ toBytes 5 (ofSigned 40 c.lo) ++ toBytes 5 (ofSigned 40 c.hi) ++ toBytes 4 ins.length ++ toBytes 4 outs.length
    ++ (ins ++ outs).flatMap fun x => toBytes 2 x

/-- The codes of a close enter one entry; the answer holds what the partner is told. -/
def Dev.almEnter (d : Dev) (i : Nat) (codes : List Nat) : Dev × List Byte :=
  let c := d.almCfg i
  let r := (d.almEnt i).enter c.w codes
  ((d.setAlmEnt i r.1).almShift i, deltaBytes c codes r.2)

/-- ALMANAC_ADD_VALUES: the values of the close that was checked last enter the windows, and the statistics are formed anew (R383, R386
to R389). -/
def Dev.almAddValues (d : Dev) (td : Nat) : Dev :=
  match d.alm.adding with
  | none => d
  | some (t, add) =>
    if t ≠ td then d
    else
      let es := d.almTracks.filter fun i => add.any fun p => p.1 == i
      let d := d.nextFree
      let r := es.foldl (fun a i =>
        let x := Dev.almEnter a.1 i ((add.filter fun p => p.1 == i).map fun p => p.2)
        (x.1, a.2 ++ x.2)) ((d, []) : Dev × List Byte)
      let d := ({ r.1 with alm := { r.1.alm with adding := none } }).putB almBusy false
      let d := d.almUpdate
      let d := if d.is almTwinEn && !es.isEmpty then d.sendRel mAlmDelta r.2 else d
      d.almIdle.idleRestart

/-- The own components as ALM_FULL tells them (R389). -/
def Dev.fullBytes (d : Dev) : List Byte :=
  d.almTracks.flatMap fun i =>
    let c := d.almCfg i
    let h := histOf (d.almEnt i).win
    toBytes 4 c.test ++ toBytes 5 (ofSigned 40 c.lo) ++ toBytes 5 (ofSigned 40 c.hi) ++ toBytes 2 h.length
      ++ h.flatMap fun p => toBytes 2 p.1 ++ toBytes 3 p.2

/-- The link has come up: the own components are sent, and ranges may be reported again (R389, R390). -/
def Dev.almLinkUp (d : Dev) : Dev :=
  let clear (p : Nat × AlmEnt) : Nat × AlmEnt := (p.1, { p.2 with range := false })
  let d := { d with alm := { d.alm with ents := d.alm.ents.map clear } }
  if d.is almTwinEn then d.sendRel mAlmFull d.fullBytes else d

/-- What `ALM_HWIN` shows of a code (R398, R619). -/
def Dev.almHwin (d : Dev) (code : Nat) : Nat :=
  let e := Tab.get (fun _ => AlmEnt.init) d.alm.view (d.alm.hsel % 4096)
  match d.alm.hsel / 4096 % 4 with
  | 0 => Hist.get (histOf e.win) code
  | 1 => Hist.get e.twin code
  | 2 => Hist.get e.ext code
  | _ => Hist.get (d.population e) code

/-! ## The meanings -/

/-- ALM_TEST_WRITE (R375). -/
def execAlmTestWrite (req : Requester) (i : Fin 4096) (w : Fin 16) (v : Word) (s : State) : Answer :=
  onDev s fun d => d.almTestWrite req i w v.toNat

/-- PAT_UPDATE_CONFIG (R393). -/
def execPatUpdateConfig (q : Fin 16) (data : List Byte) (readOk : Bool) (s : State) : Answer :=
  onDev s fun d => d.patUpdate q 0 data readOk

/-- PAT_UPDATE_LOAD_EXT (R393). -/
def execPatUpdateLoadExt (q : Fin 16) (data : List Byte) (readOk : Bool) (s : State) : Answer :=
  onDev s fun d => d.patUpdate q 1 data readOk

/-- PAT_UPDATE_EXPORT (R393). -/
def execPatUpdateExport (q : Fin 16) (data : List Byte) (readOk : Bool) (s : State) : Answer :=
  onDev s fun d => d.patUpdate q 2 data readOk

/-- PAT_UPDATE_CLEAR (R393). -/
def execPatUpdateClear (q : Fin 16) (data : List Byte) (readOk : Bool) (s : State) : Answer :=
  onDev s fun d => d.patUpdate q 3 data readOk

/-- ALMANAC_CLOSE_CHECK (R383). -/
def execAlmanacCloseCheck (td : DWord) (s : State) : Answer := onDev s fun d => d.almCloseCheck td.toNat

/-- ALMANAC_ADD_VALUES (R386). -/
def execAlmanacAddValues (td : DWord) (s : State) : Answer := onDev s fun d => d.almAddValues td.toNat

/-- ALM_FULL (R389). -/
def execAlmFull (ack : BitVec 16) (comps : List AlmComponent) (s : State) : Answer :=
  onDev s fun d => d.merRecv ack.toNat true fun d => d.almRxPut (.full comps)

/-- ALM_DELTA (R389). -/
def execAlmDelta (ack : BitVec 16) (deltas : List AlmDelta) (s : State) : Answer :=
  onDev s fun d => d.merRecv ack.toNat true fun d => d.almRxPut (.delta deltas)

end Sys2Proof.Machine
end

