-- ==== Sys2Proof/Machine/Twin.lean ====
section
/-!
DEFINITION. The Meridian twin (R523 to R545): pairing, heartbeat and loss, start alignment, the mirror store, park wires and
takeover.
-/

namespace Sys2Proof.Machine

/-! ## The mirror store (R534, R535) -/

/-- First byte of a mirror slot. -/
def mirAddr (k : Nat) : Nat := 0xFF00000 + 0x1000 * k

def Dev.mirState (d : Dev) (k : Nat) : Nat := d.ld (mirAddr k + 8) 1
def Dev.mirTd (d : Dev) (k : Nat) : Nat := d.ld (mirAddr k) 8

/-- The slots in a state. -/
def Dev.mirIn (d : Dev) (st : Nat) : List Nat := (List.range 64).filter fun k => d.mirState k == st

/-- A slot changes its state. -/
def Dev.mirTo (d : Dev) (k st : Nat) : Dev := (d.st (mirAddr k + 8) 1 st).st (mirAddr k + 24) 8 d.tb

/-- The slot of a partner RUN that has not completed: OPEN, FROZEN or INTENT. -/
def Dev.mirFind (d : Dev) (td : Nat) : Option Nat :=
  (List.range 64).find? fun k => inRange 1 3 (d.mirState k) && d.mirTd k == td

/-- The lowest free slot is claimed for a partner RUN (R535); none when every slot is in use. -/
def Dev.mirClaim (d : Dev) (td sites startTb bin : Nat) : Dev × Option Nat :=
  match (d.mirIn 0).head? with
  | none => (d, none)
  | some k =>
    let d := ((d.stBytes (mirAddr k) (List.replicate 4096 0)).st (mirAddr k) 8 td).st (mirAddr k + 16) 8 d.tb
    let left := d.twin.opens.filter fun o => o.1 != k
    (({ d with twin := { d.twin with opens := (k, sites, startTb, bin) :: left } }).mirTo k 1, some k)

/-- OPEN received (R535). -/
def Dev.mirOpen (d : Dev) (td sites startTb bin : Nat) : Dev :=
  match d.mirFind td with
  | some _ => d
  | none => (d.mirClaim td sites startTb bin).1

/-- MIRROR received: the slot takes the header and the close entries, with MIRRORED set, and is FROZEN (R534, R535). -/
def Dev.mirFill (d : Dev) (td header : Nat) (closes : List (Nat × Nat)) : Dev :=
  let p := match d.mirFind td with
    | some k => (d, some k)
    | none => d.mirClaim td 0 0 0
  match p.2 with
  | none => p.1
  | some k =>
    let d := p.1.st (mirAddr k + 64) 64 header
    let d := closes.foldl (fun d q => d.st (mirAddr k + 128 + 32 * q.1) 32 (q.2 ||| 2 ^ 93)) d
    if d.mirState k = 3 then d else d.mirTo k 2

/-- INTENT received: the slot is in INTENT and INTENT_ACK is sent (R535). -/
def Dev.mirIntent (d : Dev) (td : Nat) : Dev :=
  match d.mirFind td with
  | none => d
  | some k =>
    if d.mirState k = 1 then d
    else (if d.mirState k = 2 then d.mirTo k 3 else d).sendTd mIntentAck td

/-- COMPLETE received: the slot is free. ABANDON received: the slot is to be reported (R535). -/
def Dev.mirEnd (d : Dev) (td st : Nat) : Dev :=
  match d.mirFind td with
  | none => d
  | some k => d.mirTo k st

/-- INTENT_ACK received: the completion record is written, and COMPLETE or ABANDON follows it (R535). -/
def Dev.intentAck (d : Dev) (td : Nat) : Dev :=
  match d.twin.closing.find? fun r => r.td == td && r.mirSt != 3 with
  | none => d
  | some r => d.runComplete r true

/-- The frozen RUNs whose completion record is still to be written complete without the twin (R536, R540). -/
def Dev.closeAlone (d : Dev) (held : Bool) : Dev :=
  let rs := d.twin.closing.filter fun r => r.mirSt != 3
  rs.foldl (fun d r => d.runComplete { r with twinHeld := r.twinHeld || held } false) d

/-! ## Takeover (R537 to R542, R549) -/

/-- The close entry of an unfinished touchdown that its survivor reports (R539). -/
def takeoverEnt (s startTb bin tb : Nat) : Ent :=
  { testNum := 0, value := (bin % 65536 + 65536 * 5 : Nat), result := 0x82, flags := fMirrored, startTb := startTb, endTb := tb, site := s,
    kind := 0xF, reading := 0, step := 0xFFFF }

/-- A slot resolves (R539). -/
def Dev.mirResolve (d : Dev) (k : Nat) : Dev :=
  match d.mirState k with
  | 1 =>
    let o := (d.twin.opens.find? fun o => o.1 == k).getD (k, 0, 0, 0)
    let tb := d.tb
    let put (d : Dev) (s : Nat) : Dev := d.st (mirAddr k + 128 + 32 * s) 32 (takeoverEnt s o.2.2.1 o.2.2.2 tb).pack
    (d.forEach (maskList 64 o.2.1) put).mirTo k 4
  | 2 => d.mirTo k 4
  | 3 => d.mirTo k 5
  | _ => d

/-- Steps 4 and 5 of a takeover: the slots resolve, and the package is SURVIVOR (R539). -/
def Dev.takeResolve (d : Dev) : Dev :=
  let d := d.forEach (List.range 64) fun d k => d.mirResolve k
  let d := { d with twin := { d.twin with take := .none } }
  let d := (d.put twinState 3).event srcMer 0x0A06 ((d.mirIn 4).length + 2 ^ 8 * (d.mirIn 5).length)
  (d.closeAlone false).idleRestart

/-- Step 3 of a takeover: while the link is UP, it waits for TAKEN (R539). -/
def Dev.takeWait (d : Dev) : Dev :=
  if d.merUp && !d.twin.taken then { d with twin := { d.twin with take := .wait, takeEnd := d.mclk + us 1000 } } else d.takeResolve

/-- The takeover gives up its claim of the Transit bus. -/
def Dev.dropClaim (d : Dev) : Dev := { d with tp := { d.tp with claim := false, clAt := none } }

/-- A takeover begins: PARK_OUT, TAKEOVER_BEGIN, and the claim of the shared Transit bus (R539, R549). -/
def Dev.takeBegin (d : Dev) (trig : Nat) : Dev :=
  let d := ((d.put twinParkOut 1).put twinState 2).event srcMer 0x0A05 trig
  let free := !d.tp.busyLow && d.get tpState != 2 && d.get tpState != 3
  { d with
    twin := { d.twin with take := .bus, takeEnd := d.mclk + us 100, taken := false, delayAt := none }
    tp := { d.tp with claim := true, clAt := if free then some d.mclk else none } }

/-- A trigger of R538. -/
def Dev.takeTrigger (d : Dev) (trig : Nat) : Dev :=
  if d.paired && !d.pwr.parkIn then d.takeBegin trig else d.event srcMer 0x0A07 trig

/-- TP_STUCK (R539): the bus has been low for 100 µs; the takeover goes on without it. -/
def Dev.tpStuck (d : Dev) : Dev :=
  if d.twin.take = .bus then
    (((d.advanceTo d.twin.takeEnd).dropClaim.put twinTpHeld 1).event srcMer 0x0A09 0).takeWait
  else d

/-- The 1 ms wait of a takeover ends (R539). -/
def Dev.takeWaitExpiry (d : Dev) : Dev := if d.twin.take = .wait then (d.advanceTo d.twin.takeEnd).takeResolve else d

/-- TAKEN received (R539). -/
def Dev.takenRecv (d : Dev) : Dev :=
  match d.twin.take with
  | .bus => { d with twin := { d.twin with taken := true } }
  | .wait => ({ d with twin := { d.twin with taken := true } }).takeResolve
  | .none => d

/-- TWIN_CMD.RELEASE (R542). -/
def Dev.twinRelease (d : Dev) : Dev :=
  if d.get twinState = 3 then ((d.put twinParkOut 0).put twinState 0).put tpOwner 0 else d

/-- TWIN_MIR_ACK (R545). -/
def Dev.mirAck (d : Dev) (k : Nat) : Dev := if d.mirState k = 4 ∨ d.mirState k = 5 then d.mirTo k 0 else d

/-! ## Park wires (R75, R537, R540, R541) -/

/-- The package becomes TAKEN (R540): its open RUNs end as under a PARK and complete with TWIN_HELD. -/
def Dev.becomeTaken (d : Dev) : Dev :=
  let d := (d.put twinState 4).event srcMer 0x0A08 0
  let held (r : OpenRun) : OpenRun := { r with twinHeld := true }
  let d := { d with
    twin := { d.twin with take := .none, delayAt := none, owesTaken := true }
    runs := d.runs.map held }
  ((d.endRuns (2 ^ 64 - 1) true).1.closeAlone true).takenDue

/-- PARK_IN goes high (R75, R540, R541). -/
def Dev.parkInAssert (d : Dev) : Dev :=
  if d.pwr.parkIn then d
  else
    let note (d : Dev) (e : Nat) : Dev := d.setDie e { d.die e with inUse := (d.die e).inUse || d.dieInUse e }
    let d := d.forEach [0, 1, 2, 3] note
    let d := ({ d with pwr := { d.pwr with parkIn := true } }).put twinParkIn 1
    if d.get twinState = 2 then
      if d.is twinRole then (d.put twinParkOut 0).dropClaim.becomeTaken else d
    else if d.get twinState = 4 then d
    else d.becomeTaken

/-- A TAKEN package is paired again once PARK_IN is released and the link is UP (R540). -/
def Dev.leaveTaken (d : Dev) : Dev :=
  if d.get twinState = 4 ∧ d.pwr.parkIn = false ∧ d.merUp = true then
    ({ d with twin := { d.twin with owesTaken := false } }).put twinState (if d.wantsPair then 1 else 0)
  else d

/-- PARK_IN is released (R75, R540). -/
def Dev.parkInRelease (d : Dev) : Dev :=
  (({ d with pwr := { d.pwr with parkIn := false } }).put twinParkIn 0).leaveTaken

/-! ## Start alignment (R532, R533) -/

/-- A sequencer waits for the twin start and has no start time. -/
def Dev.twinWaits (d : Dev) (s : Nat) : Bool := d.get (seqState s) == 4 && d.syncwTwin s && (d.seq s).syncT.isNone

/-- `TWIN_START.MARGIN` as it acts (R545). -/
def Dev.startMargin (d : Dev) : Nat := max 64 (d.get twinMargin)

/-- The offset, partner TB minus own (R530, R545). -/
def Dev.twinOff (d : Dev) : Int := toSigned 64 (d.get2 twinOffset twinOffsetHi)

/-- Role A holds START_READY from both packages: it computes T, sends START and uses T itself (R532). -/
def Dev.startTry (d : Dev) (s : Nat) : Dev :=
  match d.is twinRole, Tab.get (fun _ => none) d.twin.readyO s, Tab.get (fun _ => none) d.twin.readyP s with
  | false, some ra, some rb =>
    if d.twinWaits s then
      let off := d.twinOff
      let own : Int := toSigned 64 ((rb + 2 ^ 64 - ra) % 2 ^ 64) - off
      let delay := (d.get twinDelay + 15) / 16
      let t : Int := ra + max 0 own + delay + d.startMargin
      let d := { d with twin := { d.twin with
        readyO := Tab.set (fun _ => none) d.twin.readyO s none, readyP := Tab.set (fun _ => none) d.twin.readyP s none } }
      (d.sendRel mStart (toBytes 8 s ++ toBytes 8 (ofSigned 64 (t + off)))).syncwTime s (ofSigned 64 t)
    else d
  | _, _, _ => d

/-- A twin-start wait begins: START_READY is sent, or a SOLO package takes its own start time (R532, R533). -/
def Dev.twinReady (d : Dev) (s : Nat) : Dev :=
  if !d.wantsPair then d.syncwTime s ((d.tb + d.startMargin) % 2 ^ 64)
  else
    let d := { d with twin := { d.twin with readyO := Tab.set (fun _ => none) d.twin.readyO s (some d.tb) } }
    (d.sendRel mStartReady (toBytes 8 s ++ toBytes 8 d.tb)).startTry s

/-- SYNCW_WAIT_BEGIN (R192, R532). -/
def Dev.syncwWait (d : Dev) (s : Nat) : Dev :=
  let d' := d.syncwBegin s
  if d.get (seqState s) != 4 && d'.get (seqState s) == 4 && d'.syncwTwin s then d'.twinReady s else d'

/-- START_READY received (R532). -/
def Dev.startReady (d : Dev) (s tb : Nat) : Dev :=
  ({ d with twin := { d.twin with readyP := Tab.set (fun _ => none) d.twin.readyP s (some tb) } }).startTry s

/-- START received (R532, R533). -/
def Dev.startRecv (d : Dev) (s tb : Nat) : Dev :=
  if d.twinWaits s then
    let gap := toSigned 64 ((tb + 2 ^ 64 - d.tb) % 2 ^ 64)
    if gap < 32 then
      let t := (d.tb + 32) % 2 ^ 64
      (d.syncwTime s t).event srcMer 0x0A0A (s + 2 ^ 64 * t)
    else d.syncwTime s tb
  else d

/-! ## Heartbeat (R529, R530, R531) -/

/-- The partner's flags as received (R531). -/
def Dev.takeFlags (d : Dev) (flags : List Byte) : Dev :=
  let put (t : Tab Nat) (p : Byte × Nat) : Tab Nat := Tab.set (fun _ => 0) t p.2 p.1.toNat
  { d with twin := { d.twin with flags := ((flags.take 16).zipIdx).foldl put d.twin.flags } }

/-- HEARTBEAT_SEND (R527, R529). -/
def Dev.heartbeatSend (d : Dev) : Dev :=
  if d.merUp then
    let d := d.advanceTo d.twin.hbSend
    let e := d.twin.hbLast.getD (0, 0)
    let d := d.sendRaw mHeartbeat
      (toBytes 8 d.tb ++ toBytes 8 e.1 ++ toBytes 8 e.2 ++ toBytes 8 (d.get twinState + 8 * d.linkUp.toNat) ++ d.flagBytes)
    { d with twin := { d.twin with hbSend := d.mclk + us 10 } }
  else d

/-- The averages of the last delays and offsets, as the registers show them (R530). -/
def Dev.showLink (d : Dev) : Dev :=
  let n : Nat := d.twin.delays.length
  let mean (xs : List Int) (k : Nat) : Rat := (xs.sum : Rat) * k / n
  let dl := openRound (mean d.twin.delays 8) (Config.linkUp d.freeCtr 0)
  let off := openRound (mean d.twin.offsets 1 / 2) (Config.linkUp d.freeCtr 1)
  let dl := if 0 ≤ dl ∧ dl < 65536 then dl.toNat else ofSigned 16 (Config.openValue d.freeCtr 0)
  (d.nextFree.put twinDelay dl).put2 twinOffset twinOffsetHi (ofSigned 64 off)

/-- HEARTBEAT received (R529 to R531). -/
def Dev.heartbeat (d : Dev) (sendTb echoTb echoArr : Nat) (flags : List Byte) : Dev :=
  let d := d.takeFlags flags
  let fwd := toSigned 64 ((d.tb + 2 ^ 64 - sendTb) % 2 ^ 64)
  let back := toSigned 64 ((echoArr + 2 ^ 64 - echoTb) % 2 ^ 64)
  let t := { d.twin with hbArr := d.mclk, hbLast := some (sendTb, d.tb), delayAt := none }
  if echoTb = 0 ∧ echoArr = 0 then { d with twin := t }
  else
    ({ d with twin := { t with delays := ((back + fwd) :: t.delays).take 16, offsets := ((back - fwd) :: t.offsets).take 16 } }).showLink

/-! ## The link (R524, R525, R529, R536) -/

/-- The RUNs that have no COMPLETE, and the twin starts that wait, are told again to the partner (R532, R536). -/
def Dev.resend (d : Dev) : Dev :=
  let d := d.twin.closing.foldl (fun d r => d.sendOpen r) (d.runs.foldl (fun d r => d.sendOpen r) d)
  let one (d : Dev) (r : OpenRun) : Dev :=
    let d := d.sendMirror r
    let sq := (d.twin.txSeq + 65535) % 65536
    let mark (x : OpenRun) : OpenRun := if x.id = r.id ∧ x.mirSt ≠ 3 then { x with mirSt := 1, mirSeq := sq } else x
    { d with twin := { d.twin with closing := d.twin.closing.map mark } }
  let d := d.twin.closing.foldl one d
  let start (d : Dev) (s : Nat) : Dev :=
    match d.twinWaits s, Tab.get (fun _ => none) d.twin.readyO s with
    | true, some tb => d.sendRel mStartReady (toBytes 8 s ++ toBytes 8 tb)
    | _, _ => d
  d.forEach (List.range 16) start

/-- Training completes (R524, R525, R528, R536, R540). -/
def Dev.merLinkUp (d : Dev) (lanes : Nat) (partnerB : Bool) : Dev :=
  if d.merUp || d.is twinRoleConf || !([1, 2, 4].contains lanes) then d
  else if d.is twinRole = partnerB then
    let d := (((d.put twinRoleConf 1).put twinLink 0).put twinLanes 0).event srcMer 0x0A03 0
    if d.get twinState = 1 then (d.put twinState 0).closeAlone false else d
  else
    let d := ((d.put twinLink 2).put twinLanes lanes).condEnd srcMer 0
    let d := { d with twin := { d.twin with
      txSeq := 0, rxSeq := 0, unacked := [], hbSend := d.mclk + us 10, hbArr := d.mclk, hbLast := none, delays := [], offsets := [],
      readyP := [] } }
    let d := d.forEach ((d.mirIn 1) ++ (d.mirIn 2) ++ (d.mirIn 3)) fun d k => d.mirTo k 0
    let d := d.event srcMer 0x0A01 lanes
    let d := if d.get twinState = 0 ∧ d.wantsPair = true then d.put twinState 1 else d.leaveTaken
    let d := d.almLinkUp
    if d.paired then d.resend else d

/-- The takeover that the loss of the link may begin (R538). -/
def Dev.lostTrigger (d : Dev) : Dev :=
  if !d.is twinAuto then d
  else if d.is twinRole && d.paired && !d.pwr.parkIn then
    let t := d.mclk + us (max 100 (d.get twinDelayB))
    { d with twin := { d.twin with delayAt := some t } }
  else d.takeTrigger 1

/-- The sequencers in a twin-start wait halt when the link is lost (R533). -/
def Dev.lostHalts (d : Dev) : Dev :=
  if d.wantsPair then
    d.forEach ((List.range 16).filter fun s => d.get (seqState s) == 4 && d.syncwTwin s) fun d s => d.haltSeq s .sync
  else d

/-- The Meridian link is lost (R529, R533, R538, R539). -/
def Dev.merLost (d : Dev) : Dev :=
  if d.merUp then
    let d := d.advanceTo (d.twin.hbArr + us 80)
    let d := ((d.put twinLink 3).put twinLanes 0).report srcMer 0 0 0 0 true
    let d := ({ d with twin := { d.twin with unacked := [], readyP := [] } }).lostHalts
    match d.twin.take with
    | .wait => d.lostTrigger.takeResolve
    | _ => d.lostTrigger
  else d

/-- Role B's delay after the loss of the link has ended with no HEARTBEAT (R538). -/
def Dev.takeDelayExpiry (d : Dev) : Dev :=
  match d.twin.delayAt with
  | some t => (({ d with twin := { d.twin with delayAt := none } }).advanceTo t).takeTrigger 1
  | none => d

/-- `TWIN_CTRL` has been written: a package that is to be SOLO leaves its pair, and one that is to be paired joins it while the link
is UP (R524, R536). -/
def Dev.twinCtrlEffect (d : Dev) : Dev :=
  if d.get twinState = 1 ∧ d.wantsPair = false then (d.put twinState 0).closeAlone false
  else if d.get twinState = 0 ∧ d.wantsPair = true ∧ d.merUp = true then d.put twinState 1
  else d

/-- HOST_LOSS_EXPIRY (R538). -/
def Dev.hostLossExpiry (d : Dev) : Dev :=
  match d.twin.lossAt with
  | some t =>
    let d := ({ d with twin := { d.twin with lossAt := none } }).advanceTo t
    if d.wantsPair then d.sendRel mTakeReq [] else d
  | none => d

/-! ## The meanings -/

/-- TWIN_TAKE (R538). -/
def execTwinTake (s : State) : Answer := onDevIdle s fun d => d.takeTrigger 2

/-- TWIN_RELEASE (R542). -/
def execTwinRelease (s : State) : Answer := onDev s fun d => d.twinRelease

/-- TWIN_MIR_ACK (R545). -/
def execTwinMirAck (v : Word) (s : State) : Answer := onDev s fun d => d.mirAck (v.toNat % 64)

/-- SYNCW_WAIT_BEGIN (R192). -/
def execSyncwWaitBegin (s : Fin 16) (st : State) : Answer := onDev st fun d => d.syncwWait s

/-- PARK_IN_ASSERT (R540). -/
def execParkInAssert (s : State) : Answer := onDevIdle s fun d => d.parkInAssert

/-- PARK_IN_RELEASE (R75). -/
def execParkInRelease (s : State) : Answer := onDev s fun d => d.parkInRelease

/-- HOST_LOSS_EXPIRY (R538). -/
def execHostLossExpiry (s : State) : Answer := onDev s fun d => d.hostLossExpiry

/-- LINK_UP (R525). -/
def execLinkUp (lanes : Fin 5) (partnerRoleB : Bool) (s : State) : Answer := onDevIdle s fun d => d.merLinkUp lanes partnerRoleB

/-- HEARTBEAT_SEND (R529). -/
def execHeartbeatSend (s : State) : Answer := onDev s fun d => d.heartbeatSend

/-- MERIDIAN_LINK_LOST (R529). -/
def execMeridianLinkLost (s : State) : Answer := onDevIdle s fun d => d.merLost

/-- HEARTBEAT (R530). -/
def execHeartbeat (ack : BitVec 16) (sendTb echoTb echoArr : DWord) (_state : BitVec 3) (_hostUp : Bool) (flags : List Byte) (s : State) :
    Answer := onDev s fun d => d.merRecv ack.toNat false fun d => d.heartbeat sendTb.toNat echoTb.toNat echoArr.toNat flags

/-- FLAG (R531). -/
def execFlag (ack : BitVec 16) (flags : List Byte) (s : State) : Answer :=
  onDev s fun d => d.merRecv ack.toNat false fun d => d.takeFlags flags

/-- OPEN (R535). -/
def execOpenMsg (ack : BitVec 16) (td : DWord) (sites : SiteMask) (startTb : DWord) (retestBin : BitVec 16) (s : State) : Answer :=
  onDev s fun d => d.merRecv ack.toNat true fun d => d.mirOpen td.toNat sites.toNat startTb.toNat retestBin.toNat

/-- MIRROR (R535). -/
def execMirror (ack : BitVec 16) (td : DWord) (header : BitVec 512) (closes : List (Fin 64 × BitVec 256)) (s : State) : Answer :=
  onDev s fun d => d.merRecv ack.toNat true fun d => d.mirFill td.toNat header.toNat (closes.map fun p => (p.1.val, p.2.toNat))

/-- INTENT (R535). -/
def execIntent (ack : BitVec 16) (td : DWord) (s : State) : Answer :=
  onDev s fun d => d.merRecv ack.toNat true fun d => d.mirIntent td.toNat

/-- INTENT_ACK (R535). -/
def execIntentAck (ack : BitVec 16) (td : DWord) (s : State) : Answer :=
  onDevIdle s fun d => d.merRecv ack.toNat true fun d => d.intentAck td.toNat

/-- COMPLETE (R535). -/
def execComplete (ack : BitVec 16) (td : DWord) (s : State) : Answer :=
  onDev s fun d => d.merRecv ack.toNat true fun d => d.mirEnd td.toNat 0

/-- ABANDON (R535). -/
def execAbandon (ack : BitVec 16) (td : DWord) (s : State) : Answer :=
  onDev s fun d => d.merRecv ack.toNat true fun d => d.mirEnd td.toNat 4

/-- START_READY (R532). -/
def execStartReady (ack : BitVec 16) (s : Fin 16) (readyTb : DWord) (st : State) : Answer :=
  onDev st fun d => d.merRecv ack.toNat true fun d => d.startReady s readyTb.toNat

/-- START (R533). -/
def execStart (ack : BitVec 16) (s : Fin 16) (tb : DWord) (st : State) : Answer :=
  onDev st fun d => d.merRecv ack.toNat true fun d => d.startRecv s tb.toNat

/-- NOTIFY (R527, R543). -/
def execNotify (ack : BitVec 16) (rec : BitVec 256) (s : State) : Answer :=
  onDev s fun d => d.merRecv ack.toNat true fun d => d.event srcMer 0x0A04 (rec.toNat % 2 ^ 128)

/-- TAKE_REQ (R538). -/
def execTakeReq (ack : BitVec 16) (s : State) : Answer :=
  onDevIdle s fun d => d.merRecv ack.toNat true fun d => if d.is twinAuto then d.takeTrigger 0 else d

/-- TAKEN (R539). -/
def execTaken (ack : BitVec 16) (s : State) : Answer := onDevIdle s fun d => d.merRecv ack.toNat true fun d => d.takenRecv

/-- TAKEOVER_DELAY_EXPIRY (R538). -/
def execTakeoverDelayExpiry (s : State) : Answer := onDevIdle s fun d => d.takeDelayExpiry

/-- TAKEOVER_WAIT_EXPIRY (R539). -/
def execTakeoverWaitExpiry (s : State) : Answer := onDevIdle s fun d => d.takeWaitExpiry

/-- TP_STUCK (R539). -/
def execTpStuck (s : State) : Answer := onDevIdle s fun d => d.tpStuck

end Sys2Proof.Machine
end

