-- ==== Sys2Proof/Machine/Fcu.lean ====
section
/-!
DEFINITION. The fault collection unit (R455 to R480): reports taken in their order, counted, recorded and answered with the
reactions of their class; wire faults, FAULT_N and injection.
-/

namespace Sys2Proof.Machine

/-! ## Scopes (R458) -/

/-- The sites of the step that a RUN has in progress. -/
def Dev.stepSites (d : Dev) (run : Option Nat) : Nat :=
  match run.bind d.runById with
  | some r => listMask ((r.res.map fun y => y.site).dedup)
  | none => 0

/-- Every site of every open RUN. -/
def Dev.openSites (d : Dev) : Nat := d.runs.foldl (fun m r => m ||| r.sites) 0

/-- The scope of a checker whose report names no part of it. -/
def Dev.chkScope (d : Dev) (src chk : Nat) : Nat :=
  match classOf src chk with
  | some k =>
    if k = 0 then
      if src < 0x020 then d.stepSites (d.seq (src - 0x010)).run
      else if src < 0x040 then d.stepSites (d.au (src - 0x020)).run
      else d.stepSites ((d.dse (src - 0x080)).job.bind fun j => j.run)
    else if k ≤ 0x02 then d.seqSites (src - 0x010)
    else if k ≤ 0x06 ∨ k = 0x0B then d.dieSites (src - 0x090)
    else if k ≤ 0x0A then d.chanScope (src - 0x100)
    else if k = 0x0C then
      let hit := (List.range 16).filter fun s => d.seqBusy s && d.usesPll s (src - 0x002)
      hit.foldl (fun m s => m ||| d.seqSites s) (if src = 0x002 then d.timedSites else 0)
    else if k = 0x0D then (if chk < 8 then d.openSites else d.dieSites (chk - 8))
    else if k = 0x0E then d.openSites
    else 0
  | none => 0

/-! ## Reports from outside the modelled data paths -/

/-- The classes whose errors only the environment can show: memory upsets, diverged copies, the host link and the flash. -/
def extClass (k : Nat) : Bool := [0x00, 0x02, 0x10, 0x11, 0x13, 0x15].contains k

/-- A real single-bit error met under an injection of the uncorrectable checker is reported from the corrected one, with INJ and
REAL (R477). -/
def Dev.injSingle (d : Dev) (o : FaultObs) : Dev :=
  ((d.injUse).put fcuInjReal 1).raise
    { src := o.src, chk := 3, cls := 0x10, t := d.tb, lat := some 0, syn := o.syn.toNat, det := o.det.toNat, scope := 0, level := false,
      inj := true, real := true }

/-- An error that the environment shows at a checker (R455). -/
def Dev.extReport (d : Dev) (o : FaultObs) : Dev :=
  match classOf o.src o.chk with
  | some k =>
    if !extClass k then d
    else if inRange 0x010 0x01F o.src && o.chk == 3 && d.injecting o.src 2 then d.injSingle o
    else d.checkReal o.src o.chk o.syn.toNat o.det.toNat (if k < 0x10 then d.chkScope o.src o.chk else 0)
  | none => d

/-! ## Order and counting (R464, R466, R467) -/

/-- A report comes before another of the same master period. -/
def Report.before (a b : Report) : Bool :=
  decide (a.cls < b.cls) || (a.cls == b.cls && (decide (a.src < b.src) || (a.src == b.src && decide (a.chk < b.chk))))

/-- The report taken next: the earliest, and among those of its master period the first in the order of R464. -/
def firstReport : List Report → Option Report
  | [] => none
  | r :: rs => some (rs.foldl (fun m x => if x.t = r.t ∧ x.before m = true then x else m) r)

/-- The time of a report on the timers' scale. -/
def Dev.reportAt (d : Dev) (r : Report) : Nat := d.mclk - min d.mclk ((d.tb + 2 ^ 64 - r.t) % 2 ^ 64)

/-- N and the window of a class as they act (R479). -/
def Dev.classN (d : Dev) (k : Nat) : Nat := max 1 (d.get (fcuN k))
def Dev.classW (d : Dev) (k : Nat) : Nat := us (max 1 (d.get (fcuW k)))

/-- A checker after one more report, and the count that the report shows (R466, R467). -/
def Dev.countReport (d : Dev) (r : Report) : Dev × Nat :=
  let key := chkKey r.src r.chk
  let c := d.checker key
  let n := d.classN r.cls
  let at_ := d.reportAt r
  if c.severe then (d, n)
  else
    let x : Checker :=
      if c.isOpen ∧ at_ < c.winEnd then { c with count := c.count + 1 }
      else { count := 1, isOpen := true, winEnd := at_ + d.classW r.cls, severe := false }
    if n ≤ x.count then
      let d := d.setChecker key { count := 0, isOpen := false, winEnd := 0, severe := true }
      let d := d.put fcuSevcls (d.get fcuSevcls ||| 2 ^ r.cls)
      (d.put (fcuSevsrc (r.src / 32)) (d.get (fcuSevsrc (r.src / 32)) ||| 2 ^ (r.src % 32)), n)
    else (d.setChecker key x, x.count)

/-! ## Reaction masks (R468, R469, R476) -/

/-- A reaction word with its fixed bits (R469). -/
def fixedReact (k w : Nat) : Nat :=
  let re := w % 2 ^ 9
  let se := w / 2 ^ 16 % 2 ^ 9
  let drop (m b : Nat) : Nat := m - (m &&& 2 ^ b)
  let re := if k < 0x10 then re ||| 4 else drop re 2
  let se := if k < 0x10 then se else drop se 2
  let re := if k = 0x0C then re ||| 8 else if inRange 0x07 0x0A k then drop re 3 else re
  let se := if inRange 0x07 0x0A k then drop se 3 else se
  re + 2 ^ 16 * se

/-- The reaction bits that a report takes. -/
def Dev.reactOf (d : Dev) (r : Report) (severe : Bool) : Nat :=
  let w := fixedReact r.cls (d.get (fcuReact r.cls) + 2 ^ 16 * d.get (fcuSevReact r.cls))
  let m := w % 2 ^ 16 ||| (if severe then w / 2 ^ 16 else 0)
  if r.inj && !r.real && !d.fcu.injFull then m &&& 0x43 else m

/-! ## Downgrade (R38, R252, R254) -/

/-- A RUN can still take the mark of a fault: its close guard has not ended at T. -/
def Dev.takesMark (d : Dev) (r : Report) (x : OpenRun) : Bool :=
  x.live || (x.phase == .guard && decide (d.reportAt r ≤ x.guardEnd))

/-- Sites of a report's scope that no RUN can take the mark for. -/
def Dev.pendSites (d : Dev) (r : Report) : Nat :=
  let held := d.runs.foldl (fun m x => if d.takesMark r x then m ||| x.sites else m) 0
  r.scope - (r.scope &&& held)

/-- A fault that comes after the close guard of a RUN: the event names it, and its sites keep the fault for their next RUN (R38,
R254). -/
def Dev.lateFault (d : Dev) (r : Report) (x : OpenRun) : Dev :=
  let d := d.event srcFcu 0x0007 (x.td % 2 ^ 64 + 2 ^ 64 * r.src + 2 ^ 80 * r.cls + 2 ^ 88 * r.chk)
  let keep (y : OpenRun) : OpenRun := if y.id = x.id then { y with pend := y.pend - (y.pend &&& r.scope) } else y
  { d with runs := d.runs.map keep }

/-- DOWNGRADE. -/
def Dev.downgrade (d : Dev) (r : Report) : Dev :=
  let since := match r.lat with
    | some l => r.t - l
    | none => 0
  let open_ := d.runs.filter fun x => d.takesMark r x && x.sites &&& r.scope != 0
  let late := (d.runs.filter fun x => !d.takesMark r x && x.sites &&& r.scope != 0)
    ++ d.twin.closing.filter fun x => x.sites &&& r.scope != 0
  let pend := d.pendSites r
  let d := open_.foldl (fun d x => d.markRun x r.scope since) d
  let d := late.foldl (fun d x => d.lateFault r x) d
  d.put2 ledPendLo ledPendHi (d.get2 ledPendLo ledPendHi ||| pend)

/-! ## The other reactions (R468, R470 to R473) -/

/-- The edge die that a report's source is, where its scope is empty. -/
def Report.ownDie (r : Report) : Option Nat := if r.scope = 0 ∧ 0x090 ≤ r.src ∧ r.src < 0x094 then some (r.src - 0x090) else none

/-- HALT_SEQ: every running sequencer with a channel in a scope site. -/
def Dev.reactHalt (d : Dev) (scope : Nat) : Dev :=
  d.forEach ((List.range 16).filter fun s => d.seqBusy s && d.seqSites s &&& scope != 0) fun d s => d.haltSeq s .fault

/-- QUIESCE_SECTOR: a STOP over the sectors, which are quiesced at its end (R586). -/
def Dev.reactQuiesce (d : Dev) (r : Report) : Dev :=
  let ks := match r.ownDie with
    | some e => (List.range 4).map (· + 4 * e)
    | none => (List.range 16).filter fun k => d.sectorSites k &&& r.scope != 0
  let ks := ks.filter fun k => !d.quiesced k
  let sites := ks.foldl (fun m k => m ||| d.sectorSites k) 0
  let d := { d with pwr := { d.pwr with quiesce := d.pwr.quiesce ||| listMask ks } }
  ((d.endRuns sites false).1).quiesceDue

/-- PARK_EDGE: the dies park, and the RUNs that they touch end (R256). -/
def Dev.reactPark (d : Dev) (r : Report) : Dev :=
  let es := match r.ownDie with
    | some e => [e]
    | none => [0, 1, 2, 3].filter fun e => d.dieSites e &&& r.scope != 0
  let es := es.filter fun e => !(d.die e).parked
  let sites := es.foldl (fun m e => m ||| d.dieSites e) 0
  ((d.forEach es fun d e => d.orderPark e).endRuns sites false).1

/-- The minimum width of FAULT_N (R479). -/
def Dev.minW (d : Dev) : Nat := us (clampNat 1 1000 (d.get fcuMinw))

/-- Master periods from a report to the pin: 32, or 2 always-on cycles in P2 and P3 (R472). -/
def Dev.pinLag (d : Dev) : Nat := if d.awake then 32 else 375

/-- PIN: FAULT_N goes low, and a release written before no longer counts; the minimum width ends that long after the pin of the latest
report (R472, R473, with the worked example there). -/
def Dev.reactPin (d : Dev) (r : Report) : Dev :=
  ({ d with fcu := { d.fcu with minwEnd := max d.fcu.minwEnd (d.reportAt r + d.pinLag + d.minW), released := false } }).put fcuFaultLow 1

/-! ## Records (R461 to R463) -/

/-- A class has check bits. -/
def hasCheckBits (k : Nat) : Bool := decide (k ≤ 0x05) || k == 0x10 || k == 0x11

/-- Byte 11 of a record. -/
def Report.flags (r : Report) (severe live first pend : Bool) : Nat :=
  r.inj.toNat + 2 * r.real.toNat + 4 * severe.toNat + 8 * live.toNat + 16 * first.toNat + 32 * pend.toNat

/-- A record (R461). -/
def Report.pack (r : Report) (flags count react : Nat) : Nat :=
  r.t % 2 ^ 64 + 2 ^ 64 * (r.src % 2 ^ 12 + 2 ^ 12 * (r.chk % 16)) + 2 ^ 80 * (r.cls % 32) + 2 ^ 88 * flags
    + 2 ^ 96 * (if hasCheckBits r.cls then r.syn % 2 ^ 32 else 0) + 2 ^ 128 * (count % 2 ^ 16) + 2 ^ 144 * (react % 2 ^ 16)
    + 2 ^ 160 * (r.scope % 2 ^ 64) + 2 ^ 224 * (r.det % 2 ^ 32)

/-- The report fills or replaces the first-fault latch (R462). -/
def Dev.takesFirst (d : Dev) (r : Report) : Bool :=
  !d.is fcuFirstValid || (r.real && bitsOf (d.get (fcuFirst 2)) 24 2 == 1)

/-- The eight words of a record stored in registers. -/
def Dev.putRec (d : Dev) (f : Nat → Fld) (rec : Nat) : Dev := d.forEach (List.range 8) fun d w => d.put (f w) (bitsOf rec (32 * w) 32)

/-- Records in the queue (R463). -/
def Dev.qCount (d : Dev) : Nat := (d.get fcuQwr + 256 - d.get fcuQrd) % 256

/-- LOG: the record enters the queue, or is lost and counted. -/
def Dev.logRec (d : Dev) (rec : Nat) : Dev :=
  if d.qCount = 32 then d.bump fcuOvf
  else (d.putRec (fcuQrec (d.get fcuQwr % 32)) rec).put fcuQwr ((d.get fcuQwr + 1) % 256)

/-- The payload of a fault's event (R520). -/
def Report.payload (r : Report) (flags : Nat) : Nat :=
  r.cls + 2 ^ 8 * r.chk + 2 ^ 16 * flags + 2 ^ 32 * ((if hasCheckBits r.cls then r.syn else r.det) % 2 ^ 32) + 2 ^ 64 * (r.scope % 2 ^ 64)

/-- A change made when a reaction bit is set. -/
def Dev.onBit (d : Dev) (mask b : Nat) (f : Dev → Dev) : Dev := if mask.testBit b then f d else d

/-- One report is taken: counted, recorded, and answered in the order of R470. -/
def Dev.takeReport (d : Dev) (r : Report) : Dev :=
  let d := { d with fcu := { d.fcu with raised := d.fcu.raised.erase r } }
  let p := d.countReport r
  let d := p.1
  let key := chkKey r.src r.chk
  let severe := (d.checker key).severe
  let react := d.reactOf r severe
  let first := d.takesFirst r
  let live := d.fcu.live.any fun q => q.1 == key
  let pend := verdictClass r.cls && d.pendSites r != 0
  let flags := r.flags severe live first pend
  let rc := r.pack flags p.2 react
  let d := if first then
      ({ d with fcu := { d.fcu with firstKey := some key } }.putRec fcuFirst rc).put fcuFirstValid 1
    else d
  let d := d.onBit react 2 fun d => d.downgrade r
  let d := d.onBit react 3 fun d => d.reactHalt r.scope
  let d := d.onBit react 4 fun d => d.reactQuiesce r
  let d := d.onBit react 5 fun d => d.reactPark r
  let d := d.onBit react 6 fun d => d.reactPin r
  let d := d.onBit react 7 fun d => d.sendRel mNotify (toBytes 32 rc)
  let d := d.onBit (react &&& (react / 2)) 7 fun d => d.sendRel mTakeReq []
  let d := d.onBit react 0 fun d => d.logRec rc
  d.onBit react 1 fun d => d.event r.src (0x0300 + r.cls) (r.payload flags)

/-- FAULT_REPORT (R455, R470): an error that the environment shows reaches the collector, and the next report is taken. -/
def Dev.faultReport (d : Dev) (ext : Option FaultObs) : Dev :=
  let d := match ext with
    | some o => d.extReport o
    | none => d
  match firstReport d.fcu.raised with
  | some r => d.takeReport r
  | none => d

/-! ## Windows, wires, the pin, the latch (R457, R462, R466, R467, R473) -/

/-- A counting window ends below N (R466). -/
def Dev.windowExpiry (d : Dev) (src chk : Nat) : Dev :=
  let c := d.checker (chkKey src chk)
  if c.isOpen then (d.advanceTo c.winEnd).setChecker (chkKey src chk) Checker.init else d

/-- A checker's wire pair fails (R457). -/
def Dev.wireFault (d : Dev) (src chk : Nat) : Dev :=
  let key := chkKey src chk
  match classOf src chk with
  | some k =>
    if k = 0x0F ∨ d.fcu.wireBad.contains key = true then d
    else
      let d := { d with fcu := { d.fcu with wireBad := key :: d.fcu.wireBad } }
      d.raise
        { src := srcFcu, chk := 0, cls := 0x0F, t := d.tb, lat := (d.latOf k src).map fun l => 600 + l, syn := 0,
          det := k + 2 ^ 8 * chk + 2 ^ 16 * src, scope := d.chkScope src chk, level := true, inj := false, real := true }
  | none => d

/-- A failed pair is good again (R457). -/
def Dev.wireGood (d : Dev) (src chk : Nat) : Dev :=
  let key := chkKey src chk
  let d := { d with fcu := { d.fcu with wireBad := d.fcu.wireBad.filter fun k => k != key } }
  if d.fcu.wireBad.isEmpty then d.condEnd srcFcu 0 else d

/-- FAULT_N goes high. -/
def Dev.pinHigh (d : Dev) : Dev := ({ d with fcu := { d.fcu with released := false, minwEnd := 0 } }).put fcuFaultLow 0

/-- FAULT_N is released when its conditions hold (R473). -/
def Dev.pinTry (d : Dev) : Dev :=
  if d.is fcuFaultLow && decide (d.fcu.minwEnd ≤ d.mclk) && (d.is fcuPinAuto || d.fcu.released) then d.pinHigh else d

/-- FCU_PIN.RELEASE (R473). -/
def Dev.pinRelease (d : Dev) : Dev :=
  if d.is fcuFaultLow then ({ d with fcu := { d.fcu with released := true } }).pinTry else d

/-- FCU_FIRST_CLR.CLR (R462). -/
def Dev.firstClr (d : Dev) : Dev := (({ d with fcu := { d.fcu with firstKey := none } }).putRec fcuFirst 0).put fcuFirstValid 0

/-- The checkers of the sources named by a word of FCU_SEVSRC start again (R467). -/
def Dev.sevClear (d : Dev) (k v : Nat) : Dev :=
  let hit := (maskList 32 v).map (· + 32 * k)
  let d := { d with fcu := { d.fcu with checkers := Tab.keep (fun a => !hit.contains (a / 16)) d.fcu.checkers } }
  let d := d.put (fcuSevsrc k) (d.get (fcuSevsrc k) - (d.get (fcuSevsrc k) &&& v))
  d.put fcuSevcls (d.fcu.checkers.foldl (fun m p =>
    if p.2.severe then (match classOf (p.1 / 16) (p.1 % 16) with
      | some c => m ||| 2 ^ c
      | none => m) else m) 0)

/-- FCU_INJ (R474, R475). -/
def Dev.injWrite (d : Dev) (v : Nat) : Dev :=
  let src := bitsOf v 0 12
  let chk := bitsOf v 12 4
  let n := bitsOf v 16 8
  if (injSyndrome src chk).isNone || (n != 0 && d.is fcuInjBusy) then d.put fcuInjRefused 1
  else
    let d := (((d.put fcuInjRefused 0).put fcuInjLeft n).putB fcuInjBusy (n != 0)).putB fcuInjBusyS (n != 0)
    if n = 0 then d
    else ({ d with fcu := { d.fcu with injSrc := src, injChk := chk, injFull := v.testBit 24 } }).put fcuInjReal 0

/-! ## The meanings -/

/-- FAULT_REPORT (R470). -/
def execFaultReport (ext : Option FaultObs) (s : State) : Answer := onDevIdle s fun d => d.faultReport ext

/-- FCU_WINDOW_EXPIRY (R466). -/
def execFcuWindowExpiry (src : BitVec 12) (chk : Fin 16) (s : State) : Answer := onDev s fun d => d.windowExpiry src.toNat chk

/-- FCU_WIRE (R457). -/
def execFcuWire (src : BitVec 12) (chk : Fin 16) (s : State) : Answer := onDev s fun d => d.wireFault src.toNat chk

/-- FCU_WIRE_RECOVERY (R457). -/
def execFcuWireRecovery (src : BitVec 12) (chk : Fin 16) (s : State) : Answer := onDev s fun d => d.wireGood src.toNat chk

/-- FAULT_N_MINW_EXPIRY (R473). -/
def execFaultNMinwExpiry (s : State) : Answer :=
  onDev s fun d => if d.is fcuFaultLow then (d.advanceTo d.fcu.minwEnd).pinTry else d

/-- FCU_PIN_RELEASE (R473). -/
def execFcuPinRelease (s : State) : Answer := onDev s fun d => d.pinRelease

/-- FCU_FIRST_CLR (R462). -/
def execFcuFirstClr (s : State) : Answer := onDev s fun d => d.firstClr

/-- FCU_SEVSRC_CLEAR (R467). -/
def execFcuSevsrcClear (k : Fin 16) (v : Word) (s : State) : Answer := onDev s fun d => d.sevClear k v.toNat

/-- FCU_INJ (R474). -/
def execFcuInj (v : Word) (s : State) : Answer := onDev s fun d => d.injWrite v.toNat

end Sys2Proof.Machine
end

