-- ==== Sys2Proof/Machine/Reads.lean ====
section
/-!
DEFINITION. What the host reads back and releases (R248, R272, R330, R498, R505): READ_LEDGER, READ_CAPTURE, READ_FAILLOG and the
release indices; and LOAD_KERNEL (R339, R340).
-/

namespace Sys2Proof.Machine

/-! ## Release (R248, R258) -/

/-- An index lies in a ring of `n` from `a` on, below `b`. -/
def inArc (n a b i : Nat) : Bool := decide ((i + n - a) % n < (b + n - a) % n)

/-- How far a release may go in a ring of `n`: to the asked index, but not past the limits, counted forward from `rd`. -/
def releaseTo (n rd v : Nat) (limits : List Nat) : Nat :=
  let far (i : Nat) : Nat := (i + n - rd) % n
  (rd + (limits.map far).foldl min (far v)) % n

/-- `LED_RD` of a site moves as far as R248 lets it; a touchdown with a released entry cannot be resumed (R258). -/
def Dev.ledRelease (d : Dev) (s v : Nat) : Dev :=
  let rd := d.get (ledRd s)
  let held := (d.runs.filter fun r => r.sites.testBit s).map fun r => siteNum r.first s
  let to_ := releaseTo 1920 rd v (d.get (ledWr s) :: held)
  let gone (p : Nat × Nat × Nat) : Bool := p.1 == s && inArc 1920 rd to_ p.2.1
  let keep (p : Nat × List (Nat × Nat × Nat)) : Nat × List (Nat × Nat × Nat) := (p.1, p.2.filter fun q => !gone q)
  ({ d with led := { d.led with frozen := d.led.frozen.map keep } }).put (ledRd s) to_

/-- `LED_HDR_RD` moves as far as R248 lets it. -/
def Dev.hdrRelease (d : Dev) (v : Nat) : Dev :=
  let rd := d.get ledHdrRd
  let to_ := releaseTo 4096 rd v (d.get ledHdrWr :: d.runs.map fun r => r.hdr)
  let keep (p : Nat × List (Nat × Nat × Nat)) : Bool := !inArc 4096 rd to_ p.1
  ({ d with led := { d.led with frozen := d.led.frozen.filter keep } }).put ledHdrRd to_

/-- LED_RD_WRITE: an index above 1,919 is ignored (R263). -/
def Dev.ledRdWrite (d : Dev) (s v : Nat) : Dev := if v % 2048 ≤ 1919 then d.ledRelease s (v % 2048) else d

/-! ## Copies to the host (R498, R505, R506) -/

/-- Bytes written to host memory. -/
def Dev.dmaOut (d : Dev) (addr : Nat) (bs : List Byte) : Dev := if bs.isEmpty then d else d.emit (.dma addr bs)

/-- Items of a ring of `n` from an index on that have been written and not overwritten, `count` at most: `wrote` counts all that
were ever written. -/
def written (n wr wrote first count : Nat) : Nat :=
  let back := (wr + n - first % n) % n
  if back ≤ wrote then min count back else 0

/-- READ_LEDGER (R498). -/
def Dev.readLedger (d : Dev) (q : Nat) : Dev :=
  d.onDesc q opReadLedger fun d x w =>
    let hdr := dField x 8 0 8 == 1
    let s := dField x 9 0 6
    let first := dField x 10 0 16
    let count := dField x 12 0 16
    let n := if hdr then 4096 else 1920
    let wr := if hdr then d.get ledHdrWr else d.get (ledWr s)
    if n ≤ first then d.done w stRange
    else
      let m := written n wr (Tab.get (fun _ => 0) d.led.wrote (if hdr then 64 else s)) first count
      let item (i : Nat) : List Byte :=
        if hdr then d.ldBytes (ledHdrAddr ((first + i) % n)) 64 else d.ldBytes (ledEntAddr s ((first + i) % n)) 32
      let next := (first + m) % n
      let d := d.dmaOut (dField x 24 0 64) ((List.range m).flatMap item)
      let d := if dField x 14 0 1 = 0 ∨ m = 0 then d else if hdr then d.hdrRelease next else d.ledRelease s next
      d.doneWith w stOk m next

/-- READ_FAILLOG (R498). -/
def Dev.readFaillog (d : Dev) (q : Nat) : Dev :=
  d.onDesc q opReadFaillog fun d x w =>
    let s := dField x 8 0 6
    let first := dField x 12 0 32
    let m := min (dField x 16 0 32) (d.get (flogCount s) - first)
    let item (i : Nat) : List Byte := match (d.flog s).addr s (first + i) with
      | some a => d.ldBytes a 16
      | none => []
    let d := d.dmaOut (dField x 24 0 64) ((List.range m).flatMap item)
    d.doneWith w stOk m (first + m)

/-- `AU_REC_RD` moves past records that a READ_CAPTURE releases; a record that a job's view holds is released when the job ends
(R272, R330). -/
def Dev.captureRelease (d : Dev) (a to_ : Nat) : Dev :=
  let rd := d.get (auRecRd a)
  let far (i : Nat) : Nat := (i + 65536 - rd) % 65536
  if far (d.get (auRecWr a)) < far to_ then d
  else
    let holds := ((d.au a).holds.filter fun h => decide (far h < far to_)).map far
    match holds with
    | [] => (d.put (auRecRd a) to_).auUnfill a
    | h :: hs =>
      let d := d.setAu a { d.au a with relTo := some to_ }
      (d.put (auRecRd a) ((rd + hs.foldl min h) % 65536)).auUnfill a

/-- READ_CAPTURE (R498): each record is its whole slot. -/
def Dev.readCapture (d : Dev) (q : Nat) : Dev :=
  d.onDesc q opReadCapture fun d x w =>
    let a := dField x 8 0 5
    let first := dField x 10 0 16
    let y := d.au a
    let n := written 65536 (d.get (auRecWr a)) (min y.seqNo y.slotsN) first (dField x 12 0 16)
    let m := min n (dField x 16 0 32 / max 1 y.slotSz)
    let item (i : Nat) : List Byte := d.ldBytes (d.auAllocAddr a + (first + i) % 65536 % max 1 y.slotsN * y.slotSz) y.slotSz
    let d := d.dmaOut (dField x 24 0 64) ((List.range m).flatMap item)
    let d := if dField x 9 0 1 = 0 ∨ m = 0 then d else d.captureRelease a ((first + m) % 65536)
    d.doneWith w stOk m (m * y.slotSz)

/-! ## LOAD_KERNEL (R339, R340) -/

/-- An engine begins to load an image for a descriptor. -/
def Dev.loadBegin (d : Dev) (w : Work) (image : List Byte) (e : Nat) : Dev :=
  let st := d.get (dseState e)
  (d.setDse e { d.dse e with load := some { work := w.id, image := image }, wasQ := st == 4 || st == 5 }).put (dseState e) 3

/-- LOAD_KERNEL: `image` is what host memory holds at ADDR. While a named engine still loads another image, it waits. -/
def Dev.loadKernel (d : Dev) (q : Nat) (image : List Byte) (readOk : Bool) : Dev :=
  d.onDesc q opLoadKernel fun d x w =>
    let es := maskList 16 (dField x 8 0 16)
    let n := dField x 16 0 32
    if es.any fun e => (d.dse e).load.isSome then d
    else if es.any d.dseRunning then d.done w stLocked
    else if !readOk || decide (image.length < n) then d.done w stIntegrity
    else if !imageOk n (image.take n) then d.done w stRange
    else if es.isEmpty then d.done w stOk
    else d.forEach es fun d e => d.loadBegin w (image.take n) e

/-! ## The meanings -/

/-- LED_RD_WRITE (R248). -/
def execLedRdWrite (site : Fin 64) (v : Word) (s : State) : Answer := onDev s fun d => d.ledRdWrite site v.toNat

/-- LED_HDR_RD_WRITE (R248). -/
def execLedHdrRdWrite (v : Word) (s : State) : Answer := onDev s fun d => d.hdrRelease (v.toNat % 4096)

/-- READ_LEDGER (R498). -/
def execReadLedger (q : Fin 16) (s : State) : Answer := onDev s fun d => d.readLedger q

/-- READ_CAPTURE (R498). -/
def execReadCapture (q : Fin 16) (s : State) : Answer := onDev s fun d => d.readCapture q

/-- READ_FAILLOG (R498). -/
def execReadFaillog (q : Fin 16) (s : State) : Answer := onDev s fun d => d.readFaillog q

/-- LOAD_KERNEL (R340). -/
def execLoadKernel (q : Fin 16) (image : List Byte) (readOk : Bool) (s : State) : Answer :=
  onDev s fun d => d.loadKernel q image readOk

end Sys2Proof.Machine
end

