-- ==== Sys2Proof/Machine/Tp.lean ====
section
/-!
DEFINITION. The Transit port (R546 to R563): arbitration, master transfers and target frames.
-/

namespace Sys2Proof.Machine

/-! ## Settings as they act (R550, R553, R563) -/

/-- Lanes of a lane code. -/
def tpLanes (code : Nat) : Nat := 2 ^ code

/-- Clocks of a phase. -/
def tpClocksOf (len lanes : Nat) : Nat := (len + lanes - 1) / lanes

/-- `n` periods of TP_SCK in master periods, rounded up: 7.5 × (DIV + 1) each. -/
def Dev.tpSck (d : Dev) (n : Nat) : Nat := (15 * n * (d.get tpDiv + 1) + 1) / 2

/-- Clocks of the phases before the data phase. -/
def Dev.tpPreClocks (d : Dev) : Nat :=
  tpClocksOf (d.get tpCmdLen) (tpLanes (d.get tpCmdLanes)) + tpClocksOf (d.get tpAddrLen) (tpLanes (d.get tpAddrLanes)) + d.get tpDummy

/-- Clocks of the whole transfer. -/
def Dev.tpClocks (d : Dev) : Nat := d.tpPreClocks + tpClocksOf (d.get tpLen) (tpLanes (d.get tpDataLanes))

/-- The idle window of R547 in master periods: longer in role B unless the package is SOLO (R524). `own`: for a transfer, not for a
takeover's claim (R549). -/
def Dev.tpWindow (d : Dev) (own : Bool) : Nat :=
  15 * max 10 (d.get tpIdle) + (if own && d.is twinRole && d.wantsPair && !d.is tpOwner then 750 else 0)

/-! ## Bits of the buffers (R551) -/

/-- The word address and the bit of buffer bit `n`. -/
def tpBitAt (base n : Nat) : Fld := ⟨base + 4 * (n / 32), 8 * (n / 8 % 4) + (7 - n % 8), 1⟩

/-- Bits stored in a buffer from its bit 0 on. -/
def Dev.tpStore (d : Dev) (base : Nat) (bits : List Bool) : Dev :=
  (bits.zipIdx).foldl (fun d p => d.putB (tpBitAt base p.2) p.1) d

/-- The first `n` bits of a buffer. -/
def Dev.tpBits (d : Dev) (base n : Nat) : List Bool := (List.range n).map fun i => d.is (tpBitAt base i)

/-- The most significant bit first of the low `n` bits of a value. -/
def msbFirst (v n : Nat) : List Bool := (List.range n).map fun i => v.testBit (n - 1 - i)

/-! ## The bus -/

/-- The port drives TP_BUSY_N low (R546). -/
def Dev.tpMastering (d : Dev) : Bool := d.get tpState == 2 || d.get tpState == 3

/-- `BUSY_IN` shows the level of the wired line. -/
def Dev.tpLine (d : Dev) : Dev := d.putB tpBusyIn (!d.tp.busyLow && !d.tpMastering)

/-- The port gives up the bus, or its arbitration, with a result; a takeover's claim may go on now. -/
def Dev.tpEnd (d : Dev) (result : Nat) : Dev :=
  let t := d.tp
  let up := if d.tpMastering && !d.is tpNosel then Tab.set (fun _ => 0) t.selUp (d.get tpSel) d.mclk else t.selUp
  let cl := if t.claim then (if t.busyLow then none else if d.tpMastering then some d.mclk else t.clAt) else none
  let d := { d with tp := { t with winAt := none, toAt := none, selUp := up, clAt := cl } }
  ((d.put tpState 0).put tpResult result).tpLine

/-- The select and the bus are released `TP_TIME.HOLD` periods from now (R554, R556). -/
def Dev.tpStop (d : Dev) (result : Nat) : Dev := (d.advance (d.tpSck (max 1 (d.get tpHold)))).tpEnd result

/-- Bits that a read had received after some clocks of the transfer (R548, R556). -/
def Dev.tpCut (d : Dev) (clocks : Nat) : Dev :=
  if d.is tpDir then
    let n := min (d.get tpLen) ((clocks - d.tpPreClocks) * tpLanes (d.get tpDataLanes))
    (d.tpStore 0x60400 ((List.range n).map fun i => Config.cutBit d.freeCtr i)).nextFree
  else d

/-! ## Master transfers (R547, R554 to R556) -/

/-- TP_CMD.GO (R554, R555). -/
def Dev.tpGo (d : Dev) : Dev :=
  let st := d.get tpState
  if st = 1 ∨ st = 2 then d.bump tpCntGoRej
  else if d.is (tpFlag 0) then d.put tpResult 1
  else if !d.awake then d.put tpResult 3
  else if 32 < d.get tpCmdLen ∨ 32 < d.get tpAddrLen ∨ d.get tpLen = 0 ∨ 8192 < d.get tpLen then d.put tpResult 4
  else if st = 3 then ({ d with tp := { d.tp with began := d.mclk } }).put tpState 2
  else
    let lim := d.get tpTimeout
    let d := { d with tp := { d.tp with
      winAt := if d.tp.busyLow then none else some d.mclk, toAt := if lim = 0 then none else some (d.mclk + us lim) } }
    d.put tpState 1

/-- The bus is taken for a transfer: the select goes low, and the phases begin after SETUP (R554). -/
def Dev.tpSeize (d : Dev) : Dev :=
  let at_ := if d.is tpNosel then d.mclk
    else max d.mclk (Tab.get (fun _ => 0) d.tp.selUp (d.get tpSel) + d.tpSck (max 1 (d.get tpDesel)))
  let at_ := if Tab.get (fun _ => 0) d.tp.selUp (d.get tpSel) = 0 then d.mclk else at_
  let d := { d with tp := { d.tp with winAt := none, toAt := none, began := at_ + d.tpSck (max 1 (d.get tpSetup)) } }
  (d.put tpState 2).tpLine

/-- The bus is taken for a takeover: OWNER is set and the line released at once (R549). -/
def Dev.tpClaimed (d : Dev) : Dev :=
  let now := d.mclk
  let win := if d.get tpState = 1 then some now else d.tp.winAt
  ((({ d with tp := { d.tp with winAt := win } }).dropClaim).put tpOwner 1).takeWait

/-- TP_ARB_WINDOW (R547, R549): the idle window that ends first is complete. -/
def Dev.tpArbWindow (d : Dev) : Dev :=
  let own := if d.get tpState = 1 then d.tp.winAt.map fun t => t + d.tpWindow true else none
  let cl := if d.tp.claim then d.tp.clAt.map fun t => t + d.tpWindow false else none
  match own, cl with
  | none, none => d
  | some t, none => (d.advanceTo t).tpSeize
  | none, some t => (d.advanceTo t).tpClaimed
  | some t, some u => if u ≤ t then (d.advanceTo u).tpClaimed else
      let d := (d.advanceTo t).tpSeize
      { d with tp := { d.tp with clAt := none } }

/-- TP_BUS_TIMEOUT (R547). -/
def Dev.tpBusTimeout (d : Dev) : Dev :=
  match d.get tpState, d.tp.toAt with
  | 1, some t => ((d.advanceTo t).tpEnd 2).event srcTp 0x0B03 0
  | _, _ => d

/-- The bits that the port sends in a transfer (R550, R551). -/
def Dev.tpSent (d : Dev) : List Bool :=
  msbFirst (d.get tpCmdv) (d.get tpCmdLen) ++ msbFirst (d.get tpAddrV) (d.get tpAddrLen)
    ++ (if d.is tpDir then [] else d.tpBits 0x60400 (d.get tpLen))

/-- A received bit list brought to a length; a bit that the target does not drive reads as the environment gives it. -/
def fitBits (bits : List Bool) (n : Nat) : List Bool := (List.range n).map fun i => bits.getD i false

/-- TP_DONE (R551, R552, R554). -/
def Dev.tpDone (d : Dev) (rx : List Bool) : Dev :=
  if d.get tpState = 2 then
    let d := d.advanceTo (d.tp.began + d.tpSck d.tpClocks)
    let d := d.emit (.tpBits false d.tpSent)
    let d := if d.is tpDir then d.tpStore 0x60400 (fitBits rx (d.get tpLen)) else d
    let d := if d.is tpHoldSel then (d.put tpState 3).put tpResult 0 else d.tpStop 0
    if d.is tpEvDone then d.event srcTp 0x0B01 0 else d
  else d

/-- TP_CMD.ABORT (R556). -/
def Dev.tpAbort (d : Dev) : Dev :=
  match d.get tpState with
  | 1 => d.tpEnd 5
  | 2 =>
    let per := d.tpSck 1
    let n := min d.tpClocks ((d.mclk - d.tp.began + per - 1) / per)
    ((d.advanceTo (d.tp.began + d.tpSck n)).tpCut n).tpStop 5
  | 3 => d.tpStop 5
  | _ => d

/-- TP_MODE_FAULT (R548). -/
def Dev.tpModeFault (d : Dev) (clocks : Nat) : Dev :=
  if d.tpMastering then
    let d := if d.get tpState = 2 then (d.advanceTo (d.tp.began + d.tpSck clocks)).tpCut clocks else d
    ((d.tpEnd 1).put (tpFlag 0) 1).event srcTp 0x0B02 (clocks % 65536)
  else d

/-- TP_BUSY_N changes, driven by another master (R547). -/
def Dev.tpBusyEdge (d : Dev) (level : Bool) : Dev :=
  let t := d.tp
  let now := if level then some d.mclk else none
  let free := !d.tpMastering
  let t := { t with
    busyLow := !level
    winAt := if d.get tpState = 1 then now else t.winAt
    clAt := if t.claim && free then now else t.clAt }
  ({ d with tp := t }).tpLine

/-! ## Target mode (R558 to R560) -/

/-- Bits of the target word. -/
def Dev.tgtLen (d : Dev) : Nat := clampNat 1 8192 (d.get tpTgtLen)

/-- A frame error: its flag, its counter, and the event when the flag goes from 0 to 1 (R560). -/
def Dev.tpErr (d : Dev) (flag code : Nat) (cnt : Fld) : Dev :=
  let new := !d.is (tpFlag flag)
  let d := (d.bump cnt).put (tpFlag flag) 1
  if new then d.event srcTp 0x0B05 (code + 2 ^ 16 * d.get tpLastBits) else d

/-- A frame that ends before its word is complete. -/
def Dev.tpPartial (d : Dev) (bits : Nat) : Dev := (d.put tpLastBits bits).tpErr 1 1 tpCntPartial

/-- Clock edges after a complete word. -/
def Dev.tpOver (d : Dev) (extra : Bool) : Dev := if extra then d.tpErr 2 2 tpCntOver else d

/-- A complete write word (R559). -/
def Dev.tpRx (d : Dev) (bits : List Bool) : Dev :=
  let n := d.get tpRxCount
  if 8 ≤ n then d.tpErr 3 4 tpCntOvf
  else
    let i := (d.get tpRxHead + n) % 8
    let len := d.tgtLen
    let d := ((d.tpStore (0x62000 + 0x400 * i) (bits.take len)).put (tpRxInfo i) len).put tpRxCount (n + 1)
    if d.is tpEvRx then d.event srcTp 0x0B04 (i + 2 ^ 16 * len) else d

/-- TP_TARGET_FRAME (R558 to R560). -/
def Dev.tpFrame (d : Dev) (cmdBits cmd : Nat) (bits : List Bool) (extra : Bool) : Dev :=
  if !d.is tpTgtEn || d.tpMastering then d
  else if cmdBits < 8 then d.tpPartial cmdBits
  else if cmd % 128 ≠ 0 then d.tpErr 5 3 tpCntCmd
  else
    let len := d.tgtLen
    let whole := decide (len ≤ bits.length)
    if cmd < 128 then
      if whole then (d.tpRx bits).tpOver extra else d.tpPartial (8 + bits.length)
    else
      let valid := d.is tpTxValid
      let word := if valid then d.tpBits 0x60800 (min len bits.length) else List.replicate (min len bits.length) false
      let d := d.emit (.tpBits true word)
      let d := if valid then d else d.tpErr 4 5 tpCntEmpty
      if whole then (if valid then d.put tpTxValid 0 else d).tpOver extra else d.tpPartial (8 + bits.length)

/-! ## The meanings -/

/-- TP_GO (R554). -/
def execTpGo (s : State) : Answer := onDev s fun d => d.tpGo

/-- TP_ABORT (R556). -/
def execTpAbort (s : State) : Answer := onDevIdle s fun d => d.tpAbort

/-- RX_POP (R559). -/
def execRxPop (s : State) : Answer :=
  onDev s fun d => if d.get tpRxCount = 0 then d else (d.put tpRxCount (d.get tpRxCount - 1)).put tpRxHead ((d.get tpRxHead + 1) % 8)

/-- TX_LOAD (R559). -/
def execTxLoad (s : State) : Answer := onDev s fun d => d.put tpTxValid 1

/-- TX_CLR (R559). -/
def execTxClr (s : State) : Answer := onDev s fun d => d.put tpTxValid 0

/-- TP_ARB_WINDOW (R547). -/
def execTpArbWindow (s : State) : Answer := onDevIdle s fun d => d.tpArbWindow

/-- TP_BUS_TIMEOUT (R547). -/
def execTpBusTimeout (s : State) : Answer := onDevIdle s fun d => d.tpBusTimeout

/-- TP_DONE (R554). -/
def execTpDone (rx : List Bool) (s : State) : Answer := onDevIdle s fun d => d.tpDone rx

/-- TP_MODE_FAULT (R548). -/
def execTpModeFault (clocks : BitVec 16) (s : State) : Answer := onDevIdle s fun d => d.tpModeFault clocks.toNat

/-- TP_TARGET_FRAME (R558). -/
def execTpTargetFrame (cmdBits : Fin 9) (cmd : Byte) (bits : List Bool) (overclock : Bool) (s : State) : Answer :=
  onDev s fun d => d.tpFrame cmdBits cmd.toNat bits overclock

/-- TP_BUSY_N_EDGE (R547). -/
def execTpBusyNEdge (level : Bool) (s : State) : Answer := onDev s fun d => d.tpBusyEdge level

end Sys2Proof.Machine
end

