-- ==== Sys2Proof/Machine/Bar0.lean ====
section
/-!
DEFINITION. BAR0 (R4 to R14, R579, R591 to R599): what a write to each register does, what a read returns, CONFIG_BLOCK (R497), and the
writes that a wake replays.
-/

namespace Sys2Proof.Machine

/-! ## Classes (R4 to R10, R579) -/

/-- The register belongs to a block that stops in P2 and P3, or lies on an edge die (R579). -/
def stoppedAt (a : Nat) : Bool :=
  (decide (0x20200 ≤ a) && decide (a < 0x20400)) || (decide (0x21200 ≤ a) && decide (a < 0x21600))
    || (decide (0x100000 ≤ a) && decide (a < 0x1200000))

/-- The write is stored now and acts at the wake. -/
def Dev.waits (d : Dev) (a : Nat) : Bool := !d.awake && stoppedAt a

/-- A locked register is written (R10, R579): `eff` is what the new word brings about. -/
def Dev.lockWrite (d : Dev) (req : Requester) (a v : Nat) (eff : Dev → Dev) : Dev :=
  if d.running (ownerAt a) then d.refuseWrite req a
  else if d.waits a then d.standbyWrite (req = .hkc) a v
  else eff (d.storeReg a v)

/-- A live register is written (R6, R579). -/
def Dev.rwWrite (d : Dev) (req : Requester) (a v : Nat) : Dev :=
  if d.waits a then d.standbyWrite (req = .hkc) a v else d.liveWrite a v

/-- A shadowed register is written; the set commits at once where its boundary stands (R7, R8, R579). -/
def Dev.rwsWrite (d : Dev) (req : Requester) (a v : Nat) : Dev :=
  match shadowBlockOf a with
  | none => d
  | some .almanac => d.almShadowWrite req a v
  | some b => if d.waits a then d.standbyWrite (req = .hkc) a v else (d.shadowWrite b a v).idleShadows

/-- A write under the access class of its register alone (R4). -/
def Dev.plainWrite (d : Dev) (req : Requester) (a v : Nat) : Dev :=
  match regInfo a with
  | none => d.bump genErrAccess
  | some r =>
    let v := v &&& r.mask
    match r.acc with
    | .ro => d
    | .rop => d
    | .wo => d
    | .w1c => d.setWord a (d.word a &&& ~~~(BitVec.ofNat 32 v))
    | .rw => d.rwWrite req a v
    | .rwl => d.lockWrite req a v fun d => d
    | .rws => d.rwsWrite req a v

/-! ## Writes that their own rule may refuse -/

/-- Channels of a site that some sequencer owns lie on one sequencer, with `own` as the owner of each quad (R27, R158). -/
def Dev.siteWhole (d : Dev) (own : Nat → Option Nat) (site : Nat) : Bool :=
  decide ((((d.siteChans site).filterMap fun c => own (quadOf c)).dedup).length ≤ 1)

/-- SITE_MAP_WRITE (R27, R28, R258). -/
def Dev.siteMapWrite (d : Dev) (req : Requester) (c v : Nat) : Dev :=
  let a := 0x1400000 + 4 * c
  let v := v % 256 &&& 0xBF
  if d.running (.siteMap c) then d.refuseWrite req a
  else
    let d' := d.setWord a (BitVec.ofNat 32 v)
    let ok := match d'.siteOf c with
      | some s => d'.siteWhole d'.quadOwner s
      | none => true
    if !ok then d.refuseWrite req a
    else if d.word a = d'.word a then d
    else { d' with led := { d'.led with mapTb := some d.tb } }

/-- The quads of sequencer `s` after a write of one of its two words. -/
def Dev.newQuads (d : Dev) (s : Nat) (hi : Bool) (v : Nat) : Nat :=
  if hi then d.get (seqQuadsLo s) + 2 ^ 32 * v else v + 2 ^ 32 * d.get (seqQuadsHi s)

/-- The sequencers that own a write of SEQ_QUADS: its own, and each that owns a quad named in it (R158). -/
def Dev.quadsOwners (d : Dev) (s : Nat) (hi : Bool) (v : Nat) : List Nat :=
  let named := if hi then 2 ^ 32 * v else v
  s :: (List.range 16).filter fun x => d.seqQuads x &&& named != 0

/-- A SEQ_QUADS write that R158 or R201 refuses. -/
def Dev.quadsBad (d : Dev) (s : Nat) (hi : Bool) (v : Nat) : Bool :=
  let new := d.newQuads s hi v
  let claims := new - (new &&& d.seqQuads s)
  let taken := (List.range 16).any fun x => x != s && d.seqQuads x &&& claims != 0
  let own (q : Nat) : Option Nat := if new.testBit q then some s else (List.range 16).find? fun x => x != s && (d.seqQuads x).testBit q
  d.is (strmAttached s) || taken || (claims != 0 && (List.range 64).any fun site => !d.siteWhole own site)

/-- SEQ_QUADS_WRITE (R158, R201). -/
def Dev.quadsWrite (d : Dev) (req : Requester) (s : Nat) (hi : Bool) (v : Nat) : Dev :=
  let a := if hi then 0x10000C + 0x10000 * s else 0x100008 + 0x10000 * s
  if ((d.quadsOwners s hi v).any fun x => d.running (.seq x)) || d.quadsBad s hi v then d.refuseWrite req a
  else if d.waits a then d.standbyWrite (req = .hkc) a v
  else d.storeReg a v

/-- A region that overlaps another's or reaches beyond the last memory line (R162). -/
def Dev.regionBad (d : Dev) (s base count : Nat) : Bool :=
  d.is (strmAttached s) || decide (3145728 < base + count)
    || (count != 0 && (List.range 16).any fun x =>
      let b := d.get (seqVbase x)
      let n := d.get (seqVlines x)
      x != s && n != 0 && decide (base < b + n) && decide (b < base + count))

/-- SEQ_REGION_WRITE (R162, R201). -/
def Dev.regionWrite (d : Dev) (req : Requester) (s : Nat) (vlines : Bool) (v : Nat) : Dev :=
  let a := if vlines then 0x100014 + 0x10000 * s else 0x100010 + 0x10000 * s
  let v := v % 2 ^ 22
  let bad := if vlines then d.regionBad s (d.get (seqVbase s)) v else d.regionBad s v (d.get (seqVlines s))
  if !d.running (.seq s) && bad then d.refuseWrite req a else d.lockWrite req a v fun d => d

/-- SEQ_FLAG_WRITE (R531). -/
def Dev.flagWrite (d : Dev) (req : Requester) (s v : Nat) : Dev :=
  let old := d.flagWritten s
  let d := d.rwWrite req (0x100028 + 0x10000 * s) (v % 256)
  if old = v % 256 then d else d.sendRaw mFlag d.flagBytes

/-- The channels that an AU_SRC word names. -/
def srcChans (v : Nat) : List Nat := (List.range (2 ^ bitsOf v 10 2)).map (· + bitsOf v 2 8)

/-- An AU_SRC word that R265 or R311 refuses for AU `a`. -/
def Dev.auSrcBad (d : Dev) (a v : Nat) : Bool :=
  let ty := bitsOf v 0 2
  let others := (List.range 32).filter fun b => b != a && d.is (auSrcEn b)
  if ty = 3 then true
  else if ty = 2 then v.testBit 31 && others.any fun b => d.get (auType b) == 2 && d.get (auTmu b) == bitsOf v 16 6
  else
    let cs := srcChans v
    let e := dieOf (bitsOf v 2 8)
    let streams := ((others.filter fun b => d.get (auType b) == 0).flatMap d.auChans).filter fun c => dieOf c == e
    (cs.any fun c => dieOf c != e || decide (256 ≤ c))
      || (v.testBit 31 && ((others.any fun b => (d.auChans b).any fun c => cs.contains c)
        || (ty == 0 && decide (16 < (streams ++ cs).dedup.length))))

/-- AU_SRC_WRITE (R265, R311). -/
def Dev.auSrcWrite (d : Dev) (req : Requester) (i v : Nat) : Dev :=
  let a := 0x200010 + 0x1000 * i
  let v := v &&& 0x803FFFFF
  if !d.running (.au i) && d.auSrcBad i v then d.refuseWrite req a else d.lockWrite req a v fun d => d

/-- An allocation that overlaps another or reaches beyond unit 511 (R268). -/
def Dev.auAllocBad (d : Dev) (i v : Nat) : Bool :=
  let b := bitsOf v 0 9
  let n := max 1 (bitsOf v 16 10)
  decide (512 < b + n) || (List.range 32).any fun x =>
    x != i && decide (b < d.get (auBase x) + max 1 (d.get (auSize x))) && decide (d.get (auBase x) < b + n)

/-- AU_ALLOC_WRITE (R268). -/
def Dev.auAllocWrite (d : Dev) (req : Requester) (i v : Nat) : Dev :=
  let a := 0x200014 + 0x1000 * i
  let v := v &&& 0x3FF01FF
  if !d.running (.au i) && d.auAllocBad i v then d.refuseWrite req a else d.lockWrite req a v fun d => d

/-! ## Blocks whose writes do more than store -/

/-- A flag of a command word. -/
def Dev.onFlag (d : Dev) (v b : Nat) (f : Dev → Dev) : Dev := if v.testBit b then f d else d

/-- A command of a stopped block is held in P2 and P3 (R579). -/
def Dev.woWrite (d : Dev) (a v : Nat) (f : Dev → Dev) : Dev := d.orHold a v f

/-- GEN_ERR_CLR (R599). -/
def Dev.errClrLocked (d : Dev) : Dev := (d.put genErrLocked 0).setWord 0x20 0
def Dev.errClrAccess (d : Dev) : Dev := d.put genErrAccess 0

/-- A write of `PWR_CTRL` (R578). -/
def Dev.pinStateWrite (d : Dev) (v : Nat) : Dev := (d.put pwrPin (v % 4)).powerIdle

/-- A write of `PWR_IDLE`: the timer that runs takes the new time (R590). -/
def Dev.idleWrite (d : Dev) (v : Nat) : Dev :=
  let old := d.idleTime
  let d := d.setWord 0x70008 (BitVec.ofNat 32 v)
  { d with pwr := { d.pwr with idleAt := d.pwr.idleAt + d.idleTime - old } }

/-- `PLL_CTRL` of CKA or CKB has taken a value (R414). -/
def Dev.pllCtrlEffect (d : Dev) (p : Nat) : Dev :=
  match d.get (pllEn p) with
  | 0 => d.pllStop p
  | 1 => if d.awake then d.pllStart p else d
  | _ => d

/-- A write in one PLL's block (R419, R426, R428). -/
def Dev.writePll (d : Dev) (req : Requester) (p o v : Nat) : Dev :=
  let a := 0x20100 + 0x100 * p + o
  match o with
  | 0x00 =>
    if p = 0 then d.lockWrite req a (v &&& 0x10 ||| 2) fun d => d
    else d.lockWrite req a (v &&& 0x1F) fun d => d.pllCtrlEffect p
  | 0x08 => if p = 0 then d else d.plainWrite req a v
  | 0x24 => d.woWrite a v fun d =>
    let d := if v.testBit 1 then d.rampStop p else d.onFlag v 0 fun d => d.rampGo p
    d.onFlag v 2 fun d => d.relock req p
  | _ => d.plainWrite req a v

/-- A write in CLK (R406, R428). -/
def Dev.writeClk (d : Dev) (req : Requester) (o v : Nat) : Dev :=
  if o = 0x0C then (if v.testBit 2 then d.syncCancel else d.onFlag v 0 fun d => d.syncRequest (v.testBit 1))
  else if 0x100 ≤ o ∧ o < 0x400 then d.writePll req ((o - 0x100) / 0x100) (o % 0x100) v
  else d.plainWrite req (0x20000 + o) v

/-- A write of a reaction word keeps the fixed bits (R469). -/
def Dev.classWrite (d : Dev) (req : Requester) (o v : Nat) : Dev :=
  d.rwsWrite req (0x30000 + o) (if o % 8 = 0 then fixedReact ((o - 0x100) / 8) v else v)

/-- A write in FCU (R462, R467, R473, R474, R479). -/
def Dev.writeFcu (d : Dev) (req : Requester) (o v : Nat) : Dev :=
  if o = 0x00 then (d.plainWrite req 0x30000 v).pinTry
  else if o = 0x08 then d.onFlag v 0 fun d => d.pinRelease
  else if o = 0x0C then d.onFlag v 0 fun d => d.firstClr
  else if o = 0x14 then
    if d.qCount < (v % 256 + 256 - d.get fcuQrd) % 256 then d else d.put fcuQrd (v % 256)
  else if o = 0x24 then d.injWrite v
  else if 0x80 ≤ o ∧ o < 0xC0 then d.sevClear ((o - 0x80) / 4) v
  else if 0x100 ≤ o ∧ o < 0x200 then d.classWrite req o v
  else d.plainWrite req (0x30000 + o) v

/-- A write in TWIN (R538, R542, R545). -/
def Dev.writeTwin (d : Dev) (req : Requester) (o v : Nat) : Dev :=
  if o = 0x00 then d.lockWrite req 0x50000 (v % 8) fun d => d.twinCtrlEffect
  else if o = 0x08 then (if v.testBit 0 then d.takeTrigger 2 else d.onFlag v 1 fun d => d.twinRelease)
  else if o = 0x2C then d.mirAck (v % 64)
  else d.plainWrite req (0x50000 + o) v

/-- A write in TP (R554, R556, R559, R563). -/
def Dev.writeTp (d : Dev) (req : Requester) (o v : Nat) : Dev :=
  if o = 0x08 then (if v.testBit 1 then d.tpAbort else d.onFlag v 0 fun d => d.tpGo)
  else if o = 0x30 then
    let d := d.onFlag v 0 fun d =>
      if d.get tpRxCount = 0 then d else (d.put tpRxCount (d.get tpRxCount - 1)).put tpRxHead ((d.get tpRxHead + 1) % 8)
    if v.testBit 2 then d.put tpTxValid 0 else d.onFlag v 1 fun d => d.put tpTxValid 1
  else d.plainWrite req (0x60000 + o) v

/-- A write in one sequencer's block (R158, R162, R189, R198). -/
def Dev.writeSeq (d : Dev) (req : Requester) (s o v : Nat) : Dev :=
  match o with
  | 0x08 => d.quadsWrite req s false v
  | 0x0C => d.quadsWrite req s true v
  | 0x10 => d.regionWrite req s false v
  | 0x14 => d.regionWrite req s true v
  | 0x28 => d.flagWrite req s v
  | 0x2C => d.woWrite (0x10002C + 0x10000 * s) v fun d => d.jumpRequest s (v % 256)
  | _ => d.plainWrite req (0x100000 + 0x10000 * s + o) v

/-- A write in one AU's block (R265, R268, R276, R279, R296). -/
def Dev.writeAu (d : Dev) (req : Requester) (i o v : Nat) : Dev :=
  match o with
  | 0x08 => d.woWrite (0x200008 + 0x1000 * i) v fun d => if v.testBit 1 then d.auDisarm i else d.onFlag v 0 fun d => d.auArm i
  | 0x0C => d.woWrite (0x20000C + 0x1000 * i) v fun d => d.onFlag v 0 fun d => d.auSwtrig i
  | 0x10 => d.auSrcWrite req i v
  | 0x14 => d.auAllocWrite req i v
  | 0x50 => d.auDrainRead i v
  | 0x58 => d.auRecRelease i v
  | _ => d.plainWrite req (0x200000 + 0x1000 * i + o) v

/-- A write in one TMU's block (R318). -/
def Dev.writeTmu (d : Dev) (req : Requester) (u o v : Nat) : Dev :=
  if o = 0x08 then
    d.woWrite (0x300008 + 0x400 * u) v fun d => if v.testBit 1 then d.tmuDisarm u else d.onFlag v 0 fun d => d.tmuArm u
  else d.plainWrite req (0x300000 + 0x400 * u + o) v

/-- A write in one engine's block (R341, R352). -/
def Dev.writeDse (d : Dev) (req : Requester) (e o v : Nat) : Dev :=
  match o with
  | 0x08 => d.woWrite (0x400008 + 0x1000 * e) v fun d =>
    if v.testBit 0 then d.dseQuiesce e (v.testBit 1) else d.onFlag v 2 fun d => d.dseResume e
  | 0x28 => d.woWrite (0x400028 + 0x1000 * e) v fun d => d.onFlag v 0 fun d => d.dseRunRow e
  | _ => d.plainWrite req (0x400000 + 0x1000 * e + o) v

/-- A write in the Almanac (R375, R398). -/
def Dev.writeAlm (d : Dev) (req : Requester) (o v : Nat) : Dev :=
  if o = 0x10 then
    let d := d.plainWrite req 0x500010 v
    if d.awake then { d with alm := { d.alm with hsel := d.get almHselIndex + 4096 * d.get almHselComp } } else d
  else if 0x10000 ≤ o ∧ o < 0x50000 then
    if (regInfo (0x500000 + o)).isSome then d.almTestWrite req ((o - 0x10000) / 64) (o / 4 % 16) v else d.plainWrite req (0x500000 + o) v
  else d.plainWrite req (0x500000 + o) v

/-- A write in one channel's block (R42, R64, R81, R108, R112, R157). -/
def Dev.writePe (d : Dev) (req : Requester) (c o v : Nat) : Dev :=
  let a := 0x1000000 + 0x1000 * c + o
  match o with
  | 0x000 => d.peCtrlWrite req c v
  | 0x008 => d.faultClearWrite a v fun d => d.peFaultClear c v
  | 0x00C => d.lvlUpdWrite req c v
  | 0x600 => d.ppmuCtrlWrite req c v
  | 0x608 => d.faultClearWrite a v fun d => d.ppmuFaultClear c v
  | 0x624 => d.woWrite a v fun d => d.wfJump c (v % 256)
  | 0xE0C => d.woWrite a v fun d => d.onFlag v 0 fun d => d.put (peTimCnt c) 0
  | _ => d.plainWrite req a v

/-- A write in the site map and ledger block (R27, R248, R263). -/
def Dev.writeLed (d : Dev) (req : Requester) (o v : Nat) : Dev :=
  if o < 0x400 then d.siteMapWrite req (o / 4) v
  else if o = 0x414 then d.hdrRelease (v % 4096)
  else if 0x1000 ≤ o ∧ o < 0x2000 ∧ o % 0x40 = 4 then d.ledRdWrite ((o - 0x1000) / 0x40) v
  else d.plainWrite req (0x1400000 + o) v

/-- Timing sets: a symbol entry with the reserved action 0b111 in either slot stays as it is (R127). -/
def Dev.tsWrite (d : Dev) (req : Requester) (a v : Nat) : Dev :=
  if 0x400 ≤ a % 0x2000 ∧ a % 0x2000 < 0x800 ∧ (bitsOf v 0 3 = 7 ∨ bitsOf v 3 3 = 7) then d.plainWrite req a (d.word a).toNat
  else d.plainWrite req a v

/-- A BAR0 write (R4, R483, R591, R592, R594): one that is not aligned is ignored, and counts nowhere. -/
def Dev.busWrite (d : Dev) (req : Requester) (a v : Nat) : Dev :=
  if a % 4 ≠ 0 then d
  else if (regInfo a).isNone then d.bump genErrAccess
  else if a = 0x28 then (d.onFlag v 0 fun d => d.errClrLocked).onFlag v 1 fun d => d.errClrAccess
  else if a = 0x10010 then d.sqEnWrite v
  else if a = 0x10014 then (d.cqEnWrite v).tellHeld
  else if a < 0x20000 then d.plainWrite req a v
  else if a < 0x30000 then d.writeClk req (a - 0x20000) v
  else if a < 0x40000 then d.writeFcu req (a - 0x30000) v
  else if a < 0x50000 then d.plainWrite req a v
  else if a < 0x60000 then d.writeTwin req (a - 0x50000) v
  else if a < 0x70000 then d.writeTp req (a - 0x60000) v
  else if a = 0x70000 then d.pinStateWrite v
  else if a = 0x70008 then d.idleWrite v
  else if a < 0x100000 then d.plainWrite req a v
  else if a < 0x200000 then d.writeSeq req ((a - 0x100000) / 0x10000) (a % 0x10000) v
  else if a < 0x300000 then d.writeAu req ((a - 0x200000) / 0x1000) (a % 0x1000) v
  else if a < 0x400000 then d.writeTmu req ((a - 0x300000) / 0x400) (a % 0x400) v
  else if a < 0x500000 then d.writeDse req ((a - 0x400000) / 0x1000) (a % 0x1000) v
  else if a < 0x800000 then d.writeAlm req (a - 0x500000) v
  else if a < 0x1000000 then d.tsWrite req a v
  else if a < 0x1100000 then d.writePe req ((a - 0x1000000) / 0x1000) (a % 0x1000) v
  else if a < 0x1400000 then d.plainWrite req a v
  else d.writeLed req (a - 0x1400000) v

/-! ## Reads (R4, R13, R14) -/

/-- The current value of a register that the device computes when it is read; none: the stored word. -/
def Dev.computed (d : Dev) (a : Nat) : Option Nat :=
  if a = 0x20018 then some (d.tb % 2 ^ 32)
  else if a = 0x2001C then some (d.tb / 2 ^ 32 % 2 ^ 32)
  else if a = 0x30004 then
    let live := match d.fcu.firstKey with
      | some k => d.fcu.live.any fun p => p.1 == k
      | none => false
    some ((putBits (putBits (d.word a).toNat 1 1 live.toNat) 5 6 d.qCount) % 2 ^ 32)
  else if a = 0x3001C then some (d.fcu.live.foldl (fun m p => m ||| 2 ^ p.2) 0)
  else if a = 0x50028 then
    some (d.mirState (d.get twinMirSel) + 2 ^ 3 * (d.mirIn 4).length + 2 ^ 10 * (d.mirIn 5).length + 2 ^ 17 * (64 - (d.mirIn 0).length))
  else if 0x51000 ≤ a ∧ a < 0x51880 then some (d.ld (mirAddr (d.get twinMirSel) + (a - 0x51000)) 4)
  else if a = 0x500004 then some (putBits (d.word a).toNat 14 1 (d.merUp && d.paired && d.is almTwinEn).toNat)
  else if 0x590000 ≤ a ∧ a < 0x591000 then some (d.almHwin ((a - 0x590000) / 4 + 1))
  else if a = 0x591000 then some (d.almHwin 0)
  else if a = 0x591004 then some (d.almHwin 1025)
  else if a = 0x1400408 then some d.mapHash
  else if a = 0x1400418 then some (3072 - d.led.poolUsed.length)
  else if 0x1401000 ≤ a ∧ a < 0x1402000 ∧ a % 0x40 = 8 then some (d.ledFree ((a - 0x1401000) / 0x40))
  else none

/-- The current value of a register; a status register of an edge die whose clocks have stopped reads its value at the stop (R579). -/
def Dev.current (d : Dev) (a : Nat) : Nat :=
  match Tab.get (fun _ => none) d.pwr.stopWords a with
  | some w => w.toNat
  | none => (d.computed a).getD (d.word a).toNat

/-- What a read returns to a requester (R4, R14, R592): a live field the value last written, a shadowed field its shadow copy. -/
def Dev.readReg (d : Dev) (req : Requester) (a : Nat) : Nat :=
  match regInfo a with
  | none => 0
  | some r =>
    match r.acc with
    | .ro => d.current a
    | .w1c => d.current a
    | .wo => 0
    | .rop => (if req = .hkc then d.host.latchHkc else d.host.latchHost).toNat &&& r.mask
    | .rw =>
      match (d.held.filter fun w => w.1 == a).getLast? with
      | some w => w.2
      | none => d.current a
    | .rwl => d.current a
    | .rws =>
      match Tab.get (fun _ => none) d.shadow a with
      | some w => w.toNat
      | none => d.current a

/-- The register at an address is the low word of a 64-bit value with a latched high word. -/
def isLowWord (a : Nat) : Bool :=
  match regInfo a, regInfo (a + 4) with
  | some _, some r => r.acc == .rop
  | _, _ => false

/-- LOW_WORD_READ (R13). -/
def Dev.lowWordRead (d : Dev) (req : Requester) (a : Nat) : Dev :=
  if isLowWord a then
    let w := BitVec.ofNat 32 (d.current (a + 4))
    if req = .hkc then { d with host := { d.host with latchHkc := w } } else { d with host := { d.host with latchHost := w } }
  else d

/-! ## Shadow commits asked for by name (R7, R9) -/

/-- SHADOW_COMMIT: the set is committed where its boundary stands now. `CLK_REF` commits at the start of SYS alone (R401). -/
def Dev.shadowCommit (d : Dev) (b : ShadowBlock) : Dev :=
  match b with
  | .clkRef => d
  | .almanac => d.almIdle
  | _ => d.idleShadows

/-! ## CONFIG_BLOCK (R7, R11, R497) -/

/-- A write of the list that R11 refuses: a locked field whose owner is running. -/
def Dev.cfgLocked (d : Dev) (w : CfgWrite) : Bool :=
  let a := w.off.toNat
  match regInfo a with
  | some r =>
    r.acc == .rwl && (d.running r.owner
      || (decide (0x100000 ≤ a) && decide (a < 0x200000) && (a % 0x10000 == 0x08 || a % 0x10000 == 0x0C)
        && (d.quadsOwners ((a - 0x100000) / 0x10000) (a % 0x10000 == 0x0C) w.val.toNat).any fun x => d.running (.seq x)))
  | none => false

/-- A write that names a reserved or RO offset. -/
def cfgOffsetBad (w : CfgWrite) : Bool :=
  match regInfo w.off.toNat with
  | some r => r.acc == .ro || r.acc == .rop
  | none => true

/-- The rule of the register would refuse the write. -/
def Dev.cfgRefused (d : Dev) (w : CfgWrite) : Bool :=
  let d := d.put genErrLocked 0
  (d.busWrite .host w.off.toNat w.val.toNat).get genErrLocked != 0

/-- The writes in list order, until one is refused; none: one is. -/
def cfgFold : List CfgWrite → Dev → Option Dev
  | [], d => some d
  | w :: ws, d => if cfgOffsetBad w || d.cfgRefused w then none else cfgFold ws (d.busWrite .host w.off.toNat w.val.toNat)

/-- The shadow sets that a list writes are committed at the boundary that the CONFIG_BLOCK names (R7). -/
def Dev.cfgCommit (d : Dev) (ws : List CfgWrite) : Dev :=
  ws.foldl (fun d w =>
    match shadowBlockOf w.off.toNat with
    | none => d
    | some .clkRef => d
    | some .almanac => d.almIdle
    | some (.pllFreq p) => d.pllCommit p
    | some b => if d.shadowPending b then d.commitShadow b else d) d

/-- A CONFIG_BLOCK acts: all of its writes or none (R11, R497). -/
def Dev.cfgApply (d : Dev) (boundary : Nat) (ws : List CfgWrite) : Dev × Nat :=
  if ws.any d.cfgLocked then (d, stLocked)
  else match cfgFold ws d with
    | none => (d, stRange)
    | some d' => (if boundary = 0 then d' else d'.cfgCommit ws, stOk)

/-- CONFIG_BLOCK (R491, R497). -/
def Dev.configBlock (d : Dev) (q : Nat) (writes : List CfgWrite) (readOk : Bool) : Dev :=
  d.onDesc q opConfigBlock fun d x w =>
    let n := dField x 10 0 16
    let b := dField x 8 0 8
    let td := dField x 16 0 64
    if !readOk || decide (writes.length < n) then d.done w stIntegrity
    else
      let ws := writes.take n
      if b = 0 ∨ (d.findRun td).isNone = true then
        let r := d.cfgApply 0 ws
        r.1.done w r.2
      else
        let d := d.accept w
        let c : CfgWait := { id := w.id, q := q, cid := w.cid, boundary := b, td := td, writes := ws, ready := false }
        { d with host := { d.host with cfgs := d.host.cfgs ++ [c] } }

/-- CONFIG_BLOCK_APPLY (R497): the boundary has been reached. -/
def Dev.configApply (d : Dev) (q : Nat) : Dev :=
  match d.host.cfgs.find? fun c => c.q == q && c.ready with
  | none => d
  | some c =>
    let d := { d with host := { d.host with cfgs := d.host.cfgs.filter fun x => x.id != c.id } }
    let r := d.cfgApply c.boundary c.writes
    r.1.done { id := c.id, q := c.q, cid := c.cid, opc := opConfigBlock } r.2

/-! ## The wake (R579) -/

/-- What a write held in standby brings about at the wake: its way to the edge die and its effect, or the command itself. -/
def Dev.replayWrite (d : Dev) (w : Bool × Nat × Nat) : Dev :=
  let a := w.2.1
  let v := w.2.2
  match regInfo a with
  | none => d
  | some r =>
    if r.acc = .wo then d.busWrite (if w.1 then .hkc else .host) a v
    else if r.acc = .w1c then d
    else if (edgeOf a).isSome then
      let old := (d.edgeWord a).toNat
      let d := d.toEdge a (BitVec.ofNat 32 v) none
      let c := (a - 0x1000000) / 0x1000
      if a < 0x1100000 then
        match a % 0x1000 with
        | 0x000 => d.peCtrlEffect c v
        | 0x00C => d.lvlUpdEffect c old v
        | 0x600 => d.ppmuCtrlEffect c old v
        | _ => if (lvlCodeAt a).isSome then d.loadLevels c (d.writtenCodes c [(a, v)]) else d
      else d
    else if a = 0x500010 then { d with alm := { d.alm with hsel := v % 2 ^ 14 } }
    else if a = 0x20200 then d.pllCtrlEffect 1
    else if a = 0x20300 then d.pllCtrlEffect 2
    else d

/-- The writes held in standby act, in order of arrival. -/
def Dev.replayHeld (d : Dev) : Dev :=
  let ws := d.pwr.heldWrites
  let d := ws.foldl (fun d w => d.replayWrite w) { d with pwr := { d.pwr with heldWrites := [] } }
  let alm := ws.any fun w => decide (0x500000 ≤ w.2.1) && decide (w.2.1 < 0x550000) && w.2.1 != 0x500010
  (if alm then d.almReconcile.almUpdate else d).almIdle

/-! ## TRIG_IN (R112, R178, R189, R281, R282) -/

/-- A TRIG_IN input that a JSRC field selects. -/
def jsrcIs (f i : Nat) : Bool := f == 4 + i

/-- TRIG_IN_EDGE: a change of an input is recognised. -/
def Dev.trigEdge (d : Dev) (i : Nat) (rise : Bool) : Dev :=
  if d.trigIn.testBit i == rise then d
  else
    let d := { d with trigIn := if rise then d.trigIn ||| 2 ^ i else d.trigIn - 2 ^ i }
    if !d.awake then d
    else
      let d := d.auEvents 7 i (some rise) (4096 * d.mclk)
      if !rise then d
      else
        let d := d.forEach ((List.range 16).filter fun s => jsrcIs (bitsOf (d.word (0x100000 + 0x10000 * s)).toNat 3 3) i) fun d s =>
          d.jumpRequest s (bitsOf (d.word (0x100000 + 0x10000 * s)).toNat 6 8)
        d.forEach (allChans.filter fun c => jsrcIs (d.eget (ppmuJsrc c)) i) fun d c =>
          if d.is (ppmuWfRun c) then (d.wfJump c (Config.wfTarget d.freeCtr c % 256)).nextFree else d

/-! ## The meanings -/

/-- REGISTER_WRITE (R4). -/
def execRegisterWrite (req : Requester) (addr : BitVec 25) (v : Word) (s : State) : Answer :=
  onDevIdle s fun d => d.busWrite req addr.toNat v.toNat

/-- LOW_WORD_READ (R13). -/
def execLowWordRead (req : Requester) (addr : BitVec 25) (s : State) : Answer := onDev s fun d => d.lowWordRead req addr.toNat

/-- GEN_ERR_CLR_LOCKED (R599). -/
def execGenErrClrLocked (s : State) : Answer := onDev s fun d => d.errClrLocked

/-- GEN_ERR_CLR_ACCESS (R599). -/
def execGenErrClrAccess (s : State) : Answer := onDev s fun d => d.errClrAccess

/-- SITE_MAP_WRITE (R27). -/
def execSiteMapWrite (req : Requester) (c : Fin 256) (v : Word) (s : State) : Answer := onDev s fun d => d.siteMapWrite req c v.toNat

/-- SEQ_QUADS_WRITE (R158). -/
def execSeqQuadsWrite (req : Requester) (n : Fin 16) (hi : Bool) (v : Word) (s : State) : Answer :=
  onDev s fun d => d.quadsWrite req n hi v.toNat

/-- SEQ_REGION_WRITE (R162). -/
def execSeqRegionWrite (req : Requester) (n : Fin 16) (vlines : Bool) (v : Word) (s : State) : Answer :=
  onDev s fun d => d.regionWrite req n vlines v.toNat

/-- SEQ_FLAG_WRITE (R531). -/
def execSeqFlagWrite (n : Fin 16) (v : Word) (s : State) : Answer := onDev s fun d => d.flagWrite .host n v.toNat

/-- AU_SRC_WRITE (R265). -/
def execAuSrcWrite (req : Requester) (a : Fin 32) (v : Word) (s : State) : Answer := onDev s fun d => d.auSrcWrite req a v.toNat

/-- AU_ALLOC_WRITE (R268). -/
def execAuAllocWrite (req : Requester) (a : Fin 32) (v : Word) (s : State) : Answer := onDev s fun d => d.auAllocWrite req a v.toNat

/-- PIN_STATE_WRITE (R578). -/
def execPinStateWrite (v : Word) (s : State) : Answer := onDev s fun d => d.pinStateWrite v.toNat

/-- SHADOW_COMMIT (R7). -/
def execShadowCommit (blk : ShadowBlock) (s : State) : Answer := onDev s fun d => d.shadowCommit blk

/-- CONFIG_BLOCK (R497). -/
def execConfigBlock (q : Fin 16) (writes : List CfgWrite) (readOk : Bool) (s : State) : Answer :=
  onDevIdle s fun d => d.configBlock q writes readOk

/-- CONFIG_BLOCK_APPLY (R497). -/
def execConfigBlockApply (q : Fin 16) (s : State) : Answer := onDevIdle s fun d => d.configApply q

/-- TRIG_IN_EDGE (R282). -/
def execTrigInEdge (i : Fin 4) (rise : Bool) (s : State) : Answer := onDev s fun d => d.trigEdge i rise

end Sys2Proof.Machine
end

