-- ==== Sys2Proof/Machine/Dsp.lean ====
section
/-!
DEFINITION. The DSP instruction set (chapter 11): fields and reserved encodings, exact arithmetic, moves, control, and one
instruction of an engine. Registers are held as bit patterns under their codes of R361.
-/

namespace Sys2Proof.Machine

/-! ## Fields (R353 to R355, R361, R367) -/

/-- Bits of an instruction, `hi` down to `lo`. -/
def iBits (w hi lo : Nat) : Nat := bitsOf w lo (hi + 1 - lo)

def iOpc (w : Nat) : Nat := iBits w 63 58
def iS (w : Nat) : Bool := w.testBit 57
def iRnd (w : Nat) : Bool := w.testBit 56
def iShift (w : Nat) : Nat := iBits w 55 50
def iDst (w : Nat) : Nat := iBits w 49 46
def iSa (w : Nat) : Nat := iBits w 45 42
def iSb (w : Nat) : Nat := iBits w 41 38
def iAd (w : Nat) : Nat := iBits w 37 36
def iAop (w : Nat) : Nat := iBits w 35 34
def iX (w : Nat) : Nat := iBits w 33 32
def iHalf (w : Nat) : Bool := w.testBit 34
def iTarget (w : Nat) : Nat := iBits w 44 32
def iCnt (w : Nat) : Nat := iBits w 53 50

/-- A move slot: 0 or 1. -/
def iSlot (w n : Nat) : Nat := iBits w (16 * n + 15) (16 * n)
def mMop (m : Nat) : Nat := bitsOf m 13 3
def mReg (m : Nat) : Nat := bitsOf m 9 4
def mPtr (m : Nat) : Nat := bitsOf m 6 3
def mPm (m : Nat) : Nat := bitsOf m 4 2

/-- The bits of [57:32] that an opcode uses (R362, R361, R367), as a mask of bits 25 to 0; none: the opcode is reserved. -/
def opFields (opc : Nat) : Option Nat :=
  let s := 0x2000000
  let rnd := 0x1000000
  let sh := 0x0FC0000
  let dst := 0x003C000
  let sa := 0x0003C00
  let sb := 0x00003C0
  let ad := 0x30
  let aop := 0xC
  let x := 0x3
  match opc with
  | 0x00 => some 0
  | 0x01 => some 0
  | 0x02 => some (0x3C00000 + 0x1FFF)
  | 0x03 => some (0x03C0000 + 0x1FFF)
  | 0x04 => some (0x03C0000 + 0x0020000 + 0xFFFF)
  | 0x08 => some (s + sa + sb + aop)
  | 0x09 => some (s + sa + sb + ad + aop)
  | 0x0A => some (s + sa + sb + ad + aop + 1)
  | 0x0B => some (sh + dst + sa + sb + x)
  | 0x10 => some (s + rnd + sh + dst + sa + sb + 4)
  | 0x11 => some (s + rnd + sh + dst + sa + sb + 4)
  | 0x12 => some (dst + sa + sb + 4)
  | 0x13 => some (dst + sa + sb + 4)
  | 0x14 => some (s + dst + sa + 4)
  | 0x15 => some (s + dst + sa + 4)
  | 0x16 => some (dst + sa + sb)
  | 0x17 => some (dst + sa + sb)
  | 0x18 => some (dst + sa + sb)
  | 0x19 => some (s + rnd + sh + dst + sa + 4 + 1)
  | 0x1A => some (sa + sb)
  | 0x20 => some (s + ad + aop + x)
  | 0x21 => some (s + rnd + sh + dst + ad + aop)
  | 0x22 => some (s + sh + sa + ad + aop)
  | 0x23 => some (aop + x)
  | 0x30 => some 0x0003FFC0
  | 0x31 => some 0x3F000FF
  | _ => none

/-- The width of a register code; 0: reserved (R361). -/
def regWidth (c : Nat) : Nat :=
  if c < 0x10 then 40 else if c < 0x14 then 48 else if c < 0x18 then 0 else if c < 0x38 then 24
  else match c with
    | 0x38 => 40
    | 0x39 => 16
    | 0x3A => 16
    | _ => 0

/-- A move slot is well formed (R355, R356). -/
def moveOk (m : Nat) : Bool :=
  if mMop m = 0 then m == 0
  else decide (mMop m < 6) && m % 16 == 0 && (mMop m != 5 || mReg m == 0)

/-- The two slots may stand together (R356). -/
def movesOk (m0 m1 : Nat) : Bool :=
  let ld (m : Nat) : Bool := mMop m == 1 || mMop m == 3 || mMop m == 4
  let both := mMop m0 != 0 && mMop m1 != 0
  let pair := (mMop m0 == 3 && mMop m1 == 4) || (mMop m0 == 4 && mMop m1 == 3)
  moveOk m0 && moveOk m1 && !(both && mPtr m0 == mPtr m1) && !(ld m0 && ld m1 && mReg m0 == mReg m1 && !pair)

/-- An instruction is no reserved encoding (R356). -/
def encodingOk (w : Nat) : Bool :=
  let opc := iOpc w
  match opFields opc with
  | none => false
  | some mask =>
    let body := iBits w 57 32
    let shiftOk := [0x10, 0x11, 0x19, 0x21, 0x22].contains opc
    (body &&& mask) == body
      && (opc == 0x31 || movesOk (iSlot w 0) (iSlot w 1))
      && (!shiftOk || decide (iShift w < 40))
      && (opc != 0x02 || decide (iBits w 57 54 < 0xC))
      && (opc != 0x04 || !w.testBit 49 || iBits w 47 32 == 0)
      && (opc != 0x0A || iAd w % 2 == 0)
      && (!(opc == 0x21 || opc == 0x22) || iAop w != 3)
      && (opc != 0x30 || (regWidth (iBits w 49 44) != 0 && regWidth (iBits w 43 38) != 0))
      && (opc != 0x31 || regWidth (iBits w 57 52) != 0)

/-! ## Arithmetic (R342 to R344, R348) -/

/-- A value brought into a signed range of `w` bits: the pattern, and whether it saturated or wrapped. -/
structure Fit where
  bits : Nat
  sat  : Bool
  wrap : Bool
  deriving DecidableEq, Repr

def fit (w : Nat) (s : Bool) (x : Int) : Fit :=
  if -(2 : Int) ^ (w - 1) ≤ x ∧ x < (2 : Int) ^ (w - 1) then { bits := ofSigned w x, sat := false, wrap := false }
  else if s then
    { bits := if x < 0 then 2 ^ (w - 1) else 2 ^ (w - 1) - 1, sat := true, wrap := false }
  else { bits := ofSigned w x, sat := false, wrap := true }

/-- A right shift by r with rounding half up (R344). -/
def shiftRound (x : Int) (r : Nat) (rnd : Bool) : Int :=
  let h : Int := if rnd ∧ 0 < r then 2 ^ (r - 1) else 0
  (x + h) / 2 ^ r

/-- The accumulate operations (R362). -/
def accOp (aop : Nat) (a v : Int) : Int :=
  match aop with
  | 0 => a + v
  | 1 => a - v
  | 2 => v
  | _ => -v

/-- What an operation gives: register writes in order, Z and N, V, and the sticky flags. -/
structure OpOut where
  wr : List (Nat × Nat)
  zn : Option (Bool × Bool)
  v  : Option Bool
  sv : Bool
  gv : Bool
  deriving DecidableEq, Repr

def OpOut.none_ : OpOut := { wr := [], zn := none, v := none, sv := false, gv := false }

/-- Several fitted results written to registers; Z and N as given. -/
def OpOut.ofFits (rs : List (Nat × Fit)) (zn : Option (Bool × Bool)) : OpOut :=
  let sat := rs.any fun p => p.2.sat
  let wrap := rs.any fun p => p.2.wrap
  { wr := rs.map fun p => (p.1, p.2.bits), zn := zn, v := some (sat || wrap), sv := sat, gv := wrap }

/-- Z and N of a pattern of `w` bits. -/
def znOf (w n : Nat) : Bool × Bool := (decide (n % 2 ^ w = 0), decide (toSigned w n < 0))

/-- One whole-register result with Z and N (R363). -/
def OpOut.whole (c w : Nat) (f : Fit) : OpOut := OpOut.ofFits [(c, f)] (some (znOf w f.bits))

/-- Both halves of a register put together. -/
def packHalves (lo hi : Nat) : Nat := lo % 2 ^ 20 + 2 ^ 20 * (hi % 2 ^ 20)

/-- A result on packed halves (R363: Z and N unchanged). -/
def OpOut.halves (c : Nat) (lo hi : Fit) : OpOut :=
  { wr := [(c, packHalves lo.bits hi.bits)], zn := none, v := some (lo.sat || lo.wrap || hi.sat || hi.wrap),
    sv := lo.sat || hi.sat, gv := lo.wrap || hi.wrap }

/-- A register as it stands. -/
def rGet (rf : Tab Nat) (c : Nat) : Nat := Tab.get (fun _ => 0) rf c

def dVal (rf : Tab Nat) (i : Nat) : Int := toSigned 40 (rGet rf (i % 16))
def dLo (rf : Tab Nat) (i : Nat) : Int := toSigned 20 (rGet rf (i % 16) % 2 ^ 20)
def dHi (rf : Tab Nat) (i : Nat) : Int := toSigned 20 (rGet rf (i % 16) / 2 ^ 20)
def aVal (rf : Tab Nat) (i : Nat) : Int := toSigned 48 (rGet rf (0x10 + i))

/-- The product of R342 under MODE.FRAC. -/
def product (rf : Tab Nat) (x y : Int) : Int := if (rGet rf 0x3A).testBit 0 then 2 * (x * y) else x * y

/-- Half i, from 0 to 3, of a source pair (R364). -/
def pairHalf (rf : Tab Nat) (base i : Nat) : Int :=
  if i % 2 = 0 then dLo rf (base + i / 2) else dHi rf (base + i / 2)

/-- A two-operand operation on whole registers or halves, exact, then shifted and fitted. -/
def binOp (w : Nat) (rf : Tab Nat) (f : Int → Int → Int) (shift : Bool) : OpOut :=
  let r := if shift then iShift w else 0
  let g (n : Nat) (x : Int) : Fit := fit n (iS w) (shiftRound x r (iRnd w))
  if iHalf w then OpOut.halves (iDst w) (g 20 (f (dLo rf (iSa w)) (dLo rf (iSb w)))) (g 20 (f (dHi rf (iSa w)) (dHi rf (iSb w))))
  else OpOut.whole (iDst w) 40 (g 40 (f (dVal rf (iSa w)) (dVal rf (iSb w))))

/-- A one-operand operation. -/
def unOp (w : Nat) (rf : Tab Nat) (f : Int → Int) : OpOut :=
  if iHalf w then OpOut.halves (iDst w) (fit 20 (iS w) (f (dLo rf (iSa w)))) (fit 20 (iS w) (f (dHi rf (iSa w))))
  else OpOut.whole (iDst w) 40 (fit 40 (iS w) (f (dVal rf (iSa w))))

/-- A bitwise operation. -/
def bitOp (w : Nat) (rf : Tab Nat) (f : Nat → Nat → Nat) : OpOut :=
  let v := f (rGet rf (iSa w)) (rGet rf (iSb w)) % 2 ^ 40
  { wr := [(iDst w, v)], zn := some (znOf 40 v), v := some false, sv := false, gv := false }

/-- One add-compare-select (R348): the chosen value and the decision bit. -/
def acs (min_ : Bool) (s t : Nat) (m0 m1 : Int) : Nat × Nat :=
  let x := ofSigned 40 ((s : Int) + m0)
  let y := ofSigned 40 ((t : Int) + m1)
  let d := toSigned 40 (ofSigned 40 ((x : Int) - y))
  let takeX := if min_ then decide (d ≤ 0) else decide (0 ≤ d)
  if takeX then (x, 0) else (y, 1)

/-- The ACS units of one instruction (R366): register writes and decision bits, unit 0 first. -/
def acsUnits (w : Nat) (rf : Tab Nat) : List (Nat × Nat × Nat) :=
  (List.range (iX w + 1)).map fun i =>
    let s := rGet rf (if w.testBit 50 then iSa w else (iSa w + i) % 16)
    let t := rGet rf (if w.testBit 51 then iSb w else (iSb w + i) % 16)
    let mb := iBits w 55 52
    let r := acs ((rGet rf 0x3A).testBit 1) s t (dLo rf (mb + i)) (dHi rf (mb + i))
    ((iDst w + i) % 16, r.1, r.2)

/-- The value of a register as MOV reads it (R361). -/
def movRead (rf : Tab Nat) (c : Nat) : Int :=
  if c < 0x14 ∨ (0x20 ≤ c ∧ c < 0x28) then toSigned (regWidth c) (rGet rf c) else rGet rf c

/-- A register written by MOV or LDI: modulo its width, reserved bits of ST and MODE as 0 (R361). -/
def movWrite (c : Nat) (v : Int) : Nat × Nat :=
  let n := ofSigned (regWidth c) v
  (c, if c = 0x39 then n % 64 else if c = 0x3A then n % 4 else n)

/-- The operation of an instruction (R362), formed from the registers at its start. -/
def dspOp (w : Nat) (rf : Tab Nat) : OpOut :=
  let aop := iAop w
  let accFit (i : Nat) (v : Int) : Nat × Fit := (0x10 + i, fit 48 (iS w) (accOp aop (aVal rf i) v))
  match iOpc w with
  | 0x03 => { OpOut.none_ with wr := [(iCnt w, ofSigned 40 (dVal rf (iCnt w) - 1))] }
  | 0x08 =>
    OpOut.ofFits ((List.range 4).map fun i => accFit i (product rf (pairHalf rf (iSa w) i) (pairHalf rf (iSb w) i))) none
  | 0x09 =>
    let v := ((List.range 4).map fun i => product rf (pairHalf rf (iSa w) i) (pairHalf rf (iSb w) i)).sum
    OpOut.whole (0x10 + iAd w) 48 (accFit (iAd w) v).2
  | 0x0A =>
    let yi := if w.testBit 32 then - dHi rf (iSb w) else dHi rf (iSb w)
    let xr := dLo rf (iSa w)
    let xi := dHi rf (iSa w)
    let yr := dLo rf (iSb w)
    let p (x y : Int) : Int := product rf x y
    OpOut.ofFits [accFit (iAd w) (p xr yr - p xi yi), accFit (iAd w + 1) (p xr yi + p xi yr)] none
  | 0x0B =>
    let us := acsUnits w rf
    let trc := us.foldl (fun t u => (2 * t + u.2.2) % 2 ^ 40) (rGet rf 0x38)
    { OpOut.none_ with wr := us.map (fun u => (u.1, u.2.1)) ++ [(0x38, trc)] }
  | 0x10 => binOp w rf (fun a b => a + b) true
  | 0x11 => binOp w rf (fun a b => a - b) true
  | 0x12 => binOp w rf (fun a b => if a ≤ b then a else b) false
  | 0x13 => binOp w rf (fun a b => if a ≤ b then b else a) false
  | 0x14 => unOp w rf fun a => if a < 0 then -a else a
  | 0x15 => unOp w rf fun a => -a
  | 0x16 => bitOp w rf fun a b => a &&& b
  | 0x17 => bitOp w rf fun a b => a ||| b
  | 0x18 => bitOp w rf fun a b => a ^^^ b
  | 0x19 =>
    if w.testBit 32 then unOp w rf fun a => a * 2 ^ iShift w
    else
      let g (n : Nat) (x : Int) : Fit := fit n (iS w) (shiftRound x (iShift w) (iRnd w))
      if iHalf w then OpOut.halves (iDst w) (g 20 (dLo rf (iSa w))) (g 20 (dHi rf (iSa w)))
      else OpOut.whole (iDst w) 40 (g 40 (dVal rf (iSa w)))
  | 0x1A =>
    let x := dVal rf (iSa w) - dVal rf (iSb w)
    { OpOut.none_ with zn := some (decide (x = 0), decide (x < 0)), v := some false }
  | 0x20 => OpOut.whole (0x10 + iAd w) 48 (accFit (iAd w) (aVal rf (iX w))).2
  | 0x21 =>
    let y := shiftRound (aVal rf (iAd w)) (iShift w) (iRnd w)
    let old := rGet rf (iDst w)
    (match aop with
    | 0 => OpOut.whole (iDst w) 40 (fit 40 (iS w) y)
    | 1 =>
      let f := fit 20 (iS w) y
      { OpOut.whole (iDst w) 20 f with wr := [(iDst w, packHalves f.bits (old / 2 ^ 20))] }
    | _ =>
      let f := fit 20 (iS w) y
      { OpOut.whole (iDst w) 20 f with wr := [(iDst w, packHalves old f.bits)] })
  | 0x22 =>
    let src := if aop = 0 then dVal rf (iSa w) else if aop = 1 then dLo rf (iSa w) else dHi rf (iSa w)
    OpOut.whole (0x10 + iAd w) 48 (fit 48 (iS w) (src * 2 ^ iShift w))
  | 0x23 => { OpOut.none_ with wr := (maskList 4 (iBits w 35 32)).map fun i => (0x10 + i, 0) }
  | 0x30 => { OpOut.none_ with wr := [movWrite (iBits w 49 44) (movRead rf (iBits w 43 38))] }
  | 0x31 => { OpOut.none_ with wr := [movWrite (iBits w 57 52) (toSigned 40 (iBits w 39 0))] }
  | _ => OpOut.none_

/-! ## Control (R367 to R372) -/

/-- A branch condition on ST (R368). -/
def brCond (cond st : Nat) : Bool :=
  let z := st.testBit 0
  let n := st.testBit 1
  match cond with
  | 0x0 => true
  | 0x1 => z
  | 0x2 => !z
  | 0x3 => n
  | 0x4 => !n
  | 0x5 => !z && !n
  | 0x6 => z || n
  | 0x7 => st.testBit 2
  | 0x8 => !st.testBit 2
  | 0x9 => st.testBit 3
  | 0xA => st.testBit 4
  | 0xB => st.testBit 5
  | _ => false

/-- An instruction branches. -/
def branches (w : Nat) (rf : Tab Nat) : Bool :=
  match iOpc w with
  | 0x02 => brCond (iBits w 57 54) (rGet rf 0x39)
  | 0x03 => ofSigned 40 (dVal rf (iCnt w) - 1) != 0
  | _ => false

/-! ## Moves (R346, R355, R373) -/

/-- Where a data address lies (R326): a local word, a view element, or nowhere. -/
inductive Place where
  | loc (i : Nat)
  | elem (k i : Nat)
  | out
  deriving DecidableEq, Repr

def placeOf (a : Nat) : Place :=
  if a < 0x10000 then .loc a
  else if 0x100000 ≤ a ∧ a < 0x500000 then .elem (a / 0x100000 - 1) (a % 0x100000)
  else .out

/-- The moves of an instruction: slots that do one. -/
def movesOf (w : Nat) : List Nat :=
  if iOpc w = 0x31 then [] else [iSlot w 0, iSlot w 1].filter fun m => mMop m != 0

/-- A move loads. -/
def isLoad (m : Nat) : Bool := mMop m == 1 || mMop m == 3 || mMop m == 4

/-- The address of a move. -/
def moveAddr (rf : Tab Nat) (m : Nat) : Nat := rGet rf (0x18 + mPtr m)

/-- The pointer after a move (R346). -/
def postMod (rf : Tab Nat) (m : Nat) : Nat :=
  let k := mPtr m
  let p : Int := rGet rf (0x18 + k)
  let n : Int := match mPm m with
    | 1 => 1
    | 2 => -1
    | _ => toSigned 24 (rGet rf (0x20 + k))
  let l : Int := rGet rf (0x28 + k)
  let b : Int := rGet rf (0x30 + k)
  if mPm m = 0 then p.toNat
  else if l = 0 then ofSigned 24 (p + n)
  else ofSigned 24 (b + (p - b + n) % l)

/-- A write of a move to the register file: what a load brings. -/
def loadInto (rf : Tab Nat) (m v : Nat) : Tab Nat :=
  let old := rGet rf (mReg m)
  let n := match mMop m with
    | 1 => v % 2 ^ 40
    | 3 => packHalves v (old / 2 ^ 20)
    | _ => packHalves old v
  Tab.set (fun _ => 0) rf (mReg m) n

/-! ## One instruction (R357 to R360) -/

/-- The word a load reads, and whether it fell outside its view (R331). -/
def Dev.moveRead (d : Dev) (e : Nat) (j : Job) (a : Nat) : Nat × Bool :=
  match placeOf a with
  | .loc i => (d.localWord e i, false)
  | .elem k i =>
    let v := j.views.getD k View.none_
    if i < v.count then (d.viewElem j v i, false) else (0, true)
  | .out => (0, false)

/-- The stalls of the view reads of an instruction, in slot order, and the last elements read (R327, R359). -/
def viewStalls (free : Nat) : List Nat → List (Nat × Nat) → Nat × List (Nat × Nat)
  | [], last => (0, last)
  | a :: as_, last =>
    match placeOf a with
    | .elem k i =>
      let next := (last.find? fun p => p.1 == k).map fun p => p.2 + 1
      let r := viewStalls (free + 1) as_ ((k, i) :: last.filter fun p => p.1 != k)
      (r.1 + (if next = some i then 0 else Config.viewStall free % 161), r.2)
    | _ => viewStalls free as_ last

/-- Register writes in order. -/
def rWrites (rf : Tab Nat) (l : List (Nat × Nat)) : Tab Nat := l.foldl (fun t p => Tab.set (fun _ => 0) t p.1 p.2) rf

/-- A bit of ST set or cleared. -/
def stBit (st b : Nat) (v : Bool) : Nat := putBits st b 1 v.toNat

/-- ST after an operation and its moves. -/
def newSt (st : Nat) (o : OpOut) (vr : Bool) : Nat :=
  let st := match o.wr.find? fun p => p.1 == 0x39 with
    | some p => p.2
    | none => st
  let st := match o.zn with
    | some zn => stBit (stBit st 0 zn.1) 1 zn.2
    | none => st
  let st := match o.v with
    | some v => stBit st 2 v
    | none => st
  let st := if o.sv then stBit st 3 true else st
  let st := if o.gv then stBit st 4 true else st
  if vr then stBit st 5 true else st

/-- The cycles of an instruction count (R359). -/
def Dev.addCycles (d : Dev) (e n : Nat) : Dev :=
  d.put2 (dseCntCyc e) (dseCntCycHi e) ((d.get2 (dseCntCyc e) (dseCntCycHi e) + n) % 2 ^ 64)

/-- What follows an instruction in the program: pc and repetitions left. -/
def nextPc (x : Dse) (w : Nat) : Nat × Option Nat :=
  if iOpc w = 0x04 then
    let n := if w.testBit 49 then rGet x.rf (iCnt w) % 65536 else iBits w 47 32
    if n = 0 then (x.pc + 2, none) else (x.pc + 1, some n)
  else match x.rep with
    | some n => if n ≤ 1 then (x.pc + 1, none) else (x.pc, some (n - 1))
    | none => if branches w x.rf then (iTarget w, none) else (x.pc + 1, none)

/-- The active job of an engine ends; a device left idle goes on to its idle timers (R575). -/
def Dev.jobOver (d : Dev) (e : Nat) (how : JobEnd) : Dev := (d.jobEnd e how).idleNote d

/-- One instruction of a job (R357): every read, then the operation, then the writes; an instruction with a kernel error
writes nothing (R360). -/
def Dev.dspInstr (d : Dev) (e : Nat) (j : Job) (w : Nat) : Dev :=
  let x := d.dse e
  let ms := movesOf w
  let nextW := d.ld (dseInstr e (x.pc + 1)) 8
  let badRep := iOpc w == 0x04 && decide (x.pc + 1 < x.code) && inRange 1 4 (iOpc nextW)
  if !encodingOk w || badRep then d.jobOver e (.err 1)
  else if ms.any fun m => placeOf (moveAddr x.rf m) == .out then d.jobOver e (.err 2)
  else
    let reads := (ms.filter isLoad).map (moveAddr x.rf)
    let st := viewStalls d.freeCtr reads x.lastV
    let cyc := 1 + (branches w x.rf).toNat + st.1
    if x.limit ≠ 0 ∧ x.limit < x.cycles + cyc then d.jobOver e (.err 3)
    else
      let d := { d with freeCtr := d.freeCtr + 2 }
      let o := dspOp w x.rf
      let got := ms.map fun m => (m, d.moveRead e j (moveAddr x.rf m))
      let vr := got.any fun p => if isLoad p.1 then p.2.2 else (match placeOf (moveAddr x.rf p.1) with
        | .elem _ _ => true
        | _ => false)
      let rf := rWrites x.rf o.wr
      let rf := got.foldl (fun t p => if isLoad p.1 then loadInto t p.1 p.2.1 else t) rf
      let d := ms.foldl (fun d m =>
        if isLoad m then d
        else match placeOf (moveAddr x.rf m) with
          | .loc i => d.setLocal e i (if mMop m = 5 then rGet x.rf 0x38 else rGet x.rf (mReg m))
          | _ => d) d
      let rf := ms.foldl (fun t m =>
        let c := 0x18 + mPtr m
        if mPm m = 0 ∨ o.wr.any (fun p => p.1 == c) = true then t else Tab.set (fun _ => 0) t c (postMod x.rf m)) rf
      let rf := Tab.set (fun _ => 0) rf 0x39 (newSt (rGet x.rf 0x39) o vr)
      let n := nextPc x w
      let d := (d.addCycles e cyc).setDse e
        { d.dse e with rf := rf, pc := n.1, rep := n.2, cycles := x.cycles + cyc, lastV := st.2 }
      if iOpc w = 0x01 then d.jobOver e .halt else d

/-- An engine with an active job executes the instruction at its program counter, if its opcode is `opc`. A program counter
at or beyond CODE and an opcode that the table does not list are kernel errors, whichever instruction is awaited (R336). -/
def Dev.dspStep (d : Dev) (e opc : Nat) : Dev :=
  let x := d.dse e
  match x.job with
  | none => d
  | some j =>
    if x.code ≤ x.pc then d.jobOver e (.err 4)
    else
      let w := d.ld (dseInstr e x.pc) 8
      if (opFields (iOpc w)).isNone then d.jobOver e (.err 1)
      else if iOpc w = opc then d.dspInstr e j w
      else d

/-! ## The meanings: an engine executes one instruction of each opcode (R362) -/

/-- DSP NOP. -/
def execDspNop (e : Fin 16) (s : State) : Answer := onDev s fun d => d.dspStep e 0x00

/-- DSP HALT. -/
def execDspHalt (e : Fin 16) (s : State) : Answer := onDev s fun d => d.dspStep e 0x01

/-- DSP BR. -/
def execDspBr (e : Fin 16) (s : State) : Answer := onDev s fun d => d.dspStep e 0x02

/-- DSP DBNZ. -/
def execDspDbnz (e : Fin 16) (s : State) : Answer := onDev s fun d => d.dspStep e 0x03

/-- DSP REP. -/
def execDspRep (e : Fin 16) (s : State) : Answer := onDev s fun d => d.dspStep e 0x04

/-- DSP MAC4. -/
def execDspMac4 (e : Fin 16) (s : State) : Answer := onDev s fun d => d.dspStep e 0x08

/-- DSP MACS. -/
def execDspMacs (e : Fin 16) (s : State) : Answer := onDev s fun d => d.dspStep e 0x09

/-- DSP CMAC. -/
def execDspCmac (e : Fin 16) (s : State) : Answer := onDev s fun d => d.dspStep e 0x0A

/-- DSP ACS. -/
def execDspAcs (e : Fin 16) (s : State) : Answer := onDev s fun d => d.dspStep e 0x0B

/-- DSP ADD. -/
def execDspAdd (e : Fin 16) (s : State) : Answer := onDev s fun d => d.dspStep e 0x10

/-- DSP SUB. -/
def execDspSub (e : Fin 16) (s : State) : Answer := onDev s fun d => d.dspStep e 0x11

/-- DSP MIN. -/
def execDspMin (e : Fin 16) (s : State) : Answer := onDev s fun d => d.dspStep e 0x12

/-- DSP MAX. -/
def execDspMax (e : Fin 16) (s : State) : Answer := onDev s fun d => d.dspStep e 0x13

/-- DSP ABS. -/
def execDspAbs (e : Fin 16) (s : State) : Answer := onDev s fun d => d.dspStep e 0x14

/-- DSP NEG. -/
def execDspNeg (e : Fin 16) (s : State) : Answer := onDev s fun d => d.dspStep e 0x15

/-- DSP AND. -/
def execDspAnd (e : Fin 16) (s : State) : Answer := onDev s fun d => d.dspStep e 0x16

/-- DSP OR. -/
def execDspOr (e : Fin 16) (s : State) : Answer := onDev s fun d => d.dspStep e 0x17

/-- DSP XOR. -/
def execDspXor (e : Fin 16) (s : State) : Answer := onDev s fun d => d.dspStep e 0x18

/-- DSP SHF. -/
def execDspShf (e : Fin 16) (s : State) : Answer := onDev s fun d => d.dspStep e 0x19

/-- DSP CMP. -/
def execDspCmp (e : Fin 16) (s : State) : Answer := onDev s fun d => d.dspStep e 0x1A

/-- DSP ACC. -/
def execDspAcc (e : Fin 16) (s : State) : Answer := onDev s fun d => d.dspStep e 0x20

/-- DSP STA. -/
def execDspSta (e : Fin 16) (s : State) : Answer := onDev s fun d => d.dspStep e 0x21

/-- DSP LDA. -/
def execDspLda (e : Fin 16) (s : State) : Answer := onDev s fun d => d.dspStep e 0x22

/-- DSP CLRA. -/
def execDspClra (e : Fin 16) (s : State) : Answer := onDev s fun d => d.dspStep e 0x23

/-- DSP MOV. -/
def execDspMov (e : Fin 16) (s : State) : Answer := onDev s fun d => d.dspStep e 0x30

/-- DSP LDI. -/
def execDspLdi (e : Fin 16) (s : State) : Answer := onDev s fun d => d.dspStep e 0x31

end Sys2Proof.Machine
end

