-- ==== Sys2Proof/Machine/Power.lean ====
section
/-!
DEFINITION. Rails, resets, power states, firmware images, the flash as the host reaches it, and the service of sectors and edge dies
(R15 to R17, R30, R40, R415, R496, R564 to R588, R617, R621).
-/

namespace Sys2Proof.Machine

/-! ## Resets (R568 to R571, R597, R621) -/

/-- The identity header passes its check: its serial number (R621). -/
def NonVol.serial (nv : NonVol) : Nat :=
  let a := 0x1800000
  if nv.ld a 2 = 0x1DE7 ∧ nv.ld (a + 4) 2 = 0xC256 ∧ nv.ld (a + 60) 4 = crcOf (nv.bytes a 60) then nv.ld (a + 8) 8 else 0

/-- `GEN_SERIAL` and `GEN_SERIAL_HI` as PORST loads them. -/
def Dev.loadSerial (d : Dev) (nv : NonVol) : Dev := d.put2 genSerialLo genSerialHi nv.serial

/-- PORST_N is low: everything but the flash, the levels at the balls and what has left the device is reset; FAULT_N is low and the edge
dies are held parked (R75, R472, R523, R568). -/
def Dev.porst (nv : NonVol) (d : Dev) (roleB : Bool) : Dev :=
  let n := Dev.init
  let n := { n with
    out := d.out, freeCtr := d.freeCtr, trigIn := d.trigIn
    pwr := { PwrSt.init with porstLow := true, parkIn := d.pwr.parkIn }
    tp := { TpSt.init with busyLow := d.tp.busyLow } }
  let n := ((n.loadSerial nv).putB twinRole roleB).put fcuFaultLow 1
  (n.putB twinParkIn d.pwr.parkIn).tpLine.forEach [0, 1, 2, 3] fun d e => d.edgePark e

/-! ### Firmware images (R16, R580 to R582) -/

/-- The region of an image, and its commit page. -/
def fwBase (i : Nat) : Nat := 0x400000 * (i % 2)
def fwPage (i : Nat) : Nat := fwBase i + 0x3FF000

/-- The commit page of an image is erased. -/
def NonVol.fwErased (nv : NonVol) (i : Nat) : Bool := nv.ld (fwPage i) 8 == 2 ^ 64 - 1

/-- The CRC-32 over an image. -/
def NonVol.fwCrc (nv : NonVol) (i : Nat) : Nat := crcOf (nv.bytes (fwBase i) 0x3FF000)

/-- An image whose commit page and CRC are good. -/
def NonVol.fwGood (nv : NonVol) (i : Nat) : Bool := !nv.fwErased i && nv.ld (fwPage i + 4) 4 == nv.fwCrc i

/-- The activation number of an image; 0 where its commit page is erased. -/
def NonVol.fwAct (nv : NonVol) (i : Nat) : Nat := if nv.fwErased i then 0 else nv.ld (fwPage i) 4

/-- The image that a boot loads (R580). -/
def NonVol.fwBest (nv : NonVol) : Option Nat :=
  match nv.fwGood 0, nv.fwGood 1 with
  | true, true => if nv.fwAct 0 < nv.fwAct 1 then some 1 else some 0
  | true, false => some 0
  | false, true => some 1
  | false, false => none

/-- The commit page of an image is programmed with an activation number one above the other's (R582). -/
def NonVol.fwCommit (nv : NonVol) (i : Nat) : NonVol :=
  (nv.erase (fwPage i) 0x1000).write (fwPage i) (toBytes 4 (nv.fwAct (1 - i % 2) + 1) ++ toBytes 4 (nv.fwCrc i))

/-- The version of an image. -/
def NonVol.version (nv : NonVol) (i : Nat) : Nat := Tab.get (fun _ => 0) nv.vers i

/-- The calibration bank is loaded, and recomputation begins (R439, R450, R571). -/
def Dev.calStart (d : Dev) (nv : NonVol) : Dev :=
  let d := d.calBoot nv
  { d with cal := { d.cal with due := d.mclk + us (1000 * max 10 (d.get calPeriod)) } }

/-- BOOT: PORST_N has risen and the HKC has finished (R571, R580). -/
def Dev.boot (nv : NonVol) (d : Dev) : Dev :=
  if d.pwr.booted then d
  else
    let img := nv.fwBest
    let i := img.getD 0
    let d := if d.pwr.porstLow then d.put fcuFaultLow 0 else d
    let d := { d with pwr := { d.pwr with booted := true, porstLow := false, hkcReady := img.isSome, noImage := img.isNone } }
    let d := (d.loadSerial nv).forEach [0, 1, 2, 3] fun d e => d.edgeUnpark e
    let d := match img with
      | some _ => (((d.put pwrFwImage i).put pwrFwVersion (nv.version i))).calStart nv
      | none => d
    let d := d.event srcHkc 0x0C10 (d.get pwrRst + 2 ^ 8 * i + 2 ^ 16 * img.isNone.toNat + 2 ^ 32 * d.get pwrFwVersion)
    let d := if d.pwr.parkIn then ({ d with pwr := { d.pwr with parkIn := false } }).parkInAssert else d
    d.idleRestart

/-- The link to the host is lost: the host-loss time runs (R538). -/
def Dev.lossStart (d : Dev) : Dev :=
  let n := d.get twinHostLoss
  match d.twin.lossAt with
  | some _ => d
  | none => if n = 0 then d else { d with twin := { d.twin with lossAt := some (d.mclk + us n) } }

/-- PERST_N is low: the host interface is reset, held records are discarded, and everything else goes on (R486, R489, R568, R569,
R597). -/
def Dev.perst (d : Dev) : Dev :=
  let wak := d.get hostWaking
  let d := { d with
    regs := Tab.keep (fun a => !(decide (0x10000 ≤ a) && decide (a < 0x18000))) d.regs
    host := { d.host with rr := 0, held := [], eqSeen := false, msgSent := [], vecMask := BitVec.allOnes 64, vecPend := 0 } }
  (((d.put hostWaking wak).put pwrRstPerst 1).lossStart).tellHeld

/-- HOST_LINK_DOWN (R522, R538). -/
def Dev.hostDown (d : Dev) : Dev := if d.linkUp then ((d.put hostGen 0).put hostWidth 0).lossStart else d

/-- HOST_LINK_UP (R522). -/
def Dev.hostUp (d : Dev) (gen width : Nat) : Dev :=
  if gen = 0 ∨ ([1, 2, 4, 8].contains width) = false ∨ d.pwr.porstLow = true then d
  else ({ d with twin := { d.twin with lossAt := none } }.put hostGen gen).put hostWidth width

/-! ### The HKC (R570) -/

/-- A FW_SWITCH has started its new image: the kinds of R570 are held at fetch (R582). -/
def Dev.switchOn (d : Dev) : Bool :=
  match d.pwr.fwSwitch with
  | some y => y.started
  | none => false

/-- The HKC serves the flash. -/
def Dev.flashReady (d : Dev) : Bool := (d.pwr.hkcReady || d.pwr.noImage) && !d.switchOn

/-- The HKC serves a descriptor of R570. -/
def Dev.hkcBusy (d : Dev) : Bool :=
  !d.pwr.flashOps.isEmpty || !d.cal.runs.isEmpty || !d.cal.stores.isEmpty || !d.alm.pats.isEmpty

/-- What an operation writes is not known to stand in the flash: open bytes. -/
def NonVol.scramble (nv : NonVol) (ctr a n : Nat) : NonVol := nv.write a ((List.range n).map fun i => Config.flashByte ctr i)

/-- Where an operation writes in the flash: in the user area for a FLASH_WRITE, in its image for a FW_STAGE; none: it reads. -/
def FlashOp.range (o : FlashOp) : Option Nat :=
  if o.opc = opFlashWrite ∧ 0x1900000 ≤ o.offset ∧ o.offset + o.length ≤ 0x2000000 then some o.offset
  else if o.opc = opFwStage ∧ o.length ≤ 0x3FF000 then some (fwBase o.image)
  else none

def FlashOp.work (o : FlashOp) : Work := { id := o.id, q := o.q, cid := o.cid, opc := o.opc }

/-- A flash operation is cut off: its descriptor completes with INTEGRITY, and what it wrote so far is open. -/
def flashCut (p : NonVol × Dev) (o : FlashOp) : NonVol × Dev :=
  let d := p.2.complete o.work stIntegrity 0 0
  match o.range with
  | some a => (p.1.scramble d.freeCtr a o.length, d.nextFree)
  | none => (p.1, d)

/-- The STORE in progress is cut off before its commit page; one that waits for it is still waiting. -/
def storeCut (p : NonVol × Dev) : NonVol × Dev :=
  match p.2.cal.stores with
  | [] => p
  | w :: _ =>
    let d := ({ p.2 with cal := { p.2.cal with stores := [] } }).complete w stIntegrity 0 0
    (p.1.scramble d.freeCtr (calBankAddr d.cal.bank) 0x7FFF00, d.nextFree.calSync)

/-- HKC_RESTART (R458, R570). -/
def Dev.hkcRestart (nv : NonVol) (d : Dev) : NonVol × Dev :=
  if !d.pwr.booted then (nv, d)
  else
    let old := d
    let d := (d.report srcHkc 0 0 0 0 false).put pwrRstWdog 1
    let d := d.event srcHkc 0x0C11 (d.get pwrFwImage)
    let d := { d with pwr := { d.pwr with hkcReady := false } }
    let ops := d.pwr.flashOps
    let r := ops.foldl flashCut (nv, { d with pwr := { d.pwr with flashOps := [] } })
    let r := storeCut r
    let d := r.2.calStop 0xFFFF stIntegrity
    let ps := d.alm.pats
    let d := ps.foldl (fun d p => d.complete p.work stIntegrity 0 0) { d with alm := { d.alm with pats := [] } }
    (r.1, d.idleNote old)

/-- HKC_READY (R570). -/
def Dev.hkcUp (d : Dev) : Dev :=
  if d.pwr.booted && !d.pwr.noImage && !d.switchOn then { d with pwr := { d.pwr with hkcReady := true } } else d

/-! ### Test access (R568, R573) -/

/-- A PARK with SCOPE DEVICE, as R510 gives it. -/
def Dev.parkDevice (d : Dev) : Dev :=
  let d := d.forEach [0, 1, 2, 3] fun d e => d.orderPark e
  ((d.endRuns (2 ^ 64 - 1) true).1).calStop 0xFFFF stAborted

/-- TAP_PARK_INSTRUCTION. -/
def Dev.tapPark (d : Dev) : Dev := ({ d with pwr := { d.pwr with tapPark := true } }.put pwrRstTap 1).parkDevice

/-! ## Rails (R458, R564, R565) -/

/-- The monitor bit of a rail: 0 to 6 core, 8 to 11 edge. -/
def railBit (j : Nat) : Option Fld :=
  if j < 7 then some ⟨pwrRailCore.addr, j, 1⟩ else if 8 ≤ j ∧ j < 12 then some ⟨pwrRailCore.addr, j, 1⟩ else none

/-- PWR_RAIL: the monitor reports; an edge die's own monitor parks it. -/
def Dev.railBad (d : Dev) (j : Nat) : Dev :=
  match railBit j with
  | none => d
  | some f =>
    if d.get f = 0 then d
    else
      let e := j - 8
      let use := d.dieInUse e
      let d := (d.put f 0).report srcPwr j 0 0 (if j < 8 then d.openSites else d.dieSites e) true
      if j < 8 then d else d.setDie e { d.die e with parkRail := true, inUse := (d.die e).inUse || use }

/-- RAIL_IN_RANGE. -/
def Dev.railGood (d : Dev) (j : Nat) : Dev :=
  match railBit j with
  | none => d
  | some f =>
    if d.get f = 1 then d
    else
      let d := (d.put f 1).condEnd srcPwr j
      if j < 8 then d else d.setDie (j - 8) { d.die (j - 8) with parkRail := false }

/-! ## Power states (R30, R40, R409, R415, R574 to R579) -/

/-- The idle timer restarts in the state the device is in. -/
def Dev.timerRestart (d : Dev) : Dev := { d with pwr := { d.pwr with idleAt := d.mclk + d.idleTime } }

/-- P1_IDLE_EXPIRY. -/
def Dev.p1Expiry (d : Dev) : Dev :=
  if d.get pwrState = 1 ∧ d.get pwrPin = 0 ∧ d.busy = false then ((d.advanceTo d.pwr.idleAt).enterP2 0).timerRestart else d

/-- P2_IDLE_EXPIRY. -/
def Dev.p2Expiry (d : Dev) : Dev :=
  if d.get pwrState = 2 ∧ d.get pwrPin = 0 ∧ d.get pwrP2s ≠ 0 ∧ d.busy = false ∧ d.pwr.wakeWhy = 0 then
    (d.advanceTo d.pwr.idleAt).enterP3 0
  else d

/-- A descriptor that needs the fast clocks waits (R31, R40). -/
def Dev.clockWaits (d : Dev) : Bool :=
  (List.range 16).any fun q => match Tab.get (fun _ => none) d.host.waiting q with
    | some f => !dStandby (dOpc f.d)
    | none => false

/-- WAKE (R576). -/
def Dev.wakeEvent (d : Dev) (bySync : Bool) : Dev := if bySync then d.beginWake 3 else if d.clockWaits then d.beginWake 2 else d

/-- P0 is entered once the ramp has ended and SYS is LOCKED or FAILED: what the standby held acts, and the dies that P3 parked are
released (R414, R415, R577, R579). -/
def Dev.tryP0 (d : Dev) : Dev :=
  let st := d.get (pllState 0)
  let why := d.pwr.wakeWhy
  if why = 0 ∨ d.pwr.rampDone = false ∨ ¬(st = 3 ∨ st = 7) then d
  else
    let d := (((d.bump pwrWakes).put pwrLastWake (why - 1)).stateTo 0 why).put hostWaking 0
    let d := { d with tbFrac := 0, pwr := { d.pwr with wakeWhy := 0, rampDone := false, refLostInStandby := false, stopWords := [] } }
    let d := (d.forEach [0, 1, 2, 3] fun d e => d.setDie e { d.die e with parkP3 := false }).put pwrParkP3 0
    let d := d.replayHeld
    let d := d.forEach [1, 2] fun d p => if d.get (pllEn p) = 1 then d.pllStart p else d
    d.idleRestart

/-- SYS_RAMP_END (R415). -/
def Dev.rampUpEnd (d : Dev) : Dev :=
  if d.pwr.ramp = .up then
    let d := d.advanceTo d.pwr.rampEnd
    ({ d with pwr := { d.pwr with ramp := .none, rampDone := true } }).tryP0
  else d

/-- Time passes with no command: one master period while SYS runs; in standby one REFCLK edge, or one always-on cycle while REFCLK is
missing (R404, R408). -/
def Dev.tick (d : Dev) : Dev :=
  if d.awake || d.get (pllState 0) != 0 then d.advance 1
  else
    let t := d.tbFrac + (if d.refOn then 1500000 * 2 ^ 32 / d.refKhz else 375 * 2 ^ 31)
    { d with tbFrac := t % 2 ^ 32 }.advance (t / 2 ^ 32)

/-- SYS_STOP (R415). -/
def Dev.sysStop (d : Dev) : Dev :=
  if d.pwr.ramp = .down then
    let d := d.advanceTo d.pwr.rampEnd
    ({ d with pwr := { d.pwr with ramp := .none } }).pllStop 0
  else d

/-! ## Flash descriptors (R16, R17, R496, R581) -/

/-- A flash operation begins: its descriptor is accepted (R491). -/
def Dev.flashBegin (d : Dev) (w : Work) (x img off : Nat) (data : List Byte) : Dev :=
  let o : FlashOp := { id := w.id, q := w.q, cid := w.cid, opc := w.opc, offset := off, length := dField x 12 0 32, image := img,
                       host := dField x 24 0 64, data := data }
  let d := d.accept w
  { d with pwr := { d.pwr with flashOps := d.pwr.flashOps ++ [o] } }

/-- FLASH_READ (R17). -/
def Dev.flashRead (d : Dev) (q : Nat) : Dev :=
  if !d.flashReady then d
  else d.onDesc q opFlashRead fun d x w =>
    if 0x2000000 < dField x 8 0 32 + dField x 12 0 32 then d.done w stRange else d.flashBegin w x 0 (dField x 8 0 32) []

/-- FLASH_WRITE (R17, R496): the sectors are erased first. -/
def Dev.flashWrite (nv : NonVol) (d : Dev) (q : Nat) (data : List Byte) (readOk : Bool) : NonVol × Dev :=
  match d.descOf q opFlashWrite with
  | none => (nv, d)
  | some (x, w) =>
    let off := dField x 8 0 32
    let n := dField x 12 0 32
    if !d.flashReady then (nv, d)
    else if off < 0x1900000 ∨ 0x2000000 < off + n then (nv, d.done w stRange)
    else if readOk = false ∨ data.length < n then (nv, d.done w stIntegrity)
    else (nv.erase off n, d.flashBegin w x 0 off (data.take n))

/-- FW_STAGE (R496, R581): the commit page of the target is erased first. -/
def Dev.fwStage (nv : NonVol) (d : Dev) (q : Nat) (data : List Byte) (readOk : Bool) : NonVol × Dev :=
  match d.descOf q opFwStage with
  | none => (nv, d)
  | some (x, w) =>
    let i := dField x 8 0 8
    let n := dField x 12 0 32
    if !d.flashReady then (nv, d)
    else if 0x3FF000 < n then (nv, d.done w stRange)
    else if !d.pwr.noImage && d.get pwrFwImage == i then (nv, d.done w stLocked)
    else if readOk = false ∨ data.length < n then (nv, d.done w stIntegrity)
    else (nv.erase (fwBase i) 0x400000, (d.put (pwrFwStaged i) 0).flashBegin w x i (fwBase i) (data.take n))

/-- FW_STAGE has written its image: the readback, the header and the staging (R581). -/
def fwStaged (nv : NonVol) (d : Dev) (o : FlashOp) (res : FlashResult) : NonVol × Dev :=
  if !res.readbackOk then (nv, d.doneWith o.work stIntegrity o.length 0)
  else if !res.headerOk then (nv, d.doneWith o.work stRange o.length 0)
  else
    let v := res.version.toNat
    let d := (d.put (pwrFwStaged o.image) 1).event srcHkc 0x0C12 (o.image + 2 ^ 32 * v)
    ({ nv with vers := Tab.set (fun _ => 0) nv.vers o.image v }, d.doneWith o.work stOk o.length 0)

/-- FLASH_OPERATION_DONE: the oldest flash operation of an SQ finishes. -/
def Dev.flashDone (nv : NonVol) (d : Dev) (q : Nat) (res : FlashResult) : NonVol × Dev :=
  match d.pwr.flashOps.find? fun o => o.q == q with
  | none => (nv, d)
  | some o =>
    let other (y : FlashOp) : Bool := y.id != o.id
    let d := { d with pwr := { d.pwr with flashOps := d.pwr.flashOps.filter other } }
    match o.range with
    | none => (nv, (d.emit (.dma o.host (nv.bytes o.offset o.length))).doneWith o.work stOk o.length 0)
    | some a =>
      let nv' := if res.readbackOk then nv.write a (o.data.take o.length) else nv.scramble d.freeCtr a o.length
      let d := if res.readbackOk then d else d.nextFree
      if o.opc = opFwStage then fwStaged nv' d o res
      else (nv', d.doneWith o.work (if res.readbackOk then stOk else stIntegrity) o.length 0)

/-! ## Firmware switch (R582) -/

/-- A FW_SWITCH completes. -/
def Dev.switchEnd (d : Dev) (y : FwSwitch) (status : Nat) : Dev :=
  let d := { d with pwr := { d.pwr with fwSwitch := none } }
  (d.put pwrFwSwitching 0).done { id := y.id, q := y.q, cid := y.cid, opc := opFwSwitch } status

/-- The new image is started as soon as the HKC serves none of the descriptors of R570. -/
def Dev.switchTry (d : Dev) (y : FwSwitch) : Dev :=
  if d.hkcBusy then d
  else if !d.is (pwrFwStaged y.image) then d.switchEnd y stRange
  else
    let y := { y with started := true, deadline := d.mclk + us 100000 }
    { d with pwr := { d.pwr with fwSwitch := some y, hkcReady := false } }

/-- FW_SWITCH: taken up when it is first served, and again when the HKC is free. -/
def Dev.fwSwitchRow (d : Dev) (q : Nat) : Dev :=
  d.onDesc q opFwSwitch fun d x w =>
    let i := dField x 8 0 8
    match d.pwr.fwSwitch with
    | some y => if y.id = w.id ∧ y.started = false then d.switchTry y else d
    | none =>
      if !d.is (pwrFwStaged i) then d.done w stRange
      else
        let y : FwSwitch := { id := w.id, q := q, cid := w.cid, image := i, started := false, deadline := 0 }
        (({ d with pwr := { d.pwr with fwSwitch := some y } }).put pwrFwSwitching 1).switchTry y

/-- FW_IMAGE_READY: the new image is committed over. A device that booted without an image now loads its calibration bank. -/
def Dev.fwReady (nv : NonVol) (d : Dev) : NonVol × Dev :=
  match d.pwr.fwSwitch with
  | none => (nv, d)
  | some y =>
    if !y.started then (nv, d)
    else
      let nv' := nv.fwCommit y.image
      let first := d.pwr.noImage
      let d := { d with pwr := { d.pwr with hkcReady := true, noImage := false } }
      let d := ((d.put pwrFwImage y.image).put pwrFwVersion (nv.version y.image)).put (pwrFwStaged y.image) 0
      let d := if first then d.calStart nv' else d
      let d := d.event srcHkc 0x0C13 (y.image + 2 ^ 32 * (nv'.fwAct y.image % 2 ^ 32))
      (nv', d.switchEnd y stOk)

/-- FW_READY_TIMEOUT: the old image restarts. -/
def Dev.fwTimeout (d : Dev) : Dev :=
  match d.pwr.fwSwitch with
  | none => d
  | some y =>
    if !y.started then d
    else
      let d := d.advanceTo y.deadline
      let d := { d with pwr := { d.pwr with hkcReady := !d.pwr.noImage } }
      (d.event srcHkc 0x0C14 y.image).switchEnd y stIntegrity

/-! ## Sectors and edge dies in service (R496, R583 to R587) -/

/-- The edge dies whose four sectors all stand in a mask. -/
def wholeDies (m : Nat) : List Nat := [0, 1, 2, 3].filter fun e => bitsOf m (4 * e) 4 == 15

/-- The mask names some of the sectors of a die and not all. -/
def partDie (m : Nat) : Bool := [0, 1, 2, 3].any fun e => bitsOf m (4 * e) 4 != 15 && bitsOf m (4 * e) 4 != 0

/-- SECTOR_QUIESCE (R496, R584). -/
def Dev.sectorQuiesce (d : Dev) (q : Nat) : Dev :=
  d.onDesc q opSectorQuiesce fun d x w =>
    let m := dField x 8 0 16
    let park := dField x 10 0 1 == 1
    if park && partDie m then d.done w stRange
    else if (maskList 16 m).any d.sectorBusy then d.done w stLocked
    else
      let es := if park then (wholeDies m).filter fun e => !(d.die e).parked else []
      let none_ := m &&& d.get pwrQuiesced == m
      let d := if park then d.forEach (wholeDies m) fun d e => d.orderPark e else d
      let d := d.quiesceSectors m (listMask es)
      let d := if none_ then d.event srcPwr 0x0C02 (2 ^ 16 * listMask es) else d
      d.done w stOk

/-- SECTOR_RESUME (R587): the parks that the core die ordered end; a die that something else holds is left as it is. -/
def Dev.sectorResume (d : Dev) (q : Nat) : Dev :=
  d.onDesc q opSectorResume fun d x w =>
    let m := dField x 8 0 16
    let es := if dField x 10 0 1 = 1 then wholeDies m else []
    let stays (e : Nat) : Bool := d.pwr.parkIn || (d.die e).parkRail || (d.die e).parkP3
    let free := es.filter fun e => !stays e
    let back := m &&& d.get pwrQuiesced
    let freed := free.filter fun e => (d.die e).parkOrd
    let d := d.put pwrQuiesced (d.get pwrQuiesced - back)
    let d := d.forEach free fun d e => d.setDie e { d.die e with parkOrd := false }
    let d := d.event srcPwr 0x0C03 (back + 2 ^ 16 * listMask freed)
    d.done w (if es.any stays then stPrecondition else stOk)

/-! ## The meanings -/

/-- PORST (R568). -/
def execPorst (roleB : Bool) (s : State) : Answer := onDevNv s fun nv d => Dev.porst nv d roleB

/-- BOOT (R571). -/
def execBoot (s : State) : Answer := onDevNv s fun nv d => Dev.boot nv d

/-- PERST (R569). -/
def execPerst (s : State) : Answer := onDevIdle s fun d => d.perst

/-- HKC_RESTART (R570). -/
def execHkcRestart (s : State) : Answer := onNv s fun nv d => Dev.hkcRestart nv d

/-- HKC_READY (R570). -/
def execHkcReady (s : State) : Answer := onDev s fun d => d.hkcUp

/-- TAP_RESET (R568): the current TAP instruction is no longer EXTEST, CLAMP or HIGHZ. -/
def execTapReset (s : State) : Answer := onDev s fun d => { d with pwr := { d.pwr with tapPark := false } }

/-- TAP_PARK_INSTRUCTION (R573). -/
def execTapParkInstruction (s : State) : Answer := onDevIdle s fun d => d.tapPark

/-- PWR_RAIL (R565). -/
def execPwrRail (rail : Fin 12) (s : State) : Answer := onDev s fun d => d.railBad rail

/-- RAIL_IN_RANGE (R565). -/
def execRailInRange (rail : Fin 12) (s : State) : Answer := onDev s fun d => d.railGood rail

/-- P1_IDLE_EXPIRY (R40). -/
def execP1IdleExpiry (s : State) : Answer := onDev s fun d => d.p1Expiry

/-- P2_IDLE_EXPIRY (R577). -/
def execP2IdleExpiry (s : State) : Answer := onDev s fun d => d.p2Expiry

/-- WAKE (R576). -/
def execWake (bySync : Bool) (s : State) : Answer := onDev s fun d => d.wakeEvent bySync

/-- SYS_RAMP_END (R415). -/
def execSysRampEnd (s : State) : Answer := onDevIdle s fun d => d.rampUpEnd

/-- SYS_STOP (R415). -/
def execSysStop (s : State) : Answer := onDev s fun d => d.sysStop

/-- PLL_LOCK_CRITERION_MET (R412). -/
def execPllLockCriterionMet (p : Fin 3) (s : State) : Answer := onDevIdle s fun d => (d.lockCriterion p).tryP0

/-- PLL_ACQ_TIMEOUT (R413). -/
def execPllAcqTimeout (p : Fin 3) (s : State) : Answer := onDevIdle s fun d => (d.acqTimeout p).tryP0

/-- FLASH_READ (R17). -/
def execFlashRead (q : Fin 16) (s : State) : Answer := onDev s fun d => d.flashRead q

/-- FLASH_WRITE (R496). -/
def execFlashWrite (q : Fin 16) (data : List Byte) (readOk : Bool) (s : State) : Answer :=
  onNv s fun nv d => Dev.flashWrite nv d q data readOk

/-- FW_STAGE (R581). -/
def execFwStage (q : Fin 16) (data : List Byte) (readOk : Bool) (s : State) : Answer :=
  onNv s fun nv d => Dev.fwStage nv d q data readOk

/-- FLASH_OPERATION_DONE (R496). -/
def execFlashOperationDone (q : Fin 16) (res : FlashResult) (s : State) : Answer := onNv s fun nv d => Dev.flashDone nv d q res

/-- FW_SWITCH (R582). -/
def execFwSwitch (q : Fin 16) (s : State) : Answer := onDev s fun d => d.fwSwitchRow q

/-- FW_IMAGE_READY (R582). -/
def execFwImageReady (s : State) : Answer := onNv s fun nv d => Dev.fwReady nv d

/-- FW_READY_TIMEOUT (R582). -/
def execFwReadyTimeout (s : State) : Answer := onDev s fun d => d.fwTimeout

/-- SECTOR_QUIESCE (R584). -/
def execSectorQuiesce (q : Fin 16) (s : State) : Answer := onDev s fun d => d.sectorQuiesce q

/-- SECTOR_RESUME (R587). -/
def execSectorResume (q : Fin 16) (s : State) : Answer := onDev s fun d => d.sectorResume q

/-- HOST_LINK_DOWN (R538). -/
def execHostLinkDown (s : State) : Answer := onDev s fun d => d.hostDown

/-- HOST_LINK_UP (R522). -/
def execHostLinkUp (gen : Fin 6) (width : Fin 9) (s : State) : Answer := onDev s fun d => d.hostUp gen width

end Sys2Proof.Machine
end

