-- ==== Sys2Proof/Machine/StepRun.lean ====
section
/-!
DEFINITION. The start and the completion of a test step (R33, R77, R97, R98, R116, R150, R174, R175, R196, R213, R222 to R224, R276,
R288, R290, R314, R333, R442, R620).
-/

namespace Sys2Proof.Machine

/-! ## What a due step waits for (R33, R620) -/

/-- What a PLL lets a due step do: none, start; some true, wait; some false, PRECONDITION. An attempt that has ended without LOCKED
ends the wait. -/
def Dev.pllHold (d : Dev) (r : OpenRun) (p : Nat) : Option Bool :=
  match d.pllGate p with
  | some true =>
    match r.pllWait.find? fun w => w.1 == p with
    | some w => some (w.2 == (d.pll p).attempt)
    | none => some true
  | g => g

/-- What a list of PLLs lets a resource do. -/
def Dev.pllsHold (d : Dev) (r : OpenRun) (ps : List Nat) : Option Bool :=
  let gs := ps.map fun p => d.pllHold r p
  if gs.contains (some true) then some true else if gs.contains (some false) then some false else none

/-- Another due PATTERN step that shares a sequencer comes first. -/
def OpenRun.before (x r : OpenRun) (seqs : Nat) : Bool :=
  x.id != r.id && x.phase == .due && (match x.step? with
    | some st => st.kind == kPattern && st.seqs &&& seqs != 0
    | none => false)
  && (decide (x.dueAt < r.dueAt) || (x.dueAt == r.dueAt && decide (lowSite x.sites < lowSite r.sites)))

/-- The sequencers that a due PATTERN step names are idle and no other step comes first. -/
def Dev.seqsFree (d : Dev) (r : OpenRun) (st : StepData) : Bool :=
  ((maskList 16 st.seqs).all fun s => !d.seqBusy s) && !d.runs.any fun x => x.before r st.seqs

/-! ## The results of a step that starts -/

/-- The step begins on its sites: its results stand open. -/
def Dev.stepOpen (d : Dev) (r : OpenRun) (st : StepData) (act : List Nat) : Dev :=
  let begun := st.kind != kPpmu
  let open_ (s : Nat) : List Res := (d.stepResults st s).map fun y => { y with begun := begun, startTb := d.tb, rdTb := d.tb, t0 := d.mclk }
  d.setRun { r with
    phase := .running, reloading := false, pllWait := [], missing := r.missing ++ act.map fun s => (s, r.k), res := act.flatMap open_ }

/-- Every result of some sites takes one code at once. -/
def Dev.cutSites (d : Dev) (id : Nat) (ss : List Nat) (code : Nat) : Dev :=
  d.forEach ss fun d s => d.cutRes id s (fun _ => true) code 0

/-- The results of one unit of a site take one code at once. -/
def Dev.cutUnits (d : Dev) (id s : Nat) (u code : Nat) : Dev := d.cutRes id s (fun y => y.unit / 4 == u) code 0

/-! ## PATTERN (R133, R147, R150, R169, R173 to R176, R196, R213, R230, R442) -/

/-- A channel when a PATTERN step on its sequencer starts (R77, R97, R133, R141). -/
def Dev.chanStart (d : Dev) (c : Nat) : Dev :=
  let x := d.chan c
  let wait := x.waitStep && (d.is (peParked c) || d.quiesced (sectorOf c))
  ((d.setChan c { x with drv := Drv.init, conflict := false, patStep := true, reconAt := none, waitStep := wait }).syncForce c).wfSettle c

/-- A PATTERN step starts on a sequencer, whether it runs or not: its counters and `SEQ_ERR` are cleared (R173, R196). -/
def Dev.seqClear (d : Dev) (s : Nat) : Dev :=
  let d := (d.put2 (seqCntVec s) (seqCntVecHi s) 0).put (seqCntFill s) 0
  (d.put (seqCntJrej s) 0).setWord (0x10003C + 0x10000 * s) 0

/-- A sequencer starts a step for a RUN on the sites `run`; every other site of it is masked. -/
def Dev.seqBegin (d : Dev) (r : OpenRun) (st : StepData) (s run : Nat) : Dev :=
  let all := d.seqSites s
  let line := (st.startLine s).getD (d.get (seqStart s))
  let d := d.setSeq s
    { Seq.init with
      run := some r.id, step := r.k, masked := all - (all &&& run), vgen := d.get (seqVgen s), pos := ((4096 * d.mclk : Nat) : Rat),
      startTb := d.tb, next := ⟨false, line⟩ }
  let d := (((d.put (seqJpend s) 0).put (seqJcommit s) 0).setStacks s [] []).put (seqState s) 1
  let d := if d.is (strmAttached s) && d.get (strmState s) != 5 then d.put (strmState s) 3 else d
  let d := d.forEach (maskList 64 (all &&& run)) fun d x => d.failClear x
  (d.forEach (d.seqChans s) fun d c => d.chanStart c).lookAhead s

/-- A PATTERN step starts (R33, R150, R174, R175, R213, R442, R620). -/
def Dev.startPattern (d : Dev) (r : OpenRun) (st : StepData) (act : List Nat) : Dev :=
  let seqs := (maskList 16 st.seqs).filter fun s => act.any fun x => (d.seqSites s).testBit x
  let d := if r.reloading then d else (d.forEach seqs fun d s => d.streamReload s).modRun r.id fun r => { r with reloading := true }
  if !seqs.all d.streamReady then d
  else
    let skip := act.filter fun x => seqs.any fun s => (d.seqSites s).testBit x && d.smasked s x
    let dead := act.filter fun x => d.stepInvalid st x || seqs.any fun s => (d.seqSites s).testBit x && d.pllsHold r (d.seqPlls s) == some false
    let dead := dead.filter fun x => !skip.contains x
    let run := act.filter fun x => !skip.contains x && !dead.contains x
    let d := d.stepOpen r st act
    let d := (d.cutSites r.id skip rSkipped).cutSites r.id dead rPrecondition
    let d := d.forEach seqs fun d s => d.seqClear s
    let live := seqs.filter fun s => d.seqSites s &&& listMask run != 0
    d.forEach live fun d s => d.seqBegin r st s (listMask run)

/-! ## The other kinds -/

/-- A PPMU step starts: its sites ask the governor (R77, R98, R116, R442). -/
def Dev.startPpmu (d : Dev) (r : OpenRun) (st : StepData) (act : List Nat) : Dev :=
  let dead := act.filter fun x => d.stepInvalid st x
  let run := act.filter fun x => !dead.contains x
  let d := (d.modRun r.id fun r => { r with dueAt := d.mclk }).stepOpen { r with dueAt := d.mclk } st act
  let d := d.cutSites r.id dead rPrecondition
  let d := d.forEach (run.flatMap fun s => d.stepChans st s) fun d c =>
    if d.is (peParked c) || d.quiesced (sectorOf c) then d else d.setChan c { d.chan c with waitStep := false }
  d.admitAll 4096

/-- A TMU step starts: each TMU of its sites is armed once (R314, R442, R620). A TMU that is armed already serves the step with that
arming. -/
def Dev.startTmu (d : Dev) (r : OpenRun) (st : StepData) (act : List Nat) : Dev :=
  let d := d.stepOpen r st act
  let pre := d.pllsHold r [0] == some false
  let dead := act.filter fun x => pre || d.stepInvalid st x
  let d := d.cutSites r.id dead rPrecondition
  d.forEach (maskList 64 st.tmus) fun d u =>
    match d.tmuSite u with
    | none => d
    | some s =>
      if !act.contains s || dead.contains s then d
      else
        let d := if d.get (tmuState u) = 0 then d.tmuArmCore u (some r.id) r.k else d.setTmu u { d.tmu u with run := some r.id, step := r.k }
        if d.get (tmuState u) = 0 then d.cutUnits r.id s u rPrecondition else d

/-- An ACQ step starts: each AU of its sites is armed for one record (R276, R280, R288, R442, R620). An AU that is armed already
serves the step with that arming; the results of one that refuses take PRECONDITION. -/
def Dev.startAcq (d : Dev) (r : OpenRun) (st : StepData) (act : List Nat) : Dev :=
  let d := d.stepOpen r st act
  let pre := d.pllsHold r [0] == some false
  let dead := act.filter fun x => pre || d.stepInvalid st x
  let d := d.cutSites r.id dead rPrecondition
  d.forEach (maskList 32 st.aus) fun d a =>
    match d.auSite a with
    | none => d
    | some s =>
      if !act.contains s || dead.contains s then d
      else
        let d := if d.get (auState a) = 0 then d.auArmCore a (some r.id) r.k true (some st.acqWait)
          else d.setAu a { d.au a with run := some r.id, step := r.k, waitEnd := some (d.mclk + us st.acqWait) }
        if d.get (auState a) = 0 then d.cutUnits r.id s a rPrecondition else d

/-- The jobs of a DSP step on its sites, in list order (R328, R333). -/
def Dev.dspJobs (d : Dev) (r : OpenRun) (st : StepData) (act : List Nat) : List Job :=
  let n := d.stepNres st
  let view (j : JobEntry) (k : Nat) : Nat × Nat := (jobView j k % 16, bitsOf (jobView j k) 8 5)
  (st.jobs.zipIdx).filterMap fun p =>
    let s := jobSite p.1
    let no := ((st.jobs.take p.2).filter fun j => jobSite j == s).length
    if act.contains s then
      some
        { run := some r.id, step := r.k, ppmu := false, site := s, ch := 0, unit := 0, j := n * no, n := n, jobNo := no,
          test := st.testNum + n * no, kid := st.kid, engines := st.engines,
          params := (List.range 8).map fun k => toSigned 40 (jobParam p.1 k), asks := (List.range 4).map (view p.1), samples := [],
          startTb := d.tb, views := [] }
    else none

/-- A DSP step starts: its jobs are listed (R333). -/
def Dev.startDsp (d : Dev) (r : OpenRun) (st : StepData) (act : List Nat) : Dev :=
  let js := d.dspJobs r st act
  let d := d.stepOpen r st act
  { d with jobs := d.jobs ++ js }

/-- The PLLs of a due step still in the lock attempt that it waits for (R620). -/
def Dev.stepWaits (d : Dev) (r : OpenRun) (st : StepData) : Bool := d.pllsHold r (d.stepPlls r st) == some true

/-- STEP_START: a due step starts once nothing of R33, R213, R440 and R620 makes it wait, and no CONFIG_BLOCK of its boundary (R497). -/
def Dev.stepStart (d : Dev) (td : Nat) : Dev :=
  match d.findRun td with
  | none => d
  | some r =>
    match r.phase, r.step? with
    | .due, some st =>
      let act := d.activeSites r st
      if d.host.cfgs.any fun c => c.td == td && c.ready then d
      else if act.isEmpty then (d.advanceTo r.startAt).stepOpen r st act
      else if d.stepWaits r st then d.notePlls r.id
      else if st.kind = kPattern then (if d.seqsFree r st then (d.advanceTo r.startAt).startPattern r st act else d)
      else if st.kind = kPpmu then (d.advanceTo r.startAt).startPpmu r st act
      else if st.kind = kTmu then (d.advanceTo r.startAt).startTmu r st act
      else if st.kind = kAcq then (d.advanceTo r.startAt).startAcq r st act
      else (d.advanceTo r.startAt).startDsp r st act
    | _, _ => d

/-! ## The completion (R33, R97, R98, R240, R290, R315) -/

/-- An AU has finished its record and its re-arm for a step (R290). -/
def Dev.auFinished (d : Dev) (a : Nat) : Bool :=
  let st := d.get (auState a)
  st == 0 || ((d.au a).lastEnd.isSome && st != 2 && st != 3)

/-- The step in progress of a RUN has completed on all its sites. -/
def Dev.stepDone (d : Dev) (r : OpenRun) : Bool :=
  match r.phase with
  | .contact => !r.res.isEmpty && r.resDone && !((maskList 64 r.sites).flatMap d.siteChans).any fun c => (d.chan c).ppmuUse.isSome
  | .running => r.resDone && (d.seqsOf r.id).isEmpty && (d.tmusOf r.id).isEmpty && (d.ausOf r.id).all d.auFinished
  | _ => false

/-- The channels of a PATTERN step reconnect 2 µs after its last vector (R97). -/
def Dev.patRelease (d : Dev) (id : Nat) (st : StepData) : Dev :=
  let ss := (maskList 16 st.seqs).filter fun s => (d.seq s).run == some id && !d.seqBusy s
  let t := (ss.map fun s => periodUp (d.seq s).pos).foldl max 0 + us 2
  d.forEach (ss.flatMap d.seqChans) fun d c =>
    let x := d.chan c
    if x.patStep then (d.setChan c { x with patStep := false, reconAt := some t }).syncForce c else d

/-- The AUs and TMUs of a step belong to it no more. -/
def Dev.unitsFree (d : Dev) (id : Nat) : Dev :=
  let d := d.forEach (List.range 32) fun d a =>
    if (d.au a).run = some id then d.setAu a { d.au a with run := none, step := 0xFFFF, waitEnd := none } else d
  d.forEach (List.range 64) fun d u => if (d.tmu u).run = some id then d.setTmu u { d.tmu u with run := none, step := 0xFFFF } else d

/-- STEP_COMPLETE: the step in progress, or the contact check, has completed on all its sites (R33). -/
def Dev.stepComplete (d : Dev) (td : Nat) : Dev :=
  match d.findRun td with
  | none => d
  | some r =>
    if d.stepDone r then
      let d := match r.step? with
        | some st => if st.kind = kPattern then d.patRelease r.id st else d
        | none => d
      (d.unitsFree r.id).stepEnd r.id
    else d

/-! ## The meanings -/

/-- STEP_START (R33). -/
def execStepStart (td : DWord) (s : State) : Answer := onDev s fun d => d.stepStart td.toNat

/-- STEP_COMPLETE (R33). -/
def execStepComplete (td : DWord) (s : State) : Answer := onDev s fun d => d.stepComplete td.toNat

end Sys2Proof.Machine
end

