-- ==== Sys2Proof/Machine/Dispatch.lean ====
section
/-!
DEFINITION. The effect of each command on the block: one arm for each row of the table, in its order.
-/

namespace Sys2Proof.Machine

def exec (i : Instr) (s : State) : Host.Outcome State Fault Refusal :=
  match i with
  | .porst roleB => Sys2Proof.Machine.execPorst roleB s
  | .boot => Sys2Proof.Machine.execBoot s
  | .perst => Sys2Proof.Machine.execPerst s
  | .hkcRestart => Sys2Proof.Machine.execHkcRestart s
  | .tapReset => Sys2Proof.Machine.execTapReset s
  | .tapParkInstruction => Sys2Proof.Machine.execTapParkInstruction s
  | .pwrRail rail => Sys2Proof.Machine.execPwrRail rail s
  | .p1IdleExpiry => Sys2Proof.Machine.execP1IdleExpiry s
  | .p2IdleExpiry => Sys2Proof.Machine.execP2IdleExpiry s
  | .pinStateWrite v => Sys2Proof.Machine.execPinStateWrite v s
  | .wake bySync => Sys2Proof.Machine.execWake bySync s
  | .sysRampStart => Sys2Proof.Machine.execSysRampStart s
  | .sysRampEnd => Sys2Proof.Machine.execSysRampEnd s
  | .refLost => Sys2Proof.Machine.execRefLost s
  | .refFound => Sys2Proof.Machine.execRefFound s
  | .pllBandChosen p band q => Sys2Proof.Machine.execPllBandChosen p band q s
  | .pllLockCriterionMet p => Sys2Proof.Machine.execPllLockCriterionMet p s
  | .lockLost p => Sys2Proof.Machine.execLockLost p s
  | .pllOpenRecovery p => Sys2Proof.Machine.execPllOpenRecovery p s
  | .pllAcqTimeout p => Sys2Proof.Machine.execPllAcqTimeout p s
  | .pllReturnMeasured p offset => Sys2Proof.Machine.execPllReturnMeasured p offset s
  | .ckxSlewDone p => Sys2Proof.Machine.execCkxSlewDone p s
  | .pllFreqCommit p => Sys2Proof.Machine.execPllFreqCommit p s
  | .pllFreqWalkDone p => Sys2Proof.Machine.execPllFreqWalkDone p s
  | .rampGo p => Sys2Proof.Machine.execRampGo p s
  | .rampTrigger p => Sys2Proof.Machine.execRampTrigger p s
  | .rampSegmentEnd p slewLimited => Sys2Proof.Machine.execRampSegmentEnd p slewLimited s
  | .rampStop p => Sys2Proof.Machine.execRampStop p s
  | .relock req p => Sys2Proof.Machine.execRelock req p s
  | .syncArrival => Sys2Proof.Machine.execSyncArrival s
  | .syncAlignRequest force => Sys2Proof.Machine.execSyncAlignRequest force s
  | .syncCancel => Sys2Proof.Machine.execSyncCancel s
  | .shadowCommit blk => Sys2Proof.Machine.execShadowCommit blk s
  | .registerWrite req addr v => Sys2Proof.Machine.execRegisterWrite req addr v s
  | .lowWordRead req addr => Sys2Proof.Machine.execLowWordRead req addr s
  | .genErrClrLocked => Sys2Proof.Machine.execGenErrClrLocked s
  | .genErrClrAccess => Sys2Proof.Machine.execGenErrClrAccess s
  | .siteMapWrite req c v => Sys2Proof.Machine.execSiteMapWrite req c v s
  | .seqQuadsWrite req n hi v => Sys2Proof.Machine.execSeqQuadsWrite req n hi v s
  | .seqRegionWrite req n vlines v => Sys2Proof.Machine.execSeqRegionWrite req n vlines v s
  | .seqFlagWrite n v => Sys2Proof.Machine.execSeqFlagWrite n v s
  | .seqJump n v => Sys2Proof.Machine.execSeqJump n v s
  | .levelCodeWrite c dac v => Sys2Proof.Machine.execLevelCodeWrite c dac v s
  | .peLvlUpdWrite req c v => Sys2Proof.Machine.execPeLvlUpdWrite req c v s
  | .peCtrlWrite req c v => Sys2Proof.Machine.execPeCtrlWrite req c v s
  | .peFaultClear c v => Sys2Proof.Machine.execPeFaultClear c v s
  | .peTimClr c => Sys2Proof.Machine.execPeTimClr c s
  | .ppmuFaultClear c v => Sys2Proof.Machine.execPpmuFaultClear c v s
  | .ppmuCtrlWrite req c v => Sys2Proof.Machine.execPpmuCtrlWrite req c v s
  | .ppmuWfJump c v => Sys2Proof.Machine.execPpmuWfJump c v s
  | .auSrcWrite req a v => Sys2Proof.Machine.execAuSrcWrite req a v s
  | .auAllocWrite req a v => Sys2Proof.Machine.execAuAllocWrite req a v s
  | .auArm a => Sys2Proof.Machine.execAuArm a s
  | .auDisarm a => Sys2Proof.Machine.execAuDisarm a s
  | .auSwtrig a => Sys2Proof.Machine.execAuSwtrig a s
  | .auRecRelease a v => Sys2Proof.Machine.execAuRecRelease a v s
  | .auDrainRead a v => Sys2Proof.Machine.execAuDrainRead a v s
  | .tmuArm u => Sys2Proof.Machine.execTmuArm u s
  | .tmuDisarm u => Sys2Proof.Machine.execTmuDisarm u s
  | .dseQuiesce e force => Sys2Proof.Machine.execDseQuiesce e force s
  | .dseQuiesced e => Sys2Proof.Machine.execDseQuiesced e s
  | .dseResume e => Sys2Proof.Machine.execDseResume e s
  | .dseRun e => Sys2Proof.Machine.execDseRun e s
  | .almTestWrite req n w v => Sys2Proof.Machine.execAlmTestWrite req n w v s
  | .ledRdWrite n v => Sys2Proof.Machine.execLedRdWrite n v s
  | .ledHdrRdWrite v => Sys2Proof.Machine.execLedHdrRdWrite v s
  | .fcuPinRelease => Sys2Proof.Machine.execFcuPinRelease s
  | .fcuFirstClr => Sys2Proof.Machine.execFcuFirstClr s
  | .fcuSevsrcClear k v => Sys2Proof.Machine.execFcuSevsrcClear k v s
  | .fcuInj v => Sys2Proof.Machine.execFcuInj v s
  | .twinTake => Sys2Proof.Machine.execTwinTake s
  | .twinRelease => Sys2Proof.Machine.execTwinRelease s
  | .twinMirAck v => Sys2Proof.Machine.execTwinMirAck v s
  | .tpGo => Sys2Proof.Machine.execTpGo s
  | .tpAbort => Sys2Proof.Machine.execTpAbort s
  | .rxPop => Sys2Proof.Machine.execRxPop s
  | .txLoad => Sys2Proof.Machine.execTxLoad s
  | .txClr => Sys2Proof.Machine.execTxClr s
  | .bar4Write req off v => Sys2Proof.Machine.execBar4Write req off v s
  | .hostSqEnWrite v => Sys2Proof.Machine.execHostSqEnWrite v s
  | .hostCqEnWrite v => Sys2Proof.Machine.execHostCqEnWrite v s
  | .sqTailDoorbell q v => Sys2Proof.Machine.execSqTailDoorbell q v s
  | .cqHeadDoorbell q v => Sys2Proof.Machine.execCqHeadDoorbell q v s
  | .eqHeadDoorbell v => Sys2Proof.Machine.execEqHeadDoorbell v s
  | .msixUnmask vec => Sys2Proof.Machine.execMsixUnmask vec s
  | .commandStop w => Sys2Proof.Machine.execCommandStop w s
  | .commandAbort w => Sys2Proof.Machine.execCommandAbort w s
  | .commandPark w => Sys2Proof.Machine.execCommandPark w s
  | .descriptorFetch q d => Sys2Proof.Machine.execDescriptorFetch q d s
  | .nop q => Sys2Proof.Machine.execNop q s
  | .writeVectors q data readOk => Sys2Proof.Machine.execWriteVectors q data readOk s
  | .run q steps readOk => Sys2Proof.Machine.execRun q steps readOk s
  | .streamAttach q dir chunks readOk => Sys2Proof.Machine.execStreamAttach q dir chunks readOk s
  | .streamDetach q => Sys2Proof.Machine.execStreamDetach q s
  | .readLedger q => Sys2Proof.Machine.execReadLedger q s
  | .readCapture q => Sys2Proof.Machine.execReadCapture q s
  | .readFaillog q => Sys2Proof.Machine.execReadFaillog q s
  | .loadKernel q image readOk => Sys2Proof.Machine.execLoadKernel q image readOk s
  | .configBlock q writes readOk => Sys2Proof.Machine.execConfigBlock q writes readOk s
  | .configBlockApply q => Sys2Proof.Machine.execConfigBlockApply q s
  | .calRunMeasure q => Sys2Proof.Machine.execCalRunMeasure q s
  | .calRunStore q => Sys2Proof.Machine.execCalRunStore q s
  | .calRunEye q => Sys2Proof.Machine.execCalRunEye q s
  | .calRunRefcheck q vrefUv devUv => Sys2Proof.Machine.execCalRunRefcheck q vrefUv devUv s
  | .calStepDone sector obs => Sys2Proof.Machine.execCalStepDone sector obs s
  | .calStoreDone readbackOk => Sys2Proof.Machine.execCalStoreDone readbackOk s
  | .patUpdateConfig q data readOk => Sys2Proof.Machine.execPatUpdateConfig q data readOk s
  | .patUpdateLoadExt q data readOk => Sys2Proof.Machine.execPatUpdateLoadExt q data readOk s
  | .patUpdateExport q data readOk => Sys2Proof.Machine.execPatUpdateExport q data readOk s
  | .patUpdateClear q data readOk => Sys2Proof.Machine.execPatUpdateClear q data readOk s
  | .flashRead q => Sys2Proof.Machine.execFlashRead q s
  | .flashWrite q data readOk => Sys2Proof.Machine.execFlashWrite q data readOk s
  | .fwStage q data readOk => Sys2Proof.Machine.execFwStage q data readOk s
  | .fwSwitch q => Sys2Proof.Machine.execFwSwitch q s
  | .fwImageReady => Sys2Proof.Machine.execFwImageReady s
  | .fwReadyTimeout => Sys2Proof.Machine.execFwReadyTimeout s
  | .sectorQuiesce q => Sys2Proof.Machine.execSectorQuiesce q s
  | .sectorResume q => Sys2Proof.Machine.execSectorResume q s
  | .fence q => Sys2Proof.Machine.execFence q s
  | .fenceComplete q => Sys2Proof.Machine.execFenceComplete q s
  | .contactCheckSample td codes => Sys2Proof.Machine.execContactCheckSample td codes s
  | .stepStart td => Sys2Proof.Machine.execStepStart td s
  | .stepComplete td => Sys2Proof.Machine.execStepComplete td s
  | .closeGuardExpiry td => Sys2Proof.Machine.execCloseGuardExpiry td s
  | .almanacCloseCheck td => Sys2Proof.Machine.execAlmanacCloseCheck td s
  | .almanacAddValues td => Sys2Proof.Machine.execAlmanacAddValues td s
  | .vectorPlay n obs => Sys2Proof.Machine.execVectorPlay n obs s
  | .jmpcResolve n => Sys2Proof.Machine.execJmpcResolve n s
  | .matchEnd n => Sys2Proof.Machine.execMatchEnd n s
  | .matchTimeout n => Sys2Proof.Machine.execMatchTimeout n s
  | .seqHalt n => Sys2Proof.Machine.execSeqHalt n s
  | .syncwWaitBegin n => Sys2Proof.Machine.execSyncwWaitBegin n s
  | .syncwStart n => Sys2Proof.Machine.execSyncwStart n s
  | .syncwTimeout n => Sys2Proof.Machine.execSyncwTimeout n s
  | .deglitchRelease c dac => Sys2Proof.Machine.execDeglitchRelease c dac s
  | .hizExit c => Sys2Proof.Machine.execHizExit c s
  | .chunkReadDone n slot data linkOk => Sys2Proof.Machine.execChunkReadDone n slot data linkOk s
  | .stallMaxExpiry n => Sys2Proof.Machine.execStallMaxExpiry n s
  | .budgetAdmit td => Sys2Proof.Machine.execBudgetAdmit td s
  | .ppmuSettleExpiry td site codes => Sys2Proof.Machine.execPpmuSettleExpiry td site codes s
  | .ppmuSample td c code => Sys2Proof.Machine.execPpmuSample td c code s
  | .ppmuReconnect c => Sys2Proof.Machine.execPpmuReconnect c s
  | .ppmuCompl c => Sys2Proof.Machine.execPpmuCompl c s
  | .ppmuOpenLoop c => Sys2Proof.Machine.execPpmuOpenLoop c s
  | .wfSegmentEnd c => Sys2Proof.Machine.execWfSegmentEnd c s
  | .drvOc c => Sys2Proof.Machine.execDrvOc c s
  | .clampOc c => Sys2Proof.Machine.execClampOc c s
  | .loadCompl c => Sys2Proof.Machine.execLoadCompl c s
  | .parkInAssert => Sys2Proof.Machine.execParkInAssert s
  | .parkInRelease => Sys2Proof.Machine.execParkInRelease s
  | .edgePark e => Sys2Proof.Machine.execEdgePark e s
  | .edgeUnpark e => Sys2Proof.Machine.execEdgeUnpark e s
  | .d2dCrcOut e sectors syn => Sys2Proof.Machine.execD2dCrcOut e sectors syn s
  | .d2dCrcIn e sectors syn sites auLost => Sys2Proof.Machine.execD2dCrcIn e sectors syn sites auLost s
  | .d2dEcho e sectors syn => Sys2Proof.Machine.execD2dEcho e sectors syn s
  | .d2dConfigAckTimeout e => Sys2Proof.Machine.execD2dConfigAckTimeout e s
  | .auTrigger a stream evAt => Sys2Proof.Machine.execAuTrigger a stream evAt s
  | .auRecordEnd a post noConv => Sys2Proof.Machine.execAuRecordEnd a post noConv s
  | .auRearmEnd a => Sys2Proof.Machine.execAuRearmEnd a s
  | .auSweepSettleEnd a => Sys2Proof.Machine.execAuSweepSettleEnd a s
  | .acqWaitExpiry a => Sys2Proof.Machine.execAcqWaitExpiry a s
  | .trigInEdge n rise => Sys2Proof.Machine.execTrigInEdge n rise s
  | .tmuCalDone u start1 start2 stop1 stop2 => Sys2Proof.Machine.execTmuCalDone u start1 start2 stop1 stop2 s
  | .tmuSample u start stop next edges => Sys2Proof.Machine.execTmuSample u start stop next edges s
  | .tmuTimeout u => Sys2Proof.Machine.execTmuTimeout u s
  | .dspJobDispatch => Sys2Proof.Machine.execDspJobDispatch s
  | .dspNop e => Sys2Proof.Machine.execDspNop e s
  | .dspHalt e => Sys2Proof.Machine.execDspHalt e s
  | .dspBr e => Sys2Proof.Machine.execDspBr e s
  | .dspDbnz e => Sys2Proof.Machine.execDspDbnz e s
  | .dspRep e => Sys2Proof.Machine.execDspRep e s
  | .dspMac4 e => Sys2Proof.Machine.execDspMac4 e s
  | .dspMacs e => Sys2Proof.Machine.execDspMacs e s
  | .dspCmac e => Sys2Proof.Machine.execDspCmac e s
  | .dspAcs e => Sys2Proof.Machine.execDspAcs e s
  | .dspAdd e => Sys2Proof.Machine.execDspAdd e s
  | .dspSub e => Sys2Proof.Machine.execDspSub e s
  | .dspMin e => Sys2Proof.Machine.execDspMin e s
  | .dspMax e => Sys2Proof.Machine.execDspMax e s
  | .dspAbs e => Sys2Proof.Machine.execDspAbs e s
  | .dspNeg e => Sys2Proof.Machine.execDspNeg e s
  | .dspAnd e => Sys2Proof.Machine.execDspAnd e s
  | .dspOr e => Sys2Proof.Machine.execDspOr e s
  | .dspXor e => Sys2Proof.Machine.execDspXor e s
  | .dspShf e => Sys2Proof.Machine.execDspShf e s
  | .dspCmp e => Sys2Proof.Machine.execDspCmp e s
  | .dspAcc e => Sys2Proof.Machine.execDspAcc e s
  | .dspSta e => Sys2Proof.Machine.execDspSta e s
  | .dspLda e => Sys2Proof.Machine.execDspLda e s
  | .dspClra e => Sys2Proof.Machine.execDspClra e s
  | .dspMov e => Sys2Proof.Machine.execDspMov e s
  | .dspLdi e => Sys2Proof.Machine.execDspLdi e s
  | .tempSensorRead edge core => Sys2Proof.Machine.execTempSensorRead edge core s
  | .calRecomputePeriod => Sys2Proof.Machine.execCalRecomputePeriod s
  | .faultReport ext => Sys2Proof.Machine.execFaultReport ext s
  | .fcuWindowExpiry src chk => Sys2Proof.Machine.execFcuWindowExpiry src chk s
  | .fcuWire src chk => Sys2Proof.Machine.execFcuWire src chk s
  | .fcuWireRecovery src chk => Sys2Proof.Machine.execFcuWireRecovery src chk s
  | .faultNMinwExpiry => Sys2Proof.Machine.execFaultNMinwExpiry s
  | .hostLossExpiry => Sys2Proof.Machine.execHostLossExpiry s
  | .linkUp lanes partnerRoleB => Sys2Proof.Machine.execLinkUp lanes partnerRoleB s
  | .heartbeatSend => Sys2Proof.Machine.execHeartbeatSend s
  | .meridianLinkLost => Sys2Proof.Machine.execMeridianLinkLost s
  | .meridianRetxTimeout => Sys2Proof.Machine.execMeridianRetxTimeout s
  | .heartbeat ack sendTb echoTb echoArr state hostUp flags => Sys2Proof.Machine.execHeartbeat ack sendTb echoTb echoArr state hostUp flags s
  | .flag ack flags => Sys2Proof.Machine.execFlag ack flags s
  | .openMsg ack td sites startTb retestBin => Sys2Proof.Machine.execOpenMsg ack td sites startTb retestBin s
  | .mirror ack td header closes => Sys2Proof.Machine.execMirror ack td header closes s
  | .intent ack td => Sys2Proof.Machine.execIntent ack td s
  | .intentAck ack td => Sys2Proof.Machine.execIntentAck ack td s
  | .complete ack td => Sys2Proof.Machine.execComplete ack td s
  | .abandon ack td => Sys2Proof.Machine.execAbandon ack td s
  | .almFull ack comps => Sys2Proof.Machine.execAlmFull ack comps s
  | .almDelta ack deltas => Sys2Proof.Machine.execAlmDelta ack deltas s
  | .startReady ack n readyTb => Sys2Proof.Machine.execStartReady ack n readyTb s
  | .start ack n tb => Sys2Proof.Machine.execStart ack n tb s
  | .notify ack rec => Sys2Proof.Machine.execNotify ack rec s
  | .takeReq ack => Sys2Proof.Machine.execTakeReq ack s
  | .taken ack => Sys2Proof.Machine.execTaken ack s
  | .takeoverDelayExpiry => Sys2Proof.Machine.execTakeoverDelayExpiry s
  | .takeoverWaitExpiry => Sys2Proof.Machine.execTakeoverWaitExpiry s
  | .tpStuck => Sys2Proof.Machine.execTpStuck s
  | .tpArbWindow => Sys2Proof.Machine.execTpArbWindow s
  | .tpBusTimeout => Sys2Proof.Machine.execTpBusTimeout s
  | .tpDone rx => Sys2Proof.Machine.execTpDone rx s
  | .tpModeFault clocks => Sys2Proof.Machine.execTpModeFault clocks s
  | .tpTargetFrame cmdBits cmd bits overclock => Sys2Proof.Machine.execTpTargetFrame cmdBits cmd bits overclock s
  | .railInRange rail => Sys2Proof.Machine.execRailInRange rail s
  | .sysStop => Sys2Proof.Machine.execSysStop s
  | .hkcReady => Sys2Proof.Machine.execHkcReady s
  | .hostLinkDown => Sys2Proof.Machine.execHostLinkDown s
  | .hostLinkUp gen width => Sys2Proof.Machine.execHostLinkUp gen width s
  | .meridianMessageDiscarded why => Sys2Proof.Machine.execMeridianMessageDiscarded why s
  | .tpBusyNEdge level => Sys2Proof.Machine.execTpBusyNEdge level s
  | .dseLoaded e => Sys2Proof.Machine.execDseLoaded e s
  | .flashOperationDone q res => Sys2Proof.Machine.execFlashOperationDone q res s

end Sys2Proof.Machine
end

