-- ==== Sys2Proof/Safety.lean ====
section
/-!
DEFINITION. What counts as a safe run, and the forms of the two byte memories that every step keeps.
-/

namespace Sys2Proof.Machine

/-- A run of `n` steps from a state ends in a state: no step stopped. -/
def Safe (n : Nat) (s : State) : Prop := ∃ t, Sys2Proof.core.run n s = .next t

/-- A command answers a next state: the queue and the flash stay, and `post` says what the device is then. -/
def Answers (c : Instr) (s : State) (post : Dev → Prop) : Prop :=
  ∃ t : Dev, exec c s = .next { s with dev := t } ∧ post t

/-- A command answers a next state: the queue and the flash stay, `post` says what the device is, and then the idle timers
follow from the units that have become idle (R575). -/
def AnswersIdle (c : Instr) (s : State) (post : Dev → Prop) : Prop :=
  ∃ t : Dev, exec c s = .next { s with dev := t.idleNote s.dev } ∧ post t

/-- A command answers a next state: the queue stays, and `post` says what the flash and the device are. -/
def AnswersNv (c : Instr) (s : State) (post : NonVol → Dev → Prop) : Prop :=
  ∃ (nv : NonVol) (t : Dev), exec c s = .next { s with nv := nv, dev := t } ∧ post nv t

/-- Every register word outside a list of addresses is as it was. -/
def Dev.KeepsRegs (d t : Dev) (addrs : List Nat) : Prop := ∀ a, a ∉ addrs → t.word a = d.word a

/-- Every register word outside a list of addresses and outside the ring registers of the host interface, which an event or a
completion record moves (R488), is as it was. -/
def Dev.KeepsRegsEv (d t : Dev) (addrs : List Nat) : Prop :=
  ∀ a, a ∉ addrs → (a < 0x10000 ∨ 0x10300 ≤ a) → t.word a = d.word a

/-- Every register word outside a block of addresses and outside the ring registers of the host interface is as it was. -/
def Dev.KeepsOutside (d t : Dev) (lo hi : Nat) : Prop :=
  ∀ a, (a < lo ∨ hi ≤ a) → (a < 0x10000 ∨ 0x10300 ≤ a) → t.word a = d.word a

/-! ## One DSP instruction that completes -/

/-- An engine with an active job stands before an instruction word that is no reserved encoding, repeats nothing that R370
forbids, moves within memory and views, and fits the cycle limit with every stall that R327 allows: the instruction completes. -/
def Dev.dspReady (d : Dev) (e w : Nat) : Bool :=
  let x := d.dse e
  x.job.isSome && decide (x.pc < x.code) && d.ld (dseInstr e x.pc) 8 == w && encodingOk w
    && !(iOpc w == 0x04 && decide (x.pc + 1 < x.code) && inRange 1 4 (iOpc (d.ld (dseInstr e (x.pc + 1)) 8)))
    && (movesOf w).all (fun m => placeOf (moveAddr x.rf m) != .out)
    && (x.limit == 0 || decide (x.cycles + 322 ≤ x.limit))

/-- A register that no load of an instruction brings and no pointer update changes. -/
def dspUnmoved (w r : Nat) : Bool :=
  (movesOf w).all fun m => !(isLoad m && mReg m == r) && !(mPm m != 0 && 0x18 + mPtr m == r)

/-- An instruction of an engine has completed with these register writes: every register but ST that its moves leave alone holds
what was written, or what it held; the program goes on at `pc`, `rep`; nothing but this engine, its cycle count and, for its
stores, the SRAM has changed. -/
def Dev.dspRan (d t : Dev) (e w : Nat) (wr : List (Nat × Nat)) (pc : Nat) (rep : Option Nat) : Prop :=
  (∀ r, r ≠ 0x39 → dspUnmoved w r = true →
    rGet (t.dse e).rf r = ((wr.find? fun p => p.1 == r).map fun p => p.2).getD (rGet (d.dse e).rf r)) ∧
  (t.dse e).pc = pc ∧ (t.dse e).rep = rep ∧ (t.dse e).job = (d.dse e).job ∧ (∀ i, i ≠ e → t.dse i = d.dse i) ∧
  ((movesOf w).all isLoad = true → t.sram = d.sram) ∧ d.KeepsRegs t [(dseCntCyc e).addr, (dseCntCycHi e).addr] ∧
  { t with regs := d.regs, sram := d.sram, dses := d.dses, freeCtr := d.freeCtr } = d

/-- Where a program goes on after an instruction that does not branch: the next word, or the same word while a REP goes on (R370). -/
def Dse.after (x : Dse) : Nat × Option Nat :=
  match x.rep with
  | none => (x.pc + 1, none)
  | some n => if n ≤ 1 then (x.pc + 1, none) else (x.pc, some (n - 1))

/-- The flags of ST: Z and N from a result of `n` bits, V from its range, SV, GV and VR kept or set (R363). -/
def stFlags (st n bits : Nat) (sat wrap : Bool) (after : Nat) : Prop :=
  after.testBit 0 = decide (bits % 2 ^ n = 0) ∧ after.testBit 1 = bits.testBit (n - 1) ∧ after.testBit 2 = (sat || wrap) ∧
  after.testBit 3 = (st.testBit 3 || sat) ∧ after.testBit 4 = (st.testBit 4 || wrap)

/-! ## Meridian -/

/-- The next reliable message has been taken (R528). -/
def Dev.merTook (d : Dev) : Dev := { d with twin := { d.twin with rxSeq := (d.twin.rxSeq + 1) % 65536 } }

/-- A takeover has begun: PARK_OUT is asserted, and the shared Transit bus is claimed for at most 100 µs (R539). -/
def Dev.takeBegun (d t : Dev) : Prop :=
  t.get twinParkOut = 1 ∧ t.get twinState = 2 ∧ t.twin.take = .bus ∧ t.twin.takeEnd = t.mclk + 150000 ∧ t.twin.taken = false ∧
  t.tp.claim = true ∧ d.KeepsRegsEv t [twinState.addr]

/-- The flash is in its canonical form. -/
def State.flashOk (s : State) : Prop := Memory.wf flashDefault s.nv.flash = true

/-- The SRAM is in its canonical form. -/
def State.sramOk (s : State) : Prop := Memory.wf sramDefault s.dev.sram = true

end Sys2Proof.Machine
end

