-- ==== Sys2Proof/Certificates/Slice0/Obligations.lean ====
section
/-!
DEFINITION. The statements for the provers: what each family of commands does, how a step runs, and what every step keeps.
-/

open Sys2Proof Sys2Proof.Machine

/-- With a command at the front of the queue, a step is exec of that command on the state with the rest of the queue. On an empty
queue one clock tick passes (the model's choice, log entry 1). (spec/00_scope.md, R408) -/
def Obligations.StepRunsTheFrontCommand : Prop :=
  ∀ (s : State) (c : Instr) (cs : List Instr),
    (s.pending = c :: cs → step s = exec c { s with pending := cs }) ∧
    (s.pending = [] → step s = .next { s with dev := s.dev.tick })

/-- Every command answers a next state in every state: no fault and no refusal. The queue of waiting commands is unchanged, and
the flash is unchanged by every command except CAL_RUN STORE and its end, FLASH_WRITE, FW_STAGE, the end of a flash operation,
FW_IMAGE_READY and HKC_RESTART. (spec/00_scope.md, R16) -/
def Obligations.EveryCommandCompletesAndKeepsTheQueue : Prop :=
  ∀ (c : Instr) (s : State), ∃ t, exec c s = .next t ∧ t.pending = s.pending ∧
    ((∀ q, c ≠ .calRunStore q) → (∀ ok, c ≠ .calStoreDone ok) → (∀ q data ok, c ≠ .flashWrite q data ok) →
      (∀ q data ok, c ≠ .fwStage q data ok) → (∀ q r, c ≠ .flashOperationDone q r) → c ≠ .fwImageReady → c ≠ .hkcRestart →
      t.nv = s.nv)

/-- From every state whose flash is in its canonical form, every step leaves it in that form and leaves every byte of the identity
and factory region, offsets 0x0180_0000 to 0x018F_FFFF, as it was. (R16, R17) -/
def Obligations.EveryStepKeepsTheFlashFormAndTheIdentityRegion : Prop :=
  ∀ (s t : State), step s = .next t → s.flashOk →
    t.flashOk ∧ ∀ a, 0x1800000 ≤ a → a < 0x1900000 → t.nv.bytes a 1 = s.nv.bytes a 1

/-- At reset the flash and the SRAM are in canonical form, no command waits, and every flash byte reads erased. That the flash is
blank is the model's choice (DESIGN CHOICE, the log entry on the flash at reset). (R16, R617) -/
def Obligations.ResetMeetsTheFlashInvariant : Prop :=
  State.reset.flashOk ∧ State.reset.sramOk ∧ State.reset.pending = [] ∧
    ∀ a, a < 0x2000000 → State.reset.nv.bytes a 1 = [0xFF]

/-- At reset: every channel is in HIZ with its deglitch hold, current limit, parametric supervision and ideal level codes at their
stated values; every timing set has its stated period; LED_CTRL is 1; TB is 0 with TB_DISC set; the fault latch and queue are
empty with no count and no SEVERE state and FAULT_N is released; the Transit port is IDLE and its receive ring empty; no RUN is
open and no sequencer, DSP engine or acquisition unit is active. (R54, R87, R89, R120, R155, R263, R409, R472, R480,
spec/18_transit_port.md) -/
def Obligations.ResetLeavesTheStatedValues : Prop :=
  let d := State.reset.dev
  (∀ c, c < 256 → d.get (peHiz c) = 1 ∧ d.word (0x1000010 + 0x1000 * c) = 60 ∧ d.word (0x1000014 + 0x1000 * c) = 0x960050 ∧
    d.word (0x1000614 + 0x1000 * c) = 0x20064 ∧ (∀ k, k < 6 → d.get (peIdeal c k) = 0x2D2D) ∧ d.get (peIdeal c 6) = 0 ∧
    d.get (peIdeal c 7) = 0 ∧ d.get (peIdeal c 8) = 0xFFFF ∧ d.get (peIdeal c 9) = 0) ∧
  (∀ q i, q < 16 → i < 64 → d.word (0x800000 + 0x80000 * q + 0x2000 * i) = 0xEFFF) ∧ d.word 0x1400400 = 1 ∧
  d.tb = 0 ∧ d.get clkTbDisc = 1 ∧
  d.get fcuFirstValid = 0 ∧ d.get fcuOvf = 0 ∧ d.qCount = 0 ∧ d.fcu.checkers = [] ∧ d.get fcuFaultLow = 0 ∧
  d.get tpState = 0 ∧ d.get tpRxCount = 0 ∧ d.get tpTxValid = 0 ∧ d.runs = [] ∧
  (∀ q, q < 16 → d.get (seqState q) = 0) ∧ (∀ e, e < 16 → d.get (dseState e) = 0) ∧ (∀ a, a < 32 → d.get (auState a) = 0)

/-- PORST gives the registers of BAR0 offsets 0x10000 to 0x5FFFF their reset values, apart from the fault pin and the role strap;
loads the strap into TWIN_STATUS.ROLE; drives FAULT_N low; and leaves TB 0, SRAM initialised, no open RUN, idle sequencers, PLLs
and rings. (R597, R568, R472, R523, R617) -/
def Obligations.PowerOnResetRestoresResetValues : Prop :=
  ∀ (s : State) (roleB : Bool), Answers (.porst roleB) s fun t =>
    (∀ a, 0x10000 ≤ a → a < 0x60000 → a ≠ fcuFaultLow.addr → a ≠ twinRole.addr → t.word a = regReset a) ∧
    t.get twinRole = roleB.toNat ∧ t.get fcuFaultLow = 1 ∧ t.pwr.booted = false ∧ t.tb = 0 ∧ t.sram = [] ∧ t.shadow = [] ∧
    t.runs = [] ∧ t.seqs = [] ∧ t.plls = [] ∧ t.host = Dev.init.host ∧ t.out = s.dev.out

/-- PERST gives the host block its reset values, sets PWR_RST.PERST and changes no register elsewhere, no memory and no unit.
HOST_LINK_UP shows generation and width and ends the loss timer. HOST_LINK_DOWN shows neither and starts the timer of
TWIN_TIMING.HOST_LOSS, unless that is 0. (R568, R569, R597, R522, R538) -/
def Obligations.PlatformResetAndHostLinkTouchTheHostBlockOnly : Prop :=
  (∀ s : State, s.dev.twin.closing = [] → AnswersIdle .perst s fun t =>
    (∀ a, 0x10000 ≤ a → a < 0x18000 → a ≠ hostWaking.addr → t.word a = regReset a) ∧
    (∀ a, a < 0x10000 ∨ 0x18000 ≤ a → a ≠ pwrRstPerst.addr → t.word a = s.dev.word a) ∧
    t.get pwrRstPerst = 1 ∧ t.host.held = [] ∧
    { t with regs := s.dev.regs, host := s.dev.host, twin := s.dev.twin, out := s.dev.out } = s.dev) ∧
  ((∀ (s : State) (gen : Fin 6) (width : Fin 9), gen.val ≠ 0 → [1, 2, 4, 8].contains width.val = true → s.dev.pwr.porstLow = false →
    Answers (.hostLinkUp gen width) s fun t => t.get hostGen = gen ∧ t.get hostWidth = width ∧ t.twin.lossAt = none ∧
      s.dev.KeepsRegs t [hostGen.addr] ∧ { t with regs := s.dev.regs, twin := s.dev.twin } = s.dev) ∧
  (∀ s : State, s.dev.linkUp = true →
    Answers .hostLinkDown s fun t => t.get hostGen = 0 ∧ t.get hostWidth = 0 ∧
      t.twin.lossAt = (match s.dev.twin.lossAt with
        | some a => some a
        | none => if s.dev.get twinHostLoss = 0 then none else some (s.dev.mclk + 1500 * s.dev.get twinHostLoss)) ∧
      s.dev.KeepsRegs t [hostGen.addr] ∧ { t with regs := s.dev.regs, twin := s.dev.twin } = s.dev))

/-- BOOT with no good image shows NO_IMAGE, releases FAULT_N and loads GEN_SERIAL; HKC_READY opens the kinds that wait for the
controller; HKC_RESTART ends its flash operations, stores and updates; TAP_RESET and a TAP park instruction release and order the
park of every die. (R570, R571, R573, R580, R568, R472) -/
def Obligations.BootHkcAndTapCommands : Prop :=
  (∀ s : State, s.dev.pwr.booted = false → s.dev.pwr.porstLow = true → s.nv.fwBest = none → s.dev.pwr.parkIn = false →
    (∀ e, e < 4 → (s.dev.die e).parked = false) →
    Answers .boot s fun t => t.pwr.booted = true ∧ t.pwr.porstLow = false ∧ t.pwr.noImage = true ∧ t.get fcuFaultLow = 0 ∧
      t.get2 genSerialLo genSerialHi = s.nv.serial % 2 ^ 64) ∧
  (∀ s : State, s.dev.pwr.booted = true → s.dev.pwr.noImage = false → s.dev.switchOn = false →
    Answers .hkcReady s fun t => t = { s.dev with pwr := { s.dev.pwr with hkcReady := true } }) ∧
  (∀ s : State, s.dev.pwr.booted = true → s.dev.cal.runs = [] → 
    AnswersNv .hkcRestart s fun _ t => t.pwr.hkcReady = false ∧ t.pwr.flashOps = [] ∧ t.cal.stores = [] ∧ t.alm.pats = []) ∧
  (∀ s : State, Answers .tapReset s fun t => t = { s.dev with pwr := { s.dev.pwr with tapPark := false } }) ∧
  (∀ s : State, s.dev.runs = [] → s.dev.cal.runs = [] → AnswersIdle .tapParkInstruction s fun t =>
    t.pwr.tapPark = true ∧ t.get pwrRstTap = 1 ∧ ∀ e, e < 4 → (t.die e).parkOrd = true)

/-- PWR_RAIL clears the rail's status bit and raises one report of class 0x0D at TB with the scope of the rail; an edge-die rail
also orders that die parked. RAIL_IN_RANGE sets the bit and releases the die. No other register or die changes. (R565, R75, R460)
-/
def Obligations.RailMonitorsReportAndPark : Prop :=
  (∀ (s : State) (j : Fin 12), j.val ≠ 7 → s.dev.get ⟨pwrRailCore.addr, j.val, 1⟩ = 1 →
    s.dev.fcu.wireBad.contains (chkKey srcPwr j) = false → 
    Answers (.pwrRail j) s fun t =>
      t.get ⟨pwrRailCore.addr, j.val, 1⟩ = 0 ∧
      (∃ r, t.fcu.raised = s.dev.fcu.raised ++ [r] ∧ r.src = srcPwr ∧ r.chk = j.val ∧ r.cls = 0x0D ∧ r.t = s.dev.tb ∧
        r.scope = if j.val < 8 then s.dev.openSites else s.dev.dieSites (j - 8)) ∧
      (8 ≤ j.val → (t.die (j - 8)).parkRail = true) ∧ (∀ e, e + 8 ≠ j.val → t.die e = s.dev.die e) ∧
      { t with regs := s.dev.regs, fcu := s.dev.fcu, dies := s.dev.dies } = s.dev ∧ s.dev.KeepsRegs t [pwrRailCore.addr]) ∧
  (∀ (s : State) (j : Fin 12), j.val ≠ 7 → s.dev.get ⟨pwrRailCore.addr, j.val, 1⟩ = 0 →
    Answers (.railInRange j) s fun t =>
      t.get ⟨pwrRailCore.addr, j.val, 1⟩ = 1 ∧ (8 ≤ j.val → (t.die (j - 8)).parkRail = false) ∧
      (∀ e, e + 8 ≠ j.val → t.die e = s.dev.die e) ∧
      { t with regs := s.dev.regs, fcu := s.dev.fcu, dies := s.dev.dies } = s.dev ∧ s.dev.KeepsRegs t [pwrRailCore.addr])

/-- An idle device goes P1 to P2 and P2 to P3 at the idle deadlines, with the PLLs off and, in P3, every die ordered parked.
PWR_PIN takes its value. A wake records its cause. The SYS ramp starts when SYS is up, its end leads back to P1 with one wake more
counted, and a ramp down stops SYS. (R40, R415, R416, R574, R575, R576, R577, R578, R579) -/
def Obligations.StandbyIsEnteredAndLeft : Prop :=
  (∀ s : State, s.dev.get pwrState = 1 → s.dev.get pwrPin = 0 → s.dev.busy = false →
    Answers .p1IdleExpiry s fun t => t.get pwrState = 2 ∧ t.pwr.ramp = .down ∧ t.mclk = max s.dev.mclk s.dev.pwr.idleAt ∧
      t.get (pllState 1) = 0 ∧ t.get (pllState 2) = 0 ∧ t.get (pllState 0) = s.dev.get (pllState 0)) ∧
  (∀ s : State, s.dev.get pwrState = 2 → s.dev.get pwrPin = 0 → s.dev.get pwrP2s ≠ 0 → s.dev.busy = false → s.dev.pwr.wakeWhy = 0 →
    Answers .p2IdleExpiry s fun t => t.get pwrState = 3 ∧
      (∀ e, e < 4 → (t.get pwrParkP3).testBit e = !(s.dev.die e).parked) ∧
      (∀ e, e < 4 → (t.die e).parkP3 = ((s.dev.die e).parkP3 || !(s.dev.die e).parked))) ∧
  (∀ (s : State) (v : Word), Answers (.pinStateWrite v) s fun t => t.get pwrPin = v.toNat % 4) ∧
  (∀ s : State, s.dev.awake = false → s.dev.pwr.booted = true → s.dev.pwr.noImage = false → s.dev.pwr.ramp ≠ .down →
    s.dev.pwr.wakeWhy = 0 →
    Answers (.wake true) s fun t => t.pwr.wakeWhy = 3 ∧ t.get hostWaking = 1) ∧
  (∀ s : State, s.dev.pwr.wakeWhy ≠ 0 → s.dev.pwr.ramp = .none → s.dev.pwr.rampDone = false → s.dev.get (pllState 0) = 2 →
    Answers .sysRampStart s fun t =>
      t = { s.dev with pwr := { s.dev.pwr with ramp := .up, rampEnd := s.dev.mclk + 150000 } }) ∧
  (∀ s : State, s.dev.pwr.ramp = .up → s.dev.pwr.wakeWhy = 2 → s.dev.get (pllState 0) = 3 → s.dev.pwr.heldWrites = [] →
    s.dev.shadow = [] → s.dev.alm.pats = [] → s.dev.alm.rx = [] →
    AnswersIdle .sysRampEnd s fun t => t.get pwrWakes = min (s.dev.get pwrWakes + 1) 0xFFFF ∧ t.get pwrLastWake = 1 ∧
      t.get pwrParkP3 = 0 ∧ t.pwr.wakeWhy = 0) ∧
  (∀ s : State, s.dev.pwr.ramp = .down → Answers .sysStop s fun t => t.pwr.ramp = .none ∧ t.get (pllState 0) = 0 ∧
      t.mclk = max s.dev.mclk s.dev.pwr.rampEnd)

/-- A FLASH_READ of any range of the flash is accepted and ends by sending the flash's bytes to the host, with the flash
unchanged. A FLASH_WRITE whose range reaches outside the user area changes nothing and completes with RANGE. (R17) -/
def Obligations.FlashReadsAnywhereAndWritesOnlyInTheUserArea : Prop :=
  (∀ (s : State) (q : Fin 16) (x : Nat) (w : Work), s.dev.flashReady = true → s.dev.descOf q opFlashRead = some (x, w) →
    dField x 8 0 32 + dField x 12 0 32 ≤ 0x2000000 →
    Answers (.flashRead q) s fun t => (∃ o : FlashOp, t.pwr.flashOps = s.dev.pwr.flashOps ++ [o] ∧ o.offset = dField x 8 0 32 ∧
      o.length = dField x 12 0 32 ∧ o.host = dField x 24 0 64 ∧ o.q = q.val ∧ o.opc = w.opc ∧ o.id = w.id) ∧
      t = { s.dev.accept w with pwr := t.pwr }) ∧
  (∀ (s : State) (q : Fin 16) (res : FlashResult) (o : FlashOp), s.dev.pwr.flashOps.find? (fun y => y.q == q.val) = some o →
    o.opc = opFlashRead →
    AnswersNv (.flashOperationDone q res) s fun nv t => nv = s.nv ∧
      Output.dma o.host (s.nv.bytes o.offset o.length) ∈ t.out ∧ (∀ y, y ∈ t.pwr.flashOps → y.id ≠ o.id)) ∧
  (∀ (s : State) (q : Fin 16) (data : List Byte) (readOk : Bool) (x : Nat) (w : Work), s.dev.flashReady = true →
    s.dev.descOf q opFlashWrite = some (x, w) →
    dField x 8 0 32 < 0x1900000 ∨ 0x2000000 < dField x 8 0 32 + dField x 12 0 32 →
    AnswersNv (.flashWrite q data readOk) s fun nv t => nv = s.nv ∧ t = s.dev.done w stRange)

/-- FLASH_WRITE within the user area erases its range and ends by programming the data. FW_STAGE erases the region of the image
that does not run and clears STAGED; of the running image it is LOCKED. FW_SWITCH to a staged image starts it, or is RANGE;
FW_IMAGE_READY commits it and makes it the running image, and the ready timeout falls back. (R16, R496, R580, R581, R582) -/
def Obligations.FlashWritesEraseProgramAndSwitchImages : Prop :=
  ((∀ (s : State) (q : Fin 16) (data : List Byte) (x : Nat) (w : Work), s.dev.flashReady = true →
    s.dev.descOf q opFlashWrite = some (x, w) → 0x1900000 ≤ dField x 8 0 32 → dField x 8 0 32 + dField x 12 0 32 ≤ 0x2000000 →
    dField x 12 0 32 ≤ data.length →
    AnswersNv (.flashWrite q data true) s fun nv t => nv = s.nv.erase (dField x 8 0 32) (dField x 12 0 32) ∧
      (∃ o : FlashOp, t.pwr.flashOps = s.dev.pwr.flashOps ++ [o] ∧ o.offset = dField x 8 0 32 ∧ o.data = data.take (dField x 12 0 32) ∧
        o.opc = w.opc ∧ o.q = q.val) ∧ t = { s.dev.accept w with pwr := t.pwr }) ∧
  (∀ (s : State) (q : Fin 16) (res : FlashResult) (o : FlashOp), s.dev.pwr.flashOps.find? (fun y => y.q == q.val) = some o →
    o.opc = opFlashWrite → 0x1900000 ≤ o.offset → o.offset + o.length ≤ 0x2000000 → res.readbackOk = true →
    AnswersNv (.flashOperationDone q res) s fun nv t => nv = s.nv.write o.offset (o.data.take o.length) ∧
      t = ({ s.dev with pwr := { s.dev.pwr with flashOps := s.dev.pwr.flashOps.filter fun y => y.id != o.id } }).doneWith
        o.work stOk o.length 0) ∧
  (∀ (s : State) (q : Fin 16) (data : List Byte) (x : Nat) (w : Work), s.dev.flashReady = true →
    s.dev.descOf q opFwStage = some (x, w) → dField x 8 0 8 < 2 → dField x 12 0 32 ≤ 0x3FF000 → s.dev.pwr.noImage = false →
    s.dev.get pwrFwImage ≠ dField x 8 0 8 → dField x 12 0 32 ≤ data.length →
    AnswersNv (.fwStage q data true) s fun nv t => nv = s.nv.erase (0x400000 * dField x 8 0 8) 0x400000 ∧
      t.get (pwrFwStaged (dField x 8 0 8)) = 0 ∧
      (∃ o : FlashOp, t.pwr.flashOps = s.dev.pwr.flashOps ++ [o] ∧ o.image = dField x 8 0 8 ∧ o.opc = w.opc) ∧
      s.dev.KeepsRegs t [(pwrFwStaged 0).addr]) ∧
  (∀ (s : State) (q : Fin 16) (data : List Byte) (readOk : Bool) (x : Nat) (w : Work), s.dev.flashReady = true →
    s.dev.descOf q opFwStage = some (x, w) → dField x 12 0 32 ≤ 0x3FF000 → s.dev.pwr.noImage = false →
    s.dev.get pwrFwImage = dField x 8 0 8 →
    AnswersNv (.fwStage q data readOk) s fun nv t => nv = s.nv ∧ t = s.dev.done w stLocked)) ∧
  ((∀ (s : State) (q : Fin 16) (x : Nat) (w : Work), s.dev.descOf q opFwSwitch = some (x, w) → s.dev.pwr.fwSwitch = none →
    dField x 8 0 8 < 2 → s.dev.get (pwrFwStaged (dField x 8 0 8)) = 1 → s.dev.hkcBusy = false →
    Answers (.fwSwitch q) s fun t => t.get pwrFwSwitching = 1 ∧ t.pwr.hkcReady = false ∧
      t.pwr.fwSwitch = some { id := w.id, q := q, cid := w.cid, image := dField x 8 0 8, started := true,
                              deadline := s.dev.mclk + 150000000 } ∧
      s.dev.KeepsRegs t [pwrFwSwitching.addr] ∧ { t with regs := s.dev.regs, pwr := s.dev.pwr } = s.dev) ∧
  (∀ (s : State) (q : Fin 16) (x : Nat) (w : Work), s.dev.descOf q opFwSwitch = some (x, w) → s.dev.pwr.fwSwitch = none →
    dField x 8 0 8 < 2 → s.dev.get (pwrFwStaged (dField x 8 0 8)) = 0 → Answers (.fwSwitch q) s fun t => t = s.dev.done w stRange) ∧
  (∀ (s : State) (y : FwSwitch), s.dev.pwr.fwSwitch = some y → y.started = true → y.image < 2 → s.dev.pwr.noImage = false →
    AnswersNv .fwImageReady s fun nv t => nv = s.nv.fwCommit y.image ∧ t.get pwrFwImage = y.image ∧
      t.get (pwrFwStaged y.image) = 0 ∧ t.get pwrFwSwitching = 0 ∧ t.pwr.hkcReady = true ∧ t.pwr.fwSwitch = none) ∧
  (∀ (s : State) (y : FwSwitch), s.dev.pwr.fwSwitch = some y → y.started = true →
    Answers .fwReadyTimeout s fun t => t.get pwrFwImage = s.dev.get pwrFwImage ∧ t.get pwrFwSwitching = 0 ∧
      t.pwr.hkcReady = !s.dev.pwr.noImage ∧ t.pwr.fwSwitch = none ∧ t.mclk = max s.dev.mclk y.deadline))

/-- A quiesce of idle sectors sets their bits of QUIESCED and parks no die unless asked; with one sector busy it is LOCKED and
does nothing. A resume clears exactly the named bits and, when asked, releases each die whose four sectors are all named and that
nothing else holds parked. With a park input, EDGE_PARK parks the die: its bit of PARKED and the PARKED, HIZ bits of every channel
of it are set and no other die changes. With none, EDGE_UNPARK clears the bits, and HIZ stays. (R75, R76, R77, R444, R584, R587)
-/
def Obligations.SectorsAndEdgeDiesLeaveAndReenterService : Prop :=
  ((∀ (s : State) (q : Fin 16) (x : Nat) (w : Work), s.dev.descOf q opSectorQuiesce = some (x, w) → dField x 10 0 1 = 0 →
    (∀ k, k < 16 → (dField x 8 0 16).testBit k = true → s.dev.sectorBusy k = false) →
    Answers (.sectorQuiesce q) s fun t => t.get pwrQuiesced = s.dev.get pwrQuiesced ||| dField x 8 0 16 ∧
      (∀ e, e < 4 → (t.die e).parkOrd = (s.dev.die e).parkOrd)) ∧
  (∀ (s : State) (q : Fin 16) (x : Nat) (w : Work) (k : Nat), s.dev.descOf q opSectorQuiesce = some (x, w) → dField x 10 0 1 = 0 →
    k < 16 → (dField x 8 0 16).testBit k = true → s.dev.sectorBusy k = true →
    Answers (.sectorQuiesce q) s fun t => t = s.dev.done w stLocked) ∧
  (∀ (s : State) (q : Fin 16) (x : Nat) (w : Work), s.dev.descOf q opSectorResume = some (x, w) →
    Answers (.sectorResume q) s fun t =>
      (∀ k, k < 16 → (t.get pwrQuiesced).testBit k = ((s.dev.get pwrQuiesced).testBit k && !(dField x 8 0 16).testBit k)) ∧
      (∀ e, e < 4 → (t.die e).parkOrd = if dField x 10 0 1 = 1 ∧ bitsOf (dField x 8 0 16) (4 * e) 4 = 15 ∧ s.dev.pwr.parkIn = false ∧
        (s.dev.die e).parkRail = false ∧ (s.dev.die e).parkP3 = false then false else (s.dev.die e).parkOrd))) ∧
  ((∀ (s : State) (e : Fin 4), (s.dev.die e).parked = false → s.dev.parkInput e = true → s.dev.runs = [] → s.dev.cal.runs = [] →
    (∀ a, a < 32 → s.dev.get (auState a) = 0) → (∀ u, u < 64 → s.dev.get (tmuState u) = 0) →
    AnswersIdle (.edgePark e) s fun t => (t.die e).parked = true ∧ (t.get pwrParked).testBit e = true ∧
      (∀ c, c ∈ dieChans e → t.is (peParked c) = true ∧ t.is (peHiz c) = true ∧ t.is (peLoadCompl c) = false) ∧
      (∀ i, i ≠ e.val → t.die i = s.dev.die i)) ∧
  (∀ (s : State) (e : Fin 4), (s.dev.die e).parked = true → s.dev.parkInput e = false →
    Answers (.edgeUnpark e) s fun t => (t.die e).parked = false ∧ (t.get pwrParked).testBit e = false ∧
      (∀ c, c ∈ dieChans e → t.is (peParked c) = false ∧ t.is (peHiz c) = s.dev.is (peHiz c)) ∧
      (∀ i, i ≠ e.val → t.die i = s.dev.die i) ∧
      { t with regs := s.dev.regs, dies := s.dev.dies, fcu := s.dev.fcu, pwr := s.dev.pwr } = s.dev))

/-- REF_LOST puts each PLL that can into COAST and counts the loss; REF_FOUND takes each from COAST to REF_RETURN. The measured
offset is shown, a CKx PLL slews and then times its lock, and SYS marks a discontinuity of TB. No register outside the clock and
host blocks changes. (R402, R403, R409, R411, R420, R421, R422, R423) -/
def Obligations.ReferenceLossCoastsAndReturnIsBuiltOut : Prop :=
  ((∀ s : State, s.dev.refOn = true → s.dev.awake = true → Answers .refLost s fun t =>
    t.refOn = false ∧ t.get clkRefLoss = min (s.dev.get clkRefLoss + 1) (2 ^ clkRefLoss.w - 1) ∧
    (∀ p, p < 3 → t.get (pllState p) = if s.dev.coasts p then 4 else s.dev.get (pllState p)) ∧
    (∀ a, (a < 0x20000 ∨ 0x21000 ≤ a) → (a < 0x10000 ∨ 0x10300 ≤ a) → (a < 0x300000 ∨ 0x310000 ≤ a) → t.word a = s.dev.word a)) ∧
  (∀ s : State, s.dev.refOn = false → Answers .refFound s fun t =>
    t.refOn = true ∧ (∀ p, p < 3 → t.get (pllState p) = if s.dev.get (pllState p) = 4 then 5 else s.dev.get (pllState p)) ∧
    s.dev.KeepsOutside t 0x20000 0x21000 ∧
    { t with regs := s.dev.regs, host := s.dev.host, out := s.dev.out, plls := s.dev.plls } = s.dev)) ∧
  ((∀ (s : State) (p : Fin 3) (off : BitVec 24), s.dev.get (pllState p) = 5 → (s.dev.pll p).measured = false → s.dev.refOn = true →
    Answers (.pllReturnMeasured p off) s fun t => t.get (pllBuildout p) = off.toNat ∧ (t.pll p).measured = true ∧
      (t.pll p).slewing = (if p = 0 then (s.dev.pll p).slewing else true) ∧
      (p = 0 → t.get clkTbDisc = 1) ∧ t.get (pllState p) = 5) ∧
  (∀ (s : State) (p : Fin 3), s.dev.get (pllState p) = 5 → (s.dev.pll p).slewing = true →
    Answers (.ckxSlewDone p) s fun t => (t.pll p).slewing = false ∧
      (t.pll p).toAt = s.dev.mclk + us (max 50 (s.dev.get (pllAcqTo p))) ∧ (∀ r, r ≠ p.val → t.pll r = s.dev.pll r) ∧
      { t with plls := s.dev.plls } = s.dev))

/-- PLL_BAND_CHOSEN takes SEARCH to ACQUIRE with the band shown; the lock criterion takes ACQUIRE to LOCKED; the timeout takes it
to SEARCH or, the third time, to FAILED; LOCK_LOST takes LOCKED to OPEN and counts; the recovery takes OPEN to ACQUIRE. (R410,
R411, R412, R413, R424, R425) -/
def Obligations.PllStatesFollowTheLockDetector : Prop :=
  (∀ (s : State) (p : Fin 3) (band : Fin 64) (q : BitVec 13), s.dev.get (pllState p) = 1 →
    Answers (.pllBandChosen p band q) s fun t => t.get (pllState p) = 2 ∧ t.get (pllBand p) = band ∧
      (p = 0 → t.get (pllQ p) = s.dev.get (pllQ p)) ∧ { t with regs := s.dev.regs } = s.dev ∧ s.dev.KeepsRegs t [(pllState p).addr]) ∧
  (∀ (s : State) (p : Fin 3), s.dev.get (pllState p) = 2 → s.dev.pwr.wakeWhy = 0 → (s.dev.pll p).freqWait = false →
    AnswersIdle (.pllLockCriterionMet p) s fun t => t.get (pllState p) = 3 ∧ t.get (pllLockBit p) = 1 ∧
      (t.pll p).avg = true ∧ (t.pll p).lockHz = s.dev.get (pllFnow p) ∧ s.dev.KeepsRegsEv t [(pllState p).addr]) ∧
  (∀ (s : State) (p : Fin 3), s.dev.get (pllState p) = 2 → s.dev.pwr.wakeWhy = 0 → (s.dev.pll p).toAt ≠ 0 →
    AnswersIdle (.pllAcqTimeout p) s fun t => t.mclk = max s.dev.mclk (s.dev.pll p).toAt ∧
      t.get (pllState p) = if (s.dev.pll p).fails < 2 then 1 else 7) ∧
  (∀ (s : State) (p : Fin 3), s.dev.get (pllState p) = 3 → (∀ q, q < 16 → s.dev.seqBusy q = false) →
    Answers (.lockLost p) s fun t => t.get (pllState p) = 6 ∧ t.get (pllLockBit p) = 0 ∧
      t.get (pllUnlocks p) = min (s.dev.get (pllUnlocks p) + 1) 0xFFFF) ∧
  (∀ (s : State) (p : Fin 3), s.dev.get (pllState p) = 6 → (s.dev.pll p).affected = 0 → s.dev.refOn = true →
    Answers (.pllOpenRecovery p) s fun t => t.get (pllState p) = 2 ∧ (t.pll p).fails = 0 ∧
      { t with regs := s.dev.regs, plls := s.dev.plls } = s.dev ∧ s.dev.KeepsRegs t [(pllState p).addr])

/-- A pending frequency commits while no owner runs. A walk ends at the programmed frequency. A ramp starts at GO or at its
trigger when every point is near the lock, passes point by point, notes a slew limit, and stops holding its frequency. RELOCK
starts the search again. (R9, R411, R413, R417, R419) -/
def Obligations.FrequenciesCommitWalkAndRamp : Prop :=
  ((∀ (s : State) (p : Fin 3) (w : Word), p ≠ 0 → s.dev.running (.pll p) = false → s.dev.get (pllState p) = 0 →
    s.dev.shadow = [((pllHz p).addr, some w)] →
    Answers (.pllFreqCommit p) s fun t => t.word (pllHz p).addr = w ∧ t.shadow = [] ∧ s.dev.KeepsRegs t [(pllHz p).addr] ∧
      { t with regs := s.dev.regs, shadow := s.dev.shadow } = s.dev) ∧
  (∀ (s : State) (p : Fin 3), (s.dev.pll p).walking = true → s.dev.get (pllState p) = 3 →
    Answers (.pllFreqWalkDone p) s fun t => t.get (pllFnow p) = s.dev.pllSet p % 2 ^ 31 ∧ (t.pll p).walking = false ∧
      s.dev.KeepsRegs t [(pllFnow p).addr] ∧ { t with regs := s.dev.regs, plls := s.dev.plls } = s.dev)) ∧
  ((∀ (s : State) (p : Fin 3), p ≠ 0 → s.dev.awake = true → s.dev.get (pllState p) = 3 →
    ((List.range (s.dev.rampPoints p)).all fun k => s.dev.nearLock p (s.dev.get (pllRptTarget p k))) = true →
    (s.dev.rampSource p = 0 → Answers (.rampGo p) s fun t => t.get (pllRamp p) = 1 ∧ t.get (pllSlewLim p) = 0 ∧
      (t.pll p).rampIdx = 0 ∧ (t.pll p).rampAt = s.dev.mclk ∧ s.dev.KeepsRegs t [(pllRamp p).addr, (pllFnow p).addr]) ∧
    (s.dev.rampSource p ≠ 0 → Answers (.rampTrigger p) s fun t => t.get (pllRamp p) = 1 ∧ t.get (pllSlewLim p) = 0 ∧
      (t.pll p).rampIdx = 0 ∧ (t.pll p).rampAt = s.dev.mclk ∧ s.dev.KeepsRegs t [(pllRamp p).addr, (pllFnow p).addr])) ∧
  (∀ (s : State) (p : Fin 3) (slew : Bool), s.dev.is (pllRamp p) = true → s.dev.get (pllState p) = 3 →
    (s.dev.pll p).rampIdx < 64 →
    AnswersIdle (.rampSegmentEnd p slew) s fun t =>
      t.get (pllFnow p) = s.dev.get (pllRptTarget p (s.dev.pll p).rampIdx) ∧
      t.is (pllRamp p) = decide ((s.dev.pll p).rampIdx + 1 < s.dev.rampPoints p) ∧
      (slew = true → t.get (pllSlewLim p) = 1) ∧ s.dev.KeepsRegsEv t [(pllRamp p).addr, (pllFnow p).addr]) ∧
  (∀ (s : State) (p : Fin 3), s.dev.awake = true → s.dev.is (pllRamp p) = true →
    AnswersIdle (.rampStop p) s fun t => t.get (pllRamp p) = 0 ∧ t.get (pllFnow p) = s.dev.rampFreq p % 2 ^ 31 ∧
      s.dev.KeepsRegs t [(pllRamp p).addr, (pllFnow p).addr]) ∧
  (∀ (s : State) (p : Fin 3) (req : Requester), s.dev.awake = true → s.dev.running (.pll p) = false → s.dev.get (pllState p) = 7 →
    AnswersIdle (.relock req p) s fun t => t.get (pllState p) = 1 ∧ (t.pll p).avg = false))

/-- An alignment request sets PENDING, a cancel clears it, and a SYNC edge with PENDING set and no sequencer or RUN active loads
TB with SYNC_LOAD, shows the loaded value and clears PENDING. (R405, R406) -/
def Obligations.SyncAlignsTheTimebase : Prop :=
  (∀ (s : State) (force : Bool), Answers (.syncAlignRequest force) s fun t => t.get clkAlignPend = 1 ∧ t.clk.alignForce = force ∧
    s.dev.KeepsRegs t [clkAlignPend.addr] ∧ { t with regs := s.dev.regs, clk := s.dev.clk } = s.dev) ∧
  (∀ s : State, Answers .syncCancel s fun t => t.get clkAlignPend = 0 ∧ t.clk.alignForce = false ∧
    s.dev.KeepsRegs t [clkAlignPend.addr] ∧ { t with regs := s.dev.regs, clk := s.dev.clk } = s.dev) ∧
  (∀ s : State, s.dev.awake = true → s.dev.is clkAlignPend = true → s.dev.anySeqBusy = false → s.dev.runs = [] →
    Answers .syncArrival s fun t => t.tb = s.dev.get2 clkSyncLoad clkSyncLoadHi ∧ t.get2 clkTbSyncLo clkTbSyncHi = t.tb ∧
      t.get clkAlignPend = 0 ∧ s.dev.KeepsOutside t 0x20000 0x21000)

/-- A write to a register of access RW-L stores the writable bits while its owner does not run, and is refused and counted with
its address and requester while it does. A write to a read-only register stores nothing. A write to an offset with no register
stores nothing and is counted. (R4, R5, R10, R592, R599) -/
def Obligations.RegisterWritesFollowAccessAndOwner : Prop :=
  ((∀ (s : State) (req : Requester) (addr : BitVec 25) (v : Word) (r : RegInfo), addr.toNat % 4 = 0 →
    regInfo addr.toNat = some r → r.acc = .rwl → s.dev.running r.owner = true →
    AnswersIdle (.registerWrite req addr v) s fun t =>
      t.get genErrLocked = min (s.dev.get genErrLocked + 1) (2 ^ genErrLocked.w - 1) ∧ t.get genErrAddr = addr.toNat ∧
      t.get genErrReq = (if req = .hkc then 1 else 0) ∧
      s.dev.KeepsRegs t [genErrLocked.addr, genErrAddr.addr, genErrReq.addr] ∧ { t with regs := s.dev.regs } = s.dev) ∧
  (∀ (s : State) (req : Requester) (addr : BitVec 25) (v : Word) (r : RegInfo),
    (0x10000 ≤ addr.toNat ∧ addr.toNat < 0x18000) ∨ (0x60000 ≤ addr.toNat ∧ addr.toNat < 0x70000) →
    regInfo addr.toNat = some r → r.acc = .rwl → s.dev.running r.owner = false →
    AnswersIdle (.registerWrite req addr v) s fun t => t.word addr.toNat = BitVec.ofNat 32 (v.toNat &&& r.mask) ∧
      s.dev.KeepsRegs t [addr.toNat] ∧ { t with regs := s.dev.regs } = s.dev)) ∧
  ((∀ (s : State) (req : Requester) (addr : BitVec 25) (v : Word) (r : RegInfo), regInfo addr.toNat = some r →
    r.acc = .ro ∨ r.acc = .rop → AnswersIdle (.registerWrite req addr v) s fun t => t = s.dev) ∧
  (∀ (s : State) (req : Requester) (addr : BitVec 25) (v : Word), addr.toNat % 4 = 0 → regInfo addr.toNat = none →
    AnswersIdle (.registerWrite req addr v) s fun t =>
      t.get genErrAccess = min (s.dev.get genErrAccess + 1) (2 ^ genErrAccess.w - 1) ∧
      s.dev.KeepsRegs t [genErrAccess.addr] ∧ { t with regs := s.dev.regs } = s.dev))

/-- A read of the low word of a 64-bit value latches the high word in the requester's own latch, leaves the other requester's
latch and everything else as it is, and the next read of the paired register by that requester returns the latched word. (R13) -/
def Obligations.LowWordReadLatchesTheHighWord : Prop :=
  ∀ (s : State) (req : Requester) (addr : BitVec 25) (r : RegInfo), isLowWord addr.toNat = true →
    regInfo (addr.toNat + 4) = some r →
    Answers (.lowWordRead req addr) s fun t =>
      (req = .host → t.host = { s.dev.host with latchHost := BitVec.ofNat 32 (s.dev.current (addr.toNat + 4)) }) ∧
      (req = .hkc → t.host = { s.dev.host with latchHkc := BitVec.ofNat 32 (s.dev.current (addr.toNat + 4)) }) ∧
      { t with host := s.dev.host } = s.dev ∧
      t.readReg req (addr.toNat + 4) = s.dev.current (addr.toNat + 4) % 2 ^ 32 &&& r.mask

/-- SITE_MAP, SEQ_QUADS, sequencer regions, AU_SRC and AU_ALLOC take a value that conflicts with no other owner and refuse one
that does. Each clear of GEN_ERR clears its own counter. SEQ_FLAG takes its value; a trigger ball follows its edge; a pending FCU
class word commits while no RUN is open. (R9, R10, R26, R28, R158, R162, R265, R268, R478, R531, R599) -/
def Obligations.OwnershipFlagAndCounterRegisters : Prop :=
  ((∀ (s : State) (req : Requester) (c : Fin 256) (v : Word), s.dev.running (.siteMap c) = false →
    (∀ q, q < 16 → s.dev.seqQuads q = 0) →
    Answers (.siteMapWrite req c v) s fun t => t.get (siteMap c) = v.toNat % 256 &&& 0xBF ∧ s.dev.KeepsRegs t [(siteMap c).addr]) ∧
  (∀ (s : State) (req : Requester) (n : Fin 16) (hi : Bool) (v : Word), s.dev.awake = true →
    (∀ x, x < 16 → s.dev.running (.seq x) = false) →
    Answers (.seqQuadsWrite req n hi v) s fun t =>
      if s.dev.quadsBad n hi v.toNat then t = s.dev.refuseWrite req (if hi then 0x10000C + 0x10000 * n else 0x100008 + 0x10000 * n)
      else t.word (if hi then 0x10000C + 0x10000 * n else 0x100008 + 0x10000 * n) = v ∧
        s.dev.KeepsRegs t [if hi then 0x10000C + 0x10000 * n else 0x100008 + 0x10000 * n] ∧ { t with regs := s.dev.regs } = s.dev) ∧
  (∀ (s : State) (req : Requester) (n : Fin 16) (v : Word), s.dev.awake = true → s.dev.running (.seq n) = false →
    (Answers (.seqRegionWrite req n true v) s fun t =>
      if s.dev.regionBad n (s.dev.get (seqVbase n)) (v.toNat % 2 ^ 22) then t = s.dev.refuseWrite req (seqVlines n).addr
      else t.get (seqVlines n) = v.toNat % 2 ^ 22 ∧ s.dev.KeepsRegs t [(seqVlines n).addr] ∧ { t with regs := s.dev.regs } = s.dev) ∧
    (Answers (.seqRegionWrite req n false v) s fun t =>
      if s.dev.regionBad n (v.toNat % 2 ^ 22) (s.dev.get (seqVlines n)) then t = s.dev.refuseWrite req (seqVbase n).addr
      else t.get (seqVbase n) = v.toNat % 2 ^ 22 ∧ s.dev.KeepsRegs t [(seqVbase n).addr] ∧ { t with regs := s.dev.regs } = s.dev)) ∧
  (∀ (s : State) (req : Requester) (a : Fin 32) (v : Word), s.dev.awake = true → s.dev.running (.au a) = false →
    Answers (.auSrcWrite req a v) s fun t =>
      if s.dev.auSrcBad a (v.toNat &&& 0x803FFFFF) then t = s.dev.refuseWrite req (0x200010 + 0x1000 * a)
      else t.word (0x200010 + 0x1000 * a) = v &&& 0x803FFFFF ∧ s.dev.KeepsRegs t [0x200010 + 0x1000 * a.val] ∧
        { t with regs := s.dev.regs } = s.dev) ∧
  (∀ (s : State) (req : Requester) (a : Fin 32) (v : Word), s.dev.awake = true → s.dev.running (.au a) = false →
    Answers (.auAllocWrite req a v) s fun t =>
      if s.dev.auAllocBad a (v.toNat &&& 0x3FF01FF) then t = s.dev.refuseWrite req (0x200014 + 0x1000 * a)
      else t.word (0x200014 + 0x1000 * a) = v &&& 0x3FF01FF ∧ s.dev.KeepsRegs t [0x200014 + 0x1000 * a.val] ∧
        { t with regs := s.dev.regs } = s.dev)) ∧
  ((∀ s : State, Answers .genErrClrLocked s fun t => t.get genErrLocked = 0 ∧ t.get genErrAddr = 0 ∧
    t.get genErrAccess = s.dev.get genErrAccess ∧ { t with regs := s.dev.regs } = s.dev) ∧
  (∀ s : State, Answers .genErrClrAccess s fun t => t.get genErrAccess = 0 ∧ t.get genErrLocked = s.dev.get genErrLocked ∧
    t.get genErrAddr = s.dev.get genErrAddr ∧ { t with regs := s.dev.regs } = s.dev)) ∧
  ((∀ (s : State) (n : Fin 16) (v : Word), s.dev.awake = true → s.dev.running (.seq n) = false →
    Answers (.seqFlagWrite n v) s fun t => t.word (0x100028 + 0x10000 * n) = v &&& 0xFF ∧
      s.dev.KeepsRegs t [0x100028 + 0x10000 * n.val] ∧ { t with regs := s.dev.regs, out := s.dev.out } = s.dev) ∧
  (∀ (s : State) (i : Fin 4) (rise : Bool), s.dev.awake = false →
    Answers (.trigInEdge i rise) s fun t => t.trigIn.testBit i = rise ∧ (∀ j, j ≠ i.val → t.trigIn.testBit j = s.dev.trigIn.testBit j) ∧
      { t with trigIn := s.dev.trigIn } = s.dev) ∧
  (∀ (s : State) (a : Nat) (w : Word), 0x30100 ≤ a → a < 0x30200 → s.dev.shadow = [(a, some w)] → s.dev.runs = [] →
    Answers (.shadowCommit .fcuClass) s fun t => t.word a = w ∧ t.shadow = [] ∧ t.get fcuCommitPend = 0 ∧
      s.dev.KeepsRegs t [a, fcuCommitPend.addr] ∧ { t with regs := s.dev.regs, shadow := s.dev.shadow } = s.dev))

/-- A CONFIG_BLOCK with a write to a locked register is LOCKED and changes nothing; with a write that is refused it is RANGE and
changes nothing; otherwise every write applies and it completes OK. One that waited for its boundary does the same there. (R11,
R497, R504) -/
def Obligations.ConfigBlockAppliesAllOrNothing : Prop :=
  (∀ (s : State) (q : Fin 16) (ws : List CfgWrite) (x : Nat) (w : Work), s.dev.descOf q opConfigBlock = some (x, w) →
    dField x 8 0 8 = 0 → dField x 10 0 16 = ws.length → ws.any s.dev.cfgLocked = true →
    AnswersIdle (.configBlock q ws true) s fun t => t = s.dev.done w stLocked) ∧
  (∀ (s : State) (q : Fin 16) (ws : List CfgWrite) (x : Nat) (w : Work) (d : Dev), s.dev.descOf q opConfigBlock = some (x, w) →
    dField x 8 0 8 = 0 → dField x 10 0 16 = ws.length → ws.any s.dev.cfgLocked = false → cfgFold ws s.dev = some d →
    AnswersIdle (.configBlock q ws true) s fun t => t = d.done w stOk) ∧
  (∀ (s : State) (q : Fin 16) (ws : List CfgWrite) (x : Nat) (w : Work), s.dev.descOf q opConfigBlock = some (x, w) →
    dField x 8 0 8 = 0 → dField x 10 0 16 = ws.length → ws.any s.dev.cfgLocked = false → cfgFold ws s.dev = none →
    AnswersIdle (.configBlock q ws true) s fun t => t = s.dev.done w stRange) ∧
  (∀ (s : State) (q : Fin 16) (c : CfgWait) (d : Dev), s.dev.host.cfgs.find? (fun c => c.q == q.val && c.ready) = some c →
    let d0 : Dev := { s.dev with host := { s.dev.host with cfgs := s.dev.host.cfgs.filter fun x => x.id != c.id } }
    let w : Work := { id := c.id, q := c.q, cid := c.cid, opc := opConfigBlock }
    (c.writes.any d0.cfgLocked = true → AnswersIdle (.configBlockApply q) s fun t => t = d0.done w stLocked) ∧
    (c.writes.any d0.cfgLocked = false → cfgFold c.writes d0 = some d →
      AnswersIdle (.configBlockApply q) s fun t => t = (if c.boundary = 0 then d else d.cfgCommit c.writes).done w stOk))

/-- A level code loads its DAC alone; a drive pair that would break its order loads nothing, sets LEVEL and counts. PE_CTRL writes
set HIZ or wait for the next step; faults are cleared by ones; a deglitched DAC is released at its end; a channel leaves HIZ when
it may. (R56, R57, R58, R60, R64, R65, R72, R73, R74, R81, R84) -/
def Obligations.LevelsLoadAndChannelsLeaveHighImpedance : Prop :=
  ((∀ (s : State) (c : Fin 256) (k : Fin 11) (v : Word), s.dev.awake = true →
    s.dev.running (ownerAt (peLvlCodeAddr c k)) = false → s.dev.loadsOnWrite c k = true →
    k ≠ 0 → k ≠ 1 → k ≠ 8 → k ≠ 9 →
    pairDriveOk (s.dev.get (peIdeal c 0)) (s.dev.get (peIdeal c 1)) = true →
    pairClampOk (s.dev.get (peIdeal c 8)) (s.dev.get (peIdeal c 9)) = true →
    AnswersIdle (.levelCodeWrite c k v) s fun t => t.word (peLvlCodeAddr c k) = v &&& 0xFFFF ∧
      t.get (peIdeal c k) = v.toNat % 65536 ∧ (∀ j, j < 11 → j ≠ k.val → t.get (peIdeal c j) = s.dev.get (peIdeal c j)) ∧
      t.get (peFault c) = s.dev.get (peFault c)) ∧
  (∀ (s : State) (c : Fin 256) (v : Word), s.dev.awake = true →
    s.dev.running (ownerAt (peLvlCodeAddr c 0)) = false → s.dev.loadsOnWrite c 0 = true →
    pairDriveOk (v.toNat % 65536) (s.dev.get (peIdeal c 1)) = false →
    pairClampOk (s.dev.get (peIdeal c 8)) (s.dev.get (peIdeal c 9)) = true →
    AnswersIdle (.levelCodeWrite c 0 v) s fun t => (∀ j, j < 11 → t.get (peIdeal c j) = s.dev.get (peIdeal c j)) ∧
      t.get (peFault c) = s.dev.get (peFault c) ||| 4 ∧ t.get (peCntRej c) = min (s.dev.get (peCntRej c) + 1) (2 ^ (peCntRej c).w - 1)) ∧
  (∀ (s : State) (req : Requester) (c : Fin 256) (v : Word), s.dev.awake = true → s.dev.running (ownerAt (0x100000C + 0x1000 * c)) = false →
    Answers (.peLvlUpdWrite req c v) s fun t => t.word (0x100000C + 0x1000 * c) = v &&& 0x7FF) ∧
  (∀ (s : State) (c : Fin 256) (k : Fin 11), (s.dev.dac c k).holding = true →
    Answers (.deglitchRelease c k) s fun t => (t.dac c k).holding = false ∧ (t.dac c k).out = s.dev.get (peCorr c k) ∧
      (∀ j, j ≠ k.val → t.dac c j = s.dev.dac c j) ∧ t.mclk = max s.dev.mclk (s.dev.dac c k).holdEnd ∧
      s.dev.KeepsRegs t [(peHold c).addr])) ∧
  ((∀ (s : State) (req : Requester) (c : Fin 256) (v : Word), s.dev.awake = true → s.dev.running (ownerAt (peCtrlAddr c)) = false →
    v.toNat.testBit 5 = false →
    AnswersIdle (.peCtrlWrite req c v) s fun t => t.word (peCtrlAddr c) = v &&& 0x3F ∧ t.is (peHiz c) = true) ∧
  (∀ (s : State) (req : Requester) (c : Fin 256) (v : Word), s.dev.awake = true → s.dev.running (ownerAt (peCtrlAddr c)) = false →
    v.toNat.testBit 5 = true → s.dev.is (peParked c) = false → s.dev.quiesced (sectorOf c) = false →
    AnswersIdle (.peCtrlWrite req c v) s fun t => t.word (peCtrlAddr c) = v &&& 0x3F ∧ (t.chan c).waitStep = false ∧
      t.is (peHiz c) = s.dev.is (peHiz c)) ∧
  (∀ (s : State) (c : Fin 256) (v : Word), s.dev.awake = true → Answers (.peFaultClear c v) s fun t =>
    (∀ b, b < 4 → (t.get (peFault c)).testBit b = ((s.dev.get (peFault c)).testBit b && !v.toNat.testBit b)) ∧
    (v.toNat.testBit 2 = true → t.get (peCntRej c) = 0) ∧ s.dev.KeepsRegs t [(peFault c).addr, (peCntRej c).addr] ∧
    { t with regs := s.dev.regs, chans := s.dev.chans } = s.dev) ∧
  (∀ (s : State) (c : Fin 256), s.dev.awake = true → Answers (.peTimClr c) s fun t => t.get (peTimCnt c) = 0 ∧
    s.dev.KeepsRegs t [(peTimCnt c).addr] ∧ { t with regs := s.dev.regs } = s.dev) ∧
  (∀ (s : State) (c : Fin 256), s.dev.awake = true → s.dev.mayExit c = true → s.dev.wfOn c = false → (s.dev.chan c).wfRefused = false →
    Answers (.hizExit c) s fun t => t.is (peHiz c) = false ∧ t.mclk = max s.dev.mclk ((s.dev.chan c).loadAt + 3000)))

/-- Driver and clamp overcurrent set their fault bit and put the channel in HIZ; load compliance sets its bit and its status. Each
kind of die-to-die error raises one report with its class, time and scope; a configuration write without acknowledgement is tried
again and then reported lost. (R21, R22, R23, R24, R72, R78, R79) -/
def Obligations.SupervisionTripsChannelsAndDieLinksReport : Prop :=
  ((∀ (s : State) (c : Fin 256), s.dev.awake = true → s.dev.is (peHiz c) = false →
    AnswersIdle (.drvOc c) s fun t => t.get (peFault c) = s.dev.get (peFault c) ||| 1 ∧ t.is (peHiz c) = true ∧
      t.is (peLoadCompl c) = false) ∧
  (∀ (s : State) (c : Fin 256), s.dev.awake = true → s.dev.is (peHiz c) = false → s.dev.eis (peClampEn c) = true →
    AnswersIdle (.clampOc c) s fun t => t.get (peFault c) = s.dev.get (peFault c) ||| 2 ∧ t.is (peHiz c) = true) ∧
  (∀ (s : State) (c : Fin 256), s.dev.awake = true → s.dev.loadOn c = true →
    Answers (.loadCompl c) s fun t => t.get (peFault c) = s.dev.get (peFault c) ||| 8 ∧ t.is (peLoadCompl c) = true ∧
      s.dev.KeepsRegsEv t [(peFault c).addr, (peLoadCompl c).addr])) ∧
  (∀ (s : State) (e : Fin 4) (sec : BitVec 4) (syn : Word), s.dev.awake = true → s.dev.is fcuInjBusy = false →
    (∀ k, k < 4 → s.dev.fcu.wireBad.contains (chkKey (srcDie e) k) = false) →
    (Answers (.d2dCrcOut e sec syn) s fun t => (t.die e).crcHold = (s.dev.die e).crcHold ||| sec.toNat ∧
      ∃ r, t.fcu.raised = s.dev.fcu.raised ++ [r] ∧ r.src = srcDie e ∧ r.cls = 0x03 ∧ r.t = s.dev.tb ∧ r.syn = syn.toNat ∧
        r.scope = s.dev.dieSectorSites e sec.toNat) ∧
    (∀ sites, Answers (.d2dCrcIn e sec syn sites []) s fun t => { t with fcu := s.dev.fcu } = s.dev ∧
      ∃ r, t.fcu.raised = s.dev.fcu.raised ++ [r] ∧ r.src = srcDie e ∧ r.cls = 0x04 ∧ r.t = s.dev.tb ∧
        r.scope = sites.toNat &&& s.dev.dieSites e) ∧
    (Answers (.d2dEcho e sec syn) s fun t => { t with fcu := s.dev.fcu } = s.dev ∧
      ∃ r, t.fcu.raised = s.dev.fcu.raised ++ [r] ∧ r.src = srcDie e ∧ r.cls = 0x05 ∧ r.t = s.dev.tb ∧
        r.scope = s.dev.dieSectorSites e sec.toNat) ∧
    (∀ w, (s.dev.die e).lastWr = some w → Answers (.d2dConfigAckTimeout e) s fun t =>
      t.mclk = s.dev.mclk + 3000 ∧
      (w.attempts < 3 → (t.die e).lastWr = some { w with attempts := w.attempts + 1 } ∧ t.fcu = s.dev.fcu) ∧
      (3 ≤ w.attempts → 0x1100000 ≤ w.addr → (t.die e).lastWr = none ∧
        ∃ r, t.fcu.raised = s.dev.fcu.raised ++ [r] ∧ r.src = srcDie e ∧ r.cls = 0x06 ∧ r.scope = s.dev.dieSites e)))

/-- Compliance sets its status and fault; open loop also ends the forcing; a clear of OPEN_LOOP waits; reconnection restores the
force mode; a PPMU_CTRL write stores its bits with no waveform running. (R96, R97, R101, R103, R104, R120) -/
def Obligations.ParametricSupervisionSetsAndClears : Prop :=
  (∀ (s : State) (c : Fin 256), s.dev.get (ppmuForceNow c) ≠ 0 → s.dev.awake = true →
    Answers (.ppmuCompl c) s fun t => t.get (ppmuCompl c) = 1 ∧ t.get (ppmuFaultF c) = s.dev.get (ppmuFaultF c) ||| 1 ∧
      s.dev.KeepsRegsEv t [(ppmuCompl c).addr, (ppmuFaultF c).addr] ∧
      { t with regs := s.dev.regs, host := s.dev.host, out := s.dev.out } = s.dev) ∧
  (∀ (s : State) (c : Fin 256), s.dev.get (ppmuForceNow c) = 1 → s.dev.awake = true →
    Answers (.ppmuOpenLoop c) s fun t => t.get (ppmuForceNow c) = 0 ∧ t.get (ppmuFaultF c) = s.dev.get (ppmuFaultF c) ||| 2 ∧
      (t.chan c).olHold = true ∧ s.dev.KeepsRegs t [(ppmuForceNow c).addr, (ppmuFaultF c).addr]) ∧
  (∀ (s : State) (c : Fin 256) (v : Word), s.dev.awake = true → s.dev.running (.chan c) = true →
    Answers (.ppmuFaultClear c v) s fun t =>
      (∀ b, b < 3 → (t.get (ppmuFaultF c)).testBit b = ((s.dev.get (ppmuFaultF c)).testBit b && !v.toNat.testBit b)) ∧
      (v.toNat.testBit 1 = true → (s.dev.chan c).olHold = true → (t.chan c).olWait = true ∧ (t.chan c).olHold = true) ∧
      s.dev.KeepsRegs t [(ppmuFaultF c).addr] ∧ { t with regs := s.dev.regs, chans := s.dev.chans } = s.dev) ∧
  (∀ (s : State) (c : Fin 256) (at_ : Nat), (s.dev.chan c).reconAt = some at_ → s.dev.wfOn c = false →
    (s.dev.chan c).wfRefused = false → s.dev.is (peHiz c) = false → (s.dev.chan c).olHold = false → (s.dev.chan c).patStep = false →
    AnswersIdle (.ppmuReconnect c) s fun t => (t.chan c).reconAt = none ∧ t.get (ppmuForceNow c) = s.dev.forceMode c % 4 ∧
      t.mclk = max s.dev.mclk at_) ∧
  (∀ (s : State) (req : Requester) (c : Fin 256) (v : Word), s.dev.awake = true →
    s.dev.running (ownerAt (0x1000600 + 0x1000 * c)) = false → (s.dev.chan c).ppmuUse = none → (s.dev.chan c).wfRefused = false →
    v.toNat.testBit 6 = false →
    AnswersIdle (.ppmuCtrlWrite req c v) s fun t =>
      t.word (0x1000600 + 0x1000 * c) = BitVec.ofNat 32 (ppmuCtrlStored (s.dev.word (0x1000600 + 0x1000 * c)).toNat v.toNat) ∧
      t.is (ppmuCompl c) = false ∧ t.is (ppmuWfRun c) = false)

/-- A jump request waits for the segment end, or for the next when late; a segment repeats while its count lasts and ends the
waveform at END. A sample is shown, moves time to its moment and joins the samples of its site; a settle time takes the first; a
waiting site is admitted within the budget. (R99, R100, R109, R112, R113, R116, R618) -/
def Obligations.WaveformSegmentsAndParametricSamples : Prop :=
  ((∀ (s : State) (c : Fin 256) (v : Word), s.dev.awake = true → s.dev.is (ppmuWfRun c) = true →
    Answers (.ppmuWfJump c v) s fun t =>
      (s.dev.mclk + 8 * s.dev.wfDiv c < (s.dev.chan c).wfEnd → (t.chan c).wfReq = some (v.toNat % 256) ∧
        (t.chan c).wfLate = (s.dev.chan c).wfLate) ∧
      ((s.dev.chan c).wfEnd ≤ s.dev.mclk + 8 * s.dev.wfDiv c → (t.chan c).wfLate = some (v.toNat % 256) ∧
        (t.chan c).wfReq = (s.dev.chan c).wfReq) ∧
      (∀ i, i ≠ c.val → t.chan i = s.dev.chan i) ∧ { t with chans := s.dev.chans } = s.dev) ∧
  (∀ (s : State) (c : Fin 256), s.dev.is (ppmuWfRun c) = true → (s.dev.chan c).wfRefused = false →
    (s.dev.chan c).wfReq = none → (s.dev.chan c).wfLeft = 0 → s.dev.eis (pedSegEnd (dieOf c) (s.dev.get (ppmuWfSeg c))) = true →
    AnswersIdle (.wfSegmentEnd c) s fun t => t.is (ppmuWfRun c) = false ∧ t.mclk = max s.dev.mclk (s.dev.chan c).wfEnd) ∧
  (∀ (s : State) (c : Fin 256), s.dev.is (ppmuWfRun c) = true → (s.dev.chan c).wfRefused = false →
    (s.dev.chan c).wfReq = none → 0 < (s.dev.chan c).wfLeft → s.dev.segBad (dieOf c) (s.dev.get (ppmuWfSeg c)) = false →
    AnswersIdle (.wfSegmentEnd c) s fun t => t.is (ppmuWfRun c) = true ∧ t.get (ppmuWfSeg c) = s.dev.get (ppmuWfSeg c) ∧
      (t.chan c).wfLeft = (s.dev.chan c).wfLeft - 1 ∧ (t.chan c).wfReq = (s.dev.chan c).wfLate)) ∧
  ((∀ (s : State) (td : DWord) (c : Fin 256) (code : BitVec 18), s.dev.is (peParked c) = false → s.dev.awake = true →
    s.dev.findRun td.toNat = none →
    Answers (.ppmuSample td c code) s fun t => t.get (ppmuResult c) = code.toNat ∧ s.dev.KeepsRegs t [(ppmuResult c).addr] ∧
      { t with regs := s.dev.regs } = s.dev) ∧
  (∀ (s : State) (td : DWord) (c : Fin 256) (code : BitVec 18) (r : OpenRun) (st : StepData) (y : Res),
    s.dev.is (peParked c) = false → s.dev.awake = true → s.dev.findRun td.toNat = some r → s.dev.runById r.id = some r →
    r.phase = .running → r.step? = some st → st.kind = kPpmu → r.chanRes c = some y → y.begun = true → y.settled = true →
    y.fin = none → y.samples.length + 1 < (st.ppmuUse r.td c).samples →
    Answers (.ppmuSample td c code) s fun t => t.get (ppmuResult c) = code.toNat ∧
      t.mclk = max s.dev.mclk (y.t0 + 1500 * (y.samples.length + 1)) ∧
      ∃ r' y', t.findRun td.toNat = some r' ∧ r'.chanRes c = some y' ∧ y'.samples = code.toNat :: y.samples ∧ y'.fin = none) ∧
  (∀ (s : State) (td : DWord) (site : Fin 64) (c : Fin 256) (code : BitVec 18) (r : OpenRun) (st : StepData) (y : Res),
    s.dev.is (peParked c) = false → s.dev.findRun td.toNat = some r → s.dev.runById r.id = some r →
    r.phase = .running → r.step? = some st → st.kind = kPpmu → r.chanRes c = some y → y.site = site → y.begun = true →
    y.settled = false → y.fin = none → y.samples = [] → 2 ≤ (st.ppmuUse r.td c).samples →
    Answers (.ppmuSettleExpiry td site [(c, code)]) s fun t => t.get (ppmuResult c) = code.toNat ∧
      ∃ r' y', t.findRun td.toNat = some r' ∧ r'.chanRes c = some y' ∧ y'.settled = true ∧ y'.samples = [code.toNat] ∧
        y'.t0 = y.t0 + 1500 * (st.ppmuUse td.toNat c).settle) ∧
  (∀ (s : State) (td : DWord) (at_ : Nat), s.dev.admitAt = some at_ → (s.dev.findRun td.toNat).isSome = true →
    Answers (.budgetAdmit td) s fun t =>
      t = Dev.admitAll { s.dev.advanceTo at_ with admitAt := none } 4096))

/-- An arm settles the layout and goes to ARMED or FULL, or refuses with ARM_ERR. A software event and a qualified trigger start
the record at their tick with the samples before it. A record's end counts it and goes to re-arm; disarm, the re-arm end, the
sweep settle end and the step's wait follow; read indexes take their values. (R270, R271, R272, R274, R276, R277, R279, R280,
R281, R290, R291) -/
def Obligations.AcquisitionUnitsArmTriggerAndRecord : Prop :=
  ((∀ (s : State) (a : Fin 32) (r : Settled), s.dev.awake = true → s.dev.get (auState a) = 0 → s.dev.auQuiesced a = false →
    s.dev.auArmable a = some r → s.dev.is (auSweep a) = false →
    Answers (.auArm a) s fun t =>
      t.get (auState a) = (if r.slotsN ≤ (s.dev.get (auRecWr a) + 65536 - s.dev.auRelease a) % 65536 then 4 else 1) ∧
      t.get (auArmErr a) = 0 ∧ t.get (auCntMiss a) = 0 ∧ (t.au a).pre = r.p ∧ (t.au a).post = r.q ∧ (t.au a).armTb = s.dev.tb ∧
      (∀ i, i ≠ a.val → t.au i = s.dev.au i) ∧
      s.dev.KeepsRegs t [(auState a).addr, (auCntMiss a).addr, (auCntGap a).addr] ∧
      { t with regs := s.dev.regs, aus := s.dev.aus } = s.dev) ∧
  (∀ (s : State) (a : Fin 32), s.dev.awake = true → s.dev.get (auState a) = 0 → s.dev.auQuiesced a = false →
    s.dev.auArmable a = none →
    Answers (.auArm a) s fun t => t.get (auState a) = 0 ∧ t.get (auArmErr a) = 1 ∧ t.aus = s.dev.aus ∧
      s.dev.KeepsRegsEv t [(auArmErr a).addr]) ∧
  (∀ (s : State) (a : Fin 32), s.dev.awake = true → s.dev.get (auKind a) = 9 → s.dev.get (auState a) = 1 →
    (s.dev.au a).ev = none → s.dev.is (auGateEn a) = false →
    Answers (.auSwtrig a) s fun t => (t.au a).ev = some (4096 * s.dev.mclk) ∧ (∀ i, i ≠ a.val → t.au i = s.dev.au i) ∧
      { t with aus := s.dev.aus } = s.dev) ∧
  (∀ (s : State) (a : Fin 32) (stream : List (List Nat)) (tick : Nat), s.dev.get (auState a) = 1 → s.dev.get (auType a) ≠ 2 → s.dev.auGate a tick = true →
    (s.dev.get (auKind a) < 6 ∧
        s.dev.auQualifies a (stream.reverse.map fun x => x.getD (s.dev.get (auTch a)) 0) = true) ∨
      (6 ≤ s.dev.get (auKind a) ∧ stream ≠ [] ∧ ∃ t0, (s.dev.au a).ev = some t0 ∧ t0 ≤ tick ∧ tick < t0 + s.dev.auInterval a) →
    Answers (.auTrigger a stream tick) s fun t => t.get (auState a) = 2 ∧ (t.au a).trigAt = tick ∧
      (t.au a).preS = stream.drop (stream.length - 1 - (s.dev.au a).pre) ∧ (t.au a).ev = none ∧
      t.mclk = max s.dev.mclk (tick / 4096) ∧ (∀ i, i ≠ a.val → t.au i = s.dev.au i) ∧ s.dev.KeepsRegs t [(auState a).addr])) ∧
  ((∀ (s : State) (a : Fin 32) (post : List (List Nat)) (noConv : Bool), s.dev.get (auState a) = 2 → s.dev.get (auType a) ≠ 2 →
    s.dev.is (auSweep a) = false → (s.dev.au a).run = none → (s.dev.au a).drained = false → (s.dev.au a).post ≤ post.length + 1 →
    AnswersIdle (.auRecordEnd a post noConv) s fun t => t.get (auState a) = 3 ∧
      t.get (auRecWr a) = (s.dev.get (auRecWr a) + 1) % 65536 ∧ (t.au a).seqNo = (s.dev.au a).seqNo + 1 ∧ (t.au a).preS = [] ∧
      (∀ i, i ≠ a.val → t.au i = s.dev.au i)) ∧
  (∀ (s : State) (a : Fin 32), s.dev.awake = true → s.dev.get (auState a) = 1 → s.dev.is (auSweep a) = false →
    (s.dev.au a).run = none →
    AnswersIdle (.auDisarm a) s fun t => t.get (auState a) = 0 ∧ (t.au a).ev = none ∧ (∀ i, i ≠ a.val → t.au i = s.dev.au i) ∧
      t.sram = s.dev.sram ∧ s.dev.KeepsRegs t [(auState a).addr]) ∧
  (∀ (s : State) (a : Fin 32), s.dev.get (auState a) = 3 → (s.dev.au a).run = none →
    AnswersIdle (.auRearmEnd a) s fun t => t.mclk = max s.dev.mclk (s.dev.au a).waitTo ∧
      ((s.dev.au a).left = some 0 → t.get (auState a) = 0) ∧
      ((s.dev.au a).left ≠ some 0 → t.get (auState a) = if s.dev.auFull a && (s.dev.au a).passes == 0 then 4 else 1)) ∧
  (∀ (s : State) (a : Fin 32), s.dev.get (auState a) = 5 →
    Answers (.auSweepSettleEnd a) s fun t => t.mclk = max s.dev.mclk (s.dev.au a).waitTo ∧
      t.get (auState a) = if s.dev.auFull a && (s.dev.au a).passes == 0 then 4 else 1) ∧
  (∀ (s : State) (a : Fin 32) (at_ id site : Nat) (r : OpenRun), (s.dev.au a).waitEnd = some at_ → (s.dev.au a).run = some id →
    s.dev.auSite a = some site → s.dev.runById id = some r → s.dev.get (auState a) = 1 → s.dev.is (auSweep a) = false →
    let late := ((r.siteRes site).filter fun y => y.unit / 4 == a.val && y.fin.isNone).map fun y => y.j
    let d := (s.dev.advanceTo at_).forEach late fun d j =>
      d.putReading id site j { value := 0, code := rFailLo, flags := 0, startTb := (s.dev.au a).armTb, endTb := d.tb }
    d.auOpen a = false →
    AnswersIdle (.acqWaitExpiry a) s fun t => t.get (auState a) = 0 ∧ (t.au a).run = none ∧ (t.au a).waitEnd = none ∧
      t.mclk = d.mclk ∧ t.runs = d.runs ∧ t.host = d.host ∧ d.KeepsRegs t [(auState a).addr]) ∧
  (∀ (s : State) (a : Fin 32) (v : Word), s.dev.get (auState a) ≠ 4 →
    Answers (.auRecRelease a v) s fun t => t.get (auRecRd a) = v.toNat % 65536 ∧ s.dev.KeepsRegs t [(auRecRd a).addr] ∧
      { t with regs := s.dev.regs } = s.dev) ∧
  (∀ (s : State) (a : Fin 32) (v : Word), (s.dev.au a).fifo = [] →
    Answers (.auDrainRead a v) s fun t => t.get (auDrainRd a) = v.toNat ∧ s.dev.KeepsRegs t [(auDrainRd a).addr] ∧
      { t with regs := s.dev.regs } = s.dev))

/-- A TMU arms into its calibration, which succeeds, is tried once more or fails with CAL_ERR. A sample enters the sum, the count
and LAST with the value of its mode, corrected by the vernier gains. A timeout counts and idles; a disarm keeps the count. (R303,
R304, R306, R307, R309, R310) -/
def Obligations.TimeMeasurementUnitsCalibrateAndSample : Prop :=
  (∀ (s : State) (u : Fin 64), s.dev.awake = true → s.dev.get (tmuState u) = 0 →
    s.dev.quiesced (sectorOf (s.dev.tmuInputs u).1.1) = false → s.dev.quiesced (sectorOf (s.dev.tmuInputs u).2.1) = false →
    Answers (.tmuArm u) s fun t => t.get (tmuState u) = 1 ∧ t.get (tmuCalErr u) = 0 ∧ t.get (tmuStatCnt u) = 0 ∧
      (t.tmu u).armTb = s.dev.tb ∧ (t.tmu u).sum = 0 ∧ (∀ i, i ≠ u.val → t.tmu i = s.dev.tmu i) ∧
      s.dev.KeepsRegs t [(tmuState u).addr, (tmuStatCnt u).addr] ∧ { t with regs := s.dev.regs, tmus := s.dev.tmus } = s.dev) ∧
  (∀ (s : State) (u : Fin 64), s.dev.awake = true → s.dev.get (tmuState u) ≠ 0 → (s.dev.tmu u).run = none →
    AnswersIdle (.tmuDisarm u) s fun t => t.get (tmuState u) = 0 ∧ t.get (tmuStatCnt u) = s.dev.get (tmuStatCnt u) ∧
      (t.tmu u).toEnd = none ∧ (∀ i, i ≠ u.val → t.tmu i = s.dev.tmu i)) ∧
  (∀ (s : State) (u : Fin 64) (s1 s2 p1 p2 : Nat), s.dev.get (tmuState u) = 1 → calFails s1 s2 = false → calFails p1 p2 = false →
    AnswersIdle (.tmuCalDone u s1 s2 p1 p2) s fun t => t.get (tmuState u) = 2 ∧ (t.tmu u).fails = 0 ∧
      ((t.tmu u).gS, (t.tmu u).oS) = calGain s1 s2 ∧ ((t.tmu u).gP, (t.tmu u).oP) = calGain p1 p2) ∧
  (∀ (s : State) (u : Fin 64) (s1 s2 p1 p2 : Nat), s.dev.get (tmuState u) = 1 → (calFails s1 s2 || calFails p1 p2) = true →
    (s.dev.tmu u).run = none →
    AnswersIdle (.tmuCalDone u s1 s2 p1 p2) s fun t =>
      if (s.dev.tmu u).fails = 0 then t.get (tmuState u) = 1 ∧ (t.tmu u).fails = 1
      else t.get (tmuState u) = 0 ∧ t.get (tmuCalErr u) = 1) ∧
  (∀ (s : State) (u : Fin 64) (start stop next : Vernier) (edges : Nat), s.dev.get (tmuState u) = 2 →
    s.dev.get (tmuStatCnt u) < s.dev.get (tmuNM1 u) → s.dev.is (tmuIcal u) = false →
    AnswersIdle (.tmuSample u start stop next edges) s fun t =>
      let x := s.dev.tmu u
      let o := Config.openValue s.dev.freeCtr u
      let v := fit40 ((tmuValue (s.dev.get (tmuMode u)) (max 1 (s.dev.get (tmuEdges u))) edges (eventTime start x.gS x.oS x.pathS)
        (eventTime stop x.gP x.oP x.pathP) (eventTime next x.gS x.oS x.pathS)).getD o) o
      t.get (tmuState u) = 2 ∧ t.get (tmuStatCnt u) = s.dev.get (tmuStatCnt u) + 1 ∧ (t.tmu u).sum = x.sum + v ∧
      t.get (tmuLast u) = ofSigned 40 v % 2 ^ 32) ∧
  (∀ (s : State) (u : Fin 64) (at_ : Nat), (s.dev.tmu u).toEnd = some at_ → s.dev.get (tmuState u) ≠ 0 → (s.dev.tmu u).run = none →
    AnswersIdle (.tmuTimeout u) s fun t => t.get (tmuState u) = 0 ∧ t.mclk = max s.dev.mclk at_ ∧
      t.get (tmuCntTo u) = min (s.dev.get (tmuCntTo u) + 1) 0xFFFF)

/-- A quiesce goes to QUIESCING and, with no job, to QUIESCED; a resume to IDLE or NO_KERNEL; RUN and the dispatch start a job at
the entry; a load ends with the image's kernel, length and entry and a cleared job count. (R320, R325, R334, R339, R340, R341) -/
def Obligations.DspEnginesQuiesceLoadAndStartJobs : Prop :=
  (∀ (s : State) (e : Fin 16), s.dev.awake = true → s.dev.get (dseState e) ≠ 3 → s.dev.get (dseState e) ≠ 5 →
    AnswersIdle (.dseQuiesce e false) s fun t => t.get (dseState e) = 4 ∧ s.dev.KeepsRegs t [(dseState e).addr] ∧
      { t with regs := s.dev.regs } = s.dev) ∧
  (∀ (s : State) (e : Fin 16), s.dev.get (dseState e) = 4 → (s.dev.dse e).job = none →
    AnswersIdle (.dseQuiesced e) s fun t => t.get (dseState e) = 5 ∧ t.dses = s.dev.dses ∧ s.dev.KeepsRegsEv t [(dseState e).addr]) ∧
  (∀ (s : State) (e : Fin 16), s.dev.awake = true → s.dev.get (dseState e) = 5 →
    Answers (.dseResume e) s fun t => t.get (dseState e) = (if s.dev.get (dseKid e) = 0 then 0 else 1) ∧
      s.dev.KeepsRegs t [(dseState e).addr] ∧ { t with regs := s.dev.regs } = s.dev) ∧
  (∀ (s : State) (e : Fin 16), s.dev.awake = true → s.dev.get (dseState e) = 1 → s.dev.dseRunning e = false →
    Answers (.dseRun e) s fun t => t.get (dseState e) = 2 ∧ (t.dse e).job.isSome = true ∧ (t.dse e).pc = (s.dev.dse e).entry ∧
      (t.dse e).cycles = 0 ∧ (∀ i, i ≠ e.val → t.dse i = s.dev.dse i) ∧ s.dev.KeepsRegs t [(dseState e).addr] ∧
      { t with regs := s.dev.regs, dses := s.dev.dses } = s.dev) ∧
  (∀ (s : State) (j : Job) (e : Nat), e < 16 → (∀ i, i < 16 → (s.dev.dse i).queue = []) → s.dev.nextListed [] s.dev.jobs = some (j, some e) →
    s.dev.get (dseState e) = 1 →
    AnswersIdle .dspJobDispatch s fun t => t.get (dseState e) = 2 ∧ t.jobs = s.dev.jobs.erase j ∧ (t.dse e).pc = (s.dev.dse e).entry ∧
      ∃ k, (t.dse e).job = some k ∧ k.run = j.run ∧ k.site = j.site ∧ k.kid = j.kid ∧ k.startTb = s.dev.tb) ∧
  (∀ (s : State) (e : Fin 16) (l : KLoad), (s.dev.dse e).load = some l → s.dev.get (dseState e) = 3 →
    AnswersIdle (.dseLoaded e) s fun t =>
      t.get (dseState e) = (if (s.dev.dse e).wasQ then 5 else 1) ∧ t.get (dseKid e) = ofBytes ((l.image.drop 2).take 2) ∧
      (t.dse e).code = ofBytes ((l.image.drop 6).take 2) ∧ (t.dse e).entry = ofBytes ((l.image.drop 8).take 2) ∧
      (t.dse e).load = none ∧ t.get (dseCntJob e) = 0 ∧ (∀ i, i ≠ e.val → t.dse i = s.dev.dse i))

/-- For a ready engine: ADD, SUB, MIN, MAX, ABS, NEG, SHF, AND, OR, XOR and CMP write exactly their destination with the exact
result shifted, rounded and saturated or wrapped, halves apart in H form, and the flags of ST as stated; nothing else changes but
the engine's cycle count. (R322, R344, R345, R353, R354, R357, R362, R363) -/
def Obligations.DspArithmeticWritesItsRegister : Prop :=
  ∀ (s : State) (e : Fin 16) (w : Nat), s.dev.dspReady e w = true →
    let x := s.dev.dse e
    let rf := x.rf
    let keep (n : Nat) (y : Int) : Fit := fit n (iS w) y
    let down (n : Nat) (y : Int) : Fit := fit n (iS w) (shiftRound y (iShift w) (iRnd w))
    let ends (o : Instr) (whole lo hi : Fit) : Prop :=
      Answers o s fun t => s.dev.dspRan t e w [(iDst w, if iHalf w then packHalves lo.bits hi.bits else whole.bits)] x.after.1 x.after.2 ∧
        (iHalf w = false → stFlags (rGet rf 0x39) 40 whole.bits whole.sat whole.wrap (rGet (t.dse e).rf 0x39)) ∧
        (iHalf w = true → (rGet (t.dse e).rf 0x39) % 4 = rGet rf 0x39 % 4 ∧
          (rGet (t.dse e).rf 0x39).testBit 2 = (lo.sat || lo.wrap || hi.sat || hi.wrap))
    let bits (o : Instr) (v : Nat) : Prop :=
      Answers o s fun t => s.dev.dspRan t e w [(iDst w, v % 2 ^ 40)] x.after.1 x.after.2 ∧
        stFlags (rGet rf 0x39) 40 (v % 2 ^ 40) false false (rGet (t.dse e).rf 0x39)
    let a := dVal rf (iSa w)
    let b := dVal rf (iSb w)
    let al := dLo rf (iSa w)
    let bl := dLo rf (iSb w)
    let ah := dHi rf (iSa w)
    let bh := dHi rf (iSb w)
    (iOpc w = 0x10 → ends (.dspAdd e) (down 40 (a + b)) (down 20 (al + bl)) (down 20 (ah + bh))) ∧
    (iOpc w = 0x11 → ends (.dspSub e) (down 40 (a - b)) (down 20 (al - bl)) (down 20 (ah - bh))) ∧
    (iOpc w = 0x12 → ends (.dspMin e) (fit 40 false (min a b)) (fit 20 false (min al bl)) (fit 20 false (min ah bh))) ∧
    (iOpc w = 0x13 → ends (.dspMax e) (fit 40 false (max a b)) (fit 20 false (max al bl)) (fit 20 false (max ah bh))) ∧
    (iOpc w = 0x14 → ends (.dspAbs e) (keep 40 a.natAbs) (keep 20 al.natAbs) (keep 20 ah.natAbs)) ∧
    (iOpc w = 0x15 → ends (.dspNeg e) (keep 40 (-a)) (keep 20 (-al)) (keep 20 (-ah))) ∧
    (iOpc w = 0x19 → w.testBit 32 = false → ends (.dspShf e) (down 40 a) (down 20 al) (down 20 ah)) ∧
    (iOpc w = 0x19 → w.testBit 32 = true →
      ends (.dspShf e) (keep 40 (a * 2 ^ iShift w)) (keep 20 (al * 2 ^ iShift w)) (keep 20 (ah * 2 ^ iShift w))) ∧
    (iOpc w = 0x16 → bits (.dspAnd e) (rGet rf (iSa w) &&& rGet rf (iSb w))) ∧
    (iOpc w = 0x17 → bits (.dspOr e) (rGet rf (iSa w) ||| rGet rf (iSb w))) ∧
    (iOpc w = 0x18 → bits (.dspXor e) (rGet rf (iSa w) ^^^ rGet rf (iSb w))) ∧
    (iOpc w = 0x1A → Answers (.dspCmp e) s fun t => s.dev.dspRan t e w [] x.after.1 x.after.2 ∧
      (rGet (t.dse e).rf 0x39).testBit 0 = decide (a = b) ∧ (rGet (t.dse e).rf 0x39).testBit 1 = decide (a < b) ∧
      (rGet (t.dse e).rf 0x39).testBit 2 = false)

/-- For a ready engine: MAC4, MACS, CMAC, ACC, LDA, STA and CLRA write exactly their accumulators or register from the exact
products and sums, saturated or wrapped at 48 bits; ACS writes the selected sums and the decisions; MOV and LDI write their
target. Single-accumulator forms set Z, N, V; the others leave Z and N. (R342, R343, R344, R345, R348, R349, R361, R362, R363,
R364, R365, R366) -/
def Obligations.DspAccumulatorSelectAndCopyOperations : Prop :=
  (∀ (s : State) (e : Fin 16) (w : Nat), s.dev.dspReady e w = true →
    let x := s.dev.dse e
    let rf := x.rf
    let acc (i : Nat) (v : Int) : Fit :=
      fit 48 (iS w) (match iAop w with
        | 0 => aVal rf i + v
        | 1 => aVal rf i - v
        | 2 => v
        | _ => -v)
    let xs (i : Nat) : Int := pairHalf rf (iSa w) i
    let ys (i : Nat) : Int := pairHalf rf (iSb w) i
    let p (u v : Int) : Int := product rf u v
    let yi := if w.testBit 32 then - dHi rf (iSb w) else dHi rf (iSb w)
    let one (o : Instr) (f : Fit) : Prop :=
      Answers o s fun t => s.dev.dspRan t e w [(0x10 + iAd w, f.bits)] x.after.1 x.after.2 ∧
        stFlags (rGet rf 0x39) 48 f.bits f.sat f.wrap (rGet (t.dse e).rf 0x39)
    (iOpc w = 0x08 → Answers (.dspMac4 e) s fun t =>
      s.dev.dspRan t e w ([0, 1, 2, 3].map fun i => (0x10 + i, (acc i (p (xs i) (ys i))).bits)) x.after.1 x.after.2 ∧
      (rGet (t.dse e).rf 0x39) % 4 = rGet rf 0x39 % 4) ∧
    (iOpc w = 0x09 → one (.dspMacs e) (acc (iAd w) (p (xs 0) (ys 0) + p (xs 1) (ys 1) + p (xs 2) (ys 2) + p (xs 3) (ys 3)))) ∧
    (iOpc w = 0x0A → Answers (.dspCmac e) s fun t =>
      s.dev.dspRan t e w
        [(0x10 + iAd w, (acc (iAd w) (p (dLo rf (iSa w)) (dLo rf (iSb w)) - p (dHi rf (iSa w)) yi)).bits),
         (0x11 + iAd w, (acc (iAd w + 1) (p (dLo rf (iSa w)) yi + p (dHi rf (iSa w)) (dLo rf (iSb w)))).bits)] x.after.1 x.after.2 ∧
      (rGet (t.dse e).rf 0x39) % 4 = rGet rf 0x39 % 4) ∧
    (iOpc w = 0x20 → one (.dspAcc e) (acc (iAd w) (aVal rf (iX w)))) ∧
    (iOpc w = 0x22 → one (.dspLda e) (fit 48 (iS w)
      ((if iAop w = 0 then dVal rf (iSa w) else if iAop w = 1 then dLo rf (iSa w) else dHi rf (iSa w)) * 2 ^ iShift w))) ∧
    (iOpc w = 0x21 → Answers (.dspSta e) s fun t =>
      let y := shiftRound (aVal rf (iAd w)) (iShift w) (iRnd w)
      let old := rGet rf (iDst w)
      s.dev.dspRan t e w
        [(iDst w, if iAop w = 0 then (fit 40 (iS w) y).bits else if iAop w = 1 then packHalves (fit 20 (iS w) y).bits (old / 2 ^ 20)
          else packHalves old (fit 20 (iS w) y).bits)] x.after.1 x.after.2) ∧
    (iOpc w = 0x23 → Answers (.dspClra e) s fun t => s.dev.dspRan t e w
      ((maskList 4 (iBits w 35 32)).map fun i => (0x10 + i, 0)) x.after.1 x.after.2 ∧
      ∀ b, b < 5 → (rGet (t.dse e).rf 0x39).testBit b = (rGet rf 0x39).testBit b)) ∧
  (∀ (s : State) (e : Fin 16) (w : Nat), s.dev.dspReady e w = true →
    let x := s.dev.dse e
    let rf := x.rf
    (iOpc w = 0x0B → w.testBit 50 = false → w.testBit 51 = false →
      let unit (i : Nat) : Nat × Nat :=
        let a := (rGet rf ((iSa w + i) % 16) + dLo rf (iBits w 55 52 + i)) % 2 ^ 40
        let b := (rGet rf ((iSb w + i) % 16) + dHi rf (iBits w 55 52 + i)) % 2 ^ 40
        let d := toSigned 40 (ofSigned 40 (a - b))
        if (if (rGet rf 0x3A).testBit 1 then d ≤ 0 else 0 ≤ d) then (a.toNat, 0) else (b.toNat, 1)
      Answers (.dspAcs e) s fun t => s.dev.dspRan t e w
        ((List.range (iX w + 1)).map (fun i => ((iDst w + i) % 16, (unit i).1)) ++
          [(0x38, (List.range (iX w + 1)).foldl (fun n i => (2 * n + (unit i).2) % 2 ^ 40) (rGet rf 0x38))]) x.after.1 x.after.2) ∧
    (iOpc w = 0x30 → iBits w 49 44 ≠ 0x39 → Answers (.dspMov e) s fun t => s.dev.dspRan t e w
      [(iBits w 49 44, (ofSigned (regWidth (iBits w 49 44)) (movRead rf (iBits w 43 38))) %
        (if iBits w 49 44 = 0x3A then 4 else 2 ^ 48))] x.after.1 x.after.2) ∧
    (iOpc w = 0x31 → iBits w 57 52 ≠ 0x39 → Answers (.dspLdi e) s fun t => s.dev.dspRan t e w
      [(iBits w 57 52, ofSigned (regWidth (iBits w 57 52)) (toSigned 40 (iBits w 39 0)) %
        (if iBits w 57 52 = 0x3A then 4 else 2 ^ 48))] x.after.1 x.after.2 ∧ t.sram = s.dev.sram))

/-- For a ready engine: NOP goes to the next word; BR to its target when its condition on ST holds; REP repeats the next
instruction COUNT times or skips it for 0; HALT ends the job, counts it and shows ST. (R335, R362, R367, R368, R370, R371, R372)
-/
def Obligations.DspControlSetsTheProgramCounter : Prop :=
  ∀ (s : State) (e : Fin 16) (w : Nat), s.dev.dspReady e w = true →
    let x := s.dev.dse e
    let rf := x.rf
    let st := rGet rf 0x39
    (iOpc w = 0x00 → Answers (.dspNop e) s fun t => s.dev.dspRan t e w [] x.after.1 x.after.2) ∧
    (iOpc w = 0x02 → x.rep = none →
      let z := st.testBit 0
      let n := st.testBit 1
      let taken := [true, z, !z, n, !n, !z && !n, z || n, st.testBit 2, !st.testBit 2, st.testBit 3, st.testBit 4,
        st.testBit 5].getD (iBits w 57 54) false
      Answers (.dspBr e) s fun t => s.dev.dspRan t e w [] (if taken then iTarget w else x.pc + 1) none) ∧
    (iOpc w = 0x04 → Answers (.dspRep e) s fun t =>
      let n := if w.testBit 49 then rGet rf (iCnt w) % 65536 else iBits w 47 32
      if n = 0 then s.dev.dspRan t e w [] (x.pc + 2) none else s.dev.dspRan t e w [] (x.pc + 1) (some n)) ∧
    (∀ j, iOpc w = 0x01 → x.job = some j → j.run = none → s.dev.get (dseState e) = 2 → movesOf w = [] →
      Answers (.dspHalt e) s fun t => (t.dse e).job = none ∧ t.get (dseState e) = 1 ∧
        t.get (dseCntJob e) = min (s.dev.get (dseCntJob e) + 1) (2 ^ (dseCntJob e).w - 1) ∧ t.get (dseLastSt e) = st % 2 ^ 16 ∧
        t.sram = s.dev.sram)

/-- For a ready engine DBNZ writes D[CNT] minus 1 modulo 2^40 to D[CNT], branches exactly when the new value is not 0, and leaves
Z, N, V, SV and GV as they were. (R369) -/
def Obligations.DspDbnzCountsAndBranches : Prop :=
  ∀ (s : State) (e : Fin 16) (w : Nat), s.dev.dspReady e w = true → iOpc w = 0x03 → (s.dev.dse e).rep = none →
    let x := s.dev.dse e
    let v := (rGet x.rf (iCnt w) % 2 ^ 40 + (2 ^ 40 - 1)) % 2 ^ 40
    Answers (.dspDbnz e) s fun t =>
      s.dev.dspRan t e w [(iCnt w, v)] (if v = 0 then x.pc + 1 else iTarget w) none ∧
      ∀ b, b < 5 → (rGet (t.dse e).rf 0x39).testBit b = (rGet x.rf 0x39).testBit b

/-- For a ready engine and one move to a local word: a load brings the word, or one half, into its register with the SRAM
unchanged; a store writes the register, or SH, to that word and to no other byte; post-modification updates the pointer. (R326,
R346, R355, R357, R373) -/
def Obligations.DspMovesLoadAndStoreLocalWords : Prop :=
  ∀ (s : State) (e : Fin 16) (w m i : Nat), s.dev.dspReady e w = true → iOpc w = 0x00 → movesOf w = [m] →
    placeOf (moveAddr (s.dev.dse e).rf m) = .loc i →
    let rf := (s.dev.dse e).rf
    Answers (.dspNop e) s fun t =>
      (mMop m = 1 → rGet (t.dse e).rf (mReg m) = s.dev.localWord e i) ∧
      (mMop m = 2 → t.localWord e i = rGet rf (mReg m) % 2 ^ 40) ∧
      (mMop m = 3 → rGet (t.dse e).rf (mReg m) = packHalves (s.dev.localWord e i) (rGet rf (mReg m) / 2 ^ 20)) ∧
      (mMop m = 4 → rGet (t.dse e).rf (mReg m) = packHalves (rGet rf (mReg m)) (s.dev.localWord e i)) ∧
      (mMop m = 5 → t.localWord e i = rGet rf 0x38 % 2 ^ 40) ∧
      (isLoad m = true → t.sram = s.dev.sram) ∧
      (isLoad m = false → ∀ a, (a < dseLocal e i ∨ dseLocal e i + 8 ≤ a) → t.byte a = s.dev.byte a) ∧
      (mPm m ≠ 0 → rGet (t.dse e).rf (0x18 + mPtr m) = postMod rf m)

/-- For every width and every exact value: with S set the stored value is the nearest end of the range, and the saturation mark is
set exactly outside the range; with S clear it is the value modulo 2^n, and the wrap mark is set exactly outside the range. (R343,
R344) -/
def Obligations.ResultsSaturateOrWrap : Prop :=
  ∀ (n : Nat) (x : Int), 0 < n →
    toSigned n (fit n true x).bits = max (-2 ^ (n - 1)) (min (2 ^ (n - 1) - 1) x) ∧
    ((fit n false x).bits : Int) = x % 2 ^ n ∧
    (fit n true x).wrap = false ∧ (fit n false x).sat = false ∧
    ((fit n true x).sat = true ↔ x < -2 ^ (n - 1) ∨ 2 ^ (n - 1) ≤ x) ∧
    ((fit n false x).wrap = true ↔ x < -2 ^ (n - 1) ∨ 2 ^ (n - 1) ≤ x)

/-- At a vector boundary with no halt asked, a sequencer plays a fill vector, counted apart, while it fills, and otherwise the
front line of its queue, counted in 64 bits, with LINE shown, the period of its timing set, its marker, and HALT for a halt line.
(R124, R125, R145, R161, R169, R172, R173, R184, R196) -/
def Obligations.SequencerPlaysItsNextLine : Prop :=
  ∀ (s : State) (q : Fin 16) (obs : List Strobe), inRange 1 3 (s.dev.get (seqState q)) = true →
    let d := (s.dev.advanceTo (periodOf (s.dev.seq q).pos)).vectorBoundary q
    let x := d.seq q
    x.haltReq = none → x.stop ≠ .range → x.mtch = none →
    (x.pos < x.fillTo → x.stall = false → Answers (.vectorPlay q obs) s fun t =>
      t.get (seqCntFill q) = min (d.get (seqCntFill q) + 1) (2 ^ (seqCntFill q).w - 1) ∧
      t.get2 (seqCntVec q) (seqCntVecHi q) = d.get2 (seqCntVec q) (seqCntVecHi q) ∧ t.get (seqState q) = d.get (seqState q) ∧
      (t.seq q).tick = x.tick + d.tsPeriod q x.tsi ∧ (t.seq q).queue = x.queue ∧ (t.seq q).mark = 0 ∧ t.mclk = d.mclk) ∧
    (∀ (l : FLine) (rest : List FLine), x.fillTo ≤ x.pos → x.jline = none → x.stall = false → x.queue = l :: rest →
      cwOp l.cw ≠ oMatch → cwOp l.cw ≠ oSyncw → cwFailCond l.cw = false →
      Answers (.vectorPlay q obs) s fun t =>
        t.get2 (seqCntVec q) (seqCntVecHi q) = (d.get2 (seqCntVec q) (seqCntVecHi q) + 1) % 2 ^ 64 ∧
        t.get (seqLine q) = (if l.ref.strm then 0x1FFFFFF else l.ref.n % 2 ^ 25) ∧
        (t.seq q).tick = x.tick + d.tsPeriod q (cwTsi l.cw) ∧ (t.seq q).serial = x.serial + 1 ∧
        t.get (seqState q) = (if cwOp l.cw = oHalt then 5 else d.get (seqState q)) ∧
        (cwOp l.cw ≠ oHalt → (t.seq q).mark = cwMark l.cw) ∧ t.mclk = d.mclk)

/-- JMPC_RESOLVE returns to RUN at its decision time. MATCH_END returns to RUN with the match met; MATCH_TIMEOUT masks and notes
the unmatched sites. A SYNCW wait begins at a master period with its timeout, starts exactly at T, or halts at its timeout. (R176,
R177, R180, R181, R182, R192, R193, R194) -/
def Obligations.MatchJmpcAndSyncwLinesDecideTheirFlow : Prop :=
  ((∀ (s : State) (q : Fin 16) (r : LRef) (cw : Nat), s.dev.get (seqState q) = 2 → (s.dev.seq q).haltReq = none →
    (s.dev.seq q).jline = some (r, cw) →
    Answers (.jmpcResolve q) s fun t => t.get (seqState q) = 1 ∧ (t.seq q).jline = none ∧
      ((cwOperand cw).testBit 31 = true → (t.seq q).failSeen = 0) ∧ (t.seq q).pos = (s.dev.seq q).pos ∧
      t.mclk = max s.dev.mclk (periodUp ((s.dev.seq q).fillTo - 8 * 4096))) ∧
  (∀ (s : State) (q : Fin 16), s.dev.get (seqState q) = 3 → (s.dev.seq q).haltReq = none → s.dev.matchDue q = some true →
    Answers (.matchEnd q) s fun t => t.get (seqState q) = 1 ∧ (t.seq q).mtch = none ∧ (t.seq q).matchOk = true ∧
      (t.seq q).matchTo = false ∧ (t.seq q).masked = (s.dev.seq q).masked ∧ (t.seq q).fillTo = (s.dev.seq q).pos + 8 * 4096 ∧
      t.mclk = max s.dev.mclk (periodOf (s.dev.seq q).pos)) ∧
  (∀ (s : State) (q : Fin 16), s.dev.get (seqState q) = 3 → (s.dev.seq q).haltReq = none → s.dev.matchDue q = some false →
    s.dev.unmatched q ≠ 0 →
    Answers (.matchTimeout q) s fun t => t.get (seqState q) = 1 ∧ (t.seq q).mtch = none ∧ (t.seq q).matchOk = false ∧
      (t.seq q).matchTo = true ∧ (t.seq q).masked = (s.dev.seq q).masked ||| s.dev.unmatched q ∧
      (t.seq q).timedOut = (s.dev.seq q).timedOut ||| s.dev.unmatched q ∧ (t.seq q).fillTo = (s.dev.seq q).pos + 8 * 4096)) ∧
  ((∀ (s : State) (q : Fin 16) (l : FLine) (rest : List FLine), (s.dev.seq q).queue = l :: rest → cwOp l.cw = oSyncw → l.go = false →
    cwOperand l.cw % 4 ≠ 1 → s.dev.get (seqState q) = 1 → (s.dev.seq q).fillTo ≤ (s.dev.seq q).pos → (s.dev.seq q).haltReq = none →
    (s.dev.seq q).stop ≠ .range →
    Answers (.syncwWaitBegin q) s fun t => t.get (seqState q) = 4 ∧ (t.seq q).syncT = none ∧ (t.seq q).mark = 0 ∧
      t.mclk = max s.dev.mclk (periodUp (s.dev.edgesDone q)) ∧
      (t.seq q).syncEnd = if bitsOf (cwOperand l.cw) 8 24 = 0 then none else some (t.mclk + 1024 * bitsOf (cwOperand l.cw) 8 24)) ∧
  (∀ (s : State) (q : Fin 16) (l : FLine) (rest : List FLine) (T : Nat), s.dev.get (seqState q) = 4 → (s.dev.seq q).syncT = some T →
    (T + 2 ^ 64 - s.dev.tb) % 2 ^ 64 < 2 ^ 63 → s.dev.tb < 2 ^ 64 → T < 2 ^ 64 → (s.dev.seq q).queue = l :: rest →
    s.dev.get (seqClkSrc q) = 0 →
    Answers (.syncwStart q) s fun t => t.get (seqState q) = 1 ∧ t.tb = T ∧ (t.seq q).pos = (t.mclk : Rat) * 4096 ∧
      (t.seq q).queue = { l with go := true } :: rest ∧ (t.seq q).syncT = none ∧ (t.seq q).syncEnd = none ∧
      (∀ i, i ≠ q.val → t.seq i = s.dev.seq i) ∧ s.dev.KeepsRegs t [(seqState q).addr]) ∧
  (∀ (s : State) (q : Fin 16) (at_ : Nat), s.dev.get (seqState q) = 4 → (s.dev.seq q).syncEnd = some at_ →
    (s.dev.seq q).syncT = none →
    Answers (.syncwTimeout q) s fun t => t.get (seqState q) = 5 ∧ (t.seq q).why = .sync ∧ t.mclk = max s.dev.mclk at_ ∧
      (t.seq q).haltSites = s.dev.unmasked q))

/-- A halt asked takes effect at the next vector; SEQ_HALT empties the queue, loops, calls and requests and shows IDLE or HALTED;
a stall beyond its limit asks for a halt; a jump request is noted while playing and counted as rejected otherwise. (R142, R146,
R189, R191, R196, R217, R511) -/
def Obligations.SequencersHaltAndTakeJumpRequests : Prop :=
  (∀ (s : State) (q : Fin 16), s.dev.get (seqState q) = 5 →
    AnswersIdle (.seqHalt q) s fun t =>
      t.get (seqState q) = (if (s.dev.seq q).why = .line ∨ (s.dev.seq q).why = .command then 0 else 6) ∧
      (t.seq q).queue = [] ∧ (t.seq q).loops = [] ∧ (t.seq q).calls = [] ∧ (t.seq q).jReq = none ∧ (t.seq q).failSeen = 0 ∧
      t.get (seqJpend q) = 0 ∧ t.get (seqJcommit q) = 0 ∧ t.mclk = max s.dev.mclk (periodUp (s.dev.seq q).endPos)) ∧
  (∀ (s : State) (q : Fin 16) (obs : List Strobe) (w : HaltWhy), inRange 1 3 (s.dev.get (seqState q)) = true →
    (s.dev.seq q).haltReq = some w →
    Answers (.vectorPlay q obs) s fun t => t.get (seqState q) = 5 ∧ (t.seq q).why = w ∧ (t.seq q).mark = 0) ∧
  (∀ (s : State) (q : Fin 16) (at_ : Nat), inRange 1 3 (s.dev.get (seqState q)) = true → (s.dev.seq q).stall = true →
    (s.dev.seq q).stallEnd = some at_ → (s.dev.seq q).haltReq = none →
    Answers (.stallMaxExpiry q) s fun t => (t.seq q).haltReq = some .underrun ∧ t.mclk = max s.dev.mclk at_ ∧
      (∀ i, i ≠ q.val → t.seq i = s.dev.seq i) ∧ s.dev.KeepsRegs t []) ∧
  (∀ (s : State) (q : Fin 16) (v : Word), s.dev.awake = true → inRange 1 4 (s.dev.get (seqState q)) = true →
    Answers (.seqJump q v) s fun t => (t.seq q).jReq = some (v.toNat % 256) ∧ t.get (seqJpend q) = 1 ∧
      (∀ i, i ≠ q.val → t.seq i = s.dev.seq i) ∧ s.dev.KeepsRegs t [(seqJpend q).addr] ∧
      { t with regs := s.dev.regs, seqs := s.dev.seqs } = s.dev) ∧
  (∀ (s : State) (q : Fin 16) (v : Word), s.dev.awake = true → inRange 1 4 (s.dev.get (seqState q)) = false →
    Answers (.seqJump q v) s fun t =>
      t.get (seqCntJrej q) = min (s.dev.get (seqCntJrej q) + 1) (2 ^ (seqCntJrej q).w - 1) ∧ t.seqs = s.dev.seqs ∧
      s.dev.KeepsRegsEv t [(seqCntJrej q).addr])

/-- A newly enabled ring starts at index 0 with phase 1; a completion ring that a submission ring still uses cannot be disabled. A
doorbell with a lawful value moves exactly its index; another is counted in DB_ERR. Unmasking a vector sends a pending message.
(R485, R486, R487, R488, R489, R515, R519) -/
def Obligations.RingsAreEnabledAndDoorbellsMoveThem : Prop :=
  ((∀ (s : State) (v : Word), Answers (.hostSqEnWrite v) s fun t => t.get hostSqEn = v.toNat % 65536 ∧
    (∀ q, q < 16 → t.get (sqHead q) = (if v.toNat.testBit q && !(s.dev.get hostSqEn).testBit q then 0 else s.dev.get (sqHead q)) ∧
      t.get (sqTail q) = if v.toNat.testBit q && !(s.dev.get hostSqEn).testBit q then 0 else s.dev.get (sqTail q)) ∧
    s.dev.KeepsRegs t (hostSqEn.addr :: (List.range 16).map fun q => (sqHead q).addr) ∧ { t with regs := s.dev.regs } = s.dev) ∧
  (∀ (s : State) (v : Word), s.dev.twin.closing = [] → v.toNat.testBit 16 = false →
    (∀ q, q < 16 → (s.dev.get hostCqEn).testBit q = true → v.toNat.testBit q = true ∨ s.dev.cqBound q = false) →
    AnswersIdle (.hostCqEnWrite v) s fun t => t.get hostCqEn = v.toNat % 65536 ∧ t.get hostEqEn = 0 ∧
      t.get hostDbErr = s.dev.get hostDbErr ∧
      (∀ q, q < 16 → v.toNat.testBit q = true → (s.dev.get hostCqEn).testBit q = false →
        t.get (cqHead q) = 0 ∧ t.get (cqTail q) = 0 ∧ t.get (cqPhase q) = 1) ∧
      t.host.held = s.dev.host.held.filter (fun c => v.toNat.testBit (s.dev.cqOf c.q))) ∧
  (∀ (s : State) (v : Word) (q : Nat), s.dev.twin.closing = [] → q < 16 → (s.dev.get hostCqEn).testBit q = true →
    v.toNat.testBit q = false → s.dev.cqBound q = true →
    AnswersIdle (.hostCqEnWrite v) s fun t => (t.get hostCqEn).testBit q = true ∧
      t.get hostDbErr = min (s.dev.get hostDbErr + 1) 0xFFFF) ∧
  (∀ (s : State) (v : Word), s.dev.twin.closing = [] → v.toNat.testBit 16 = true → s.dev.get hostEqEn = 0 →
    s.dev.host.evBuf = [] → s.dev.host.dropped = 0 →
    AnswersIdle (.hostCqEnWrite v) s fun t => t.get hostEqEn = 1 ∧ t.get eqHead = 0 ∧ t.get eqTail = 0 ∧ t.get eqPhase = 1 ∧
      t.host.eqSeen = true)) ∧
  ((∀ (s : State) (q : Fin 16) (v : Word),
    let n := ringSize (s.dev.get (sqSizeLog q))
    let used := (s.dev.get (sqTail q) + n - s.dev.get (sqHead q)) % n
    let more := (v.toNat + n - s.dev.get (sqTail q)) % n
    ((s.dev.get hostSqEn).testBit q = true → v.toNat < n → used + more < n →
      Answers (.sqTailDoorbell q v) s fun t => t.get (sqTail q) = v.toNat ∧ t.get (sqHead q) = s.dev.get (sqHead q) ∧
        s.dev.KeepsRegs t [(sqTail q).addr] ∧ { t with regs := s.dev.regs } = s.dev) ∧
    ((s.dev.get hostSqEn).testBit q = false ∨ n ≤ v.toNat ∨ (v.toNat ≠ s.dev.get (sqTail q) ∧ n ≤ used + more) →
      Answers (.sqTailDoorbell q v) s fun t => t.get hostDbErr = min (s.dev.get hostDbErr + 1) 0xFFFF ∧
        t.get (sqTail q) = s.dev.get (sqTail q) ∧ s.dev.KeepsRegsEv t [])) ∧
  (∀ (s : State) (q : Fin 16) (v : Word), s.dev.twin.closing = [] → s.dev.host.held = [] → s.dev.cqOn q = true →
    let n := ringSize (s.dev.get (cqSizeLog q))
    let h := s.dev.get (cqHead q)
    v.toNat < n → (v.toNat + n - h) % n ≤ (s.dev.get (cqTail q) + n - h) % n →
    AnswersIdle (.cqHeadDoorbell q v) s fun t => t.get (cqHead q) = v.toNat ∧ t.get (cqTail q) = s.dev.get (cqTail q) ∧
      s.dev.KeepsRegs t [(cqHead q).addr] ∧ { t with regs := s.dev.regs, host := s.dev.host } = s.dev) ∧
  (∀ (s : State) (q : Fin 16) (v : Word), s.dev.twin.closing = [] →
    s.dev.cqOn q = false ∨ ringSize (s.dev.get (cqSizeLog q)) ≤ v.toNat →
    AnswersIdle (.cqHeadDoorbell q v) s fun t => t.get hostDbErr = min (s.dev.get hostDbErr + 1) 0xFFFF ∧
      t.get (cqHead q) = s.dev.get (cqHead q)) ∧
  (∀ (s : State) (v : Word), s.dev.get hostEqEn = 1 → s.dev.host.dropped = 0 →
    let n := ringSize (s.dev.get eqSizeLog)
    let h := s.dev.get eqHead
    v.toNat < n → (v.toNat + n - h) % n ≤ (s.dev.get eqTail + n - h) % n →
    Answers (.eqHeadDoorbell v) s fun t => t.get eqHead = v.toNat ∧ t.get eqTail = s.dev.get eqTail ∧
      s.dev.KeepsRegs t [eqHead.addr] ∧ { t with regs := s.dev.regs, host := s.dev.host } = s.dev) ∧
  (∀ (s : State) (i : Fin 64), Answers (.msixUnmask i) s fun t =>
    (∀ j, j < 64 → t.host.vecMask.getLsbD j = (s.dev.host.vecMask.getLsbD j && decide (j ≠ i.val))) ∧
    t.out = (if s.dev.host.vecPend.getLsbD i then Output.msix i :: s.dev.out else s.dev.out) ∧
    t.host.vecPend.getLsbD i = false ∧ { t with host := s.dev.host, out := s.dev.out } = s.dev))

/-- With BAR4 writes enabled, a write stores its 32-bit word and no other byte while the owner of that word does not run, and is
counted as locked while it does. Without the enable it does nothing. (R10, R482, R483, R484) -/
def Obligations.DebugWritesFollowTheOwner : Prop :=
  (∀ (s : State) (req : Requester) (off : BitVec 28) (v : Word) (o : Owner), s.dev.get hostBar4 = 2 →
    s.dev.sramOwner (off.toNat / 4 * 4) = some o → s.dev.running o = false →
    Answers (.bar4Write req off v) s fun t => t.ld (off.toNat / 4 * 4) 4 = v.toNat ∧
      (∀ a, a < off.toNat / 4 * 4 ∨ off.toNat / 4 * 4 + 4 ≤ a → t.byte a = s.dev.byte a) ∧ { t with sram := s.dev.sram } = s.dev) ∧
  (∀ (s : State) (req : Requester) (off : BitVec 28) (v : Word) (o : Owner), s.dev.get hostBar4 = 2 →
    s.dev.sramOwner (off.toNat / 4 * 4) = some o → s.dev.running o = true →
    Answers (.bar4Write req off v) s fun t => t.get genErrLocked = min (s.dev.get genErrLocked + 1) (2 ^ genErrLocked.w - 1) ∧
      s.dev.KeepsRegs t [genErrLocked.addr] ∧ { t with regs := s.dev.regs } = s.dev) ∧
  (∀ (s : State) (req : Requester) (off : BitVec 28) (v : Word), s.dev.get hostBar4 ≠ 2 →
    Answers (.bar4Write req off v) s fun t => t = s.dev)

/-- The submission ring served next gives its descriptor: its head moves by one and the work is noted; a malformed one completes
at once and wakes nothing. NOP completes OK. FENCE completes once no earlier work or held record of its rings is left, and waits
till then. (R487, R490, R491, R492, R494) -/
def Obligations.DescriptorsAreFetchedAndFencesComplete : Prop :=
  ((∀ (s : State) (q : Fin 16) (x : Descriptor), s.dev.linkUp = true → s.dev.nextSq = some q.val → dMalformed x.toNat = false →
    s.dev.get pwrState = 0 →
    Answers (.descriptorFetch q x) s fun t =>
      t.get (sqHead q) = (s.dev.get (sqHead q) + 1) % ringSize (s.dev.get (sqSizeLog q)) ∧
      Tab.get (fun _ => none) t.host.waiting q = some ⟨s.dev.host.fetchNo, x.toNat⟩ ∧
      (∀ i, i ≠ q.val → Tab.get (fun _ => none) t.host.waiting i = Tab.get (fun _ => none) s.dev.host.waiting i) ∧
      t.host.work = s.dev.host.work ++ [{ id := s.dev.host.fetchNo, q := q, cid := dCid x.toNat, opc := dOpc x.toNat }] ∧
      t.host.fetchNo = s.dev.host.fetchNo + 1 ∧ s.dev.KeepsRegs t [(sqHead q).addr] ∧
      { t with regs := s.dev.regs, host := s.dev.host } = s.dev) ∧
  (∀ (s : State) (q : Fin 16) (x : Descriptor), s.dev.linkUp = true → s.dev.nextSq = some q.val → dMalformed x.toNat = true →
    Answers (.descriptorFetch q x) s fun t =>
      t.get (sqHead q) = (s.dev.get (sqHead q) + 1) % ringSize (s.dev.get (sqSizeLog q)) ∧
      Tab.get (fun _ => none) t.host.waiting q = none ∧ (∀ w, w ∈ t.host.work → w.id ≠ s.dev.host.fetchNo) ∧
      t.pwr = s.dev.pwr)) ∧
  ((∀ (s : State) (q : Fin 16) (x : Nat) (w : Work), s.dev.descOf q opNop = some (x, w) →
    Answers (.nop q) s fun t => t = s.dev.done w stOk) ∧
  (∀ (s : State) (q : Fin 16) (x : Nat) (w : Work), s.dev.descOf q opFence = some (x, w) →
    (s.dev.host.fences.any fun f => f.id == w.id) = false →
    let m := if dField x 8 0 16 = 0 then 2 ^ q.val else dField x 8 0 16
    Answers (.fence q) s fun t =>
      if (∀ y, y ∈ s.dev.host.work → y.id < w.id → m.testBit y.q = false) ∧
          (∀ c, c ∈ s.dev.host.held → c.id < w.id → m.testBit c.q = false) then t = s.dev.done w stOk
      else t.host.fences = ⟨w.id, q, w.cid, m⟩ :: s.dev.host.fences ∧ t.host.work = s.dev.host.work ∧
        { t with host := s.dev.host } = s.dev) ∧
  (∀ (s : State) (q : Fin 16) (f : FenceWait), s.dev.host.fences.find? (fun f => f.q == q.val) = some f →
    s.dev.fenceMet f.id f.mask = true →
    Answers (.fenceComplete q) s fun t => (∀ y, y ∈ t.host.fences → y.id ≠ f.id) ∧ (∀ y, y ∈ t.host.work → y.id ≠ f.id) ∧
      t = ({ s.dev with host := { s.dev.host with fences := s.dev.host.fences.filter fun y => y.id != f.id } }).done
        { id := f.id, q := f.q, cid := f.cid, opc := opFence } stOk))

/-- Every completion whose ring is enabled, holds no earlier record and has room writes one record of 32 bytes at the tail: CID,
OPC, STATUS, SQ_HEAD, SQ, PHASE, RESULT, RESULT64 and TB in their places with reserved bits 0. The tail moves by one, the phase
turns at the wrap, and the work is over. NOP completes so. (R503) -/
def Obligations.CompletionRecordsAreWrittenToTheirRing : Prop :=
  (∀ (d : Dev) (w : Work) (status result r64 : Nat), status < 256 →
    let c := d.cqOf w.q
    d.cqOn c = true → d.cqHeld c = false → d.cqHasRoom c = true →
    let n := ringSize (d.get (cqSizeLog c))
    let i := d.get (cqTail c)
    let t := d.complete w status result r64
    i < n →
    (∃ rec_, Output.cqRecord c (d.get2 (cqBase c) (cqBaseHi c) + 32 * i) rec_ ∈ t.out ∧ rec_ < 2 ^ 256 ∧
      bitsOf rec_ 0 16 = w.cid % 2 ^ 16 ∧ bitsOf rec_ 16 8 = w.opc % 2 ^ 8 ∧ bitsOf rec_ 24 8 = status ∧
      bitsOf rec_ 32 12 = d.get (sqHead w.q) ∧ bitsOf rec_ 44 4 = w.q % 16 ∧ bitsOf rec_ 48 1 = d.get (cqPhase c) ∧
      bitsOf rec_ 49 15 = 0 ∧ bitsOf rec_ 64 32 = result % 2 ^ 32 ∧ bitsOf rec_ 96 32 = 0 ∧ bitsOf rec_ 128 64 = r64 % 2 ^ 64 ∧
      bitsOf rec_ 192 64 = d.tb % 2 ^ 64) ∧
    t.get (cqTail c) = (if i + 1 = n then 0 else i + 1) ∧
    t.get (cqPhase c) = (if i + 1 = n then 1 - d.get (cqPhase c) else d.get (cqPhase c)) ∧
    (∀ y, y ∈ t.host.work → y.id ≠ w.id)) ∧
  (∀ (s : State) (q : Fin 16) (x : Nat) (w : Work), s.dev.descOf q opNop = some (x, w) →
    Answers (.nop q) s fun t => t = (s.dev.complete w stOk 0 0).idleRestart)

/-- WRITE_VECTORS stores each line in its region, or is LOCKED while the sequencer runs. A stream attaches with its directory and
detaches to nothing; a chunk read is tried twice, breaks the stream, or makes the slot ready. LOAD_KERNEL is LOCKED, RANGE, or
puts every named engine in LOADING. (R163, R165, R199, R200, R201, R211, R213, R218, R339, R340) -/
def Obligations.VectorsStreamsAndKernelsAreLoaded : Prop :=
  ((∀ (s : State) (q : Fin 16) (data : List Byte) (x : Nat) (w : Work), s.dev.descOf q opWriteVectors = some (x, w) →
    let i := dField x 8 0 4
    let first := dField x 12 0 25
    let count := dField x 16 0 32
    let sz := s.dev.lineSize i
    (s.dev.seqRunning i = false → first + count ≤ s.dev.residentLines i → count * sz ≤ data.length →
      Answers (.writeVectors q data true) s fun t => t = (s.dev.forEach (List.range count) fun d k =>
        d.writeLine (s.dev.get (seqVbase i)) sz (first + k) (s.dev.get (seqVgen i)) ((data.drop (k * sz)).take sz)).doneWith w stOk count 0) ∧
    (first < s.dev.residentLines i → s.dev.seqRunning i = true →
      Answers (.writeVectors q data true) s fun t => t = s.dev.done w stLocked)) ∧
  (∀ (s : State) (q : Fin 16) (dir : List DirEntry) (x : Nat) (w : Work), s.dev.descOf q opStreamAttach = some (x, w) →
    let i := dField x 8 0 4
    (s.dev.strm i).attach ≠ some w → s.dev.seqRunning i = false → s.dev.get (strmAttached i) = 0 → attachParams x = true →
    dField x 10 0 8 * dField x 9 0 8 * 16384 ≤ s.dev.get (seqVlines i) → dir.length = dField x 24 0 32 →
    (∀ e, e ∈ dir → dirOk (slotCapacity (s.dev.lineSize i) (dField x 9 0 8)) e = true) →
    Answers (.streamAttach q dir [] true) s fun t => t.get (strmAttached i) = 1 ∧ t.get (strmState i) = 1 ∧
      t.get (strmNslot i) = dField x 10 0 8 ∧ t.get (strmCsizeM1 i) = dField x 9 0 8 - 1 ∧ t.get (strmUnderruns i) = 0 ∧
      (t.strm i).dir = dir ∧ (t.strm i).pos = 0 ∧ (t.strm i).attach = some w ∧ t.host = s.dev.host) ∧
  (∀ (s : State) (q : Fin 16) (x : Nat) (w : Work), s.dev.descOf q opStreamDetach = some (x, w) →
    let i := dField x 8 0 4
    s.dev.seqRunning i = false → s.dev.get (strmAttached i) = 1 →
    Answers (.streamDetach q) s fun t => t.get (strmAttached i) = 0 ∧ t.get (strmState i) = 0 ∧ t.strm i = Strm.init ∧
      ∀ j, j ≠ i → t.strm j = s.dev.strm j) ∧
  (∀ (s : State) (i : Fin 16) (k : Fin 32) (data : List Byte) (again : Bool) (e : DirEntry), (s.dev.strm i).attach = none →
    (s.dev.seq i).stop ≠ .chunk → ((s.dev.strm i).slot k).st = .reading again →
    (s.dev.strm i).dir[((s.dev.strm i).slot k).chunk]? = some e →
    Answers (.chunkReadDone i k data false) s fun t =>
      (again = false → ((t.strm i).slot k).st = .reading true ∧
        t.get (strmRetries i) = min (s.dev.get (strmRetries i) + 1) 0xFFFF ∧ t.get (strmState i) = s.dev.get (strmState i)) ∧
      (again = true → ((t.strm i).slot k).st = .broken ∧ t.get (strmState i) = 5)) ∧
  (∀ (s : State) (i : Fin 16) (k : Fin 32) (data : List Byte) (again : Bool) (e : DirEntry), (s.dev.strm i).attach = none →
    (s.dev.seq i).stop ≠ .chunk → ((s.dev.strm i).slot k).st = .reading again →
    (s.dev.strm i).dir[((s.dev.strm i).slot k).chunk]? = some e → data.length = e.lines * s.dev.lineSize i →
    crc32 (data.map fun b => b.toNat) = e.crc.toNat →
    Answers (.chunkReadDone i k data true) s fun t => ((t.strm i).slot k).st = .ready ∧ ((t.strm i).slot k).used = false ∧
      ((t.strm i).slot k).vgen = s.dev.get (seqVgen i) ∧ ((t.strm i).slot k).chunk = ((s.dev.strm i).slot k).chunk)) ∧
  (∀ (s : State) (q : Fin 16) (image : List Byte) (x : Nat) (w : Work), s.dev.descOf q opLoadKernel = some (x, w) →
    let m := dField x 8 0 16
    let n := dField x 16 0 32
    (∀ e, e < 16 → m.testBit e = true → (s.dev.dse e).load = none) →
    (∀ e, e < 16 → m.testBit e = true → s.dev.dseRunning e = true → Answers (.loadKernel q image true) s fun t => t = s.dev.done w stLocked) ∧
    ((∀ e, e < 16 → m.testBit e = true → s.dev.dseRunning e = false) → n ≤ image.length →
      (imageOk n (image.take n) = false → Answers (.loadKernel q image true) s fun t => t = s.dev.done w stRange) ∧
      (imageOk n (image.take n) = true → m ≠ 0 → Answers (.loadKernel q image true) s fun t =>
        (∀ e, e < 16 → t.get (dseState e) = if m.testBit e then 3 else s.dev.get (dseState e)) ∧
        (∀ e, e < 16 → (t.dse e).load = if m.testBit e then some { work := w.id, image := image.take n } else (s.dev.dse e).load) ∧
        t.host = s.dev.host)))

/-- Each read copies the items that are written, from FIRST on, in order, and returns their number and where they end. A ledger or
header release moves its read index forward within what is written; a value outside the ring does nothing. (R248, R498, R505) -/
def Obligations.ReadbackCopiesAndReleases : Prop :=
  (∀ (s : State) (q : Fin 16) (x : Nat) (w : Work), s.dev.descOf q opReadLedger = some (x, w) → dField x 8 0 8 = 0 →
    dField x 10 0 16 < 1920 → dField x 14 0 1 = 0 →
    let i := dField x 9 0 6
    let first := dField x 10 0 16
    let m := written 1920 (s.dev.get (ledWr i)) (Tab.get (fun _ => 0) s.dev.led.wrote i) first (dField x 12 0 16)
    Answers (.readLedger q) s fun t =>
      t = (s.dev.dmaOut (dField x 24 0 64) ((List.range m).flatMap fun k => s.dev.ldBytes (ledEntAddr i ((first + k) % 1920)) 32)).doneWith
        w stOk m ((first + m) % 1920)) ∧
  (∀ (s : State) (q : Fin 16) (x : Nat) (w : Work), s.dev.descOf q opReadFaillog = some (x, w) →
    let i := dField x 8 0 6
    let first := dField x 12 0 32
    let m := min (dField x 16 0 32) (s.dev.get (flogCount i) - first)
    Answers (.readFaillog q) s fun t => t = (s.dev.dmaOut (dField x 24 0 64) ((List.range m).flatMap fun k =>
      (((s.dev.flog i).addr i (first + k)).map fun a => s.dev.ldBytes a 16).getD [])).doneWith w stOk m (first + m)) ∧
  (∀ (s : State) (q : Fin 16) (x : Nat) (w : Work), s.dev.descOf q opReadCapture = some (x, w) → dField x 9 0 1 = 0 →
    let a := dField x 8 0 5
    let first := dField x 10 0 16
    let y := s.dev.au a
    let m := min (written 65536 (s.dev.get (auRecWr a)) (min y.seqNo y.slotsN) first (dField x 12 0 16)) (dField x 16 0 32 / max 1 y.slotSz)
    Answers (.readCapture q) s fun t =>
      t = (s.dev.dmaOut (dField x 24 0 64) ((List.range m).flatMap fun k =>
        s.dev.ldBytes (s.dev.auAllocAddr a + (first + k) % 65536 % max 1 y.slotsN * y.slotSz) y.slotSz)).doneWith w stOk m (m * y.slotSz)) ∧
  (∀ (s : State) (i : Fin 64) (v : Word), s.dev.get (ledRd i) < 1920 → v.toNat % 2048 < 1920 →
    (∀ r, r ∈ s.dev.runs → r.sites.testBit i = false) →
    (v.toNat % 2048 + 1920 - s.dev.get (ledRd i)) % 1920 ≤ (s.dev.get (ledWr i) + 1920 - s.dev.get (ledRd i)) % 1920 →
    Answers (.ledRdWrite i v) s fun t => t.get (ledRd i) = v.toNat % 2048 ∧ s.dev.KeepsRegs t [(ledRd i).addr] ∧
      { t with regs := s.dev.regs, led := s.dev.led } = s.dev) ∧
  (∀ (s : State) (i : Fin 64) (v : Word), 1920 ≤ v.toNat % 2048 → Answers (.ledRdWrite i v) s fun t => t = s.dev) ∧
  (∀ (s : State) (v : Word), s.dev.runs = [] →
    (v.toNat % 4096 + 4096 - s.dev.get ledHdrRd) % 4096 ≤ (s.dev.get ledHdrWr + 4096 - s.dev.get ledHdrRd) % 4096 →
    Answers (.ledHdrRdWrite v) s fun t => t.get ledHdrRd = v.toNat % 4096 ∧ s.dev.KeepsRegs t [ledHdrRd.addr] ∧
      { t with regs := s.dev.regs, led := s.dev.led } = s.dev)

/-- A RUN that its checks refuse completes with that status and its touchdown ID and opens nothing. One that they pass joins the
open RUNs before its contact check, takes the next header slot, and writes its ID and sites there. (R32, R222, R242, R246, R494,
R505) -/
def Obligations.RunsOpenWithTheirHeaderOrAreRefused : Prop :=
  ∀ (s : State) (q : Fin 16) (steps : List StepData) (readOk : Bool) (x : Nat) (w : Work), s.dev.descOf q opRun = some (x, w) →
    (∀ r, r ∈ s.dev.runs → r.id ≠ w.id) →
    (∀ st, s.dev.runRefusal x steps readOk = some st →
      Answers (.run q steps readOk) s fun t => t = s.dev.doneWith w st 0 (runTd x)) ∧
    (s.dev.runRefusal x steps readOk = none →
      Answers (.run q steps readOk) s fun t =>
        let h := s.dev.get ledHdrWr
        (∃ r, r ∈ t.runs ∧ r.id = w.id ∧ r.td = runTd x ∧ r.sites = runSites x ∧ r.hdr = h ∧ r.startTb = s.dev.tb ∧
          r.phase = .contact ∧ r.k = 0 ∧ r.steps = steps) ∧
        t.runs.length = s.dev.runs.length + 1 ∧ t.get ledHdrWr = (h + 1) % 4096 ∧ t.ld (ledHdrAddr h) 8 = runTd x ∧
        t.ld (ledHdrAddr h + 48) 8 = runSites x ∧ t.host.work = s.dev.host.work ∧ t.mclk = s.dev.mclk)

/-- A step with no active site runs empty; a DSP step posts one job per site for its engines; a PATTERN step starts its sequencers
at zero counts. A complete step leads to the next step that is due, or to the close guard after the last. (R33, R36, R174, R224,
R333, R620) -/
def Obligations.StepsStartAndComplete : Prop :=
  (∀ (s : State) (td : DWord) (r : OpenRun) (st : StepData), s.dev.findRun td.toNat = some r → s.dev.runById r.id = some r →
    r.phase = .due → r.step? = some st → (s.dev.host.cfgs.any fun c => c.td == td.toNat && c.ready) = false →
    s.dev.activeSites r st = [] →
    Answers (.stepStart td) s fun t => t.mclk = max s.dev.mclk r.startAt ∧
      ∃ r', t.runById r.id = some r' ∧ r'.phase = .running ∧ r'.res = [] ∧ r'.k = r.k ∧ r'.masked = r.masked) ∧
  (∀ (s : State) (td : DWord) (r : OpenRun) (st : StepData), s.dev.findRun td.toNat = some r → s.dev.runById r.id = some r →
    r.phase = .due → r.step? = some st → (s.dev.host.cfgs.any fun c => c.td == td.toNat && c.ready) = false →
    s.dev.activeSites r st ≠ [] → st.kind = kDsp →
    Answers (.stepStart td) s fun t => t.mclk = max s.dev.mclk r.startAt ∧
      (∃ js, t.jobs = s.dev.jobs ++ js ∧ ∀ j, j ∈ js → j.run = some r.id ∧ j.step = r.k ∧ j.site ∈ s.dev.activeSites r st ∧
        j.kid = st.kid ∧ j.engines = st.engines) ∧
      ∃ r', t.runById r.id = some r' ∧ r'.phase = .running ∧ ∀ y, y ∈ r'.res → y.fin = none ∧ y.site ∈ s.dev.activeSites r st) ∧
  (∀ (s : State) (td : DWord) (r : OpenRun) (st : StepData) (q : Nat), s.dev.findRun td.toNat = some r → s.dev.runById r.id = some r →
    r.phase = .due → r.step? = some st → (s.dev.host.cfgs.any fun c => c.td == td.toNat && c.ready) = false →
    st.kind = kPattern → s.dev.stepWaits r st = false → s.dev.seqsFree r st = true →
    (∀ i, i < 16 → s.dev.get (strmAttached i) = 0) → (∀ i, i < 16 → s.dev.pllsHold r (s.dev.seqPlls i) = none) →
    (∀ i x, i < 16 → x ∈ s.dev.activeSites r st → s.dev.smasked i x = false ∧ s.dev.stepInvalid st x = false) →
    q < 16 → st.seqs.testBit q = true → (∃ x, x ∈ s.dev.activeSites r st ∧ (s.dev.seqSites q).testBit x = true) →
    Answers (.stepStart td) s fun t => t.get (seqState q) = 1 ∧ t.get2 (seqCntVec q) (seqCntVecHi q) = 0 ∧
      (t.seq q).run = some r.id ∧ (t.seq q).step = r.k ∧ (t.seq q).startTb = t.tb ∧ t.mclk = max s.dev.mclk r.startAt) ∧
  (∀ (s : State) (td : DWord) (r : OpenRun), s.dev.findRun td.toNat = some r → s.dev.runById r.id = some r → s.dev.stepDone r = true →
    r.aborted = false → r.partialE = false →
    Answers (.stepComplete td) s fun t => ∃ r', t.runById r.id = some r' ∧ r'.res = [] ∧
      if r.stepCount < max (r.k + 1) r.startStep then r'.phase = .guard
      else r'.phase = .due ∧ r'.k = max (r.k + 1) r.startStep)

/-- CONTACT_CHECK_SAMPLE shows each reading at its moment and releases the PPMUs of the RUN. CLOSE_GUARD_EXPIRY gives one verdict
per site and queues the RUN for the Almanac, with registers and SRAM unchanged. (R35, R36, R37, R105, R250) -/
def Obligations.ContactChecksAndCloseGuardsEnd : Prop :=
  (∀ (s : State) (td : DWord) (codes : List (Fin 256 × BitVec 18)) (r : OpenRun), s.dev.findRun td.toNat = some r →
    r.phase = .contact → r.openRes ≠ [] →
    let cs := (maskList 64 r.sites).flatMap s.dev.siteChans
    (∀ c, c ∈ cs → (s.dev.chan c).ppmuUse.isSome = true → s.dev.is (peParked c) = false → ∃ p, p ∈ codes ∧ p.1.val = c) →
    Answers (.contactCheckSample td codes) s fun t => t.mclk = max s.dev.mclk r.ccAt ∧
      (∀ c, c ∈ cs → (t.chan c).ppmuUse = none) ∧
      ∀ c p, c ∈ cs → (s.dev.chan c).ppmuUse.isSome = true → s.dev.is (peParked c) = false →
        codes.find? (fun p => p.1.val == c) = some p → t.get (ppmuResult c) = p.2.toNat) ∧
  (∀ (s : State) (td : DWord) (r : OpenRun), s.dev.findRun td.toNat = some r → s.dev.runById r.id = some r → r.phase = .guard →
    s.dev.fcu.raised = [] →
    Answers (.closeGuardExpiry td) s fun t => t.mclk = max s.dev.mclk r.guardEnd ∧ r.id ∈ t.alm.queue ∧
      (∃ r', t.runById r.id = some r' ∧ r'.phase = .almWait ∧ r'.verdicts.map (fun v => v.site) = maskList 64 r.sites) ∧
      s.dev.KeepsRegs t [] ∧ t.sram = s.dev.sram)

/-- A malformed command is counted in CMD_REF and does nothing. STOP makes every live RUN that it touches partial; ABORT makes it
aborted; PARK also orders the dies in its scope parked. CMD_LAST shows the command. (R256, R508, R509, R510, R512) -/
def Obligations.CommandsEndRunsAndParkDies : Prop :=
  (∀ (s : State) (w : BitVec 28), cmdRefused w = true →
    (∀ c, c ∈ [Instr.commandStop w, Instr.commandAbort w, Instr.commandPark w] →
      Answers c s fun t => t.get hostCmdRef = min (s.dev.get hostCmdRef + 1) 0xFFFF ∧ t.get hostCmdLast = s.dev.get hostCmdLast ∧
        s.dev.KeepsRegsEv t [] ∧ { t with regs := s.dev.regs, host := s.dev.host, out := s.dev.out } = s.dev)) ∧
  (∀ (s : State) (w : BitVec 28), cmdRefused w = false →
    Answers (.commandStop w) s (fun t => t.get hostCmdLast = cmdValue 1 w ∧ ∀ r, r ∈ s.dev.runs → s.dev.runById r.id = some r →
      r.live = true → r.aborted = false → r.partialE = false → r.sites &&& s.dev.cmdSites w ≠ 0 →
      ∃ r', t.runById r.id = some r' ∧ r'.partialE = true ∧ r'.aborted = false) ∧
    Answers (.commandAbort w) s (fun t => t.get hostCmdLast = cmdValue 2 w ∧ ∀ r, r ∈ s.dev.runs → s.dev.runById r.id = some r →
      r.live = true → r.aborted = false → r.partialE = false → r.sites &&& s.dev.cmdSites w ≠ 0 →
      ∃ r', t.runById r.id = some r' ∧ r'.partialE = false ∧ r'.aborted = true) ∧
    Answers (.commandPark w) s (fun t => t.get hostCmdLast = cmdValue 3 w ∧ (∀ e, e ∈ s.dev.cmdDies w → (t.die e).parkOrd = true) ∧
      ∀ r, r ∈ s.dev.runs → s.dev.runById r.id = some r →
      r.live = true → r.aborted = false → r.partialE = false → r.sites &&& s.dev.cmdSites w ≠ 0 →
      ∃ r', t.runById r.id = some r' ∧ r'.aborted = true))

/-- A write to a test's word while the Almanac runs waits in the shadow, if the set stays valid, and is refused otherwise; a word
with no register stores nothing. A PAT_UPDATE joins those that wait in order of fetch, and applies whole, or is RANGE, at the
boundary: configuration, external loads, exports and clears. (R375, R393, R394, R395, R397, R399) -/
def Obligations.AlmanacConfigurationAndPatternUpdates : Prop :=
  ((∀ (s : State) (req : Requester) (i : Fin 4096) (k : Fin 16) (v : Word) (r : RegInfo), almTestWord k.val = some r →
    let a := almTestAddr i k
    let n := v.toNat &&& r.mask
    s.dev.awake = true → s.dev.running .almanac = true →
    (almValid (Tab.set regReset s.dev.almShadow a (BitVec.ofNat 32 n)) = true →
      Answers (.almTestWrite req i k v) s fun t => Tab.get (fun _ => none) t.shadow a = some (BitVec.ofNat 32 n) ∧
        t.get almCommitPend = 1 ∧ s.dev.KeepsRegs t [almCommitPend.addr] ∧ { t with regs := s.dev.regs, shadow := s.dev.shadow } = s.dev) ∧
    (almValid (Tab.set regReset s.dev.almShadow a (BitVec.ofNat 32 n)) = false →
      Answers (.almTestWrite req i k v) s fun t => t = s.dev.refuseWrite req a)) ∧
  (∀ (s : State) (req : Requester) (i : Fin 4096) (k : Fin 16) (v : Word), almTestWord k.val = none →
    Answers (.almTestWrite req i k v) s fun t => t = s.dev)) ∧
  (∀ (s : State) (q : Fin 16) (data : List Byte) (x : Nat) (w : Work), s.dev.descOf q opPatUpdate = some (x, w) →
    s.dev.pwr.hkcReady = true → dField x 8 0 8 < 4 → patBytes (dField x 8 0 8) (dField x 10 0 16) ≤ data.length →
    let n := dField x 10 0 16
    let op := dField x 8 0 8
    let p : PatWait := { work := w, op := op, comp := dField x 9 0 3, count := n, out := dField x 24 0 64, data := data }
    let row : Instr := [Instr.patUpdateConfig q data true, .patUpdateLoadExt q data true, .patUpdateExport q data true,
      .patUpdateClear q data true].getD op (.patUpdateClear q data true)
    let d := s.dev.accept w
    (s.dev.running .almanac = true → Answers row s fun t => t.alm.pats = patInsert p s.dev.alm.pats ∧
      { t with alm := s.dev.alm } = d) ∧
    (s.dev.running .almanac = false → s.dev.awake = true → s.dev.shadowPending .almanac = false → s.dev.alm.pats = [] →
      s.dev.alm.rx = [] →
      (op = 0 → ∀ d', d.patConfig n data = some d' → Answers row s fun t => t = d'.done w stOk) ∧
      (op = 0 → d.patConfig n data = none → Answers row s fun t => t = d.done w stRange) ∧
      (op = 1 → ∀ d', d.patLoad n data = some d' → Answers row s fun t => t = d'.done w stOk) ∧
      (op = 2 → ∀ es, d.patList n data = some es → es ≠ [] → dField x 9 0 3 ≠ 0 →
        Answers row s fun t => ∃ bytes, Output.dma (dField x 24 0 64) bytes ∈ t.out ∧
          bytes.length = 4128 * es.length * (maskList 3 (dField x 9 0 3)).length) ∧
      (op = 3 → ∀ es, d.patList n data = some es → Answers row s fun t => ∀ i, i ∈ es →
        ((dField x 9 0 3).testBit 0 = true → (t.almEnt i).win = []) ∧ ((dField x 9 0 3).testBit 1 = true → (t.almEnt i).twin = []) ∧
        ((dField x 9 0 3).testBit 2 = true → (t.almEnt i).ext = []))))

/-- The close at the head of the queue is checked, leaves the queue and freezes; with the Almanac enabled its values are then
added: each tracked entry's window takes its values and keeps the newest W. (R37, R377, R378, R383, R384, R387) -/
def Obligations.ClosesAreCheckedThenEnterTheWindows : Prop :=
  (∀ (s : State) (td : DWord) (r : OpenRun) (rest : List Nat), s.dev.findRun td.toNat = some r → s.dev.runById r.id = some r →
    r.phase = .almWait → s.dev.alm.adding = none → s.dev.alm.queue = r.id :: rest → s.dev.shadowPending .almanac = false →
    s.dev.alm.pats = [] → s.dev.alm.rx = [] →
    Answers (.almanacCloseCheck td) s fun t => t.alm.queue = rest ∧ (∀ y, y ∈ t.runs → y.id ≠ r.id) ∧
      (s.dev.get almEn = 1 → t.get almBusy = 1 ∧ ∃ add, t.alm.adding = some (td.toNat, add)) ∧
      (s.dev.get almEn = 0 → t.alm.adding = none ∧ t.alm.ents = s.dev.alm.ents)) ∧
  (∀ (s : State) (td : DWord) (add : List (Nat × Nat)), s.dev.alm.adding = some (td.toNat, add) → s.dev.shadowPending .almanac = false →
    s.dev.alm.pats = [] → s.dev.alm.rx = [] →
    Answers (.almanacAddValues td) s fun t => t.alm.adding = none ∧ t.get almBusy = 0 ∧
      ∀ i, i ∈ s.dev.almTracks → (t.almEnt i).win =
        if add.any (fun p => p.1 == i) then
          let win := (s.dev.almEnt i).win ++ (add.filter fun p => p.1 == i).map fun p => p.2
          win.drop (win.length - (s.dev.almCfg i).w)
        else (s.dev.almEnt i).win)

/-- For every range LO below HI: the code never falls as the value rises; it is UNDER exactly below LO and OVER exactly above HI;
and below HI the code is bin b exactly when the value lies in the b-th of 1,024 equal parts of the range. (R376) -/
def Obligations.AlmanacCodesFollowTheValues : Prop :=
  ∀ (c : AlmCfg) (u v : Int), c.lo < c.hi →
    (u ≤ v → c.code u ≤ c.code v) ∧ (c.code v = 0 ↔ v < c.lo) ∧ (c.code v = 1025 ↔ c.hi < v) ∧
    (∀ b : Nat, b < 1024 → v < c.hi → (c.code v = 1 + b ↔ c.lo ≤ v ∧ (b : Int) * (c.hi - c.lo) ≤ (v - c.lo) * 1024 ∧
      (v - c.lo) * 1024 < (b + 1 : Int) * (c.hi - c.lo)))

/-- CAL_RUN MEASURE and EYE begin with every channel of their idle sectors to do, and mark them stale; a busy sector makes it
LOCKED; REFCHECK shows each die's deviation. A step that is blocked counts as PRECONDITION; one that meets its goal sets its
point; one that does not sets NOT_MET; an eye shows width and height. (R430, R441, R443, R444, R445, R446, R452) -/
def Obligations.CalibrationRunsBeginAndStepsEnd : Prop :=
  ((∀ (s : State) (q : Fin 16) (x : Nat) (w : Work), s.dev.descOf q opCalRun = some (x, w) → s.dev.pwr.hkcReady = true →
    s.dev.get twinState ≠ 2 →
    (∀ k, k < 16 → (calSectors x).testBit k = true → s.dev.sectorBusy k = true →
      (calOp x = 0 → calResel x = false → (∀ j, j < 16 → (calSectors x).testBit j = true → ∃ t, s.dev.sectorTemp j = some t ∧
          t - (pointTemp (calPoint x) : Rat) ≤ 320 ∧ -320 ≤ t - (pointTemp (calPoint x) : Rat)) →
        Answers (.calRunMeasure q) s fun t => t = s.dev.done w stLocked)) ∧
    ((∀ k, k < 16 → (calSectors x).testBit k = true → s.dev.sectorBusy k = false) → calSectors x ≠ 0 →
      (calOp x = 0 → calItems x ≠ 0 → calResel x = false →
        (∀ j, j < 16 → (calSectors x).testBit j = true → ∃ t, s.dev.sectorTemp j = some t ∧
          t - (pointTemp (calPoint x) : Rat) ≤ 320 ∧ -320 ≤ t - (pointTemp (calPoint x) : Rat)) →
        Answers (.calRunMeasure q) s fun t => (∃ r, t.cal.runs = s.dev.cal.runs ++ [r] ∧ r.work = w ∧ r.op = 0 ∧
            r.sectors = calSectors x ∧ r.point = calPoint x ∧
            ∀ c i, (c, i) ∈ r.todo ↔ c < 256 ∧ (calSectors x).testBit (sectorOf c) = true ∧ i < 7 ∧ (calItems x).testBit i = true) ∧
          (∀ c, c < 256 → (calSectors x).testBit (sectorOf c) = true → t.get (peStale c) = 1)) ∧
      (calOp x = 2 → 4096 ≤ dField x 16 0 32 → inRange 100 6000 (dField x 20 0 16) = true → inRange 10 24 (dField x 22 0 8) = true →
        Answers (.calRunEye q) s fun t => (∃ r, t.cal.runs = s.dev.cal.runs ++ [r] ∧ r.work = w ∧ r.op = 2 ∧
            r.sectors = calSectors x ∧ ∀ c i, (c, i) ∈ r.todo ↔ c < 256 ∧ (calSectors x).testBit (sectorOf c) = true ∧ i = 0) ∧
          (∀ c, c < 256 → (calSectors x).testBit (sectorOf c) = true → t.get (peStale c) = 1)))) ∧
  (∀ (s : State) (q : Fin 16) (vref : Int) (devs : BitVec 96) (x : Nat) (w : Work), s.dev.descOf q opCalRun = some (x, w) →
    s.dev.pwr.hkcReady = true → s.dev.get twinState ≠ 2 → calOp x = 3 →
    Answers (.calRunRefcheck q vref devs) s fun t => ∀ e, e < 4 →
      let v := toSigned 24 (bitsOf devs.toNat (24 * e) 24)
      if 4900000 ≤ vref ∧ vref ≤ 5100000 then t.get (calRefChecked e) = 1 ∧ t.get (calRefDev e) = ofSigned 24 v ∧
        t.get (calRefMismatch e) = (if 1000 < v.natAbs then 1 else 0)
      else t.get (calRefChecked e) = 0 ∧ t.get (calRefMismatch e) = s.dev.get (calRefMismatch e))) ∧
  (∀ (s : State) (k : Fin 16) (o : CalObs) (r : CalRun), s.dev.cal.runs = [r] → r.sectors.testBit k = true → sectorOf o.ch = k.val →
    let i := if r.op = 0 then o.item.val else 0
    r.todo.contains (o.ch.val, i) = true → (r.todo.erase (o.ch.val, i)) ≠ [] →
    (s.dev.calBlocked r o.ch i o.pinPa = true →
      Answers (.calStepDone k o) s fun t => t.get (calPrecond o.ch) = 1 ∧
        ∃ r', t.cal.runs = [r'] ∧ r'.todo = r.todo.erase (o.ch.val, i) ∧ r'.aborted = r.aborted + 1 ∧
          r'.status = if r.status = stOk then stPrecondition else r.status) ∧
    (s.dev.calBlocked r o.ch i o.pinPa = false → r.op = 0 → o.met = true → r.point < 5 →
      Answers (.calStepDone k o) s fun t =>
        t.get (calItemPts o.ch o.item) = (if r.resel = true ∧ itemSelects o.item = true then 0 else s.dev.get (calItemPts o.ch o.item)) ||| 2 ^ r.point ∧
        ∃ r', t.cal.runs = [r'] ∧ r'.todo = r.todo.erase (o.ch.val, i) ∧ r'.aborted = r.aborted ∧ r'.status = r.status) ∧
    (s.dev.calBlocked r o.ch i o.pinPa = false → r.op = 0 → o.met = false → o.metFb = false →
      Answers (.calStepDone k o) s fun t => t.get (calNotMet o.ch) = 1 ∧ t.cal.coefs = s.dev.cal.coefs ∧
        t.get (calItemPts o.ch o.item) = s.dev.get (calItemPts o.ch o.item)) ∧
    (s.dev.calBlocked r o.ch i o.pinPa = false → r.op ≠ 0 →
      Answers (.calStepDone k o) s fun t => t.get (calEyeWidth o.ch) = min o.eyeWidth 0xFFFF ∧
        t.get (calEyeHeight o.ch) = min o.eyeHeight 0xFFFF ∧ s.dev.KeepsRegs t [(calEyeWidth o.ch).addr]))

/-- CAL_RUN STORE erases the bank that is not loaded and takes the next generation; its end programs header and body and then the
commit page, in that bank alone, or leaves no commit page. A sensor read shows each temperature with its validity; the recompute
period follows the sector temperatures. (R437, R438, R439, R440, R448, R449) -/
def Obligations.CalibrationStoreAndTemperatures : Prop :=
  ((∀ (s : State) (q : Fin 16) (x : Nat) (w : Work), s.dev.descOf q opCalRun = some (x, w) → s.dev.pwr.hkcReady = true →
    calOp x = 1 → s.dev.get twinState ≠ 2 → s.dev.cal.stores = [] → s.dev.cal.runs = [] →
    AnswersNv (.calRunStore q) s fun nv t => nv = s.nv.erase (calBankAddr s.dev.cal.bank) 0x800000 ∧ t.cal.stores = [w] ∧
      t.get calState = 2 ∧ t.cal.gen = (max ((s.nv.bankGen 0).getD 0) ((s.nv.bankGen 1).getD 0) + 1) % 2 ^ 32 ∧
      s.dev.KeepsRegs t [calState.addr]) ∧
  (∀ (s : State) (w : Work), s.dev.cal.stores = [w] →
    AnswersNv (.calStoreDone true) s fun nv t => t.cal.stores = [] ∧
      nv.bytes (calBankAddr s.dev.cal.bank + 0x7FFF00) 256 = calCommit s.dev.cal.gen (crcOf s.dev.calBody) ∧
      nv.bytes (calBankAddr s.dev.cal.bank) 256 = calHeader s.dev.cal.gen s.dev.calBody ∧
      (∀ a, a < calBankAddr s.dev.cal.bank ∨ calBankAddr s.dev.cal.bank + 0x800000 ≤ a →
        nv.bytes a 1 = s.nv.bytes a 1)) ∧
  (∀ (s : State) (w : Work), s.dev.cal.stores = [w] →
    AnswersNv (.calStoreDone false) s fun nv t => t.cal.stores = [] ∧
      (∀ a, calBankAddr s.dev.cal.bank + 0x7FFF00 ≤ a → nv.bytes a 1 = s.nv.bytes a 1))) ∧
  ((∀ (s : State) (edge core : List (BitVec 16)), s.dev.pwr.booted = true → s.dev.pwr.hkcReady = true → edge.length = 16 →
    core.length = 8 →
    Answers (.tempSensorRead edge core) s fun t =>
      (∀ i, i < 16 → t.get (calTemp i) = (edge.getD i 0).toNat ∧
        t.get (calTempValid i) =
          (plausible ((List.range 4).map fun j => (edge.getD (i / 4 * 4 + j) 0).toInt) (i % 4)).toNat) ∧
      (∀ j, j < 8 → t.get (calTempC j) = (core.getD j 0).toNat ∧
        t.get (calTempCValid j) = (tempInRange (core.getD j 0).toInt).toNat)) ∧
  (∀ s : State, s.dev.awake = true → s.dev.pwr.hkcReady = true →
    Answers .calRecomputePeriod s fun t => t.mclk = max s.dev.mclk s.dev.cal.due ∧
      t.cal.due = t.mclk + 1500000 * max 10 (s.dev.get calPeriod) ∧
      (s.dev.get calInterpEn = 1 → ∀ (k : Nat) (x : Rat), k < 16 → s.dev.sectorTemp k = some x → s.dev.sectorCal k = false →
        s.dev.sectorRunning k = false → tempOf t.cal.usedT k = x ∧ (t.get calPending).testBit k = false)))

/-- A write to FCU_INJ that names a checker not listed, or a non-zero COUNT while an injection is in progress, sets REFUSED and
injects nothing. Otherwise it is accepted: with COUNT 0 it ends the injection in progress, else it begins with COUNT errors left.
(R475) -/
def Obligations.InjectionIsAcceptedOrRefused : Prop :=
  (∀ (s : State) (v : Word), (injSyndrome (bitsOf v.toNat 0 12) (bitsOf v.toNat 12 4)).isSome = true →
    bitsOf v.toNat 16 8 ≠ 0 → s.dev.get fcuInjBusy = 0 →
    Answers (.fcuInj v) s fun t => t.get fcuInjBusy = 1 ∧ t.get fcuInjBusyS = 1 ∧ t.get fcuInjLeft = bitsOf v.toNat 16 8 ∧
      t.get fcuInjRefused = 0 ∧ t.get fcuInjReal = 0 ∧ t.fcu.injSrc = bitsOf v.toNat 0 12 ∧ t.fcu.injChk = bitsOf v.toNat 12 4 ∧
      t.fcu.injFull = v.toNat.testBit 24 ∧ s.dev.KeepsRegs t [fcuInjLeft.addr, fcuInjBusyS.addr] ∧
      { t with regs := s.dev.regs, fcu := s.dev.fcu } = s.dev) ∧
  (∀ (s : State) (v : Word), (injSyndrome (bitsOf v.toNat 0 12) (bitsOf v.toNat 12 4)).isSome = true → bitsOf v.toNat 16 8 = 0 →
    Answers (.fcuInj v) s fun t => t.get fcuInjBusy = 0 ∧ t.get fcuInjBusyS = 0 ∧ t.get fcuInjLeft = 0 ∧ t.get fcuInjRefused = 0 ∧
      t.get fcuInjReal = s.dev.get fcuInjReal ∧ { t with regs := s.dev.regs } = s.dev) ∧
  (∀ (s : State) (v : Word), injSyndrome (bitsOf v.toNat 0 12) (bitsOf v.toNat 12 4) = none ∨
      (bitsOf v.toNat 16 8 ≠ 0 ∧ s.dev.get fcuInjBusy = 1) →
    Answers (.fcuInj v) s fun t => t.get fcuInjRefused = 1 ∧ t.get fcuInjBusy = s.dev.get fcuInjBusy ∧
      t.get fcuInjLeft = s.dev.get fcuInjLeft ∧ s.dev.KeepsRegs t [fcuInjRefused.addr] ∧ { t with regs := s.dev.regs } = s.dev)

/-- The report taken fills the empty first-fault latch, enters the queue or is counted as lost when LOG is in its reactions,
drives FAULT_N low for PIN, and asks every playing sequencer with a site of its scope to halt for HALT_SEQ. Stated for reports
whose reactions quiesce no sector and park no die. (R462, R463, R464, R468, R470, R472) -/
def Obligations.ReportsAreRecordedAndAnswered : Prop :=
  ∀ (s : State) (r : Report), firstReport s.dev.fcu.raised = some r →
    let d := (({ s.dev with fcu := { s.dev.fcu with raised := s.dev.fcu.raised.erase r } }).countReport r).1
    let m := d.reactOf r (d.checker (chkKey r.src r.chk)).severe
    m.testBit 4 = false → m.testBit 5 = false → AnswersIdle (.faultReport none) s fun t =>
      (s.dev.get fcuFirstValid = 0 → t.get fcuFirstValid = 1 ∧ t.get (fcuFirst 0) + 2 ^ 32 * t.get (fcuFirst 1) = r.t % 2 ^ 64 ∧
        bitsOf (t.get (fcuFirst 2)) 0 12 = r.src % 2 ^ 12 ∧ bitsOf (t.get (fcuFirst 2)) 16 5 = r.cls % 32 ∧
        t.fcu.firstKey = some (chkKey r.src r.chk)) ∧
      (m.testBit 6 = true → t.get fcuFaultLow = 1 ∧ t.fcu.released = false) ∧
      (m.testBit 0 = true → s.dev.qCount ≠ 32 → t.get fcuQwr = (s.dev.get fcuQwr + 1) % 256 ∧
        t.get (fcuQrec (s.dev.get fcuQwr % 32) 0) = r.t % 2 ^ 32) ∧
      (m.testBit 0 = true → s.dev.qCount = 32 → t.get fcuQwr = s.dev.get fcuQwr ∧
        t.get fcuOvf = min (s.dev.get fcuOvf + 1) (2 ^ 32 - 1)) ∧
      (m.testBit 3 = true →
        ∀ q, q < 16 → inRange 1 3 (s.dev.get (seqState q)) = true → s.dev.seqSites q &&& r.scope ≠ 0 →
        (t.seq q).haltReq.isSome = true)

/-- A window's end clears its checker alone. A clear of SEVSRC clears the named sources' checkers and no other. A failed wire pair
is reported once by the collector and recovers alone. FAULT_N is released after its minimum width when asked or automatic. The
latch clears to empty. (R457, R462, R466, R467, R473) -/
def Obligations.CountsWiresPinAndLatchAreReleased : Prop :=
  ((∀ (s : State) (src : BitVec 12) (chk : Fin 16), (s.dev.checker (chkKey src.toNat chk)).isOpen = true →
    Answers (.fcuWindowExpiry src chk) s fun t => t.checker (chkKey src.toNat chk) = Checker.init ∧
      t.mclk = max s.dev.mclk (s.dev.checker (chkKey src.toNat chk)).winEnd ∧
      (∀ k, k ≠ chkKey src.toNat chk → t.checker k = s.dev.checker k) ∧ s.dev.KeepsRegs t []) ∧
  (∀ (s : State) (k : Fin 16) (v : Word), Answers (.fcuSevsrcClear k v) s fun t =>
    (∀ b, b < 32 → (t.get (fcuSevsrc k)).testBit b = ((s.dev.get (fcuSevsrc k)).testBit b && !v.toNat.testBit b)) ∧
    (∀ b c, b < 32 → c < 16 → v.toNat.testBit b = true → t.checker (chkKey (32 * k + b) c) = Checker.init) ∧
    (∀ b c, b < 32 → c < 16 → v.toNat.testBit b = false → t.checker (chkKey (32 * k + b) c) = s.dev.checker (chkKey (32 * k + b) c)) ∧
    s.dev.KeepsRegs t [(fcuSevsrc k).addr, fcuSevcls.addr]) ∧
  (∀ (s : State) (src : BitVec 12) (chk : Fin 16) (k : Nat), classOf src.toNat chk = some k → k ≠ 0x0F →
    s.dev.fcu.wireBad.contains (chkKey src.toNat chk) = false → s.dev.fcu.wireBad.contains (chkKey srcFcu 0) = false →
    Answers (.fcuWire src chk) s fun t => t.fcu.wireBad = chkKey src.toNat chk :: s.dev.fcu.wireBad ∧
      (∃ r, t.fcu.raised = s.dev.fcu.raised ++ [r] ∧ r.src = srcFcu ∧ r.chk = 0 ∧ r.cls = 0x0F ∧ r.t = s.dev.tb ∧
        r.det = k + 2 ^ 8 * chk.val + 2 ^ 16 * src.toNat) ∧ { t with fcu := s.dev.fcu } = s.dev) ∧
  (∀ (s : State) (src : BitVec 12) (chk : Fin 16), Answers (.fcuWireRecovery src chk) s fun t =>
    t.fcu.wireBad.contains (chkKey src.toNat chk) = false ∧
    (∀ k, k ≠ chkKey src.toNat chk → t.fcu.wireBad.contains k = s.dev.fcu.wireBad.contains k) ∧
    (t.fcu.wireBad = [] → ∀ p, p ∈ t.fcu.live → p.1 ≠ chkKey srcFcu 0) ∧ { t with fcu := s.dev.fcu } = s.dev)) ∧
  ((∀ s : State, s.dev.get fcuFaultLow = 1 →
    (s.dev.fcu.minwEnd ≤ s.dev.mclk → Answers .fcuPinRelease s fun t => t.get fcuFaultLow = 0 ∧ t.fcu.released = false ∧
      s.dev.KeepsRegs t [fcuFaultLow.addr] ∧ { t with regs := s.dev.regs, fcu := s.dev.fcu } = s.dev) ∧
    (s.dev.mclk < s.dev.fcu.minwEnd → Answers .fcuPinRelease s fun t => t.get fcuFaultLow = 1 ∧ t.fcu.released = true ∧
      { t with fcu := s.dev.fcu } = s.dev)) ∧
  (∀ s : State, s.dev.get fcuFaultLow = 1 →
    Answers .faultNMinwExpiry s fun t => t.mclk = max s.dev.mclk s.dev.fcu.minwEnd ∧
      t.get fcuFaultLow = (if s.dev.get fcuPinAuto = 1 ∨ s.dev.fcu.released = true then 0 else 1) ∧
      s.dev.KeepsRegs t [fcuFaultLow.addr]) ∧
  (∀ s : State, Answers .fcuFirstClr s fun t => t.get fcuFirstValid = 0 ∧ (∀ w, w < 8 → t.get (fcuFirst w) = 0) ∧
    t.fcu.firstKey = none ∧ s.dev.KeepsRegs t (fcuFirstValid.addr :: (List.range 8).map fun w => (fcuFirst w).addr) ∧
    { t with regs := s.dev.regs, fcu := s.dev.fcu } = s.dev))

/-- LINK_UP with opposite roles shows the link and pairs when asked; with equal roles it shows the conflict. Heartbeats carry
times, state and flags and give delay and offset. Unacknowledged messages are sent again and counted; discards with a bad CRC are
counted. A lost link is reported, and role A takes over at once and role B after its delay when automatic. (R524, R525, R526,
R528, R529, R530, R531, R538) -/
def Obligations.TheTwinLinkIsTrainedWatchedAndLost : Prop :=
  (∀ (s : State) (lanes : Fin 5) (partnerB : Bool), s.dev.merUp = false → s.dev.get twinRoleConf = 0 →
    [1, 2, 4].contains lanes.val = true → s.dev.is twinRole = !partnerB → s.dev.get twinState = 0 →
    AnswersIdle (.linkUp lanes partnerB) s fun t => t.get twinLink = 2 ∧ t.get twinLanes = lanes ∧
      t.get twinState = (if s.dev.wantsPair = true then 1 else 0) ∧ t.twin.rxSeq = 0 ∧ t.twin.hbArr = s.dev.mclk ∧ t.twin.hbLast = none ∧
      s.dev.KeepsRegsEv t [twinLink.addr]) ∧
  (∀ (s : State) (lanes : Fin 5) (partnerB : Bool), s.dev.merUp = false → s.dev.get twinRoleConf = 0 →
    [1, 2, 4].contains lanes.val = true → s.dev.is twinRole = partnerB → s.dev.get twinState ≠ 1 →
    AnswersIdle (.linkUp lanes partnerB) s fun t => t.get twinRoleConf = 1 ∧ t.get twinLink = 0 ∧ t.get twinLanes = 0 ∧
      t.get twinState = s.dev.get twinState ∧ s.dev.KeepsRegsEv t [twinLink.addr]) ∧
  (∀ s : State, s.dev.merUp = true →
    let d := s.dev.advanceTo s.dev.twin.hbSend
    let e := s.dev.twin.hbLast.getD (0, 0)
    Answers .heartbeatSend s fun t => t.twin.hbSend = d.mclk + 15000 ∧ t.mclk = d.mclk ∧ s.dev.KeepsRegs t [] ∧
      t.out = .twin mHeartbeat (d.merFrame mHeartbeat 0 (toBytes 8 d.tb ++ toBytes 8 e.1 ++ toBytes 8 e.2
        ++ toBytes 8 (d.get twinState + 8 * d.linkUp.toNat) ++ d.flagBytes)) :: s.dev.out) ∧
  (∀ (s : State) (ack : BitVec 16) (sendTb echoTb echoArr : DWord) (st : BitVec 3) (up : Bool) (flags : List Byte),
    s.dev.merUp = true → s.dev.twin.unacked = [] → flags.length = 16 →
    let x : Int := toSigned 64 ((echoArr.toNat + 2 ^ 64 - echoTb.toNat) % 2 ^ 64) + toSigned 64 ((s.dev.tb + 2 ^ 64 - sendTb.toNat) % 2 ^ 64)
    Answers (.heartbeat ack sendTb echoTb echoArr st up flags) s fun t => t.twin.hbArr = s.dev.mclk ∧
      t.twin.hbLast = some (sendTb.toNat, s.dev.tb) ∧ t.twin.delayAt = none ∧
      (∀ k, k < 16 → Tab.get (fun _ => 0) t.twin.flags k = (flags.getD k 0).toNat) ∧
      (echoTb = 0 → echoArr = 0 → s.dev.KeepsRegs t []) ∧
      (echoTb ≠ 0 → s.dev.twin.delays = [] → 0 ≤ x → x < 8192 → (t.get twinDelay : Int) = 8 * x) ∧
      s.dev.KeepsRegs t [twinDelay.addr, twinOffset.addr, twinOffsetHi.addr]) ∧
  (∀ (s : State) (ack : BitVec 16) (flags : List Byte), s.dev.merUp = true → s.dev.twin.unacked = [] → flags.length = 16 →
    Answers (.flag ack flags) s fun t => (∀ k, k < 16 → Tab.get (fun _ => 0) t.twin.flags k = (flags.getD k 0).toNat) ∧
      { t with twin := s.dev.twin } = s.dev ∧ t.twin.rxSeq = s.dev.twin.rxSeq) ∧
  (∀ s : State, s.dev.merUp = true → s.dev.twin.take = .none → (∀ q, q < 16 → s.dev.get (seqState q) ≠ 4) →
    s.dev.fcu.wireBad.contains (chkKey srcMer 0) = false →
    AnswersIdle .meridianLinkLost s fun t => t.get twinLink = 3 ∧ t.get twinLanes = 0 ∧ t.twin.unacked = [] ∧
      t.mclk = max s.dev.mclk (s.dev.twin.hbArr + 120000) ∧
      (∃ r, t.fcu.raised = s.dev.fcu.raised ++ [r] ∧ r.src = srcMer ∧ r.chk = 0 ∧ r.t = t.tb) ∧
      s.dev.KeepsRegsEv t [twinLink.addr] ∧
      (s.dev.is twinAuto = false → t.get twinState = s.dev.get twinState) ∧
      (s.dev.is twinAuto = true → s.dev.paired = true → s.dev.pwr.parkIn = false → s.dev.is twinRole = false →
        t.get twinState = 2 ∧ t.get twinParkOut = 1 ∧ t.twin.take = .bus) ∧
      (s.dev.is twinAuto = true → s.dev.paired = true → s.dev.pwr.parkIn = false → s.dev.is twinRole = true →
        t.get twinState = 1 ∧ t.twin.delayAt = some (t.mclk + 1500 * max 100 (s.dev.get twinDelayB)))) ∧
  (∀ s : State, s.dev.merUp = true → s.dev.twin.unacked ≠ [] →
    Answers .meridianRetxTimeout s fun t => t.mclk = max s.dev.mclk s.dev.twin.retxAt ∧ t.twin.retxAt = t.mclk + 30000 ∧
      t.twin.unacked = (s.dev.twin.unacked.map fun m => { m with due := t.mclk + 30000 }) ∧ t.get twinRetx = min (s.dev.get twinRetx + s.dev.twin.unacked.length) 0xFFFF ∧
      s.dev.KeepsRegs t [twinRetx.addr]) ∧
  (∀ (s : State) (why : DiscardReason), Answers (.meridianMessageDiscarded why) s fun t =>
    t.get twinCrcErr = (if why = .crc then min (s.dev.get twinCrcErr + 1) 0xFFFF else s.dev.get twinCrcErr) ∧
    t.get twinRetx = s.dev.get twinRetx ∧ { t with regs := s.dev.regs } = s.dev ∧ s.dev.KeepsRegs t [twinCrcErr.addr])

/-- START_READY and START give the waiting sequencer its start time; NOTIFY raises its event; Almanac data wait for the boundary.
OPEN claims a free slot, MIRROR fills it, INTENT is acknowledged, COMPLETE frees it, ABANDON leaves it to be reported, and the
host's acknowledgement frees it; no byte of another slot changes. INTENT_ACK completes the RUN. (R389, R527, R532, R533, R534,
R535, R543, R545) -/
def Obligations.TwinStartsMirrorsAndNotesAreTaken : Prop :=
  ((∀ (s : State) (ack : BitVec 16) (q : Fin 16) (rb : DWord), s.dev.merUp = true → s.dev.twin.unacked = [] →
    (Tab.get (fun _ => none) s.dev.twin.readyO q.val = none →
      Answers (.startReady ack q rb) s fun t => Tab.get (fun _ => none) t.twin.readyP q.val = some rb.toNat ∧
        { t with twin := s.dev.twin } = s.dev) ∧
    (∀ ra, Tab.get (fun _ => none) s.dev.twin.readyO q.val = some ra → s.dev.is twinRole = false → s.dev.twinWaits q = true →
      let start : Int := ra + max 0 (toSigned 64 ((rb.toNat + 2 ^ 64 - ra) % 2 ^ 64) - s.dev.twinOff) + ((s.dev.get twinDelay + 15) / 16 : Nat)
        + (max 64 (s.dev.get twinMargin) : Nat)
      Answers (.startReady ack q rb) s fun t => (t.seq q).syncT = some (ofSigned 64 start) ∧
        (∀ i, i ≠ q.val → t.seq i = s.dev.seq i) ∧ (∃ f, t.out = .twin mStart f :: s.dev.out) ∧ s.dev.KeepsRegs t [])) ∧
  (∀ (s : State) (ack : BitVec 16) (q : Fin 16) (tb : DWord), s.dev.merUp = true → s.dev.twin.unacked = [] → s.dev.twinWaits q = true →
    Answers (.start ack q tb) s fun t =>
      (t.seq q).syncT = some (if toSigned 64 ((tb.toNat + 2 ^ 64 - s.dev.tb) % 2 ^ 64) < 32 then (s.dev.tb + 32) % 2 ^ 64 else tb.toNat) ∧
      (∀ i, i ≠ q.val → t.seq i = s.dev.seq i) ∧ s.dev.KeepsRegsEv t []) ∧
  (∀ (s : State) (ack : BitVec 16) (rec : BitVec 256), s.dev.merUp = true → s.dev.twin.unacked = [] →
    Answers (.notify ack rec) s fun t => t = s.dev.merTook.event srcMer 0x0A04 (rec.toNat % 2 ^ 128)) ∧
  (∀ (s : State) (ack : BitVec 16) (comps : List AlmComponent) (deltas : List AlmDelta), s.dev.merUp = true → s.dev.twin.unacked = [] →
    s.dev.running .almanac = true →
    (Answers (.almFull ack comps) s fun t => t.alm.rx = s.dev.alm.rx ++ [.full comps] ∧ { t with alm := s.dev.alm } = s.dev.merTook) ∧
    (Answers (.almDelta ack deltas) s fun t => t.alm.rx = s.dev.alm.rx ++ [.delta deltas] ∧ { t with alm := s.dev.alm } = s.dev.merTook))) ∧
  ((∀ (s : State) (ack : BitVec 16) (td : DWord) (sites : SiteMask) (startTb : DWord) (bin : BitVec 16) (k : Nat), s.dev.merUp = true →
    s.dev.twin.unacked = [] → s.dev.mirFind td.toNat = none → (s.dev.mirIn 0).head? = some k →
    Answers (.openMsg ack td sites startTb bin) s fun t => t.mirState k = 1 ∧ t.mirTd k = td.toNat ∧
      (∀ j, j < 64 → j ≠ k → t.mirState j = s.dev.mirState j) ∧ { t with sram := s.dev.sram, twin := s.dev.twin } = s.dev ∧
      (∀ a, a < mirAddr k ∨ mirAddr k + 4096 ≤ a → t.ld a 1 = s.dev.ld a 1)) ∧
  (∀ (s : State) (ack : BitVec 16) (td : DWord) (header : BitVec 512) (i : Fin 64) (close : BitVec 256) (k : Nat), s.dev.merUp = true →
    s.dev.twin.unacked = [] → s.dev.mirFind td.toNat = some k →
    Answers (.mirror ack td header [(i, close)]) s fun t => t.mirState k = (if s.dev.mirState k = 3 then 3 else 2) ∧
      t.ld (mirAddr k + 64) 64 = header.toNat ∧ t.ld (mirAddr k + 128 + 32 * i) 32 = close.toNat ||| 2 ^ 93 ∧
      { t with sram := s.dev.sram } = s.dev.merTook ∧ (∀ a, a < mirAddr k ∨ mirAddr k + 4096 ≤ a → t.ld a 1 = s.dev.ld a 1)) ∧
  (∀ (s : State) (ack : BitVec 16) (td : DWord) (k : Nat), s.dev.merUp = true → s.dev.twin.unacked = [] →
    s.dev.mirFind td.toNat = some k →
    (s.dev.mirState k ≠ 1 → Answers (.intent ack td) s fun t => t.mirState k = 3 ∧ (∃ f, t.out = .twin mIntentAck f :: s.dev.out) ∧
      t.regs = s.dev.regs ∧ (∀ a, a < mirAddr k ∨ mirAddr k + 4096 ≤ a → t.ld a 1 = s.dev.ld a 1)) ∧
    (Answers (.complete ack td) s fun t => t.mirState k = 0 ∧ { t with sram := s.dev.sram } = s.dev.merTook ∧
      (∀ a, a < mirAddr k ∨ mirAddr k + 4096 ≤ a → t.ld a 1 = s.dev.ld a 1)) ∧
    (Answers (.abandon ack td) s fun t => t.mirState k = 4 ∧ { t with sram := s.dev.sram } = s.dev.merTook ∧
      (∀ a, a < mirAddr k ∨ mirAddr k + 4096 ≤ a → t.ld a 1 = s.dev.ld a 1))) ∧
  (∀ (s : State) (ack : BitVec 16) (td : DWord) (r : OpenRun), s.dev.merUp = true → s.dev.twin.unacked = [] →
    s.dev.twin.closing.find? (fun r => r.td == td.toNat && r.mirSt != 3) = some r →
    AnswersIdle (.intentAck ack td) s fun t => t = s.dev.merTook.runComplete r true ∧
      (∀ y, y ∈ t.twin.closing → y.id = r.id → y.mirSt = 3)) ∧
  (∀ (s : State) (v : Word), let k := v.toNat % 64
    (s.dev.mirState k = 4 ∨ s.dev.mirState k = 5 → Answers (.twinMirAck v) s fun t => t.mirState k = 0 ∧
      { t with sram := s.dev.sram } = s.dev ∧ (∀ a, a < mirAddr k ∨ mirAddr k + 4096 ≤ a → t.ld a 1 = s.dev.ld a 1)) ∧
    (s.dev.mirState k ≠ 4 → s.dev.mirState k ≠ 5 → Answers (.twinMirAck v) s fun t => t = s.dev)))

/-- A lawful trigger asserts PARK_OUT and claims the bus; a stuck bus is passed over; TAKEN or its wait's end resolves every
mirror slot and makes the package SURVIVOR. PARK_IN makes the package TAKEN and ends its RUNs; its release and RELEASE undo each
state. A host loss asks the partner to take over. (R75, R537, R538, R539, R540, R541, R542) -/
def Obligations.TakeoversRunInOrder : Prop :=
  (∀ s : State, s.dev.paired = true → s.dev.pwr.parkIn = false →
    (AnswersIdle .twinTake s fun t => s.dev.takeBegun t ∧ t.mclk = s.dev.mclk) ∧
    (∀ ack : BitVec 16, s.dev.merUp = true → s.dev.twin.unacked = [] → s.dev.is twinAuto = true →
      AnswersIdle (.takeReq ack) s fun t => s.dev.takeBegun t ∧ t.mclk = s.dev.mclk) ∧
    (∀ a, s.dev.twin.delayAt = some a → AnswersIdle .takeoverDelayExpiry s fun t => s.dev.takeBegun t ∧ t.mclk = max s.dev.mclk a ∧
      t.twin.delayAt = none)) ∧
  (∀ s : State, s.dev.paired = false → AnswersIdle .twinTake s fun t => t = s.dev.event srcMer 0x0A07 2) ∧
  (∀ (s : State) (a : Nat), s.dev.twin.lossAt = some a →
    Answers .hostLossExpiry s fun t => t.twin.lossAt = none ∧ t.mclk = max s.dev.mclk a ∧ s.dev.KeepsRegs t [] ∧
      (s.dev.wantsPair = true → s.dev.merUp = true → ∃ f, t.out = .twin mTakeReq f :: s.dev.out) ∧
      (s.dev.wantsPair = false → t.out = s.dev.out)) ∧
  (∀ s : State, s.dev.twin.take = .bus → s.dev.twin.taken = false → s.dev.merUp = true →
    AnswersIdle .tpStuck s fun t => t.mclk = max s.dev.mclk s.dev.twin.takeEnd ∧ t.get twinTpHeld = 1 ∧ t.tp.claim = false ∧
      t.twin.take = .wait ∧ t.twin.takeEnd = t.mclk + 1500000 ∧ s.dev.KeepsRegsEv t [twinTpHeld.addr]) ∧
  (∀ (s : State) (ack : BitVec 16), s.dev.twin.take = .bus → s.dev.merUp = true → s.dev.twin.unacked = [] →
    AnswersIdle (.taken ack) s fun t => t.twin.taken = true ∧ { t with twin := s.dev.twin } = s.dev) ∧
  (∀ s : State, s.dev.twin.take = .wait → s.dev.twin.closing = [] →
    let resolved (t : Dev) : Prop := t.get twinState = 3 ∧ t.twin.take = .none ∧
      ∀ k, k < 64 → t.mirState k = (if s.dev.mirState k = 1 ∨ s.dev.mirState k = 2 then 4 else if s.dev.mirState k = 3 then 5 else s.dev.mirState k)
    (AnswersIdle .takeoverWaitExpiry s fun t => resolved t ∧ t.mclk = max s.dev.mclk s.dev.twin.takeEnd) ∧
    (∀ ack : BitVec 16, s.dev.merUp = true → s.dev.twin.unacked = [] → AnswersIdle (.taken ack) s resolved)) ∧
  (∀ s : State, s.dev.pwr.parkIn = false → s.dev.runs = [] → s.dev.twin.closing = [] →
    s.dev.get twinState ≠ 4 → (s.dev.get twinState = 2 → s.dev.get twinRole = 1) →
    AnswersIdle .parkInAssert s fun t => t.pwr.parkIn = true ∧ t.get twinParkIn = 1 ∧ t.get twinState = 4 ∧ t.twin.take = .none ∧
      t.twin.delayAt = none ∧ t.get twinParkOut = (if s.dev.get twinState = 2 then 0 else s.dev.get twinParkOut) ∧
      (s.dev.merUp = true → ∃ f, Output.twin mTaken f ∈ t.out) ∧ s.dev.KeepsRegsEv t [twinState.addr]) ∧
  (∀ s : State, s.dev.pwr.parkIn = false → s.dev.get twinState = 2 → s.dev.get twinRole = 0 →
    AnswersIdle .parkInAssert s fun t => t.pwr.parkIn = true ∧ t.get twinParkIn = 1 ∧ t.get twinState = 2 ∧ t.twin = s.dev.twin) ∧
  (∀ s : State, Answers .parkInRelease s fun t => t.pwr.parkIn = false ∧ t.get twinParkIn = 0 ∧
    t.get twinState = (if s.dev.get twinState = 4 ∧ s.dev.merUp = true then (if s.dev.wantsPair = true then 1 else 0) else s.dev.get twinState) ∧
    s.dev.KeepsRegs t [twinState.addr] ∧ { t with regs := s.dev.regs, pwr := s.dev.pwr, twin := s.dev.twin } = s.dev) ∧
  (∀ s : State,
    (s.dev.get twinState = 3 → Answers .twinRelease s fun t => t.get twinParkOut = 0 ∧ t.get twinState = 0 ∧ t.get tpOwner = 0 ∧
      s.dev.KeepsRegs t [twinState.addr, tpOwner.addr] ∧ { t with regs := s.dev.regs } = s.dev) ∧
    (s.dev.get twinState ≠ 3 → Answers .twinRelease s fun t => t = s.dev))

/-- GO claims the bus; a quiet window seizes it; the transfer's end with HOLD_SEL holds it with the bits sent; ABORT, a bus
timeout and a mode fault end in IDLE with their results; a TP_BUSY_N edge is shown unless the port itself drives the line. (R546,
R547, R548, R552, R554, R556) -/
def Obligations.TransitMasterPhases : Prop :=
  (∀ s : State, s.dev.get tpState = 0 → s.dev.is (tpFlag 0) = false → s.dev.awake = true → s.dev.get tpCmdLen ≤ 32 →
    s.dev.get tpAddrLen ≤ 32 → 1 ≤ s.dev.get tpLen → s.dev.get tpLen ≤ 8192 →
    Answers .tpGo s fun t => t.get tpState = 1 ∧ t.tp.winAt = (if s.dev.tp.busyLow then none else some s.dev.mclk) ∧
      { t with regs := s.dev.regs, tp := s.dev.tp } = s.dev ∧ s.dev.KeepsRegs t [tpState.addr]) ∧
  (∀ (s : State) (w : Nat), s.dev.get tpState = 1 → s.dev.tp.winAt = some w → s.dev.tp.claim = false →
    AnswersIdle .tpArbWindow s fun t => t.get tpState = 2 ∧ t.is tpBusyIn = false ∧
      t.mclk = max s.dev.mclk (w + s.dev.tpWindow true) ∧ s.dev.KeepsRegs t [tpState.addr]) ∧
  (∀ (s : State) (rx : List Bool), s.dev.get tpState = 2 → s.dev.is tpHoldSel = true → s.dev.is tpDir = false →
    AnswersIdle (.tpDone rx) s fun t => t.get tpState = 3 ∧ t.get tpResult = 0 ∧ .tpBits false s.dev.tpSent ∈ t.out ∧
      s.dev.KeepsRegsEv t [tpState.addr]) ∧
  (∀ s : State, inRange 1 3 (s.dev.get tpState) = true →
    AnswersIdle .tpAbort s fun t => t.get tpState = 0 ∧ t.get tpResult = 5) ∧
  (∀ (s : State) (w : Nat), s.dev.get tpState = 1 → s.dev.tp.toAt = some w →
    AnswersIdle .tpBusTimeout s fun t => t.get tpState = 0 ∧ t.get tpResult = 2 ∧ s.dev.KeepsRegsEv t [tpState.addr]) ∧
  (∀ (s : State) (n : BitVec 16), s.dev.tpMastering = true →
    AnswersIdle (.tpModeFault n) s fun t => t.get tpState = 0 ∧ t.get tpResult = 1 ∧ t.get (tpFlag 0) = 1) ∧
  (∀ (s : State) (level : Bool), Answers (.tpBusyNEdge level) s fun t =>
    t.tp.busyLow = !level ∧ t.is tpBusyIn = (level && !s.dev.tpMastering) ∧
    { t with regs := s.dev.regs, tp := s.dev.tp } = s.dev ∧ s.dev.KeepsRegs t [tpBusyIn.addr])

/-- A write frame stores its bits and length in the next buffer of the ring and no other register, or with the ring full is
counted as an overflow. A read frame sends the loaded bits once. RX_POP drops the oldest buffer, TX_LOAD and TX_CLR mark the
transmit buffer. (R558, R559, R560, R563) -/
def Obligations.TransitTargetFramesAndBuffers : Prop :=
  ((∀ (s : State) (cmd : Byte) (bits : List Bool), s.dev.is tpTgtEn = true → s.dev.tpMastering = false → cmd = 0 →
    bits.length = s.dev.tgtLen → s.dev.get tpRxCount < 8 → s.dev.is tpEvRx = false →
    Answers (.tpTargetFrame 8 cmd bits false) s fun t =>
      let i := (s.dev.get tpRxHead + s.dev.get tpRxCount) % 8
      t.get tpRxCount = s.dev.get tpRxCount + 1 ∧ t.get (tpRxInfo i) = s.dev.tgtLen ∧
      (∀ k, k < s.dev.tgtLen → t.is (tpBitAt (0x62000 + 0x400 * i) k) = bits.getD k false) ∧
      { t with regs := s.dev.regs } = s.dev ∧
      ∀ a, a < 0x62000 + 0x400 * i ∨ 0x62400 + 0x400 * i ≤ a → a ≠ tpRxCount.addr → a ≠ (tpRxInfo i).addr → t.word a = s.dev.word a) ∧
  (∀ (s : State) (bits : List Bool), s.dev.is tpTgtEn = true → s.dev.tpMastering = false → bits.length = s.dev.tgtLen →
    8 ≤ s.dev.get tpRxCount →
    Answers (.tpTargetFrame 8 0 bits false) s fun t => t.get (tpFlag 3) = 1 ∧
      t.get tpCntOvf = min (s.dev.get tpCntOvf + 1) 0xFFFF ∧ s.dev.KeepsRegsEv t [(tpFlag 3).addr, tpCntOvf.addr]) ∧
  (∀ (s : State) (bits : List Bool), s.dev.is tpTgtEn = true → s.dev.tpMastering = false → bits.length = s.dev.tgtLen →
    s.dev.is tpTxValid = true →
    Answers (.tpTargetFrame 8 0x80 bits false) s fun t => t.get tpTxValid = 0 ∧
      t.out = .tpBits true (s.dev.tpBits 0x60800 s.dev.tgtLen) :: s.dev.out ∧ s.dev.KeepsRegs t [tpTxValid.addr])) ∧
  ((∀ s : State, 0 < s.dev.get tpRxCount → Answers .rxPop s fun t =>
    t.get tpRxCount = s.dev.get tpRxCount - 1 ∧ t.get tpRxHead = (s.dev.get tpRxHead + 1) % 8 ∧
    s.dev.KeepsRegs t [tpRxCount.addr, tpRxHead.addr] ∧ { t with regs := s.dev.regs } = s.dev) ∧
  (∀ s : State, s.dev.get tpRxCount = 0 → Answers .rxPop s fun t => t = s.dev) ∧
  (∀ s : State, Answers .txLoad s fun t => t.get tpTxValid = 1 ∧ s.dev.KeepsRegs t [tpTxValid.addr] ∧
    { t with regs := s.dev.regs } = s.dev) ∧
  (∀ s : State, Answers .txClr s fun t => t.get tpTxValid = 0 ∧ s.dev.KeepsRegs t [tpTxValid.addr] ∧
    { t with regs := s.dev.regs } = s.dev))
end

