-- ==== Sys2Proof/Laws/Tab.lean ====
section
/-!
SUPPORT. The laws of the sparse table: reading after a write, and that every operation keeps the canonical form.
-/

namespace Sys2Proof.Machine

variable {α : Type}

/-- The keys stand in rising order, all above `lo`. -/
def Tab.Above (lo : Nat) : Tab α → Prop
  | [] => True
  | (j, _) :: t => lo ≤ j ∧ Tab.Above (j + 1) t

theorem Tab.Above.mono {t : Tab α} {a b : Nat} (h : Tab.Above b t) (hab : a ≤ b) : Tab.Above a t := by
  cases t with
  | nil => trivial
  | cons p t => exact ⟨Nat.le_trans hab h.1, h.2⟩

/-- No entry equals what an unlisted key reads as. -/
def Tab.NoDflt (d : Nat → α) (t : Tab α) : Prop := ∀ p ∈ t, p.2 ≠ d p.1

theorem Tab.wf_iff [DecidableEq α] (d : Nat → α) (t : Tab α) :
    Tab.wf d t = true ↔ Tab.Above 0 t ∧ Tab.NoDflt d t := by
  suffices h : ∀ t : Tab α, ∀ lo, (Tab.wf d t = true ∧ (∀ p ∈ t.head?, lo ≤ p.1)) ↔ Tab.Above lo t ∧ Tab.NoDflt d t by
    have := h t 0
    simpa using this
  intro t
  induction t with
  | nil => intro lo; simp [Tab.wf, Tab.Above, Tab.NoDflt]
  | cons p t ih =>
    obtain ⟨k, v⟩ := p
    intro lo
    cases t with
    | nil => simp [Tab.wf, Tab.Above, Tab.NoDflt]; tauto
    | cons q t =>
      obtain ⟨j, w⟩ := q
      have := ih (k + 1)
      simp only [List.head?_cons, Option.mem_def, Option.some.injEq, forall_eq'] at this ⊢
      simp only [Tab.wf, Bool.and_eq_true, decide_eq_true_eq]
      constructor
      · rintro ⟨⟨⟨hv, hkj⟩, hw⟩, hlo⟩
        obtain ⟨ha, hn⟩ := this.mp ⟨hw, hkj⟩
        refine ⟨⟨hlo, ha⟩, ?_⟩
        intro p hp
        rcases List.mem_cons.mp hp with rfl | hp
        · exact hv
        · exact hn p hp
      · rintro ⟨⟨hlo, ha⟩, hn⟩
        obtain ⟨hw, hkj⟩ := this.mpr ⟨ha, fun p hp => hn p (List.mem_cons_of_mem _ hp)⟩
        exact ⟨⟨⟨hn (k, v) List.mem_cons_self, hkj⟩, hw⟩, hlo⟩

@[simp] theorem Tab.get_nil (d : Nat → α) (k : Nat) : Tab.get d [] k = d k := rfl

@[simp] theorem Tab.get_erase (d : Nat → α) (t : Tab α) (k k' : Nat) :
    Tab.get d (Tab.erase t k) k' = if k = k' then d k' else Tab.get d t k' := by
  induction t with
  | nil => simp [Tab.erase]
  | cons p t ih =>
    obtain ⟨j, v⟩ := p
    simp only [Tab.erase, Tab.get]
    split
    · subst j; rw [ih]; split <;> simp_all
    · simp only [Tab.get, ih]; split <;> split <;> simp_all

@[simp] theorem Tab.get_insert_erase (d : Nat → α) (t : Tab α) (k k' : Nat) (v : α) :
    Tab.get d (Tab.insert (Tab.erase t k) k v) k' = if k = k' then v else Tab.get d t k' := by
  have key : ∀ t : Tab α, (∀ p ∈ t, p.1 ≠ k) →
      Tab.get d (Tab.insert t k v) k' = if k = k' then v else Tab.get d t k' := by
    intro t
    induction t with
    | nil => intro _; simp [Tab.insert, Tab.get]
    | cons p t ih =>
      obtain ⟨j, w⟩ := p
      intro h
      have hj : j ≠ k := h (j, w) List.mem_cons_self
      simp only [Tab.insert]
      split
      · simp [Tab.get]
      · simp only [Tab.get, ih (fun p hp => h p (List.mem_cons_of_mem _ hp))]
        split <;> split <;> simp_all
  have hk : ∀ p ∈ Tab.erase t k, p.1 ≠ k := by
    induction t with
    | nil => simp [Tab.erase]
    | cons p t ih =>
      obtain ⟨j, w⟩ := p
      simp only [Tab.erase]
      split
      · exact ih
      · intro p hp
        rcases List.mem_cons.mp hp with rfl | hp
        · assumption
        · exact ih p hp
  rw [key _ hk]
  split
  · rfl
  · rw [Tab.get_erase]; simp [*]

/-- A read after a write: the value written at its key, what was there at every other. -/
theorem Tab.get_set [DecidableEq α] (d : Nat → α) (t : Tab α) (k k' : Nat) (v : α) :
    Tab.get d (Tab.set d t k v) k' = if k = k' then v else Tab.get d t k' := by
  unfold Tab.set
  split
  · rename_i h; rw [Tab.get_erase]; split
    · subst k'; exact h.symm
    · rfl
  · exact Tab.get_insert_erase d t k k' v

@[simp] theorem Tab.get_set_same [DecidableEq α] (d : Nat → α) (t : Tab α) (k : Nat) (v : α) :
    Tab.get d (Tab.set d t k v) k = v := by rw [Tab.get_set]; simp

theorem Tab.get_set_ne [DecidableEq α] (d : Nat → α) (t : Tab α) {k k' : Nat} (v : α) (h : k ≠ k') :
    Tab.get d (Tab.set d t k v) k' = Tab.get d t k' := by rw [Tab.get_set]; simp [h]

theorem Tab.mem_erase {t : Tab α} {k : Nat} {p : Nat × α} (h : p ∈ Tab.erase t k) : p ∈ t ∧ p.1 ≠ k := by
  induction t with
  | nil => simp [Tab.erase] at h
  | cons q t ih =>
    obtain ⟨j, w⟩ := q
    simp only [Tab.erase] at h
    split at h
    · exact ⟨List.mem_cons_of_mem _ (ih h).1, (ih h).2⟩
    · rcases List.mem_cons.mp h with rfl | h
      · exact ⟨List.mem_cons_self, by assumption⟩
      · exact ⟨List.mem_cons_of_mem _ (ih h).1, (ih h).2⟩

theorem Tab.Above.erase {t : Tab α} {lo : Nat} (k : Nat) (h : Tab.Above lo t) : Tab.Above lo (Tab.erase t k) := by
  induction t generalizing lo with
  | nil => trivial
  | cons p t ih =>
    obtain ⟨j, w⟩ := p
    simp only [Tab.erase]
    split
    · exact (ih h.2).mono (Nat.le_succ_of_le h.1)
    · exact ⟨h.1, ih h.2⟩

theorem Tab.Above.insert {t : Tab α} {lo k : Nat} (v : α) (h : Tab.Above lo t) (hk : lo ≤ k)
    (hne : ∀ p ∈ t, p.1 ≠ k) : Tab.Above lo (Tab.insert t k v) := by
  induction t generalizing lo with
  | nil => exact ⟨hk, trivial⟩
  | cons p t ih =>
    obtain ⟨j, w⟩ := p
    have hj : j ≠ k := hne (j, w) List.mem_cons_self
    simp only [Tab.insert]
    split
    · rename_i hlt; exact ⟨hk, hlt, h.2⟩
    · rename_i hge
      exact ⟨h.1, ih h.2 (by omega) fun p hp => hne p (List.mem_cons_of_mem _ hp)⟩

theorem Tab.mem_insert {t : Tab α} {k : Nat} {v : α} {p : Nat × α} (h : p ∈ Tab.insert t k v) : p = (k, v) ∨ p ∈ t := by
  induction t with
  | nil => simp [Tab.insert] at h; exact .inl h
  | cons q t ih =>
    obtain ⟨j, w⟩ := q
    simp only [Tab.insert] at h
    split at h
    · rcases List.mem_cons.mp h with rfl | h
      · exact .inl rfl
      · exact .inr h
    · rcases List.mem_cons.mp h with rfl | h
      · exact .inr List.mem_cons_self
      · rcases ih h with h | h
        · exact .inl h
        · exact .inr (List.mem_cons_of_mem _ h)

/-- A write keeps the canonical form. -/
theorem Tab.wf_set [DecidableEq α] (d : Nat → α) {t : Tab α} (k : Nat) (v : α) (h : Tab.wf d t = true) :
    Tab.wf d (Tab.set d t k v) = true := by
  rw [Tab.wf_iff] at h ⊢
  have hn : Tab.NoDflt d (Tab.erase t k) := fun p hp => h.2 p (Tab.mem_erase hp).1
  unfold Tab.set
  split
  · exact ⟨h.1.erase k, hn⟩
  · rename_i hv
    refine ⟨(h.1.erase k).insert v (Nat.zero_le _) fun p hp => (Tab.mem_erase hp).2, ?_⟩
    intro p hp
    rcases Tab.mem_insert hp with rfl | hp
    · exact hv
    · exact hn p hp

/-- A run of writes keeps the canonical form. -/
theorem Tab.wf_setList [DecidableEq α] (d : Nat → α) (vs : List α) {t : Tab α} (k : Nat) (h : Tab.wf d t = true) :
    Tab.wf d (Tab.setList d t k vs) = true := by
  induction vs generalizing t k with
  | nil => exact h
  | cons v vs ih => exact ih (k + 1) (Tab.wf_set d k v h)

/-- Reading after a run of writes. -/
theorem Tab.get_setList [DecidableEq α] (d : Nat → α) (vs : List α) (t : Tab α) (k a : Nat) :
    Tab.get d (Tab.setList d t k vs) a = if k ≤ a then (vs[a - k]?).getD (Tab.get d t a) else Tab.get d t a := by
  induction vs generalizing t k with
  | nil => simp [Tab.setList]
  | cons v vs ih =>
    rw [Tab.setList, ih, Tab.get_set]
    rcases Nat.lt_trichotomy k a with h | h | h
    · have h1 : k + 1 ≤ a := h
      have h2 : k ≤ a := Nat.le_of_lt h
      obtain ⟨n, rfl⟩ : ∃ n, a = k + 1 + n := ⟨a - (k + 1), by omega⟩
      have : k + 1 + n - k = n + 1 := by omega
      simp [this, show k ≤ k + 1 + n by omega, show ¬ k = k + 1 + n by omega]
    · subst h; simp
    · simp [show ¬ k + 1 ≤ a by omega, show ¬ k ≤ a by omega, show k ≠ a by omega]

theorem Tab.mem_keep {p : Nat → Bool} {t : Tab α} {q : Nat × α} (h : q ∈ Tab.keep p t) : q ∈ t := by
  induction t with
  | nil => simp [Tab.keep] at h
  | cons r t ih =>
    obtain ⟨j, v⟩ := r
    simp only [Tab.keep] at h
    split at h
    · rcases List.mem_cons.mp h with rfl | h
      · exact List.mem_cons_self
      · exact List.mem_cons_of_mem _ (ih h)
    · exact List.mem_cons_of_mem _ (ih h)

theorem Tab.Above.keep {p : Nat → Bool} {t : Tab α} {lo : Nat} (h : Tab.Above lo t) : Tab.Above lo (Tab.keep p t) := by
  induction t generalizing lo with
  | nil => trivial
  | cons r t ih =>
    obtain ⟨j, v⟩ := r
    simp only [Tab.keep]
    split
    · exact ⟨h.1, ih h.2⟩
    · exact (ih h.2).mono (Nat.le_succ_of_le h.1)

/-- Removing entries keeps the canonical form. -/
theorem Tab.wf_keep [DecidableEq α] (d : Nat → α) (p : Nat → Bool) {t : Tab α} (h : Tab.wf d t = true) :
    Tab.wf d (Tab.keep p t) = true := by
  rw [Tab.wf_iff] at h ⊢
  exact ⟨h.1.keep, fun q hq => h.2 q (Tab.mem_keep hq)⟩

/-- What a kept table reads: as before where the test passes, as unlisted elsewhere. -/
theorem Tab.get_keep (d : Nat → α) (p : Nat → Bool) (t : Tab α) (k : Nat) :
    Tab.get d (Tab.keep p t) k = if p k then Tab.get d t k else d k := by
  induction t with
  | nil => simp [Tab.keep]
  | cons r t ih =>
    obtain ⟨j, v⟩ := r
    simp only [Tab.keep, Tab.get]
    by_cases hj : p j = true
    · simp only [hj, if_true, Tab.get, ih]
      split
      · subst j; simp [hj]
      · rfl
    · simp only [hj, Bool.false_eq_true, if_false, ih]
      split
      · rename_i hk; have : j ≠ k := fun e => hj (e ▸ hk); simp [this]
      · rfl

/-- Two tables in canonical form that read alike everywhere are equal. -/
theorem Tab.ext_of_wf [DecidableEq α] (d : Nat → α) {t u : Tab α} (ht : Tab.wf d t = true) (hu : Tab.wf d u = true)
    (h : ∀ k, Tab.get d t k = Tab.get d u k) : t = u := by
  rw [Tab.wf_iff] at ht hu
  suffices key : ∀ (t u : Tab α) (lo : Nat), Tab.Above lo t → Tab.NoDflt d t → Tab.Above lo u → Tab.NoDflt d u →
      (∀ k, lo ≤ k → Tab.get d t k = Tab.get d u k) → t = u from
    key t u 0 ht.1 ht.2 hu.1 hu.2 fun k _ => h k
  have below : ∀ (t : Tab α) (lo k : Nat), Tab.Above lo t → k < lo → Tab.get d t k = d k := by
    intro t
    induction t with
    | nil => intros; rfl
    | cons p t ih =>
      intro lo k ha hk
      have := ha.1
      simp only [Tab.get]
      rw [if_neg (by omega)]
      exact ih _ k ha.2 (by omega)
  intro t
  induction t with
  | nil =>
    intro u lo _ _ hau hnu hg
    cases u with
    | nil => rfl
    | cons q u =>
      have := hg q.1 hau.1
      simp [Tab.get] at this
      exact absurd this.symm (hnu q List.mem_cons_self)
  | cons p t ih =>
    intro u lo hat hnt hau hnu hg
    cases u with
    | nil =>
      have := hg p.1 hat.1
      simp [Tab.get] at this
      exact absurd this (hnt p List.mem_cons_self)
    | cons q u =>
      obtain ⟨j, v⟩ := p
      obtain ⟨k, w⟩ := q
      have hv : v ≠ d j := hnt (j, v) List.mem_cons_self
      have hw : w ≠ d k := hnu (k, w) List.mem_cons_self
      have hjk : j = k := by
        rcases Nat.lt_trichotomy j k with hlt | he | hlt
        · have := hg j hat.1
          simp only [Tab.get, if_true] at this
          rw [if_neg (by omega), below u (k + 1) j hau.2 (by omega)] at this
          exact absurd this hv
        · exact he
        · have := hg k hau.1
          simp only [Tab.get, if_true] at this
          rw [if_neg (by omega), below t (j + 1) k hat.2 (by omega)] at this
          exact absurd this.symm hw
      subst hjk
      have hvw : v = w := by simpa [Tab.get] using hg j hat.1
      subst hvw
      rw [ih u (j + 1) hat.2 (fun p hp => hnt p (List.mem_cons_of_mem _ hp)) hau.2
        (fun p hp => hnu p (List.mem_cons_of_mem _ hp)) fun k hk => by
          have := hg k (by have h1 : lo ≤ j := hat.1; omega)
          simpa only [Tab.get, if_neg (show ¬ j = k by omega)] using this]

end Sys2Proof.Machine
end

