-- ==== Sys2Proof/Laws/Field.lean ====
section
/-!
SUPPORT. Register fields: reading a field after a field has been written, in the same word and in others.
-/

namespace Sys2Proof.Machine

theorem split3 (n lo w : Nat) : n = n % 2 ^ lo + 2 ^ lo * (bitsOf n lo w + 2 ^ w * (n / 2 ^ (lo + w))) := by
  have h1 := Nat.mod_add_div n (2 ^ lo)
  have h2 := Nat.mod_add_div (n / 2 ^ lo) (2 ^ w)
  rw [Nat.div_div_eq_div_mul, ← pow_add] at h2
  unfold bitsOf
  rw [h2, h1]

theorem putBits_eq (n lo w v : Nat) :
    putBits n lo w v = n % 2 ^ lo + 2 ^ lo * (v % 2 ^ w + 2 ^ w * (n / 2 ^ (lo + w))) := by
  have h := split3 n lo w
  unfold putBits
  generalize bitsOf n lo w = b at *
  generalize n % 2 ^ lo = a at *
  generalize n / 2 ^ (lo + w) = c at *
  generalize v % 2 ^ w = u at *
  rw [h]
  have e1 : a + 2 ^ lo * (b + 2 ^ w * c) = a + 2 ^ lo * (2 ^ w * c) + b * 2 ^ lo := by ring
  rw [e1, Nat.add_sub_cancel]
  ring

/-- A field reads what was written to it. -/
theorem bitsOf_putBits (n lo w v : Nat) : bitsOf (putBits n lo w v) lo w = v % 2 ^ w := by
  rw [putBits_eq, bitsOf, Nat.add_mul_div_left _ _ (Nat.two_pow_pos lo),
    Nat.div_eq_of_lt (Nat.mod_lt _ (Nat.two_pow_pos lo)), Nat.zero_add, Nat.add_mul_mod_self_left, Nat.mod_mod]

/-- A field reads as before when another field of the word is written. -/
theorem bitsOf_putBits_ne (n lo w v l2 w2 : Nat) (h : l2 + w2 ≤ lo ∨ lo + w ≤ l2) :
    bitsOf (putBits n lo w v) l2 w2 = bitsOf n l2 w2 := by
  rcases h with h | h
  · have low : ∀ a m : Nat, bitsOf (a + 2 ^ lo * m) l2 w2 = bitsOf a l2 w2 := by
      intro a m
      obtain ⟨k, hk⟩ : ∃ k, lo = l2 + w2 + k := ⟨lo - (l2 + w2), by omega⟩
      unfold bitsOf
      rw [hk, pow_add, pow_add, show 2 ^ l2 * 2 ^ w2 * 2 ^ k * m = 2 ^ l2 * (2 ^ w2 * (2 ^ k * m)) by ring,
        Nat.add_mul_div_left _ _ (Nat.two_pow_pos l2), Nat.add_mul_mod_self_left]
    rw [putBits_eq, low]
    conv => rhs; rw [split3 n lo w, low]
  · have high : ∀ m, bitsOf m l2 w2 = bitsOf (m / 2 ^ (lo + w)) (l2 - (lo + w)) w2 := by
      intro m
      unfold bitsOf
      rw [Nat.div_div_eq_div_mul, ← pow_add, Nat.add_sub_of_le h]
    rw [high, high n]
    congr 1
    rw [putBits_eq, pow_add, ← Nat.div_div_eq_div_mul, Nat.add_mul_div_left _ _ (Nat.two_pow_pos lo),
      Nat.div_eq_of_lt (Nat.mod_lt _ (Nat.two_pow_pos lo)), Nat.zero_add,
      Nat.add_mul_div_left _ _ (Nat.two_pow_pos w), Nat.div_eq_of_lt (Nat.mod_lt _ (Nat.two_pow_pos w)), Nat.zero_add]

theorem putBits_lt (n lo w v : Nat) {k : Nat} (hn : n < 2 ^ k) (h : lo + w ≤ k) : putBits n lo w v < 2 ^ k := by
  rw [putBits_eq]
  obtain ⟨j, rfl⟩ : ∃ j, k = lo + w + j := ⟨k - (lo + w), by omega⟩
  have hc : n / 2 ^ (lo + w) < 2 ^ j := by
    rw [Nat.div_lt_iff_lt_mul (Nat.two_pow_pos _), ← pow_add, Nat.add_comm j]; exact hn
  have ha : n % 2 ^ lo < 2 ^ lo := Nat.mod_lt _ (Nat.two_pow_pos lo)
  have hb : v % 2 ^ w < 2 ^ w := Nat.mod_lt _ (Nat.two_pow_pos w)
  generalize n / 2 ^ (lo + w) = c at *
  generalize n % 2 ^ lo = a at *
  generalize v % 2 ^ w = b at *
  have h1 : b + 2 ^ w * c + 1 ≤ 2 ^ w * 2 ^ j := by nlinarith [Nat.two_pow_pos w]
  have : a + 2 ^ lo * (b + 2 ^ w * c) < 2 ^ lo * (2 ^ w * 2 ^ j) := by nlinarith [Nat.two_pow_pos lo]
  calc _ < _ := this
    _ = _ := by ring

/-! ## Words -/

@[simp] theorem Dev.word_setWord (d : Dev) (a : Nat) (v : Word) : (d.setWord a v).word a = v := by
  simp [Dev.word, Dev.setWord]

theorem Dev.word_setWord_ne (d : Dev) {a b : Nat} (v : Word) (h : a ≠ b) : (d.setWord a v).word b = d.word b := by
  simp only [Dev.word, Dev.setWord]; exact Tab.get_set_ne _ _ _ h

/-- A word after a field of it, or of another word, has been written. -/
theorem Dev.word_put_ne (d : Dev) (f : Fld) (v : Nat) {a : Nat} (h : f.addr ≠ a) : (d.put f v).word a = d.word a :=
  d.word_setWord_ne _ h

/-! ## Fields -/

/-- A field reads what was written to it, as many bits as it has. -/
theorem Dev.get_put (d : Dev) (f : Fld) (v : Nat) (h : f.lo + f.w ≤ 32) : (d.put f v).get f = v % 2 ^ f.w := by
  unfold Dev.get Dev.put
  rw [Dev.word_setWord, BitVec.toNat_ofNat,
    Nat.mod_eq_of_lt (putBits_lt _ _ _ _ (d.word f.addr).isLt h), bitsOf_putBits]

/-- Every field of another word reads as before. -/
theorem Dev.get_put_addr (d : Dev) (f g : Fld) (v : Nat) (h : f.addr ≠ g.addr) : (d.put f v).get g = d.get g := by
  unfold Dev.get; rw [d.word_put_ne f v h]

/-- Every other field of the same word reads as before. -/
theorem Dev.get_put_bits (d : Dev) (f g : Fld) (v : Nat) (hf : f.lo + f.w ≤ 32) (h : g.lo + g.w ≤ f.lo ∨ f.lo + f.w ≤ g.lo) :
    (d.put f v).get g = d.get g := by
  by_cases ha : f.addr = g.addr
  · unfold Dev.get Dev.put
    rw [← ha, Dev.word_setWord, BitVec.toNat_ofNat, Nat.mod_eq_of_lt (putBits_lt _ _ _ _ (d.word f.addr).isLt hf),
      bitsOf_putBits_ne _ _ _ _ _ _ h]
  · exact d.get_put_addr f g v ha

/-- Every other field reads as before. -/
theorem Dev.get_put_ne (d : Dev) (f g : Fld) (v : Nat)
    (h : f.addr ≠ g.addr ∨ (f.lo + f.w ≤ 32 ∧ (g.lo + g.w ≤ f.lo ∨ f.lo + f.w ≤ g.lo))) : (d.put f v).get g = d.get g := by
  rcases h with h | ⟨hf, h⟩
  · exact d.get_put_addr f g v h
  · exact d.get_put_bits f g v hf h

/-- Every other one-bit field reads as before. -/
theorem Dev.is_put_ne (d : Dev) (f g : Fld) (v : Nat)
    (h : f.addr ≠ g.addr ∨ (f.lo + f.w ≤ 32 ∧ (g.lo + g.w ≤ f.lo ∨ f.lo + f.w ≤ g.lo))) : (d.put f v).is g = d.is g := by
  unfold Dev.is; rw [d.get_put_ne f g v h]

/-- Every field but the counter reads as before. -/
theorem Dev.get_bump_ne (d : Dev) (f g : Fld)
    (h : f.addr ≠ g.addr ∨ (f.lo + f.w ≤ 32 ∧ (g.lo + g.w ≤ f.lo ∨ f.lo + f.w ≤ g.lo))) : (d.bump f).get g = d.get g :=
  d.get_put_ne f g _ h

theorem Dev.word_bump_ne (d : Dev) (f : Fld) {a : Nat} (h : f.addr ≠ a) : (d.bump f).word a = d.word a :=
  d.word_put_ne f _ h

/-- A field holds no more than its bits. -/
theorem Dev.get_lt (d : Dev) (f : Fld) : d.get f < 2 ^ f.w := Nat.mod_lt _ (Nat.two_pow_pos _)

/-- A field write touches nothing but the register words. -/
theorem Dev.put_eq (d : Dev) (f : Fld) (v : Nat) : d.put f v = { d with regs := (d.put f v).regs } := rfl

/-- A saturating counter counts up by one below its widest value, and stays there. -/
theorem Dev.get_bump (d : Dev) (f : Fld) (h : f.lo + f.w ≤ 32) : (d.bump f).get f = min (d.get f + 1) (2 ^ f.w - 1) := by
  unfold Dev.bump Dev.addSat satAdd
  rw [Dev.get_put _ _ _ h, Nat.mod_eq_of_lt]
  have := Nat.two_pow_pos f.w
  omega

end Sys2Proof.Machine
end

