-- ==== Sys2Proof/Laws/State.lean ====
section
/-!
SUPPORT. What each named update of the device leaves as it was, field by field, and what a unit reads after it has been set.
-/

namespace Sys2Proof.Machine

/-! ## setWord -/

@[simp] theorem Dev.setWord_tb (d : Dev) (a : Nat) (v : Word) : (d.setWord a v).tb = d.tb := (rfl)
@[simp] theorem Dev.setWord_tbFrac (d : Dev) (a : Nat) (v : Word) : (d.setWord a v).tbFrac = d.tbFrac := (rfl)
@[simp] theorem Dev.setWord_mclk (d : Dev) (a : Nat) (v : Word) : (d.setWord a v).mclk = d.mclk := (rfl)
@[simp] theorem Dev.setWord_freeCtr (d : Dev) (a : Nat) (v : Word) : (d.setWord a v).freeCtr = d.freeCtr := (rfl)
@[simp] theorem Dev.setWord_shadow (d : Dev) (a : Nat) (v : Word) : (d.setWord a v).shadow = d.shadow := (rfl)
@[simp] theorem Dev.setWord_held (d : Dev) (a : Nat) (v : Word) : (d.setWord a v).held = d.held := (rfl)
@[simp] theorem Dev.setWord_edgeOld (d : Dev) (a : Nat) (v : Word) : (d.setWord a v).edgeOld = d.edgeOld := (rfl)
@[simp] theorem Dev.setWord_sram (d : Dev) (a : Nat) (v : Word) : (d.setWord a v).sram = d.sram := (rfl)
@[simp] theorem Dev.setWord_out (d : Dev) (a : Nat) (v : Word) : (d.setWord a v).out = d.out := (rfl)
@[simp] theorem Dev.setWord_host (d : Dev) (a : Nat) (v : Word) : (d.setWord a v).host = d.host := (rfl)
@[simp] theorem Dev.setWord_fcu (d : Dev) (a : Nat) (v : Word) : (d.setWord a v).fcu = d.fcu := (rfl)
@[simp] theorem Dev.setWord_pwr (d : Dev) (a : Nat) (v : Word) : (d.setWord a v).pwr = d.pwr := (rfl)
@[simp] theorem Dev.setWord_clk (d : Dev) (a : Nat) (v : Word) : (d.setWord a v).clk = d.clk := (rfl)
@[simp] theorem Dev.setWord_plls (d : Dev) (a : Nat) (v : Word) : (d.setWord a v).plls = d.plls := (rfl)
@[simp] theorem Dev.setWord_chans (d : Dev) (a : Nat) (v : Word) : (d.setWord a v).chans = d.chans := (rfl)
@[simp] theorem Dev.setWord_dies (d : Dev) (a : Nat) (v : Word) : (d.setWord a v).dies = d.dies := (rfl)
@[simp] theorem Dev.setWord_seqs (d : Dev) (a : Nat) (v : Word) : (d.setWord a v).seqs = d.seqs := (rfl)
@[simp] theorem Dev.setWord_strms (d : Dev) (a : Nat) (v : Word) : (d.setWord a v).strms = d.strms := (rfl)
@[simp] theorem Dev.setWord_trigIn (d : Dev) (a : Nat) (v : Word) : (d.setWord a v).trigIn = d.trigIn := (rfl)
@[simp] theorem Dev.setWord_twin (d : Dev) (a : Nat) (v : Word) : (d.setWord a v).twin = d.twin := (rfl)
@[simp] theorem Dev.setWord_alm (d : Dev) (a : Nat) (v : Word) : (d.setWord a v).alm = d.alm := (rfl)
@[simp] theorem Dev.setWord_tp (d : Dev) (a : Nat) (v : Word) : (d.setWord a v).tp = d.tp := (rfl)
@[simp] theorem Dev.setWord_runs (d : Dev) (a : Nat) (v : Word) : (d.setWord a v).runs = d.runs := (rfl)
@[simp] theorem Dev.setWord_led (d : Dev) (a : Nat) (v : Word) : (d.setWord a v).led = d.led := (rfl)
@[simp] theorem Dev.setWord_aus (d : Dev) (a : Nat) (v : Word) : (d.setWord a v).aus = d.aus := (rfl)
@[simp] theorem Dev.setWord_tmus (d : Dev) (a : Nat) (v : Word) : (d.setWord a v).tmus = d.tmus := (rfl)
@[simp] theorem Dev.setWord_dses (d : Dev) (a : Nat) (v : Word) : (d.setWord a v).dses = d.dses := (rfl)
@[simp] theorem Dev.setWord_jobs (d : Dev) (a : Nat) (v : Word) : (d.setWord a v).jobs = d.jobs := (rfl)
@[simp] theorem Dev.setWord_cal (d : Dev) (a : Nat) (v : Word) : (d.setWord a v).cal = d.cal := (rfl)
@[simp] theorem Dev.setWord_admitAt (d : Dev) (a : Nat) (v : Word) : (d.setWord a v).admitAt = d.admitAt := (rfl)

/-! ## put -/

@[simp] theorem Dev.put_tb (d : Dev) (f : Fld) (v : Nat) : (d.put f v).tb = d.tb := (rfl)
@[simp] theorem Dev.put_tbFrac (d : Dev) (f : Fld) (v : Nat) : (d.put f v).tbFrac = d.tbFrac := (rfl)
@[simp] theorem Dev.put_mclk (d : Dev) (f : Fld) (v : Nat) : (d.put f v).mclk = d.mclk := (rfl)
@[simp] theorem Dev.put_freeCtr (d : Dev) (f : Fld) (v : Nat) : (d.put f v).freeCtr = d.freeCtr := (rfl)
@[simp] theorem Dev.put_shadow (d : Dev) (f : Fld) (v : Nat) : (d.put f v).shadow = d.shadow := (rfl)
@[simp] theorem Dev.put_held (d : Dev) (f : Fld) (v : Nat) : (d.put f v).held = d.held := (rfl)
@[simp] theorem Dev.put_edgeOld (d : Dev) (f : Fld) (v : Nat) : (d.put f v).edgeOld = d.edgeOld := (rfl)
@[simp] theorem Dev.put_sram (d : Dev) (f : Fld) (v : Nat) : (d.put f v).sram = d.sram := (rfl)
@[simp] theorem Dev.put_out (d : Dev) (f : Fld) (v : Nat) : (d.put f v).out = d.out := (rfl)
@[simp] theorem Dev.put_host (d : Dev) (f : Fld) (v : Nat) : (d.put f v).host = d.host := (rfl)
@[simp] theorem Dev.put_fcu (d : Dev) (f : Fld) (v : Nat) : (d.put f v).fcu = d.fcu := (rfl)
@[simp] theorem Dev.put_pwr (d : Dev) (f : Fld) (v : Nat) : (d.put f v).pwr = d.pwr := (rfl)
@[simp] theorem Dev.put_clk (d : Dev) (f : Fld) (v : Nat) : (d.put f v).clk = d.clk := (rfl)
@[simp] theorem Dev.put_plls (d : Dev) (f : Fld) (v : Nat) : (d.put f v).plls = d.plls := (rfl)
@[simp] theorem Dev.put_chans (d : Dev) (f : Fld) (v : Nat) : (d.put f v).chans = d.chans := (rfl)
@[simp] theorem Dev.put_dies (d : Dev) (f : Fld) (v : Nat) : (d.put f v).dies = d.dies := (rfl)
@[simp] theorem Dev.put_seqs (d : Dev) (f : Fld) (v : Nat) : (d.put f v).seqs = d.seqs := (rfl)
@[simp] theorem Dev.put_strms (d : Dev) (f : Fld) (v : Nat) : (d.put f v).strms = d.strms := (rfl)
@[simp] theorem Dev.put_trigIn (d : Dev) (f : Fld) (v : Nat) : (d.put f v).trigIn = d.trigIn := (rfl)
@[simp] theorem Dev.put_twin (d : Dev) (f : Fld) (v : Nat) : (d.put f v).twin = d.twin := (rfl)
@[simp] theorem Dev.put_alm (d : Dev) (f : Fld) (v : Nat) : (d.put f v).alm = d.alm := (rfl)
@[simp] theorem Dev.put_tp (d : Dev) (f : Fld) (v : Nat) : (d.put f v).tp = d.tp := (rfl)
@[simp] theorem Dev.put_runs (d : Dev) (f : Fld) (v : Nat) : (d.put f v).runs = d.runs := (rfl)
@[simp] theorem Dev.put_led (d : Dev) (f : Fld) (v : Nat) : (d.put f v).led = d.led := (rfl)
@[simp] theorem Dev.put_aus (d : Dev) (f : Fld) (v : Nat) : (d.put f v).aus = d.aus := (rfl)
@[simp] theorem Dev.put_tmus (d : Dev) (f : Fld) (v : Nat) : (d.put f v).tmus = d.tmus := (rfl)
@[simp] theorem Dev.put_dses (d : Dev) (f : Fld) (v : Nat) : (d.put f v).dses = d.dses := (rfl)
@[simp] theorem Dev.put_jobs (d : Dev) (f : Fld) (v : Nat) : (d.put f v).jobs = d.jobs := (rfl)
@[simp] theorem Dev.put_cal (d : Dev) (f : Fld) (v : Nat) : (d.put f v).cal = d.cal := (rfl)
@[simp] theorem Dev.put_admitAt (d : Dev) (f : Fld) (v : Nat) : (d.put f v).admitAt = d.admitAt := (rfl)

/-! ## putB -/

@[simp] theorem Dev.putB_tb (d : Dev) (f : Fld) (b : Bool) : (d.putB f b).tb = d.tb := (rfl)
@[simp] theorem Dev.putB_tbFrac (d : Dev) (f : Fld) (b : Bool) : (d.putB f b).tbFrac = d.tbFrac := (rfl)
@[simp] theorem Dev.putB_mclk (d : Dev) (f : Fld) (b : Bool) : (d.putB f b).mclk = d.mclk := (rfl)
@[simp] theorem Dev.putB_freeCtr (d : Dev) (f : Fld) (b : Bool) : (d.putB f b).freeCtr = d.freeCtr := (rfl)
@[simp] theorem Dev.putB_shadow (d : Dev) (f : Fld) (b : Bool) : (d.putB f b).shadow = d.shadow := (rfl)
@[simp] theorem Dev.putB_held (d : Dev) (f : Fld) (b : Bool) : (d.putB f b).held = d.held := (rfl)
@[simp] theorem Dev.putB_edgeOld (d : Dev) (f : Fld) (b : Bool) : (d.putB f b).edgeOld = d.edgeOld := (rfl)
@[simp] theorem Dev.putB_sram (d : Dev) (f : Fld) (b : Bool) : (d.putB f b).sram = d.sram := (rfl)
@[simp] theorem Dev.putB_out (d : Dev) (f : Fld) (b : Bool) : (d.putB f b).out = d.out := (rfl)
@[simp] theorem Dev.putB_host (d : Dev) (f : Fld) (b : Bool) : (d.putB f b).host = d.host := (rfl)
@[simp] theorem Dev.putB_fcu (d : Dev) (f : Fld) (b : Bool) : (d.putB f b).fcu = d.fcu := (rfl)
@[simp] theorem Dev.putB_pwr (d : Dev) (f : Fld) (b : Bool) : (d.putB f b).pwr = d.pwr := (rfl)
@[simp] theorem Dev.putB_clk (d : Dev) (f : Fld) (b : Bool) : (d.putB f b).clk = d.clk := (rfl)
@[simp] theorem Dev.putB_plls (d : Dev) (f : Fld) (b : Bool) : (d.putB f b).plls = d.plls := (rfl)
@[simp] theorem Dev.putB_chans (d : Dev) (f : Fld) (b : Bool) : (d.putB f b).chans = d.chans := (rfl)
@[simp] theorem Dev.putB_dies (d : Dev) (f : Fld) (b : Bool) : (d.putB f b).dies = d.dies := (rfl)
@[simp] theorem Dev.putB_seqs (d : Dev) (f : Fld) (b : Bool) : (d.putB f b).seqs = d.seqs := (rfl)
@[simp] theorem Dev.putB_strms (d : Dev) (f : Fld) (b : Bool) : (d.putB f b).strms = d.strms := (rfl)
@[simp] theorem Dev.putB_trigIn (d : Dev) (f : Fld) (b : Bool) : (d.putB f b).trigIn = d.trigIn := (rfl)
@[simp] theorem Dev.putB_twin (d : Dev) (f : Fld) (b : Bool) : (d.putB f b).twin = d.twin := (rfl)
@[simp] theorem Dev.putB_alm (d : Dev) (f : Fld) (b : Bool) : (d.putB f b).alm = d.alm := (rfl)
@[simp] theorem Dev.putB_tp (d : Dev) (f : Fld) (b : Bool) : (d.putB f b).tp = d.tp := (rfl)
@[simp] theorem Dev.putB_runs (d : Dev) (f : Fld) (b : Bool) : (d.putB f b).runs = d.runs := (rfl)
@[simp] theorem Dev.putB_led (d : Dev) (f : Fld) (b : Bool) : (d.putB f b).led = d.led := (rfl)
@[simp] theorem Dev.putB_aus (d : Dev) (f : Fld) (b : Bool) : (d.putB f b).aus = d.aus := (rfl)
@[simp] theorem Dev.putB_tmus (d : Dev) (f : Fld) (b : Bool) : (d.putB f b).tmus = d.tmus := (rfl)
@[simp] theorem Dev.putB_dses (d : Dev) (f : Fld) (b : Bool) : (d.putB f b).dses = d.dses := (rfl)
@[simp] theorem Dev.putB_jobs (d : Dev) (f : Fld) (b : Bool) : (d.putB f b).jobs = d.jobs := (rfl)
@[simp] theorem Dev.putB_cal (d : Dev) (f : Fld) (b : Bool) : (d.putB f b).cal = d.cal := (rfl)
@[simp] theorem Dev.putB_admitAt (d : Dev) (f : Fld) (b : Bool) : (d.putB f b).admitAt = d.admitAt := (rfl)

/-! ## put2 -/

@[simp] theorem Dev.put2_tb (d : Dev) (lo hi : Fld) (v : Nat) : (d.put2 lo hi v).tb = d.tb := (rfl)
@[simp] theorem Dev.put2_tbFrac (d : Dev) (lo hi : Fld) (v : Nat) : (d.put2 lo hi v).tbFrac = d.tbFrac := (rfl)
@[simp] theorem Dev.put2_mclk (d : Dev) (lo hi : Fld) (v : Nat) : (d.put2 lo hi v).mclk = d.mclk := (rfl)
@[simp] theorem Dev.put2_freeCtr (d : Dev) (lo hi : Fld) (v : Nat) : (d.put2 lo hi v).freeCtr = d.freeCtr := (rfl)
@[simp] theorem Dev.put2_shadow (d : Dev) (lo hi : Fld) (v : Nat) : (d.put2 lo hi v).shadow = d.shadow := (rfl)
@[simp] theorem Dev.put2_held (d : Dev) (lo hi : Fld) (v : Nat) : (d.put2 lo hi v).held = d.held := (rfl)
@[simp] theorem Dev.put2_edgeOld (d : Dev) (lo hi : Fld) (v : Nat) : (d.put2 lo hi v).edgeOld = d.edgeOld := (rfl)
@[simp] theorem Dev.put2_sram (d : Dev) (lo hi : Fld) (v : Nat) : (d.put2 lo hi v).sram = d.sram := (rfl)
@[simp] theorem Dev.put2_out (d : Dev) (lo hi : Fld) (v : Nat) : (d.put2 lo hi v).out = d.out := (rfl)
@[simp] theorem Dev.put2_host (d : Dev) (lo hi : Fld) (v : Nat) : (d.put2 lo hi v).host = d.host := (rfl)
@[simp] theorem Dev.put2_fcu (d : Dev) (lo hi : Fld) (v : Nat) : (d.put2 lo hi v).fcu = d.fcu := (rfl)
@[simp] theorem Dev.put2_pwr (d : Dev) (lo hi : Fld) (v : Nat) : (d.put2 lo hi v).pwr = d.pwr := (rfl)
@[simp] theorem Dev.put2_clk (d : Dev) (lo hi : Fld) (v : Nat) : (d.put2 lo hi v).clk = d.clk := (rfl)
@[simp] theorem Dev.put2_plls (d : Dev) (lo hi : Fld) (v : Nat) : (d.put2 lo hi v).plls = d.plls := (rfl)
@[simp] theorem Dev.put2_chans (d : Dev) (lo hi : Fld) (v : Nat) : (d.put2 lo hi v).chans = d.chans := (rfl)
@[simp] theorem Dev.put2_dies (d : Dev) (lo hi : Fld) (v : Nat) : (d.put2 lo hi v).dies = d.dies := (rfl)
@[simp] theorem Dev.put2_seqs (d : Dev) (lo hi : Fld) (v : Nat) : (d.put2 lo hi v).seqs = d.seqs := (rfl)
@[simp] theorem Dev.put2_strms (d : Dev) (lo hi : Fld) (v : Nat) : (d.put2 lo hi v).strms = d.strms := (rfl)
@[simp] theorem Dev.put2_trigIn (d : Dev) (lo hi : Fld) (v : Nat) : (d.put2 lo hi v).trigIn = d.trigIn := (rfl)
@[simp] theorem Dev.put2_twin (d : Dev) (lo hi : Fld) (v : Nat) : (d.put2 lo hi v).twin = d.twin := (rfl)
@[simp] theorem Dev.put2_alm (d : Dev) (lo hi : Fld) (v : Nat) : (d.put2 lo hi v).alm = d.alm := (rfl)
@[simp] theorem Dev.put2_tp (d : Dev) (lo hi : Fld) (v : Nat) : (d.put2 lo hi v).tp = d.tp := (rfl)
@[simp] theorem Dev.put2_runs (d : Dev) (lo hi : Fld) (v : Nat) : (d.put2 lo hi v).runs = d.runs := (rfl)
@[simp] theorem Dev.put2_led (d : Dev) (lo hi : Fld) (v : Nat) : (d.put2 lo hi v).led = d.led := (rfl)
@[simp] theorem Dev.put2_aus (d : Dev) (lo hi : Fld) (v : Nat) : (d.put2 lo hi v).aus = d.aus := (rfl)
@[simp] theorem Dev.put2_tmus (d : Dev) (lo hi : Fld) (v : Nat) : (d.put2 lo hi v).tmus = d.tmus := (rfl)
@[simp] theorem Dev.put2_dses (d : Dev) (lo hi : Fld) (v : Nat) : (d.put2 lo hi v).dses = d.dses := (rfl)
@[simp] theorem Dev.put2_jobs (d : Dev) (lo hi : Fld) (v : Nat) : (d.put2 lo hi v).jobs = d.jobs := (rfl)
@[simp] theorem Dev.put2_cal (d : Dev) (lo hi : Fld) (v : Nat) : (d.put2 lo hi v).cal = d.cal := (rfl)
@[simp] theorem Dev.put2_admitAt (d : Dev) (lo hi : Fld) (v : Nat) : (d.put2 lo hi v).admitAt = d.admitAt := (rfl)

/-! ## addSat -/

@[simp] theorem Dev.addSat_tb (d : Dev) (f : Fld) (n : Nat) : (d.addSat f n).tb = d.tb := (rfl)
@[simp] theorem Dev.addSat_tbFrac (d : Dev) (f : Fld) (n : Nat) : (d.addSat f n).tbFrac = d.tbFrac := (rfl)
@[simp] theorem Dev.addSat_mclk (d : Dev) (f : Fld) (n : Nat) : (d.addSat f n).mclk = d.mclk := (rfl)
@[simp] theorem Dev.addSat_freeCtr (d : Dev) (f : Fld) (n : Nat) : (d.addSat f n).freeCtr = d.freeCtr := (rfl)
@[simp] theorem Dev.addSat_shadow (d : Dev) (f : Fld) (n : Nat) : (d.addSat f n).shadow = d.shadow := (rfl)
@[simp] theorem Dev.addSat_held (d : Dev) (f : Fld) (n : Nat) : (d.addSat f n).held = d.held := (rfl)
@[simp] theorem Dev.addSat_edgeOld (d : Dev) (f : Fld) (n : Nat) : (d.addSat f n).edgeOld = d.edgeOld := (rfl)
@[simp] theorem Dev.addSat_sram (d : Dev) (f : Fld) (n : Nat) : (d.addSat f n).sram = d.sram := (rfl)
@[simp] theorem Dev.addSat_out (d : Dev) (f : Fld) (n : Nat) : (d.addSat f n).out = d.out := (rfl)
@[simp] theorem Dev.addSat_host (d : Dev) (f : Fld) (n : Nat) : (d.addSat f n).host = d.host := (rfl)
@[simp] theorem Dev.addSat_fcu (d : Dev) (f : Fld) (n : Nat) : (d.addSat f n).fcu = d.fcu := (rfl)
@[simp] theorem Dev.addSat_pwr (d : Dev) (f : Fld) (n : Nat) : (d.addSat f n).pwr = d.pwr := (rfl)
@[simp] theorem Dev.addSat_clk (d : Dev) (f : Fld) (n : Nat) : (d.addSat f n).clk = d.clk := (rfl)
@[simp] theorem Dev.addSat_plls (d : Dev) (f : Fld) (n : Nat) : (d.addSat f n).plls = d.plls := (rfl)
@[simp] theorem Dev.addSat_chans (d : Dev) (f : Fld) (n : Nat) : (d.addSat f n).chans = d.chans := (rfl)
@[simp] theorem Dev.addSat_dies (d : Dev) (f : Fld) (n : Nat) : (d.addSat f n).dies = d.dies := (rfl)
@[simp] theorem Dev.addSat_seqs (d : Dev) (f : Fld) (n : Nat) : (d.addSat f n).seqs = d.seqs := (rfl)
@[simp] theorem Dev.addSat_strms (d : Dev) (f : Fld) (n : Nat) : (d.addSat f n).strms = d.strms := (rfl)
@[simp] theorem Dev.addSat_trigIn (d : Dev) (f : Fld) (n : Nat) : (d.addSat f n).trigIn = d.trigIn := (rfl)
@[simp] theorem Dev.addSat_twin (d : Dev) (f : Fld) (n : Nat) : (d.addSat f n).twin = d.twin := (rfl)
@[simp] theorem Dev.addSat_alm (d : Dev) (f : Fld) (n : Nat) : (d.addSat f n).alm = d.alm := (rfl)
@[simp] theorem Dev.addSat_tp (d : Dev) (f : Fld) (n : Nat) : (d.addSat f n).tp = d.tp := (rfl)
@[simp] theorem Dev.addSat_runs (d : Dev) (f : Fld) (n : Nat) : (d.addSat f n).runs = d.runs := (rfl)
@[simp] theorem Dev.addSat_led (d : Dev) (f : Fld) (n : Nat) : (d.addSat f n).led = d.led := (rfl)
@[simp] theorem Dev.addSat_aus (d : Dev) (f : Fld) (n : Nat) : (d.addSat f n).aus = d.aus := (rfl)
@[simp] theorem Dev.addSat_tmus (d : Dev) (f : Fld) (n : Nat) : (d.addSat f n).tmus = d.tmus := (rfl)
@[simp] theorem Dev.addSat_dses (d : Dev) (f : Fld) (n : Nat) : (d.addSat f n).dses = d.dses := (rfl)
@[simp] theorem Dev.addSat_jobs (d : Dev) (f : Fld) (n : Nat) : (d.addSat f n).jobs = d.jobs := (rfl)
@[simp] theorem Dev.addSat_cal (d : Dev) (f : Fld) (n : Nat) : (d.addSat f n).cal = d.cal := (rfl)
@[simp] theorem Dev.addSat_admitAt (d : Dev) (f : Fld) (n : Nat) : (d.addSat f n).admitAt = d.admitAt := (rfl)

/-! ## bump -/

@[simp] theorem Dev.bump_tb (d : Dev) (f : Fld) : (d.bump f).tb = d.tb := (rfl)
@[simp] theorem Dev.bump_tbFrac (d : Dev) (f : Fld) : (d.bump f).tbFrac = d.tbFrac := (rfl)
@[simp] theorem Dev.bump_mclk (d : Dev) (f : Fld) : (d.bump f).mclk = d.mclk := (rfl)
@[simp] theorem Dev.bump_freeCtr (d : Dev) (f : Fld) : (d.bump f).freeCtr = d.freeCtr := (rfl)
@[simp] theorem Dev.bump_shadow (d : Dev) (f : Fld) : (d.bump f).shadow = d.shadow := (rfl)
@[simp] theorem Dev.bump_held (d : Dev) (f : Fld) : (d.bump f).held = d.held := (rfl)
@[simp] theorem Dev.bump_edgeOld (d : Dev) (f : Fld) : (d.bump f).edgeOld = d.edgeOld := (rfl)
@[simp] theorem Dev.bump_sram (d : Dev) (f : Fld) : (d.bump f).sram = d.sram := (rfl)
@[simp] theorem Dev.bump_out (d : Dev) (f : Fld) : (d.bump f).out = d.out := (rfl)
@[simp] theorem Dev.bump_host (d : Dev) (f : Fld) : (d.bump f).host = d.host := (rfl)
@[simp] theorem Dev.bump_fcu (d : Dev) (f : Fld) : (d.bump f).fcu = d.fcu := (rfl)
@[simp] theorem Dev.bump_pwr (d : Dev) (f : Fld) : (d.bump f).pwr = d.pwr := (rfl)
@[simp] theorem Dev.bump_clk (d : Dev) (f : Fld) : (d.bump f).clk = d.clk := (rfl)
@[simp] theorem Dev.bump_plls (d : Dev) (f : Fld) : (d.bump f).plls = d.plls := (rfl)
@[simp] theorem Dev.bump_chans (d : Dev) (f : Fld) : (d.bump f).chans = d.chans := (rfl)
@[simp] theorem Dev.bump_dies (d : Dev) (f : Fld) : (d.bump f).dies = d.dies := (rfl)
@[simp] theorem Dev.bump_seqs (d : Dev) (f : Fld) : (d.bump f).seqs = d.seqs := (rfl)
@[simp] theorem Dev.bump_strms (d : Dev) (f : Fld) : (d.bump f).strms = d.strms := (rfl)
@[simp] theorem Dev.bump_trigIn (d : Dev) (f : Fld) : (d.bump f).trigIn = d.trigIn := (rfl)
@[simp] theorem Dev.bump_twin (d : Dev) (f : Fld) : (d.bump f).twin = d.twin := (rfl)
@[simp] theorem Dev.bump_alm (d : Dev) (f : Fld) : (d.bump f).alm = d.alm := (rfl)
@[simp] theorem Dev.bump_tp (d : Dev) (f : Fld) : (d.bump f).tp = d.tp := (rfl)
@[simp] theorem Dev.bump_runs (d : Dev) (f : Fld) : (d.bump f).runs = d.runs := (rfl)
@[simp] theorem Dev.bump_led (d : Dev) (f : Fld) : (d.bump f).led = d.led := (rfl)
@[simp] theorem Dev.bump_aus (d : Dev) (f : Fld) : (d.bump f).aus = d.aus := (rfl)
@[simp] theorem Dev.bump_tmus (d : Dev) (f : Fld) : (d.bump f).tmus = d.tmus := (rfl)
@[simp] theorem Dev.bump_dses (d : Dev) (f : Fld) : (d.bump f).dses = d.dses := (rfl)
@[simp] theorem Dev.bump_jobs (d : Dev) (f : Fld) : (d.bump f).jobs = d.jobs := (rfl)
@[simp] theorem Dev.bump_cal (d : Dev) (f : Fld) : (d.bump f).cal = d.cal := (rfl)
@[simp] theorem Dev.bump_admitAt (d : Dev) (f : Fld) : (d.bump f).admitAt = d.admitAt := (rfl)

/-! ## stBytes -/

@[simp] theorem Dev.stBytes_tb (d : Dev) (a : Nat) (bs : List Byte) : (d.stBytes a bs).tb = d.tb := (rfl)
@[simp] theorem Dev.stBytes_tbFrac (d : Dev) (a : Nat) (bs : List Byte) : (d.stBytes a bs).tbFrac = d.tbFrac := (rfl)
@[simp] theorem Dev.stBytes_mclk (d : Dev) (a : Nat) (bs : List Byte) : (d.stBytes a bs).mclk = d.mclk := (rfl)
@[simp] theorem Dev.stBytes_freeCtr (d : Dev) (a : Nat) (bs : List Byte) : (d.stBytes a bs).freeCtr = d.freeCtr := (rfl)
@[simp] theorem Dev.stBytes_regs (d : Dev) (a : Nat) (bs : List Byte) : (d.stBytes a bs).regs = d.regs := (rfl)
@[simp] theorem Dev.stBytes_shadow (d : Dev) (a : Nat) (bs : List Byte) : (d.stBytes a bs).shadow = d.shadow := (rfl)
@[simp] theorem Dev.stBytes_held (d : Dev) (a : Nat) (bs : List Byte) : (d.stBytes a bs).held = d.held := (rfl)
@[simp] theorem Dev.stBytes_edgeOld (d : Dev) (a : Nat) (bs : List Byte) : (d.stBytes a bs).edgeOld = d.edgeOld := (rfl)
@[simp] theorem Dev.stBytes_out (d : Dev) (a : Nat) (bs : List Byte) : (d.stBytes a bs).out = d.out := (rfl)
@[simp] theorem Dev.stBytes_host (d : Dev) (a : Nat) (bs : List Byte) : (d.stBytes a bs).host = d.host := (rfl)
@[simp] theorem Dev.stBytes_fcu (d : Dev) (a : Nat) (bs : List Byte) : (d.stBytes a bs).fcu = d.fcu := (rfl)
@[simp] theorem Dev.stBytes_pwr (d : Dev) (a : Nat) (bs : List Byte) : (d.stBytes a bs).pwr = d.pwr := (rfl)
@[simp] theorem Dev.stBytes_clk (d : Dev) (a : Nat) (bs : List Byte) : (d.stBytes a bs).clk = d.clk := (rfl)
@[simp] theorem Dev.stBytes_plls (d : Dev) (a : Nat) (bs : List Byte) : (d.stBytes a bs).plls = d.plls := (rfl)
@[simp] theorem Dev.stBytes_chans (d : Dev) (a : Nat) (bs : List Byte) : (d.stBytes a bs).chans = d.chans := (rfl)
@[simp] theorem Dev.stBytes_dies (d : Dev) (a : Nat) (bs : List Byte) : (d.stBytes a bs).dies = d.dies := (rfl)
@[simp] theorem Dev.stBytes_seqs (d : Dev) (a : Nat) (bs : List Byte) : (d.stBytes a bs).seqs = d.seqs := (rfl)
@[simp] theorem Dev.stBytes_strms (d : Dev) (a : Nat) (bs : List Byte) : (d.stBytes a bs).strms = d.strms := (rfl)
@[simp] theorem Dev.stBytes_trigIn (d : Dev) (a : Nat) (bs : List Byte) : (d.stBytes a bs).trigIn = d.trigIn := (rfl)
@[simp] theorem Dev.stBytes_twin (d : Dev) (a : Nat) (bs : List Byte) : (d.stBytes a bs).twin = d.twin := (rfl)
@[simp] theorem Dev.stBytes_alm (d : Dev) (a : Nat) (bs : List Byte) : (d.stBytes a bs).alm = d.alm := (rfl)
@[simp] theorem Dev.stBytes_tp (d : Dev) (a : Nat) (bs : List Byte) : (d.stBytes a bs).tp = d.tp := (rfl)
@[simp] theorem Dev.stBytes_runs (d : Dev) (a : Nat) (bs : List Byte) : (d.stBytes a bs).runs = d.runs := (rfl)
@[simp] theorem Dev.stBytes_led (d : Dev) (a : Nat) (bs : List Byte) : (d.stBytes a bs).led = d.led := (rfl)
@[simp] theorem Dev.stBytes_aus (d : Dev) (a : Nat) (bs : List Byte) : (d.stBytes a bs).aus = d.aus := (rfl)
@[simp] theorem Dev.stBytes_tmus (d : Dev) (a : Nat) (bs : List Byte) : (d.stBytes a bs).tmus = d.tmus := (rfl)
@[simp] theorem Dev.stBytes_dses (d : Dev) (a : Nat) (bs : List Byte) : (d.stBytes a bs).dses = d.dses := (rfl)
@[simp] theorem Dev.stBytes_jobs (d : Dev) (a : Nat) (bs : List Byte) : (d.stBytes a bs).jobs = d.jobs := (rfl)
@[simp] theorem Dev.stBytes_cal (d : Dev) (a : Nat) (bs : List Byte) : (d.stBytes a bs).cal = d.cal := (rfl)
@[simp] theorem Dev.stBytes_admitAt (d : Dev) (a : Nat) (bs : List Byte) : (d.stBytes a bs).admitAt = d.admitAt := (rfl)
@[simp] theorem Dev.word_stBytes (d : Dev) (a : Nat) (bs : List Byte) (z : Nat) : (d.stBytes a bs).word z = d.word z := (rfl)
@[simp] theorem Dev.get_stBytes (d : Dev) (a : Nat) (bs : List Byte) (z : Fld) : (d.stBytes a bs).get z = d.get z := (rfl)
@[simp] theorem Dev.is_stBytes (d : Dev) (a : Nat) (bs : List Byte) (z : Fld) : (d.stBytes a bs).is z = d.is z := (rfl)

/-! ## setChan -/

@[simp] theorem Dev.setChan_tb (d : Dev) (c : Nat) (x : Chan) : (d.setChan c x).tb = d.tb := (rfl)
@[simp] theorem Dev.setChan_tbFrac (d : Dev) (c : Nat) (x : Chan) : (d.setChan c x).tbFrac = d.tbFrac := (rfl)
@[simp] theorem Dev.setChan_mclk (d : Dev) (c : Nat) (x : Chan) : (d.setChan c x).mclk = d.mclk := (rfl)
@[simp] theorem Dev.setChan_freeCtr (d : Dev) (c : Nat) (x : Chan) : (d.setChan c x).freeCtr = d.freeCtr := (rfl)
@[simp] theorem Dev.setChan_regs (d : Dev) (c : Nat) (x : Chan) : (d.setChan c x).regs = d.regs := (rfl)
@[simp] theorem Dev.setChan_shadow (d : Dev) (c : Nat) (x : Chan) : (d.setChan c x).shadow = d.shadow := (rfl)
@[simp] theorem Dev.setChan_held (d : Dev) (c : Nat) (x : Chan) : (d.setChan c x).held = d.held := (rfl)
@[simp] theorem Dev.setChan_edgeOld (d : Dev) (c : Nat) (x : Chan) : (d.setChan c x).edgeOld = d.edgeOld := (rfl)
@[simp] theorem Dev.setChan_sram (d : Dev) (c : Nat) (x : Chan) : (d.setChan c x).sram = d.sram := (rfl)
@[simp] theorem Dev.setChan_out (d : Dev) (c : Nat) (x : Chan) : (d.setChan c x).out = d.out := (rfl)
@[simp] theorem Dev.setChan_host (d : Dev) (c : Nat) (x : Chan) : (d.setChan c x).host = d.host := (rfl)
@[simp] theorem Dev.setChan_fcu (d : Dev) (c : Nat) (x : Chan) : (d.setChan c x).fcu = d.fcu := (rfl)
@[simp] theorem Dev.setChan_pwr (d : Dev) (c : Nat) (x : Chan) : (d.setChan c x).pwr = d.pwr := (rfl)
@[simp] theorem Dev.setChan_clk (d : Dev) (c : Nat) (x : Chan) : (d.setChan c x).clk = d.clk := (rfl)
@[simp] theorem Dev.setChan_plls (d : Dev) (c : Nat) (x : Chan) : (d.setChan c x).plls = d.plls := (rfl)
@[simp] theorem Dev.setChan_dies (d : Dev) (c : Nat) (x : Chan) : (d.setChan c x).dies = d.dies := (rfl)
@[simp] theorem Dev.setChan_seqs (d : Dev) (c : Nat) (x : Chan) : (d.setChan c x).seqs = d.seqs := (rfl)
@[simp] theorem Dev.setChan_strms (d : Dev) (c : Nat) (x : Chan) : (d.setChan c x).strms = d.strms := (rfl)
@[simp] theorem Dev.setChan_trigIn (d : Dev) (c : Nat) (x : Chan) : (d.setChan c x).trigIn = d.trigIn := (rfl)
@[simp] theorem Dev.setChan_twin (d : Dev) (c : Nat) (x : Chan) : (d.setChan c x).twin = d.twin := (rfl)
@[simp] theorem Dev.setChan_alm (d : Dev) (c : Nat) (x : Chan) : (d.setChan c x).alm = d.alm := (rfl)
@[simp] theorem Dev.setChan_tp (d : Dev) (c : Nat) (x : Chan) : (d.setChan c x).tp = d.tp := (rfl)
@[simp] theorem Dev.setChan_runs (d : Dev) (c : Nat) (x : Chan) : (d.setChan c x).runs = d.runs := (rfl)
@[simp] theorem Dev.setChan_led (d : Dev) (c : Nat) (x : Chan) : (d.setChan c x).led = d.led := (rfl)
@[simp] theorem Dev.setChan_aus (d : Dev) (c : Nat) (x : Chan) : (d.setChan c x).aus = d.aus := (rfl)
@[simp] theorem Dev.setChan_tmus (d : Dev) (c : Nat) (x : Chan) : (d.setChan c x).tmus = d.tmus := (rfl)
@[simp] theorem Dev.setChan_dses (d : Dev) (c : Nat) (x : Chan) : (d.setChan c x).dses = d.dses := (rfl)
@[simp] theorem Dev.setChan_jobs (d : Dev) (c : Nat) (x : Chan) : (d.setChan c x).jobs = d.jobs := (rfl)
@[simp] theorem Dev.setChan_cal (d : Dev) (c : Nat) (x : Chan) : (d.setChan c x).cal = d.cal := (rfl)
@[simp] theorem Dev.setChan_admitAt (d : Dev) (c : Nat) (x : Chan) : (d.setChan c x).admitAt = d.admitAt := (rfl)
@[simp] theorem Dev.word_setChan (d : Dev) (c : Nat) (x : Chan) (z : Nat) : (d.setChan c x).word z = d.word z := (rfl)
@[simp] theorem Dev.get_setChan (d : Dev) (c : Nat) (x : Chan) (z : Fld) : (d.setChan c x).get z = d.get z := (rfl)
@[simp] theorem Dev.is_setChan (d : Dev) (c : Nat) (x : Chan) (z : Fld) : (d.setChan c x).is z = d.is z := (rfl)

/-! ## setDie -/

@[simp] theorem Dev.setDie_tb (d : Dev) (e : Nat) (x : Die) : (d.setDie e x).tb = d.tb := (rfl)
@[simp] theorem Dev.setDie_tbFrac (d : Dev) (e : Nat) (x : Die) : (d.setDie e x).tbFrac = d.tbFrac := (rfl)
@[simp] theorem Dev.setDie_mclk (d : Dev) (e : Nat) (x : Die) : (d.setDie e x).mclk = d.mclk := (rfl)
@[simp] theorem Dev.setDie_freeCtr (d : Dev) (e : Nat) (x : Die) : (d.setDie e x).freeCtr = d.freeCtr := (rfl)
@[simp] theorem Dev.setDie_regs (d : Dev) (e : Nat) (x : Die) : (d.setDie e x).regs = d.regs := (rfl)
@[simp] theorem Dev.setDie_shadow (d : Dev) (e : Nat) (x : Die) : (d.setDie e x).shadow = d.shadow := (rfl)
@[simp] theorem Dev.setDie_held (d : Dev) (e : Nat) (x : Die) : (d.setDie e x).held = d.held := (rfl)
@[simp] theorem Dev.setDie_edgeOld (d : Dev) (e : Nat) (x : Die) : (d.setDie e x).edgeOld = d.edgeOld := (rfl)
@[simp] theorem Dev.setDie_sram (d : Dev) (e : Nat) (x : Die) : (d.setDie e x).sram = d.sram := (rfl)
@[simp] theorem Dev.setDie_out (d : Dev) (e : Nat) (x : Die) : (d.setDie e x).out = d.out := (rfl)
@[simp] theorem Dev.setDie_host (d : Dev) (e : Nat) (x : Die) : (d.setDie e x).host = d.host := (rfl)
@[simp] theorem Dev.setDie_fcu (d : Dev) (e : Nat) (x : Die) : (d.setDie e x).fcu = d.fcu := (rfl)
@[simp] theorem Dev.setDie_pwr (d : Dev) (e : Nat) (x : Die) : (d.setDie e x).pwr = d.pwr := (rfl)
@[simp] theorem Dev.setDie_clk (d : Dev) (e : Nat) (x : Die) : (d.setDie e x).clk = d.clk := (rfl)
@[simp] theorem Dev.setDie_plls (d : Dev) (e : Nat) (x : Die) : (d.setDie e x).plls = d.plls := (rfl)
@[simp] theorem Dev.setDie_chans (d : Dev) (e : Nat) (x : Die) : (d.setDie e x).chans = d.chans := (rfl)
@[simp] theorem Dev.setDie_seqs (d : Dev) (e : Nat) (x : Die) : (d.setDie e x).seqs = d.seqs := (rfl)
@[simp] theorem Dev.setDie_strms (d : Dev) (e : Nat) (x : Die) : (d.setDie e x).strms = d.strms := (rfl)
@[simp] theorem Dev.setDie_trigIn (d : Dev) (e : Nat) (x : Die) : (d.setDie e x).trigIn = d.trigIn := (rfl)
@[simp] theorem Dev.setDie_twin (d : Dev) (e : Nat) (x : Die) : (d.setDie e x).twin = d.twin := (rfl)
@[simp] theorem Dev.setDie_alm (d : Dev) (e : Nat) (x : Die) : (d.setDie e x).alm = d.alm := (rfl)
@[simp] theorem Dev.setDie_tp (d : Dev) (e : Nat) (x : Die) : (d.setDie e x).tp = d.tp := (rfl)
@[simp] theorem Dev.setDie_runs (d : Dev) (e : Nat) (x : Die) : (d.setDie e x).runs = d.runs := (rfl)
@[simp] theorem Dev.setDie_led (d : Dev) (e : Nat) (x : Die) : (d.setDie e x).led = d.led := (rfl)
@[simp] theorem Dev.setDie_aus (d : Dev) (e : Nat) (x : Die) : (d.setDie e x).aus = d.aus := (rfl)
@[simp] theorem Dev.setDie_tmus (d : Dev) (e : Nat) (x : Die) : (d.setDie e x).tmus = d.tmus := (rfl)
@[simp] theorem Dev.setDie_dses (d : Dev) (e : Nat) (x : Die) : (d.setDie e x).dses = d.dses := (rfl)
@[simp] theorem Dev.setDie_jobs (d : Dev) (e : Nat) (x : Die) : (d.setDie e x).jobs = d.jobs := (rfl)
@[simp] theorem Dev.setDie_cal (d : Dev) (e : Nat) (x : Die) : (d.setDie e x).cal = d.cal := (rfl)
@[simp] theorem Dev.setDie_admitAt (d : Dev) (e : Nat) (x : Die) : (d.setDie e x).admitAt = d.admitAt := (rfl)
@[simp] theorem Dev.word_setDie (d : Dev) (e : Nat) (x : Die) (z : Nat) : (d.setDie e x).word z = d.word z := (rfl)
@[simp] theorem Dev.get_setDie (d : Dev) (e : Nat) (x : Die) (z : Fld) : (d.setDie e x).get z = d.get z := (rfl)
@[simp] theorem Dev.is_setDie (d : Dev) (e : Nat) (x : Die) (z : Fld) : (d.setDie e x).is z = d.is z := (rfl)

/-! ## setPll -/

@[simp] theorem Dev.setPll_tb (d : Dev) (p : Nat) (x : PllSt) : (d.setPll p x).tb = d.tb := (rfl)
@[simp] theorem Dev.setPll_tbFrac (d : Dev) (p : Nat) (x : PllSt) : (d.setPll p x).tbFrac = d.tbFrac := (rfl)
@[simp] theorem Dev.setPll_mclk (d : Dev) (p : Nat) (x : PllSt) : (d.setPll p x).mclk = d.mclk := (rfl)
@[simp] theorem Dev.setPll_freeCtr (d : Dev) (p : Nat) (x : PllSt) : (d.setPll p x).freeCtr = d.freeCtr := (rfl)
@[simp] theorem Dev.setPll_regs (d : Dev) (p : Nat) (x : PllSt) : (d.setPll p x).regs = d.regs := (rfl)
@[simp] theorem Dev.setPll_shadow (d : Dev) (p : Nat) (x : PllSt) : (d.setPll p x).shadow = d.shadow := (rfl)
@[simp] theorem Dev.setPll_held (d : Dev) (p : Nat) (x : PllSt) : (d.setPll p x).held = d.held := (rfl)
@[simp] theorem Dev.setPll_edgeOld (d : Dev) (p : Nat) (x : PllSt) : (d.setPll p x).edgeOld = d.edgeOld := (rfl)
@[simp] theorem Dev.setPll_sram (d : Dev) (p : Nat) (x : PllSt) : (d.setPll p x).sram = d.sram := (rfl)
@[simp] theorem Dev.setPll_out (d : Dev) (p : Nat) (x : PllSt) : (d.setPll p x).out = d.out := (rfl)
@[simp] theorem Dev.setPll_host (d : Dev) (p : Nat) (x : PllSt) : (d.setPll p x).host = d.host := (rfl)
@[simp] theorem Dev.setPll_fcu (d : Dev) (p : Nat) (x : PllSt) : (d.setPll p x).fcu = d.fcu := (rfl)
@[simp] theorem Dev.setPll_pwr (d : Dev) (p : Nat) (x : PllSt) : (d.setPll p x).pwr = d.pwr := (rfl)
@[simp] theorem Dev.setPll_clk (d : Dev) (p : Nat) (x : PllSt) : (d.setPll p x).clk = d.clk := (rfl)
@[simp] theorem Dev.setPll_chans (d : Dev) (p : Nat) (x : PllSt) : (d.setPll p x).chans = d.chans := (rfl)
@[simp] theorem Dev.setPll_dies (d : Dev) (p : Nat) (x : PllSt) : (d.setPll p x).dies = d.dies := (rfl)
@[simp] theorem Dev.setPll_seqs (d : Dev) (p : Nat) (x : PllSt) : (d.setPll p x).seqs = d.seqs := (rfl)
@[simp] theorem Dev.setPll_strms (d : Dev) (p : Nat) (x : PllSt) : (d.setPll p x).strms = d.strms := (rfl)
@[simp] theorem Dev.setPll_trigIn (d : Dev) (p : Nat) (x : PllSt) : (d.setPll p x).trigIn = d.trigIn := (rfl)
@[simp] theorem Dev.setPll_twin (d : Dev) (p : Nat) (x : PllSt) : (d.setPll p x).twin = d.twin := (rfl)
@[simp] theorem Dev.setPll_alm (d : Dev) (p : Nat) (x : PllSt) : (d.setPll p x).alm = d.alm := (rfl)
@[simp] theorem Dev.setPll_tp (d : Dev) (p : Nat) (x : PllSt) : (d.setPll p x).tp = d.tp := (rfl)
@[simp] theorem Dev.setPll_runs (d : Dev) (p : Nat) (x : PllSt) : (d.setPll p x).runs = d.runs := (rfl)
@[simp] theorem Dev.setPll_led (d : Dev) (p : Nat) (x : PllSt) : (d.setPll p x).led = d.led := (rfl)
@[simp] theorem Dev.setPll_aus (d : Dev) (p : Nat) (x : PllSt) : (d.setPll p x).aus = d.aus := (rfl)
@[simp] theorem Dev.setPll_tmus (d : Dev) (p : Nat) (x : PllSt) : (d.setPll p x).tmus = d.tmus := (rfl)
@[simp] theorem Dev.setPll_dses (d : Dev) (p : Nat) (x : PllSt) : (d.setPll p x).dses = d.dses := (rfl)
@[simp] theorem Dev.setPll_jobs (d : Dev) (p : Nat) (x : PllSt) : (d.setPll p x).jobs = d.jobs := (rfl)
@[simp] theorem Dev.setPll_cal (d : Dev) (p : Nat) (x : PllSt) : (d.setPll p x).cal = d.cal := (rfl)
@[simp] theorem Dev.setPll_admitAt (d : Dev) (p : Nat) (x : PllSt) : (d.setPll p x).admitAt = d.admitAt := (rfl)
@[simp] theorem Dev.word_setPll (d : Dev) (p : Nat) (x : PllSt) (z : Nat) : (d.setPll p x).word z = d.word z := (rfl)
@[simp] theorem Dev.get_setPll (d : Dev) (p : Nat) (x : PllSt) (z : Fld) : (d.setPll p x).get z = d.get z := (rfl)
@[simp] theorem Dev.is_setPll (d : Dev) (p : Nat) (x : PllSt) (z : Fld) : (d.setPll p x).is z = d.is z := (rfl)

/-! ## setSeq -/

@[simp] theorem Dev.setSeq_tb (d : Dev) (s : Nat) (x : Seq) : (d.setSeq s x).tb = d.tb := (rfl)
@[simp] theorem Dev.setSeq_tbFrac (d : Dev) (s : Nat) (x : Seq) : (d.setSeq s x).tbFrac = d.tbFrac := (rfl)
@[simp] theorem Dev.setSeq_mclk (d : Dev) (s : Nat) (x : Seq) : (d.setSeq s x).mclk = d.mclk := (rfl)
@[simp] theorem Dev.setSeq_freeCtr (d : Dev) (s : Nat) (x : Seq) : (d.setSeq s x).freeCtr = d.freeCtr := (rfl)
@[simp] theorem Dev.setSeq_regs (d : Dev) (s : Nat) (x : Seq) : (d.setSeq s x).regs = d.regs := (rfl)
@[simp] theorem Dev.setSeq_shadow (d : Dev) (s : Nat) (x : Seq) : (d.setSeq s x).shadow = d.shadow := (rfl)
@[simp] theorem Dev.setSeq_held (d : Dev) (s : Nat) (x : Seq) : (d.setSeq s x).held = d.held := (rfl)
@[simp] theorem Dev.setSeq_edgeOld (d : Dev) (s : Nat) (x : Seq) : (d.setSeq s x).edgeOld = d.edgeOld := (rfl)
@[simp] theorem Dev.setSeq_sram (d : Dev) (s : Nat) (x : Seq) : (d.setSeq s x).sram = d.sram := (rfl)
@[simp] theorem Dev.setSeq_out (d : Dev) (s : Nat) (x : Seq) : (d.setSeq s x).out = d.out := (rfl)
@[simp] theorem Dev.setSeq_host (d : Dev) (s : Nat) (x : Seq) : (d.setSeq s x).host = d.host := (rfl)
@[simp] theorem Dev.setSeq_fcu (d : Dev) (s : Nat) (x : Seq) : (d.setSeq s x).fcu = d.fcu := (rfl)
@[simp] theorem Dev.setSeq_pwr (d : Dev) (s : Nat) (x : Seq) : (d.setSeq s x).pwr = d.pwr := (rfl)
@[simp] theorem Dev.setSeq_clk (d : Dev) (s : Nat) (x : Seq) : (d.setSeq s x).clk = d.clk := (rfl)
@[simp] theorem Dev.setSeq_plls (d : Dev) (s : Nat) (x : Seq) : (d.setSeq s x).plls = d.plls := (rfl)
@[simp] theorem Dev.setSeq_chans (d : Dev) (s : Nat) (x : Seq) : (d.setSeq s x).chans = d.chans := (rfl)
@[simp] theorem Dev.setSeq_dies (d : Dev) (s : Nat) (x : Seq) : (d.setSeq s x).dies = d.dies := (rfl)
@[simp] theorem Dev.setSeq_strms (d : Dev) (s : Nat) (x : Seq) : (d.setSeq s x).strms = d.strms := (rfl)
@[simp] theorem Dev.setSeq_trigIn (d : Dev) (s : Nat) (x : Seq) : (d.setSeq s x).trigIn = d.trigIn := (rfl)
@[simp] theorem Dev.setSeq_twin (d : Dev) (s : Nat) (x : Seq) : (d.setSeq s x).twin = d.twin := (rfl)
@[simp] theorem Dev.setSeq_alm (d : Dev) (s : Nat) (x : Seq) : (d.setSeq s x).alm = d.alm := (rfl)
@[simp] theorem Dev.setSeq_tp (d : Dev) (s : Nat) (x : Seq) : (d.setSeq s x).tp = d.tp := (rfl)
@[simp] theorem Dev.setSeq_runs (d : Dev) (s : Nat) (x : Seq) : (d.setSeq s x).runs = d.runs := (rfl)
@[simp] theorem Dev.setSeq_led (d : Dev) (s : Nat) (x : Seq) : (d.setSeq s x).led = d.led := (rfl)
@[simp] theorem Dev.setSeq_aus (d : Dev) (s : Nat) (x : Seq) : (d.setSeq s x).aus = d.aus := (rfl)
@[simp] theorem Dev.setSeq_tmus (d : Dev) (s : Nat) (x : Seq) : (d.setSeq s x).tmus = d.tmus := (rfl)
@[simp] theorem Dev.setSeq_dses (d : Dev) (s : Nat) (x : Seq) : (d.setSeq s x).dses = d.dses := (rfl)
@[simp] theorem Dev.setSeq_jobs (d : Dev) (s : Nat) (x : Seq) : (d.setSeq s x).jobs = d.jobs := (rfl)
@[simp] theorem Dev.setSeq_cal (d : Dev) (s : Nat) (x : Seq) : (d.setSeq s x).cal = d.cal := (rfl)
@[simp] theorem Dev.setSeq_admitAt (d : Dev) (s : Nat) (x : Seq) : (d.setSeq s x).admitAt = d.admitAt := (rfl)
@[simp] theorem Dev.word_setSeq (d : Dev) (s : Nat) (x : Seq) (z : Nat) : (d.setSeq s x).word z = d.word z := (rfl)
@[simp] theorem Dev.get_setSeq (d : Dev) (s : Nat) (x : Seq) (z : Fld) : (d.setSeq s x).get z = d.get z := (rfl)
@[simp] theorem Dev.is_setSeq (d : Dev) (s : Nat) (x : Seq) (z : Fld) : (d.setSeq s x).is z = d.is z := (rfl)

/-! ## setStrm -/

@[simp] theorem Dev.setStrm_tb (d : Dev) (s : Nat) (x : Strm) : (d.setStrm s x).tb = d.tb := (rfl)
@[simp] theorem Dev.setStrm_tbFrac (d : Dev) (s : Nat) (x : Strm) : (d.setStrm s x).tbFrac = d.tbFrac := (rfl)
@[simp] theorem Dev.setStrm_mclk (d : Dev) (s : Nat) (x : Strm) : (d.setStrm s x).mclk = d.mclk := (rfl)
@[simp] theorem Dev.setStrm_freeCtr (d : Dev) (s : Nat) (x : Strm) : (d.setStrm s x).freeCtr = d.freeCtr := (rfl)
@[simp] theorem Dev.setStrm_regs (d : Dev) (s : Nat) (x : Strm) : (d.setStrm s x).regs = d.regs := (rfl)
@[simp] theorem Dev.setStrm_shadow (d : Dev) (s : Nat) (x : Strm) : (d.setStrm s x).shadow = d.shadow := (rfl)
@[simp] theorem Dev.setStrm_held (d : Dev) (s : Nat) (x : Strm) : (d.setStrm s x).held = d.held := (rfl)
@[simp] theorem Dev.setStrm_edgeOld (d : Dev) (s : Nat) (x : Strm) : (d.setStrm s x).edgeOld = d.edgeOld := (rfl)
@[simp] theorem Dev.setStrm_sram (d : Dev) (s : Nat) (x : Strm) : (d.setStrm s x).sram = d.sram := (rfl)
@[simp] theorem Dev.setStrm_out (d : Dev) (s : Nat) (x : Strm) : (d.setStrm s x).out = d.out := (rfl)
@[simp] theorem Dev.setStrm_host (d : Dev) (s : Nat) (x : Strm) : (d.setStrm s x).host = d.host := (rfl)
@[simp] theorem Dev.setStrm_fcu (d : Dev) (s : Nat) (x : Strm) : (d.setStrm s x).fcu = d.fcu := (rfl)
@[simp] theorem Dev.setStrm_pwr (d : Dev) (s : Nat) (x : Strm) : (d.setStrm s x).pwr = d.pwr := (rfl)
@[simp] theorem Dev.setStrm_clk (d : Dev) (s : Nat) (x : Strm) : (d.setStrm s x).clk = d.clk := (rfl)
@[simp] theorem Dev.setStrm_plls (d : Dev) (s : Nat) (x : Strm) : (d.setStrm s x).plls = d.plls := (rfl)
@[simp] theorem Dev.setStrm_chans (d : Dev) (s : Nat) (x : Strm) : (d.setStrm s x).chans = d.chans := (rfl)
@[simp] theorem Dev.setStrm_dies (d : Dev) (s : Nat) (x : Strm) : (d.setStrm s x).dies = d.dies := (rfl)
@[simp] theorem Dev.setStrm_seqs (d : Dev) (s : Nat) (x : Strm) : (d.setStrm s x).seqs = d.seqs := (rfl)
@[simp] theorem Dev.setStrm_trigIn (d : Dev) (s : Nat) (x : Strm) : (d.setStrm s x).trigIn = d.trigIn := (rfl)
@[simp] theorem Dev.setStrm_twin (d : Dev) (s : Nat) (x : Strm) : (d.setStrm s x).twin = d.twin := (rfl)
@[simp] theorem Dev.setStrm_alm (d : Dev) (s : Nat) (x : Strm) : (d.setStrm s x).alm = d.alm := (rfl)
@[simp] theorem Dev.setStrm_tp (d : Dev) (s : Nat) (x : Strm) : (d.setStrm s x).tp = d.tp := (rfl)
@[simp] theorem Dev.setStrm_runs (d : Dev) (s : Nat) (x : Strm) : (d.setStrm s x).runs = d.runs := (rfl)
@[simp] theorem Dev.setStrm_led (d : Dev) (s : Nat) (x : Strm) : (d.setStrm s x).led = d.led := (rfl)
@[simp] theorem Dev.setStrm_aus (d : Dev) (s : Nat) (x : Strm) : (d.setStrm s x).aus = d.aus := (rfl)
@[simp] theorem Dev.setStrm_tmus (d : Dev) (s : Nat) (x : Strm) : (d.setStrm s x).tmus = d.tmus := (rfl)
@[simp] theorem Dev.setStrm_dses (d : Dev) (s : Nat) (x : Strm) : (d.setStrm s x).dses = d.dses := (rfl)
@[simp] theorem Dev.setStrm_jobs (d : Dev) (s : Nat) (x : Strm) : (d.setStrm s x).jobs = d.jobs := (rfl)
@[simp] theorem Dev.setStrm_cal (d : Dev) (s : Nat) (x : Strm) : (d.setStrm s x).cal = d.cal := (rfl)
@[simp] theorem Dev.setStrm_admitAt (d : Dev) (s : Nat) (x : Strm) : (d.setStrm s x).admitAt = d.admitAt := (rfl)
@[simp] theorem Dev.word_setStrm (d : Dev) (s : Nat) (x : Strm) (z : Nat) : (d.setStrm s x).word z = d.word z := (rfl)
@[simp] theorem Dev.get_setStrm (d : Dev) (s : Nat) (x : Strm) (z : Fld) : (d.setStrm s x).get z = d.get z := (rfl)
@[simp] theorem Dev.is_setStrm (d : Dev) (s : Nat) (x : Strm) (z : Fld) : (d.setStrm s x).is z = d.is z := (rfl)

/-! ## setAu -/

@[simp] theorem Dev.setAu_tb (d : Dev) (a : Nat) (x : Au) : (d.setAu a x).tb = d.tb := (rfl)
@[simp] theorem Dev.setAu_tbFrac (d : Dev) (a : Nat) (x : Au) : (d.setAu a x).tbFrac = d.tbFrac := (rfl)
@[simp] theorem Dev.setAu_mclk (d : Dev) (a : Nat) (x : Au) : (d.setAu a x).mclk = d.mclk := (rfl)
@[simp] theorem Dev.setAu_freeCtr (d : Dev) (a : Nat) (x : Au) : (d.setAu a x).freeCtr = d.freeCtr := (rfl)
@[simp] theorem Dev.setAu_regs (d : Dev) (a : Nat) (x : Au) : (d.setAu a x).regs = d.regs := (rfl)
@[simp] theorem Dev.setAu_shadow (d : Dev) (a : Nat) (x : Au) : (d.setAu a x).shadow = d.shadow := (rfl)
@[simp] theorem Dev.setAu_held (d : Dev) (a : Nat) (x : Au) : (d.setAu a x).held = d.held := (rfl)
@[simp] theorem Dev.setAu_edgeOld (d : Dev) (a : Nat) (x : Au) : (d.setAu a x).edgeOld = d.edgeOld := (rfl)
@[simp] theorem Dev.setAu_sram (d : Dev) (a : Nat) (x : Au) : (d.setAu a x).sram = d.sram := (rfl)
@[simp] theorem Dev.setAu_out (d : Dev) (a : Nat) (x : Au) : (d.setAu a x).out = d.out := (rfl)
@[simp] theorem Dev.setAu_host (d : Dev) (a : Nat) (x : Au) : (d.setAu a x).host = d.host := (rfl)
@[simp] theorem Dev.setAu_fcu (d : Dev) (a : Nat) (x : Au) : (d.setAu a x).fcu = d.fcu := (rfl)
@[simp] theorem Dev.setAu_pwr (d : Dev) (a : Nat) (x : Au) : (d.setAu a x).pwr = d.pwr := (rfl)
@[simp] theorem Dev.setAu_clk (d : Dev) (a : Nat) (x : Au) : (d.setAu a x).clk = d.clk := (rfl)
@[simp] theorem Dev.setAu_plls (d : Dev) (a : Nat) (x : Au) : (d.setAu a x).plls = d.plls := (rfl)
@[simp] theorem Dev.setAu_chans (d : Dev) (a : Nat) (x : Au) : (d.setAu a x).chans = d.chans := (rfl)
@[simp] theorem Dev.setAu_dies (d : Dev) (a : Nat) (x : Au) : (d.setAu a x).dies = d.dies := (rfl)
@[simp] theorem Dev.setAu_seqs (d : Dev) (a : Nat) (x : Au) : (d.setAu a x).seqs = d.seqs := (rfl)
@[simp] theorem Dev.setAu_strms (d : Dev) (a : Nat) (x : Au) : (d.setAu a x).strms = d.strms := (rfl)
@[simp] theorem Dev.setAu_trigIn (d : Dev) (a : Nat) (x : Au) : (d.setAu a x).trigIn = d.trigIn := (rfl)
@[simp] theorem Dev.setAu_twin (d : Dev) (a : Nat) (x : Au) : (d.setAu a x).twin = d.twin := (rfl)
@[simp] theorem Dev.setAu_alm (d : Dev) (a : Nat) (x : Au) : (d.setAu a x).alm = d.alm := (rfl)
@[simp] theorem Dev.setAu_tp (d : Dev) (a : Nat) (x : Au) : (d.setAu a x).tp = d.tp := (rfl)
@[simp] theorem Dev.setAu_runs (d : Dev) (a : Nat) (x : Au) : (d.setAu a x).runs = d.runs := (rfl)
@[simp] theorem Dev.setAu_led (d : Dev) (a : Nat) (x : Au) : (d.setAu a x).led = d.led := (rfl)
@[simp] theorem Dev.setAu_tmus (d : Dev) (a : Nat) (x : Au) : (d.setAu a x).tmus = d.tmus := (rfl)
@[simp] theorem Dev.setAu_dses (d : Dev) (a : Nat) (x : Au) : (d.setAu a x).dses = d.dses := (rfl)
@[simp] theorem Dev.setAu_jobs (d : Dev) (a : Nat) (x : Au) : (d.setAu a x).jobs = d.jobs := (rfl)
@[simp] theorem Dev.setAu_cal (d : Dev) (a : Nat) (x : Au) : (d.setAu a x).cal = d.cal := (rfl)
@[simp] theorem Dev.setAu_admitAt (d : Dev) (a : Nat) (x : Au) : (d.setAu a x).admitAt = d.admitAt := (rfl)
@[simp] theorem Dev.word_setAu (d : Dev) (a : Nat) (x : Au) (z : Nat) : (d.setAu a x).word z = d.word z := (rfl)
@[simp] theorem Dev.get_setAu (d : Dev) (a : Nat) (x : Au) (z : Fld) : (d.setAu a x).get z = d.get z := (rfl)
@[simp] theorem Dev.is_setAu (d : Dev) (a : Nat) (x : Au) (z : Fld) : (d.setAu a x).is z = d.is z := (rfl)

/-! ## setTmu -/

@[simp] theorem Dev.setTmu_tb (d : Dev) (u : Nat) (x : Tmu) : (d.setTmu u x).tb = d.tb := (rfl)
@[simp] theorem Dev.setTmu_tbFrac (d : Dev) (u : Nat) (x : Tmu) : (d.setTmu u x).tbFrac = d.tbFrac := (rfl)
@[simp] theorem Dev.setTmu_mclk (d : Dev) (u : Nat) (x : Tmu) : (d.setTmu u x).mclk = d.mclk := (rfl)
@[simp] theorem Dev.setTmu_freeCtr (d : Dev) (u : Nat) (x : Tmu) : (d.setTmu u x).freeCtr = d.freeCtr := (rfl)
@[simp] theorem Dev.setTmu_regs (d : Dev) (u : Nat) (x : Tmu) : (d.setTmu u x).regs = d.regs := (rfl)
@[simp] theorem Dev.setTmu_shadow (d : Dev) (u : Nat) (x : Tmu) : (d.setTmu u x).shadow = d.shadow := (rfl)
@[simp] theorem Dev.setTmu_held (d : Dev) (u : Nat) (x : Tmu) : (d.setTmu u x).held = d.held := (rfl)
@[simp] theorem Dev.setTmu_edgeOld (d : Dev) (u : Nat) (x : Tmu) : (d.setTmu u x).edgeOld = d.edgeOld := (rfl)
@[simp] theorem Dev.setTmu_sram (d : Dev) (u : Nat) (x : Tmu) : (d.setTmu u x).sram = d.sram := (rfl)
@[simp] theorem Dev.setTmu_out (d : Dev) (u : Nat) (x : Tmu) : (d.setTmu u x).out = d.out := (rfl)
@[simp] theorem Dev.setTmu_host (d : Dev) (u : Nat) (x : Tmu) : (d.setTmu u x).host = d.host := (rfl)
@[simp] theorem Dev.setTmu_fcu (d : Dev) (u : Nat) (x : Tmu) : (d.setTmu u x).fcu = d.fcu := (rfl)
@[simp] theorem Dev.setTmu_pwr (d : Dev) (u : Nat) (x : Tmu) : (d.setTmu u x).pwr = d.pwr := (rfl)
@[simp] theorem Dev.setTmu_clk (d : Dev) (u : Nat) (x : Tmu) : (d.setTmu u x).clk = d.clk := (rfl)
@[simp] theorem Dev.setTmu_plls (d : Dev) (u : Nat) (x : Tmu) : (d.setTmu u x).plls = d.plls := (rfl)
@[simp] theorem Dev.setTmu_chans (d : Dev) (u : Nat) (x : Tmu) : (d.setTmu u x).chans = d.chans := (rfl)
@[simp] theorem Dev.setTmu_dies (d : Dev) (u : Nat) (x : Tmu) : (d.setTmu u x).dies = d.dies := (rfl)
@[simp] theorem Dev.setTmu_seqs (d : Dev) (u : Nat) (x : Tmu) : (d.setTmu u x).seqs = d.seqs := (rfl)
@[simp] theorem Dev.setTmu_strms (d : Dev) (u : Nat) (x : Tmu) : (d.setTmu u x).strms = d.strms := (rfl)
@[simp] theorem Dev.setTmu_trigIn (d : Dev) (u : Nat) (x : Tmu) : (d.setTmu u x).trigIn = d.trigIn := (rfl)
@[simp] theorem Dev.setTmu_twin (d : Dev) (u : Nat) (x : Tmu) : (d.setTmu u x).twin = d.twin := (rfl)
@[simp] theorem Dev.setTmu_alm (d : Dev) (u : Nat) (x : Tmu) : (d.setTmu u x).alm = d.alm := (rfl)
@[simp] theorem Dev.setTmu_tp (d : Dev) (u : Nat) (x : Tmu) : (d.setTmu u x).tp = d.tp := (rfl)
@[simp] theorem Dev.setTmu_runs (d : Dev) (u : Nat) (x : Tmu) : (d.setTmu u x).runs = d.runs := (rfl)
@[simp] theorem Dev.setTmu_led (d : Dev) (u : Nat) (x : Tmu) : (d.setTmu u x).led = d.led := (rfl)
@[simp] theorem Dev.setTmu_aus (d : Dev) (u : Nat) (x : Tmu) : (d.setTmu u x).aus = d.aus := (rfl)
@[simp] theorem Dev.setTmu_dses (d : Dev) (u : Nat) (x : Tmu) : (d.setTmu u x).dses = d.dses := (rfl)
@[simp] theorem Dev.setTmu_jobs (d : Dev) (u : Nat) (x : Tmu) : (d.setTmu u x).jobs = d.jobs := (rfl)
@[simp] theorem Dev.setTmu_cal (d : Dev) (u : Nat) (x : Tmu) : (d.setTmu u x).cal = d.cal := (rfl)
@[simp] theorem Dev.setTmu_admitAt (d : Dev) (u : Nat) (x : Tmu) : (d.setTmu u x).admitAt = d.admitAt := (rfl)
@[simp] theorem Dev.word_setTmu (d : Dev) (u : Nat) (x : Tmu) (z : Nat) : (d.setTmu u x).word z = d.word z := (rfl)
@[simp] theorem Dev.get_setTmu (d : Dev) (u : Nat) (x : Tmu) (z : Fld) : (d.setTmu u x).get z = d.get z := (rfl)
@[simp] theorem Dev.is_setTmu (d : Dev) (u : Nat) (x : Tmu) (z : Fld) : (d.setTmu u x).is z = d.is z := (rfl)

/-! ## setDse -/

@[simp] theorem Dev.setDse_tb (d : Dev) (e : Nat) (x : Dse) : (d.setDse e x).tb = d.tb := (rfl)
@[simp] theorem Dev.setDse_tbFrac (d : Dev) (e : Nat) (x : Dse) : (d.setDse e x).tbFrac = d.tbFrac := (rfl)
@[simp] theorem Dev.setDse_mclk (d : Dev) (e : Nat) (x : Dse) : (d.setDse e x).mclk = d.mclk := (rfl)
@[simp] theorem Dev.setDse_freeCtr (d : Dev) (e : Nat) (x : Dse) : (d.setDse e x).freeCtr = d.freeCtr := (rfl)
@[simp] theorem Dev.setDse_regs (d : Dev) (e : Nat) (x : Dse) : (d.setDse e x).regs = d.regs := (rfl)
@[simp] theorem Dev.setDse_shadow (d : Dev) (e : Nat) (x : Dse) : (d.setDse e x).shadow = d.shadow := (rfl)
@[simp] theorem Dev.setDse_held (d : Dev) (e : Nat) (x : Dse) : (d.setDse e x).held = d.held := (rfl)
@[simp] theorem Dev.setDse_edgeOld (d : Dev) (e : Nat) (x : Dse) : (d.setDse e x).edgeOld = d.edgeOld := (rfl)
@[simp] theorem Dev.setDse_sram (d : Dev) (e : Nat) (x : Dse) : (d.setDse e x).sram = d.sram := (rfl)
@[simp] theorem Dev.setDse_out (d : Dev) (e : Nat) (x : Dse) : (d.setDse e x).out = d.out := (rfl)
@[simp] theorem Dev.setDse_host (d : Dev) (e : Nat) (x : Dse) : (d.setDse e x).host = d.host := (rfl)
@[simp] theorem Dev.setDse_fcu (d : Dev) (e : Nat) (x : Dse) : (d.setDse e x).fcu = d.fcu := (rfl)
@[simp] theorem Dev.setDse_pwr (d : Dev) (e : Nat) (x : Dse) : (d.setDse e x).pwr = d.pwr := (rfl)
@[simp] theorem Dev.setDse_clk (d : Dev) (e : Nat) (x : Dse) : (d.setDse e x).clk = d.clk := (rfl)
@[simp] theorem Dev.setDse_plls (d : Dev) (e : Nat) (x : Dse) : (d.setDse e x).plls = d.plls := (rfl)
@[simp] theorem Dev.setDse_chans (d : Dev) (e : Nat) (x : Dse) : (d.setDse e x).chans = d.chans := (rfl)
@[simp] theorem Dev.setDse_dies (d : Dev) (e : Nat) (x : Dse) : (d.setDse e x).dies = d.dies := (rfl)
@[simp] theorem Dev.setDse_seqs (d : Dev) (e : Nat) (x : Dse) : (d.setDse e x).seqs = d.seqs := (rfl)
@[simp] theorem Dev.setDse_strms (d : Dev) (e : Nat) (x : Dse) : (d.setDse e x).strms = d.strms := (rfl)
@[simp] theorem Dev.setDse_trigIn (d : Dev) (e : Nat) (x : Dse) : (d.setDse e x).trigIn = d.trigIn := (rfl)
@[simp] theorem Dev.setDse_twin (d : Dev) (e : Nat) (x : Dse) : (d.setDse e x).twin = d.twin := (rfl)
@[simp] theorem Dev.setDse_alm (d : Dev) (e : Nat) (x : Dse) : (d.setDse e x).alm = d.alm := (rfl)
@[simp] theorem Dev.setDse_tp (d : Dev) (e : Nat) (x : Dse) : (d.setDse e x).tp = d.tp := (rfl)
@[simp] theorem Dev.setDse_runs (d : Dev) (e : Nat) (x : Dse) : (d.setDse e x).runs = d.runs := (rfl)
@[simp] theorem Dev.setDse_led (d : Dev) (e : Nat) (x : Dse) : (d.setDse e x).led = d.led := (rfl)
@[simp] theorem Dev.setDse_aus (d : Dev) (e : Nat) (x : Dse) : (d.setDse e x).aus = d.aus := (rfl)
@[simp] theorem Dev.setDse_tmus (d : Dev) (e : Nat) (x : Dse) : (d.setDse e x).tmus = d.tmus := (rfl)
@[simp] theorem Dev.setDse_jobs (d : Dev) (e : Nat) (x : Dse) : (d.setDse e x).jobs = d.jobs := (rfl)
@[simp] theorem Dev.setDse_cal (d : Dev) (e : Nat) (x : Dse) : (d.setDse e x).cal = d.cal := (rfl)
@[simp] theorem Dev.setDse_admitAt (d : Dev) (e : Nat) (x : Dse) : (d.setDse e x).admitAt = d.admitAt := (rfl)
@[simp] theorem Dev.word_setDse (d : Dev) (e : Nat) (x : Dse) (z : Nat) : (d.setDse e x).word z = d.word z := (rfl)
@[simp] theorem Dev.get_setDse (d : Dev) (e : Nat) (x : Dse) (z : Fld) : (d.setDse e x).get z = d.get z := (rfl)
@[simp] theorem Dev.is_setDse (d : Dev) (e : Nat) (x : Dse) (z : Fld) : (d.setDse e x).is z = d.is z := (rfl)

/-! ## setRun -/

@[simp] theorem Dev.setRun_tb (d : Dev) (r : OpenRun) : (d.setRun r).tb = d.tb := (rfl)
@[simp] theorem Dev.setRun_tbFrac (d : Dev) (r : OpenRun) : (d.setRun r).tbFrac = d.tbFrac := (rfl)
@[simp] theorem Dev.setRun_mclk (d : Dev) (r : OpenRun) : (d.setRun r).mclk = d.mclk := (rfl)
@[simp] theorem Dev.setRun_freeCtr (d : Dev) (r : OpenRun) : (d.setRun r).freeCtr = d.freeCtr := (rfl)
@[simp] theorem Dev.setRun_regs (d : Dev) (r : OpenRun) : (d.setRun r).regs = d.regs := (rfl)
@[simp] theorem Dev.setRun_shadow (d : Dev) (r : OpenRun) : (d.setRun r).shadow = d.shadow := (rfl)
@[simp] theorem Dev.setRun_held (d : Dev) (r : OpenRun) : (d.setRun r).held = d.held := (rfl)
@[simp] theorem Dev.setRun_edgeOld (d : Dev) (r : OpenRun) : (d.setRun r).edgeOld = d.edgeOld := (rfl)
@[simp] theorem Dev.setRun_sram (d : Dev) (r : OpenRun) : (d.setRun r).sram = d.sram := (rfl)
@[simp] theorem Dev.setRun_out (d : Dev) (r : OpenRun) : (d.setRun r).out = d.out := (rfl)
@[simp] theorem Dev.setRun_host (d : Dev) (r : OpenRun) : (d.setRun r).host = d.host := (rfl)
@[simp] theorem Dev.setRun_fcu (d : Dev) (r : OpenRun) : (d.setRun r).fcu = d.fcu := (rfl)
@[simp] theorem Dev.setRun_pwr (d : Dev) (r : OpenRun) : (d.setRun r).pwr = d.pwr := (rfl)
@[simp] theorem Dev.setRun_clk (d : Dev) (r : OpenRun) : (d.setRun r).clk = d.clk := (rfl)
@[simp] theorem Dev.setRun_plls (d : Dev) (r : OpenRun) : (d.setRun r).plls = d.plls := (rfl)
@[simp] theorem Dev.setRun_chans (d : Dev) (r : OpenRun) : (d.setRun r).chans = d.chans := (rfl)
@[simp] theorem Dev.setRun_dies (d : Dev) (r : OpenRun) : (d.setRun r).dies = d.dies := (rfl)
@[simp] theorem Dev.setRun_seqs (d : Dev) (r : OpenRun) : (d.setRun r).seqs = d.seqs := (rfl)
@[simp] theorem Dev.setRun_strms (d : Dev) (r : OpenRun) : (d.setRun r).strms = d.strms := (rfl)
@[simp] theorem Dev.setRun_trigIn (d : Dev) (r : OpenRun) : (d.setRun r).trigIn = d.trigIn := (rfl)
@[simp] theorem Dev.setRun_twin (d : Dev) (r : OpenRun) : (d.setRun r).twin = d.twin := (rfl)
@[simp] theorem Dev.setRun_alm (d : Dev) (r : OpenRun) : (d.setRun r).alm = d.alm := (rfl)
@[simp] theorem Dev.setRun_tp (d : Dev) (r : OpenRun) : (d.setRun r).tp = d.tp := (rfl)
@[simp] theorem Dev.setRun_led (d : Dev) (r : OpenRun) : (d.setRun r).led = d.led := (rfl)
@[simp] theorem Dev.setRun_aus (d : Dev) (r : OpenRun) : (d.setRun r).aus = d.aus := (rfl)
@[simp] theorem Dev.setRun_tmus (d : Dev) (r : OpenRun) : (d.setRun r).tmus = d.tmus := (rfl)
@[simp] theorem Dev.setRun_dses (d : Dev) (r : OpenRun) : (d.setRun r).dses = d.dses := (rfl)
@[simp] theorem Dev.setRun_jobs (d : Dev) (r : OpenRun) : (d.setRun r).jobs = d.jobs := (rfl)
@[simp] theorem Dev.setRun_cal (d : Dev) (r : OpenRun) : (d.setRun r).cal = d.cal := (rfl)
@[simp] theorem Dev.setRun_admitAt (d : Dev) (r : OpenRun) : (d.setRun r).admitAt = d.admitAt := (rfl)
@[simp] theorem Dev.word_setRun (d : Dev) (r : OpenRun) (z : Nat) : (d.setRun r).word z = d.word z := (rfl)
@[simp] theorem Dev.get_setRun (d : Dev) (r : OpenRun) (z : Fld) : (d.setRun r).get z = d.get z := (rfl)
@[simp] theorem Dev.is_setRun (d : Dev) (r : OpenRun) (z : Fld) : (d.setRun r).is z = d.is z := (rfl)

/-! ## emit -/

@[simp] theorem Dev.emit_tb (d : Dev) (o : Output) : (d.emit o).tb = d.tb := (rfl)
@[simp] theorem Dev.emit_tbFrac (d : Dev) (o : Output) : (d.emit o).tbFrac = d.tbFrac := (rfl)
@[simp] theorem Dev.emit_mclk (d : Dev) (o : Output) : (d.emit o).mclk = d.mclk := (rfl)
@[simp] theorem Dev.emit_freeCtr (d : Dev) (o : Output) : (d.emit o).freeCtr = d.freeCtr := (rfl)
@[simp] theorem Dev.emit_regs (d : Dev) (o : Output) : (d.emit o).regs = d.regs := (rfl)
@[simp] theorem Dev.emit_shadow (d : Dev) (o : Output) : (d.emit o).shadow = d.shadow := (rfl)
@[simp] theorem Dev.emit_held (d : Dev) (o : Output) : (d.emit o).held = d.held := (rfl)
@[simp] theorem Dev.emit_edgeOld (d : Dev) (o : Output) : (d.emit o).edgeOld = d.edgeOld := (rfl)
@[simp] theorem Dev.emit_sram (d : Dev) (o : Output) : (d.emit o).sram = d.sram := (rfl)
@[simp] theorem Dev.emit_host (d : Dev) (o : Output) : (d.emit o).host = d.host := (rfl)
@[simp] theorem Dev.emit_fcu (d : Dev) (o : Output) : (d.emit o).fcu = d.fcu := (rfl)
@[simp] theorem Dev.emit_pwr (d : Dev) (o : Output) : (d.emit o).pwr = d.pwr := (rfl)
@[simp] theorem Dev.emit_clk (d : Dev) (o : Output) : (d.emit o).clk = d.clk := (rfl)
@[simp] theorem Dev.emit_plls (d : Dev) (o : Output) : (d.emit o).plls = d.plls := (rfl)
@[simp] theorem Dev.emit_chans (d : Dev) (o : Output) : (d.emit o).chans = d.chans := (rfl)
@[simp] theorem Dev.emit_dies (d : Dev) (o : Output) : (d.emit o).dies = d.dies := (rfl)
@[simp] theorem Dev.emit_seqs (d : Dev) (o : Output) : (d.emit o).seqs = d.seqs := (rfl)
@[simp] theorem Dev.emit_strms (d : Dev) (o : Output) : (d.emit o).strms = d.strms := (rfl)
@[simp] theorem Dev.emit_trigIn (d : Dev) (o : Output) : (d.emit o).trigIn = d.trigIn := (rfl)
@[simp] theorem Dev.emit_twin (d : Dev) (o : Output) : (d.emit o).twin = d.twin := (rfl)
@[simp] theorem Dev.emit_alm (d : Dev) (o : Output) : (d.emit o).alm = d.alm := (rfl)
@[simp] theorem Dev.emit_tp (d : Dev) (o : Output) : (d.emit o).tp = d.tp := (rfl)
@[simp] theorem Dev.emit_runs (d : Dev) (o : Output) : (d.emit o).runs = d.runs := (rfl)
@[simp] theorem Dev.emit_led (d : Dev) (o : Output) : (d.emit o).led = d.led := (rfl)
@[simp] theorem Dev.emit_aus (d : Dev) (o : Output) : (d.emit o).aus = d.aus := (rfl)
@[simp] theorem Dev.emit_tmus (d : Dev) (o : Output) : (d.emit o).tmus = d.tmus := (rfl)
@[simp] theorem Dev.emit_dses (d : Dev) (o : Output) : (d.emit o).dses = d.dses := (rfl)
@[simp] theorem Dev.emit_jobs (d : Dev) (o : Output) : (d.emit o).jobs = d.jobs := (rfl)
@[simp] theorem Dev.emit_cal (d : Dev) (o : Output) : (d.emit o).cal = d.cal := (rfl)
@[simp] theorem Dev.emit_admitAt (d : Dev) (o : Output) : (d.emit o).admitAt = d.admitAt := (rfl)
@[simp] theorem Dev.word_emit (d : Dev) (o : Output) (z : Nat) : (d.emit o).word z = d.word z := (rfl)
@[simp] theorem Dev.get_emit (d : Dev) (o : Output) (z : Fld) : (d.emit o).get z = d.get z := (rfl)
@[simp] theorem Dev.is_emit (d : Dev) (o : Output) (z : Fld) : (d.emit o).is z = d.is z := (rfl)

/-! ## nextFree -/

@[simp] theorem Dev.nextFree_tb (d : Dev) : (d.nextFree).tb = d.tb := (rfl)
@[simp] theorem Dev.nextFree_tbFrac (d : Dev) : (d.nextFree).tbFrac = d.tbFrac := (rfl)
@[simp] theorem Dev.nextFree_mclk (d : Dev) : (d.nextFree).mclk = d.mclk := (rfl)
@[simp] theorem Dev.nextFree_regs (d : Dev) : (d.nextFree).regs = d.regs := (rfl)
@[simp] theorem Dev.nextFree_shadow (d : Dev) : (d.nextFree).shadow = d.shadow := (rfl)
@[simp] theorem Dev.nextFree_held (d : Dev) : (d.nextFree).held = d.held := (rfl)
@[simp] theorem Dev.nextFree_edgeOld (d : Dev) : (d.nextFree).edgeOld = d.edgeOld := (rfl)
@[simp] theorem Dev.nextFree_sram (d : Dev) : (d.nextFree).sram = d.sram := (rfl)
@[simp] theorem Dev.nextFree_out (d : Dev) : (d.nextFree).out = d.out := (rfl)
@[simp] theorem Dev.nextFree_host (d : Dev) : (d.nextFree).host = d.host := (rfl)
@[simp] theorem Dev.nextFree_fcu (d : Dev) : (d.nextFree).fcu = d.fcu := (rfl)
@[simp] theorem Dev.nextFree_pwr (d : Dev) : (d.nextFree).pwr = d.pwr := (rfl)
@[simp] theorem Dev.nextFree_clk (d : Dev) : (d.nextFree).clk = d.clk := (rfl)
@[simp] theorem Dev.nextFree_plls (d : Dev) : (d.nextFree).plls = d.plls := (rfl)
@[simp] theorem Dev.nextFree_chans (d : Dev) : (d.nextFree).chans = d.chans := (rfl)
@[simp] theorem Dev.nextFree_dies (d : Dev) : (d.nextFree).dies = d.dies := (rfl)
@[simp] theorem Dev.nextFree_seqs (d : Dev) : (d.nextFree).seqs = d.seqs := (rfl)
@[simp] theorem Dev.nextFree_strms (d : Dev) : (d.nextFree).strms = d.strms := (rfl)
@[simp] theorem Dev.nextFree_trigIn (d : Dev) : (d.nextFree).trigIn = d.trigIn := (rfl)
@[simp] theorem Dev.nextFree_twin (d : Dev) : (d.nextFree).twin = d.twin := (rfl)
@[simp] theorem Dev.nextFree_alm (d : Dev) : (d.nextFree).alm = d.alm := (rfl)
@[simp] theorem Dev.nextFree_tp (d : Dev) : (d.nextFree).tp = d.tp := (rfl)
@[simp] theorem Dev.nextFree_runs (d : Dev) : (d.nextFree).runs = d.runs := (rfl)
@[simp] theorem Dev.nextFree_led (d : Dev) : (d.nextFree).led = d.led := (rfl)
@[simp] theorem Dev.nextFree_aus (d : Dev) : (d.nextFree).aus = d.aus := (rfl)
@[simp] theorem Dev.nextFree_tmus (d : Dev) : (d.nextFree).tmus = d.tmus := (rfl)
@[simp] theorem Dev.nextFree_dses (d : Dev) : (d.nextFree).dses = d.dses := (rfl)
@[simp] theorem Dev.nextFree_jobs (d : Dev) : (d.nextFree).jobs = d.jobs := (rfl)
@[simp] theorem Dev.nextFree_cal (d : Dev) : (d.nextFree).cal = d.cal := (rfl)
@[simp] theorem Dev.nextFree_admitAt (d : Dev) : (d.nextFree).admitAt = d.admitAt := (rfl)
@[simp] theorem Dev.word_nextFree (d : Dev) (z : Nat) : (d.nextFree).word z = d.word z := (rfl)
@[simp] theorem Dev.get_nextFree (d : Dev) (z : Fld) : (d.nextFree).get z = d.get z := (rfl)
@[simp] theorem Dev.is_nextFree (d : Dev) (z : Fld) : (d.nextFree).is z = d.is z := (rfl)

/-! ## advance -/

@[simp] theorem Dev.advance_tbFrac (d : Dev) (n : Nat) : (d.advance n).tbFrac = d.tbFrac := (rfl)
@[simp] theorem Dev.advance_freeCtr (d : Dev) (n : Nat) : (d.advance n).freeCtr = d.freeCtr := (rfl)
@[simp] theorem Dev.advance_regs (d : Dev) (n : Nat) : (d.advance n).regs = d.regs := (rfl)
@[simp] theorem Dev.advance_shadow (d : Dev) (n : Nat) : (d.advance n).shadow = d.shadow := (rfl)
@[simp] theorem Dev.advance_held (d : Dev) (n : Nat) : (d.advance n).held = d.held := (rfl)
@[simp] theorem Dev.advance_edgeOld (d : Dev) (n : Nat) : (d.advance n).edgeOld = d.edgeOld := (rfl)
@[simp] theorem Dev.advance_sram (d : Dev) (n : Nat) : (d.advance n).sram = d.sram := (rfl)
@[simp] theorem Dev.advance_out (d : Dev) (n : Nat) : (d.advance n).out = d.out := (rfl)
@[simp] theorem Dev.advance_host (d : Dev) (n : Nat) : (d.advance n).host = d.host := (rfl)
@[simp] theorem Dev.advance_fcu (d : Dev) (n : Nat) : (d.advance n).fcu = d.fcu := (rfl)
@[simp] theorem Dev.advance_pwr (d : Dev) (n : Nat) : (d.advance n).pwr = d.pwr := (rfl)
@[simp] theorem Dev.advance_clk (d : Dev) (n : Nat) : (d.advance n).clk = d.clk := (rfl)
@[simp] theorem Dev.advance_plls (d : Dev) (n : Nat) : (d.advance n).plls = d.plls := (rfl)
@[simp] theorem Dev.advance_chans (d : Dev) (n : Nat) : (d.advance n).chans = d.chans := (rfl)
@[simp] theorem Dev.advance_dies (d : Dev) (n : Nat) : (d.advance n).dies = d.dies := (rfl)
@[simp] theorem Dev.advance_seqs (d : Dev) (n : Nat) : (d.advance n).seqs = d.seqs := (rfl)
@[simp] theorem Dev.advance_strms (d : Dev) (n : Nat) : (d.advance n).strms = d.strms := (rfl)
@[simp] theorem Dev.advance_trigIn (d : Dev) (n : Nat) : (d.advance n).trigIn = d.trigIn := (rfl)
@[simp] theorem Dev.advance_twin (d : Dev) (n : Nat) : (d.advance n).twin = d.twin := (rfl)
@[simp] theorem Dev.advance_alm (d : Dev) (n : Nat) : (d.advance n).alm = d.alm := (rfl)
@[simp] theorem Dev.advance_tp (d : Dev) (n : Nat) : (d.advance n).tp = d.tp := (rfl)
@[simp] theorem Dev.advance_runs (d : Dev) (n : Nat) : (d.advance n).runs = d.runs := (rfl)
@[simp] theorem Dev.advance_led (d : Dev) (n : Nat) : (d.advance n).led = d.led := (rfl)
@[simp] theorem Dev.advance_aus (d : Dev) (n : Nat) : (d.advance n).aus = d.aus := (rfl)
@[simp] theorem Dev.advance_tmus (d : Dev) (n : Nat) : (d.advance n).tmus = d.tmus := (rfl)
@[simp] theorem Dev.advance_dses (d : Dev) (n : Nat) : (d.advance n).dses = d.dses := (rfl)
@[simp] theorem Dev.advance_jobs (d : Dev) (n : Nat) : (d.advance n).jobs = d.jobs := (rfl)
@[simp] theorem Dev.advance_cal (d : Dev) (n : Nat) : (d.advance n).cal = d.cal := (rfl)
@[simp] theorem Dev.advance_admitAt (d : Dev) (n : Nat) : (d.advance n).admitAt = d.admitAt := (rfl)
@[simp] theorem Dev.word_advance (d : Dev) (n : Nat) (z : Nat) : (d.advance n).word z = d.word z := (rfl)
@[simp] theorem Dev.get_advance (d : Dev) (n : Nat) (z : Fld) : (d.advance n).get z = d.get z := (rfl)
@[simp] theorem Dev.is_advance (d : Dev) (n : Nat) (z : Fld) : (d.advance n).is z = d.is z := (rfl)

/-! ## advanceTo -/

@[simp] theorem Dev.advanceTo_tbFrac (d : Dev) (n : Nat) : (d.advanceTo n).tbFrac = d.tbFrac := (rfl)
@[simp] theorem Dev.advanceTo_freeCtr (d : Dev) (n : Nat) : (d.advanceTo n).freeCtr = d.freeCtr := (rfl)
@[simp] theorem Dev.advanceTo_regs (d : Dev) (n : Nat) : (d.advanceTo n).regs = d.regs := (rfl)
@[simp] theorem Dev.advanceTo_shadow (d : Dev) (n : Nat) : (d.advanceTo n).shadow = d.shadow := (rfl)
@[simp] theorem Dev.advanceTo_held (d : Dev) (n : Nat) : (d.advanceTo n).held = d.held := (rfl)
@[simp] theorem Dev.advanceTo_edgeOld (d : Dev) (n : Nat) : (d.advanceTo n).edgeOld = d.edgeOld := (rfl)
@[simp] theorem Dev.advanceTo_sram (d : Dev) (n : Nat) : (d.advanceTo n).sram = d.sram := (rfl)
@[simp] theorem Dev.advanceTo_out (d : Dev) (n : Nat) : (d.advanceTo n).out = d.out := (rfl)
@[simp] theorem Dev.advanceTo_host (d : Dev) (n : Nat) : (d.advanceTo n).host = d.host := (rfl)
@[simp] theorem Dev.advanceTo_fcu (d : Dev) (n : Nat) : (d.advanceTo n).fcu = d.fcu := (rfl)
@[simp] theorem Dev.advanceTo_pwr (d : Dev) (n : Nat) : (d.advanceTo n).pwr = d.pwr := (rfl)
@[simp] theorem Dev.advanceTo_clk (d : Dev) (n : Nat) : (d.advanceTo n).clk = d.clk := (rfl)
@[simp] theorem Dev.advanceTo_plls (d : Dev) (n : Nat) : (d.advanceTo n).plls = d.plls := (rfl)
@[simp] theorem Dev.advanceTo_chans (d : Dev) (n : Nat) : (d.advanceTo n).chans = d.chans := (rfl)
@[simp] theorem Dev.advanceTo_dies (d : Dev) (n : Nat) : (d.advanceTo n).dies = d.dies := (rfl)
@[simp] theorem Dev.advanceTo_seqs (d : Dev) (n : Nat) : (d.advanceTo n).seqs = d.seqs := (rfl)
@[simp] theorem Dev.advanceTo_strms (d : Dev) (n : Nat) : (d.advanceTo n).strms = d.strms := (rfl)
@[simp] theorem Dev.advanceTo_trigIn (d : Dev) (n : Nat) : (d.advanceTo n).trigIn = d.trigIn := (rfl)
@[simp] theorem Dev.advanceTo_twin (d : Dev) (n : Nat) : (d.advanceTo n).twin = d.twin := (rfl)
@[simp] theorem Dev.advanceTo_alm (d : Dev) (n : Nat) : (d.advanceTo n).alm = d.alm := (rfl)
@[simp] theorem Dev.advanceTo_tp (d : Dev) (n : Nat) : (d.advanceTo n).tp = d.tp := (rfl)
@[simp] theorem Dev.advanceTo_runs (d : Dev) (n : Nat) : (d.advanceTo n).runs = d.runs := (rfl)
@[simp] theorem Dev.advanceTo_led (d : Dev) (n : Nat) : (d.advanceTo n).led = d.led := (rfl)
@[simp] theorem Dev.advanceTo_aus (d : Dev) (n : Nat) : (d.advanceTo n).aus = d.aus := (rfl)
@[simp] theorem Dev.advanceTo_tmus (d : Dev) (n : Nat) : (d.advanceTo n).tmus = d.tmus := (rfl)
@[simp] theorem Dev.advanceTo_dses (d : Dev) (n : Nat) : (d.advanceTo n).dses = d.dses := (rfl)
@[simp] theorem Dev.advanceTo_jobs (d : Dev) (n : Nat) : (d.advanceTo n).jobs = d.jobs := (rfl)
@[simp] theorem Dev.advanceTo_cal (d : Dev) (n : Nat) : (d.advanceTo n).cal = d.cal := (rfl)
@[simp] theorem Dev.advanceTo_admitAt (d : Dev) (n : Nat) : (d.advanceTo n).admitAt = d.admitAt := (rfl)
@[simp] theorem Dev.word_advanceTo (d : Dev) (n : Nat) (z : Nat) : (d.advanceTo n).word z = d.word z := (rfl)
@[simp] theorem Dev.get_advanceTo (d : Dev) (n : Nat) (z : Fld) : (d.advanceTo n).get z = d.get z := (rfl)
@[simp] theorem Dev.is_advanceTo (d : Dev) (n : Nat) (z : Fld) : (d.advanceTo n).is z = d.is z := (rfl)

/-! ## Units: what was set is read, and every other unit reads as before -/

theorem Dev.chan_setChan (d : Dev) (i j : Nat) (x : Chan) : (d.setChan i x).chan j = if i = j then x else d.chan j :=
  Tab.get_set _ _ _ _ _

@[simp] theorem Dev.chan_setChan_same (d : Dev) (i : Nat) (x : Chan) : (d.setChan i x).chan i = x := by rw [Dev.chan_setChan]; simp

theorem Dev.die_setDie (d : Dev) (i j : Nat) (x : Die) : (d.setDie i x).die j = if i = j then x else d.die j :=
  Tab.get_set _ _ _ _ _

@[simp] theorem Dev.die_setDie_same (d : Dev) (i : Nat) (x : Die) : (d.setDie i x).die i = x := by rw [Dev.die_setDie]; simp

theorem Dev.pll_setPll (d : Dev) (i j : Nat) (x : PllSt) : (d.setPll i x).pll j = if i = j then x else d.pll j :=
  Tab.get_set _ _ _ _ _

@[simp] theorem Dev.pll_setPll_same (d : Dev) (i : Nat) (x : PllSt) : (d.setPll i x).pll i = x := by rw [Dev.pll_setPll]; simp

theorem Dev.seq_setSeq (d : Dev) (i j : Nat) (x : Seq) : (d.setSeq i x).seq j = if i = j then x else d.seq j :=
  Tab.get_set _ _ _ _ _

@[simp] theorem Dev.seq_setSeq_same (d : Dev) (i : Nat) (x : Seq) : (d.setSeq i x).seq i = x := by rw [Dev.seq_setSeq]; simp

theorem Dev.strm_setStrm (d : Dev) (i j : Nat) (x : Strm) : (d.setStrm i x).strm j = if i = j then x else d.strm j :=
  Tab.get_set _ _ _ _ _

@[simp] theorem Dev.strm_setStrm_same (d : Dev) (i : Nat) (x : Strm) : (d.setStrm i x).strm i = x := by rw [Dev.strm_setStrm]; simp

theorem Dev.au_setAu (d : Dev) (i j : Nat) (x : Au) : (d.setAu i x).au j = if i = j then x else d.au j :=
  Tab.get_set _ _ _ _ _

@[simp] theorem Dev.au_setAu_same (d : Dev) (i : Nat) (x : Au) : (d.setAu i x).au i = x := by rw [Dev.au_setAu]; simp

theorem Dev.tmu_setTmu (d : Dev) (i j : Nat) (x : Tmu) : (d.setTmu i x).tmu j = if i = j then x else d.tmu j :=
  Tab.get_set _ _ _ _ _

@[simp] theorem Dev.tmu_setTmu_same (d : Dev) (i : Nat) (x : Tmu) : (d.setTmu i x).tmu i = x := by rw [Dev.tmu_setTmu]; simp

theorem Dev.dse_setDse (d : Dev) (i j : Nat) (x : Dse) : (d.setDse i x).dse j = if i = j then x else d.dse j :=
  Tab.get_set _ _ _ _ _

@[simp] theorem Dev.dse_setDse_same (d : Dev) (i : Nat) (x : Dse) : (d.setDse i x).dse i = x := by rw [Dev.dse_setDse]; simp

end Sys2Proof.Machine
end

