-- ==== Sys2Proof/Laws/Ops.lean ====
section
/-!
SUPPORT. Everything that raising an event, completing a descriptor and an error report can change, said once.
-/

namespace Sys2Proof.Machine

/-- From `d` to `d'` nothing has changed but the host interface: its registers, its rings and what has been sent. -/
def Dev.OnlyHost (d d' : Dev) : Prop :=
  (∃ r h o, d' = { d with regs := r, host := h, out := o }) ∧ ∀ a, (a < 0x10000 ∨ 0x10300 ≤ a) → d'.word a = d.word a

theorem Dev.OnlyHost.refl (d : Dev) : d.OnlyHost d := ⟨⟨d.regs, d.host, d.out, rfl⟩, fun _ _ => rfl⟩

theorem Dev.OnlyHost.trans {d e f : Dev} (h : d.OnlyHost e) (k : e.OnlyHost f) : d.OnlyHost f := by
  obtain ⟨⟨r, x, o, rfl⟩, hw⟩ := h
  obtain ⟨⟨r', x', o', rfl⟩, kw⟩ := k
  exact ⟨⟨r', x', o', rfl⟩, fun a ha => (kw a ha).trans (hw a ha)⟩

theorem Dev.onlyHost_put (d : Dev) (f : Fld) (v : Nat) (h : 0x10000 ≤ f.addr ∧ f.addr < 0x10300) : d.OnlyHost (d.put f v) :=
  ⟨⟨_, _, _, rfl⟩, fun a ha => d.word_put_ne f v (by omega)⟩

theorem Dev.onlyHost_emit (d : Dev) (o : Output) : d.OnlyHost (d.emit o) := ⟨⟨_, _, _, rfl⟩, fun _ _ => rfl⟩

theorem Dev.onlyHost_host (d : Dev) (h : HostSt) : d.OnlyHost { d with host := h } := ⟨⟨_, _, _, rfl⟩, fun _ _ => rfl⟩

theorem Dev.onlyHost_ringMessage (d : Dev) (ring : Nat) : d.OnlyHost (d.ringMessage ring) := by
  unfold Dev.ringMessage
  dsimp only
  repeat' split
  all_goals first
    | exact d.onlyHost_host _
    | exact (d.onlyHost_host _).trans (Dev.onlyHost_emit _ _)

theorem Dev.onlyHost_eqWrite (d : Dev) (e : EvRec) : d.OnlyHost (d.eqWrite e) := by
  unfold Dev.eqWrite
  dsimp only
  refine Dev.OnlyHost.trans ?_ (Dev.onlyHost_ringMessage _ _)
  split
  · exact ((d.onlyHost_emit _).trans (Dev.onlyHost_put _ _ _ (by decide))).trans (Dev.onlyHost_put _ _ _ (by decide))
  · exact (d.onlyHost_emit _).trans (Dev.onlyHost_put _ _ _ (by decide))

theorem Dev.onlyHost_evDrop (d : Dev) (n : Nat) : d.OnlyHost (d.evDrop n) :=
  (d.onlyHost_host _).trans (Dev.onlyHost_put _ _ _ (by decide))

theorem Dev.onlyHost_evPut (d : Dev) (e : EvRec) : d.OnlyHost (d.evPut e) := by
  unfold Dev.evPut
  repeat' split
  · exact d.onlyHost_host _
  · exact d.onlyHost_evDrop 1
  · exact d.onlyHost_eqWrite e
  · exact d.onlyHost_evDrop 1

/-- An event changes nothing but the host interface (R516 to R519). -/
theorem Dev.onlyHost_event (d : Dev) (src code pay : Nat) : d.OnlyHost (d.event src code pay) :=
  (d.onlyHost_host _).trans (Dev.onlyHost_evPut _ _)

/-- Two adjacent events change nothing but the host interface (R518). -/
theorem Dev.onlyHost_eventPair (d : Dev) (src c1 p1 c2 p2 : Nat) : d.OnlyHost (d.eventPair src c1 p1 c2 p2) := by
  unfold Dev.eventPair
  refine Dev.OnlyHost.trans (e := ((d.nextEv src c1 p1).1.nextEv src c2 p2).1) ((d.onlyHost_host _).trans (Dev.onlyHost_host _ _)) ?_
  dsimp only
  repeat' split
  · exact Dev.onlyHost_host _ _
  · exact Dev.onlyHost_evDrop _ _
  · exact (Dev.onlyHost_eqWrite _ _).trans (Dev.onlyHost_eqWrite _ _)
  · exact Dev.onlyHost_evDrop _ _

theorem Dev.onlyHost_evOverflow (d : Dev) : d.OnlyHost d.evOverflow := by
  unfold Dev.evOverflow
  split
  · exact ((d.onlyHost_host _).trans (Dev.onlyHost_host _ _)).trans (Dev.onlyHost_eqWrite _ _)
  · exact .refl d

theorem Dev.cqOf_lt (d : Dev) (q : Nat) : d.cqOf q < 16 := d.get_lt (sqCq q)

theorem Dev.onlyHost_cqWrite (d : Dev) (cq : Nat) (c : Comp) (h : cq < 16) : d.OnlyHost (d.cqWrite cq c) := by
  have a1 : 0x10000 ≤ (cqTail cq).addr ∧ (cqTail cq).addr < 0x10300 := by simp only [cqTail]; omega
  have a2 : 0x10000 ≤ (cqPhase cq).addr ∧ (cqPhase cq).addr < 0x10300 := by simp only [cqPhase]; omega
  unfold Dev.cqWrite
  dsimp only
  refine Dev.OnlyHost.trans ?_ (Dev.onlyHost_ringMessage _ _)
  split
  · exact ((d.onlyHost_emit _).trans (Dev.onlyHost_put _ _ _ a1)).trans (Dev.onlyHost_put _ _ _ a2)
  · exact (d.onlyHost_emit _).trans (Dev.onlyHost_put _ _ _ a1)

theorem Dev.onlyHost_postComp (d : Dev) (c : Comp) : d.OnlyHost (d.postComp c) := by
  unfold Dev.postComp
  dsimp only
  repeat' split
  · exact .refl d
  · exact d.onlyHost_cqWrite _ c (d.cqOf_lt _)
  · exact d.onlyHost_host _

/-- A completion changes nothing but the host interface (R488, R489, R491). -/
theorem Dev.onlyHost_complete (d : Dev) (w : Work) (st r r64 : Nat) : d.OnlyHost (d.complete w st r r64) :=
  (d.onlyHost_host _).trans (Dev.onlyHost_postComp _ _)

theorem Dev.onlyHost_accept (d : Dev) (w : Work) : d.OnlyHost (d.accept w) := by
  unfold Dev.accept
  repeat' split
  · exact d.onlyHost_host _
  · exact .refl d
  · exact .refl d

/-- The next sequence number of a source after an event of it, whether the record was written, kept or dropped (R517). -/
theorem Dev.nextEv_seq (d : Dev) (src code pay : Nat) :
    Tab.get (fun _ => 0) (d.nextEv src code pay).1.host.evSeq src = (Tab.get (fun _ => 0) d.host.evSeq src + 1) % 2 ^ 20 :=
  Tab.get_set_same _ _ _ _

theorem Dev.ringMessage_evSeq (d : Dev) (ring : Nat) : (d.ringMessage ring).host.evSeq = d.host.evSeq := by
  unfold Dev.ringMessage
  dsimp only
  repeat' split
  all_goals rfl

theorem Dev.eqWrite_evSeq (d : Dev) (e : EvRec) : (d.eqWrite e).host.evSeq = d.host.evSeq := by
  unfold Dev.eqWrite
  rw [Dev.ringMessage_evSeq]
  split
  all_goals simp

theorem Dev.evPut_evSeq (d : Dev) (e : EvRec) : (d.evPut e).host.evSeq = d.host.evSeq := by
  unfold Dev.evPut
  repeat' split
  · rfl
  · rfl
  · exact d.eqWrite_evSeq e
  · rfl

/-- An event counts in the sequence number of its source (R517). -/
theorem Dev.event_seq (d : Dev) (src code pay : Nat) :
    Tab.get (fun _ => 0) (d.event src code pay).host.evSeq src = (Tab.get (fun _ => 0) d.host.evSeq src + 1) % 2 ^ 20 := by
  unfold Dev.event
  rw [Dev.evPut_evSeq]
  exact d.nextEv_seq src code pay

/-! ## What follows for single fields -/

theorem Dev.OnlyHost.get {d e : Dev} (h : d.OnlyHost e) (f : Fld) (hf : f.addr < 0x10000 ∨ 0x10300 ≤ f.addr) : e.get f = d.get f := by
  unfold Dev.get; rw [h.2 _ hf]

theorem Dev.get_event (d : Dev) (src code pay : Nat) (f : Fld) (h : f.addr < 0x10000 ∨ 0x10300 ≤ f.addr) :
    (d.event src code pay).get f = d.get f := (d.onlyHost_event src code pay).get f h

theorem Dev.is_event (d : Dev) (src code pay : Nat) (f : Fld) (h : f.addr < 0x10000 ∨ 0x10300 ≤ f.addr) :
    (d.event src code pay).is f = d.is f := by unfold Dev.is; rw [d.get_event _ _ _ f h]

theorem Dev.word_event (d : Dev) (src code pay a : Nat) (h : a < 0x10000 ∨ 0x10300 ≤ a) :
    (d.event src code pay).word a = d.word a := (d.onlyHost_event src code pay).2 a h

theorem Dev.get_complete (d : Dev) (w : Work) (st r r64 : Nat) (f : Fld) (h : f.addr < 0x10000 ∨ 0x10300 ≤ f.addr) :
    (d.complete w st r r64).get f = d.get f := (d.onlyHost_complete w st r r64).get f h

theorem Dev.word_complete (d : Dev) (w : Work) (st r r64 a : Nat) (h : a < 0x10000 ∨ 0x10300 ≤ a) :
    (d.complete w st r r64).word a = d.word a := (d.onlyHost_complete w st r r64).2 a h

@[simp] theorem Dev.event_tb (d : Dev) (src code pay : Nat) : (d.event src code pay).tb = d.tb := by
  obtain ⟨⟨_, _, _, e⟩, _⟩ := d.onlyHost_event src code pay; rw [e]
@[simp] theorem Dev.event_tbFrac (d : Dev) (src code pay : Nat) : (d.event src code pay).tbFrac = d.tbFrac := by
  obtain ⟨⟨_, _, _, e⟩, _⟩ := d.onlyHost_event src code pay; rw [e]
@[simp] theorem Dev.event_mclk (d : Dev) (src code pay : Nat) : (d.event src code pay).mclk = d.mclk := by
  obtain ⟨⟨_, _, _, e⟩, _⟩ := d.onlyHost_event src code pay; rw [e]
@[simp] theorem Dev.event_freeCtr (d : Dev) (src code pay : Nat) : (d.event src code pay).freeCtr = d.freeCtr := by
  obtain ⟨⟨_, _, _, e⟩, _⟩ := d.onlyHost_event src code pay; rw [e]
@[simp] theorem Dev.event_shadow (d : Dev) (src code pay : Nat) : (d.event src code pay).shadow = d.shadow := by
  obtain ⟨⟨_, _, _, e⟩, _⟩ := d.onlyHost_event src code pay; rw [e]
@[simp] theorem Dev.event_held (d : Dev) (src code pay : Nat) : (d.event src code pay).held = d.held := by
  obtain ⟨⟨_, _, _, e⟩, _⟩ := d.onlyHost_event src code pay; rw [e]
@[simp] theorem Dev.event_edgeOld (d : Dev) (src code pay : Nat) : (d.event src code pay).edgeOld = d.edgeOld := by
  obtain ⟨⟨_, _, _, e⟩, _⟩ := d.onlyHost_event src code pay; rw [e]
@[simp] theorem Dev.event_sram (d : Dev) (src code pay : Nat) : (d.event src code pay).sram = d.sram := by
  obtain ⟨⟨_, _, _, e⟩, _⟩ := d.onlyHost_event src code pay; rw [e]
@[simp] theorem Dev.event_fcu (d : Dev) (src code pay : Nat) : (d.event src code pay).fcu = d.fcu := by
  obtain ⟨⟨_, _, _, e⟩, _⟩ := d.onlyHost_event src code pay; rw [e]
@[simp] theorem Dev.event_pwr (d : Dev) (src code pay : Nat) : (d.event src code pay).pwr = d.pwr := by
  obtain ⟨⟨_, _, _, e⟩, _⟩ := d.onlyHost_event src code pay; rw [e]
@[simp] theorem Dev.event_clk (d : Dev) (src code pay : Nat) : (d.event src code pay).clk = d.clk := by
  obtain ⟨⟨_, _, _, e⟩, _⟩ := d.onlyHost_event src code pay; rw [e]
@[simp] theorem Dev.event_plls (d : Dev) (src code pay : Nat) : (d.event src code pay).plls = d.plls := by
  obtain ⟨⟨_, _, _, e⟩, _⟩ := d.onlyHost_event src code pay; rw [e]
@[simp] theorem Dev.event_chans (d : Dev) (src code pay : Nat) : (d.event src code pay).chans = d.chans := by
  obtain ⟨⟨_, _, _, e⟩, _⟩ := d.onlyHost_event src code pay; rw [e]
@[simp] theorem Dev.event_dies (d : Dev) (src code pay : Nat) : (d.event src code pay).dies = d.dies := by
  obtain ⟨⟨_, _, _, e⟩, _⟩ := d.onlyHost_event src code pay; rw [e]
@[simp] theorem Dev.event_seqs (d : Dev) (src code pay : Nat) : (d.event src code pay).seqs = d.seqs := by
  obtain ⟨⟨_, _, _, e⟩, _⟩ := d.onlyHost_event src code pay; rw [e]
@[simp] theorem Dev.event_strms (d : Dev) (src code pay : Nat) : (d.event src code pay).strms = d.strms := by
  obtain ⟨⟨_, _, _, e⟩, _⟩ := d.onlyHost_event src code pay; rw [e]
@[simp] theorem Dev.event_trigIn (d : Dev) (src code pay : Nat) : (d.event src code pay).trigIn = d.trigIn := by
  obtain ⟨⟨_, _, _, e⟩, _⟩ := d.onlyHost_event src code pay; rw [e]
@[simp] theorem Dev.event_twin (d : Dev) (src code pay : Nat) : (d.event src code pay).twin = d.twin := by
  obtain ⟨⟨_, _, _, e⟩, _⟩ := d.onlyHost_event src code pay; rw [e]
@[simp] theorem Dev.event_alm (d : Dev) (src code pay : Nat) : (d.event src code pay).alm = d.alm := by
  obtain ⟨⟨_, _, _, e⟩, _⟩ := d.onlyHost_event src code pay; rw [e]
@[simp] theorem Dev.event_tp (d : Dev) (src code pay : Nat) : (d.event src code pay).tp = d.tp := by
  obtain ⟨⟨_, _, _, e⟩, _⟩ := d.onlyHost_event src code pay; rw [e]
@[simp] theorem Dev.event_runs (d : Dev) (src code pay : Nat) : (d.event src code pay).runs = d.runs := by
  obtain ⟨⟨_, _, _, e⟩, _⟩ := d.onlyHost_event src code pay; rw [e]
@[simp] theorem Dev.event_led (d : Dev) (src code pay : Nat) : (d.event src code pay).led = d.led := by
  obtain ⟨⟨_, _, _, e⟩, _⟩ := d.onlyHost_event src code pay; rw [e]
@[simp] theorem Dev.event_aus (d : Dev) (src code pay : Nat) : (d.event src code pay).aus = d.aus := by
  obtain ⟨⟨_, _, _, e⟩, _⟩ := d.onlyHost_event src code pay; rw [e]
@[simp] theorem Dev.event_tmus (d : Dev) (src code pay : Nat) : (d.event src code pay).tmus = d.tmus := by
  obtain ⟨⟨_, _, _, e⟩, _⟩ := d.onlyHost_event src code pay; rw [e]
@[simp] theorem Dev.event_dses (d : Dev) (src code pay : Nat) : (d.event src code pay).dses = d.dses := by
  obtain ⟨⟨_, _, _, e⟩, _⟩ := d.onlyHost_event src code pay; rw [e]
@[simp] theorem Dev.event_jobs (d : Dev) (src code pay : Nat) : (d.event src code pay).jobs = d.jobs := by
  obtain ⟨⟨_, _, _, e⟩, _⟩ := d.onlyHost_event src code pay; rw [e]
@[simp] theorem Dev.event_cal (d : Dev) (src code pay : Nat) : (d.event src code pay).cal = d.cal := by
  obtain ⟨⟨_, _, _, e⟩, _⟩ := d.onlyHost_event src code pay; rw [e]
@[simp] theorem Dev.event_admitAt (d : Dev) (src code pay : Nat) : (d.event src code pay).admitAt = d.admitAt := by
  obtain ⟨⟨_, _, _, e⟩, _⟩ := d.onlyHost_event src code pay; rw [e]
@[simp] theorem Dev.eventPair_tb (d : Dev) (src c1 p1 c2 p2 : Nat) : (d.eventPair src c1 p1 c2 p2).tb = d.tb := by
  obtain ⟨⟨_, _, _, e⟩, _⟩ := d.onlyHost_eventPair src c1 p1 c2 p2; rw [e]
@[simp] theorem Dev.eventPair_tbFrac (d : Dev) (src c1 p1 c2 p2 : Nat) : (d.eventPair src c1 p1 c2 p2).tbFrac = d.tbFrac := by
  obtain ⟨⟨_, _, _, e⟩, _⟩ := d.onlyHost_eventPair src c1 p1 c2 p2; rw [e]
@[simp] theorem Dev.eventPair_mclk (d : Dev) (src c1 p1 c2 p2 : Nat) : (d.eventPair src c1 p1 c2 p2).mclk = d.mclk := by
  obtain ⟨⟨_, _, _, e⟩, _⟩ := d.onlyHost_eventPair src c1 p1 c2 p2; rw [e]
@[simp] theorem Dev.eventPair_freeCtr (d : Dev) (src c1 p1 c2 p2 : Nat) : (d.eventPair src c1 p1 c2 p2).freeCtr = d.freeCtr := by
  obtain ⟨⟨_, _, _, e⟩, _⟩ := d.onlyHost_eventPair src c1 p1 c2 p2; rw [e]
@[simp] theorem Dev.eventPair_shadow (d : Dev) (src c1 p1 c2 p2 : Nat) : (d.eventPair src c1 p1 c2 p2).shadow = d.shadow := by
  obtain ⟨⟨_, _, _, e⟩, _⟩ := d.onlyHost_eventPair src c1 p1 c2 p2; rw [e]
@[simp] theorem Dev.eventPair_held (d : Dev) (src c1 p1 c2 p2 : Nat) : (d.eventPair src c1 p1 c2 p2).held = d.held := by
  obtain ⟨⟨_, _, _, e⟩, _⟩ := d.onlyHost_eventPair src c1 p1 c2 p2; rw [e]
@[simp] theorem Dev.eventPair_edgeOld (d : Dev) (src c1 p1 c2 p2 : Nat) : (d.eventPair src c1 p1 c2 p2).edgeOld = d.edgeOld := by
  obtain ⟨⟨_, _, _, e⟩, _⟩ := d.onlyHost_eventPair src c1 p1 c2 p2; rw [e]
@[simp] theorem Dev.eventPair_sram (d : Dev) (src c1 p1 c2 p2 : Nat) : (d.eventPair src c1 p1 c2 p2).sram = d.sram := by
  obtain ⟨⟨_, _, _, e⟩, _⟩ := d.onlyHost_eventPair src c1 p1 c2 p2; rw [e]
@[simp] theorem Dev.eventPair_fcu (d : Dev) (src c1 p1 c2 p2 : Nat) : (d.eventPair src c1 p1 c2 p2).fcu = d.fcu := by
  obtain ⟨⟨_, _, _, e⟩, _⟩ := d.onlyHost_eventPair src c1 p1 c2 p2; rw [e]
@[simp] theorem Dev.eventPair_pwr (d : Dev) (src c1 p1 c2 p2 : Nat) : (d.eventPair src c1 p1 c2 p2).pwr = d.pwr := by
  obtain ⟨⟨_, _, _, e⟩, _⟩ := d.onlyHost_eventPair src c1 p1 c2 p2; rw [e]
@[simp] theorem Dev.eventPair_clk (d : Dev) (src c1 p1 c2 p2 : Nat) : (d.eventPair src c1 p1 c2 p2).clk = d.clk := by
  obtain ⟨⟨_, _, _, e⟩, _⟩ := d.onlyHost_eventPair src c1 p1 c2 p2; rw [e]
@[simp] theorem Dev.eventPair_plls (d : Dev) (src c1 p1 c2 p2 : Nat) : (d.eventPair src c1 p1 c2 p2).plls = d.plls := by
  obtain ⟨⟨_, _, _, e⟩, _⟩ := d.onlyHost_eventPair src c1 p1 c2 p2; rw [e]
@[simp] theorem Dev.eventPair_chans (d : Dev) (src c1 p1 c2 p2 : Nat) : (d.eventPair src c1 p1 c2 p2).chans = d.chans := by
  obtain ⟨⟨_, _, _, e⟩, _⟩ := d.onlyHost_eventPair src c1 p1 c2 p2; rw [e]
@[simp] theorem Dev.eventPair_dies (d : Dev) (src c1 p1 c2 p2 : Nat) : (d.eventPair src c1 p1 c2 p2).dies = d.dies := by
  obtain ⟨⟨_, _, _, e⟩, _⟩ := d.onlyHost_eventPair src c1 p1 c2 p2; rw [e]
@[simp] theorem Dev.eventPair_seqs (d : Dev) (src c1 p1 c2 p2 : Nat) : (d.eventPair src c1 p1 c2 p2).seqs = d.seqs := by
  obtain ⟨⟨_, _, _, e⟩, _⟩ := d.onlyHost_eventPair src c1 p1 c2 p2; rw [e]
@[simp] theorem Dev.eventPair_strms (d : Dev) (src c1 p1 c2 p2 : Nat) : (d.eventPair src c1 p1 c2 p2).strms = d.strms := by
  obtain ⟨⟨_, _, _, e⟩, _⟩ := d.onlyHost_eventPair src c1 p1 c2 p2; rw [e]
@[simp] theorem Dev.eventPair_trigIn (d : Dev) (src c1 p1 c2 p2 : Nat) : (d.eventPair src c1 p1 c2 p2).trigIn = d.trigIn := by
  obtain ⟨⟨_, _, _, e⟩, _⟩ := d.onlyHost_eventPair src c1 p1 c2 p2; rw [e]
@[simp] theorem Dev.eventPair_twin (d : Dev) (src c1 p1 c2 p2 : Nat) : (d.eventPair src c1 p1 c2 p2).twin = d.twin := by
  obtain ⟨⟨_, _, _, e⟩, _⟩ := d.onlyHost_eventPair src c1 p1 c2 p2; rw [e]
@[simp] theorem Dev.eventPair_alm (d : Dev) (src c1 p1 c2 p2 : Nat) : (d.eventPair src c1 p1 c2 p2).alm = d.alm := by
  obtain ⟨⟨_, _, _, e⟩, _⟩ := d.onlyHost_eventPair src c1 p1 c2 p2; rw [e]
@[simp] theorem Dev.eventPair_tp (d : Dev) (src c1 p1 c2 p2 : Nat) : (d.eventPair src c1 p1 c2 p2).tp = d.tp := by
  obtain ⟨⟨_, _, _, e⟩, _⟩ := d.onlyHost_eventPair src c1 p1 c2 p2; rw [e]
@[simp] theorem Dev.eventPair_runs (d : Dev) (src c1 p1 c2 p2 : Nat) : (d.eventPair src c1 p1 c2 p2).runs = d.runs := by
  obtain ⟨⟨_, _, _, e⟩, _⟩ := d.onlyHost_eventPair src c1 p1 c2 p2; rw [e]
@[simp] theorem Dev.eventPair_led (d : Dev) (src c1 p1 c2 p2 : Nat) : (d.eventPair src c1 p1 c2 p2).led = d.led := by
  obtain ⟨⟨_, _, _, e⟩, _⟩ := d.onlyHost_eventPair src c1 p1 c2 p2; rw [e]
@[simp] theorem Dev.eventPair_aus (d : Dev) (src c1 p1 c2 p2 : Nat) : (d.eventPair src c1 p1 c2 p2).aus = d.aus := by
  obtain ⟨⟨_, _, _, e⟩, _⟩ := d.onlyHost_eventPair src c1 p1 c2 p2; rw [e]
@[simp] theorem Dev.eventPair_tmus (d : Dev) (src c1 p1 c2 p2 : Nat) : (d.eventPair src c1 p1 c2 p2).tmus = d.tmus := by
  obtain ⟨⟨_, _, _, e⟩, _⟩ := d.onlyHost_eventPair src c1 p1 c2 p2; rw [e]
@[simp] theorem Dev.eventPair_dses (d : Dev) (src c1 p1 c2 p2 : Nat) : (d.eventPair src c1 p1 c2 p2).dses = d.dses := by
  obtain ⟨⟨_, _, _, e⟩, _⟩ := d.onlyHost_eventPair src c1 p1 c2 p2; rw [e]
@[simp] theorem Dev.eventPair_jobs (d : Dev) (src c1 p1 c2 p2 : Nat) : (d.eventPair src c1 p1 c2 p2).jobs = d.jobs := by
  obtain ⟨⟨_, _, _, e⟩, _⟩ := d.onlyHost_eventPair src c1 p1 c2 p2; rw [e]
@[simp] theorem Dev.eventPair_cal (d : Dev) (src c1 p1 c2 p2 : Nat) : (d.eventPair src c1 p1 c2 p2).cal = d.cal := by
  obtain ⟨⟨_, _, _, e⟩, _⟩ := d.onlyHost_eventPair src c1 p1 c2 p2; rw [e]
@[simp] theorem Dev.eventPair_admitAt (d : Dev) (src c1 p1 c2 p2 : Nat) : (d.eventPair src c1 p1 c2 p2).admitAt = d.admitAt := by
  obtain ⟨⟨_, _, _, e⟩, _⟩ := d.onlyHost_eventPair src c1 p1 c2 p2; rw [e]
@[simp] theorem Dev.complete_tb (d : Dev) (w : Work) (st r r64 : Nat) : (d.complete w st r r64).tb = d.tb := by
  obtain ⟨⟨_, _, _, e⟩, _⟩ := d.onlyHost_complete w st r r64; rw [e]
@[simp] theorem Dev.complete_tbFrac (d : Dev) (w : Work) (st r r64 : Nat) : (d.complete w st r r64).tbFrac = d.tbFrac := by
  obtain ⟨⟨_, _, _, e⟩, _⟩ := d.onlyHost_complete w st r r64; rw [e]
@[simp] theorem Dev.complete_mclk (d : Dev) (w : Work) (st r r64 : Nat) : (d.complete w st r r64).mclk = d.mclk := by
  obtain ⟨⟨_, _, _, e⟩, _⟩ := d.onlyHost_complete w st r r64; rw [e]
@[simp] theorem Dev.complete_freeCtr (d : Dev) (w : Work) (st r r64 : Nat) : (d.complete w st r r64).freeCtr = d.freeCtr := by
  obtain ⟨⟨_, _, _, e⟩, _⟩ := d.onlyHost_complete w st r r64; rw [e]
@[simp] theorem Dev.complete_shadow (d : Dev) (w : Work) (st r r64 : Nat) : (d.complete w st r r64).shadow = d.shadow := by
  obtain ⟨⟨_, _, _, e⟩, _⟩ := d.onlyHost_complete w st r r64; rw [e]
@[simp] theorem Dev.complete_held (d : Dev) (w : Work) (st r r64 : Nat) : (d.complete w st r r64).held = d.held := by
  obtain ⟨⟨_, _, _, e⟩, _⟩ := d.onlyHost_complete w st r r64; rw [e]
@[simp] theorem Dev.complete_edgeOld (d : Dev) (w : Work) (st r r64 : Nat) : (d.complete w st r r64).edgeOld = d.edgeOld := by
  obtain ⟨⟨_, _, _, e⟩, _⟩ := d.onlyHost_complete w st r r64; rw [e]
@[simp] theorem Dev.complete_sram (d : Dev) (w : Work) (st r r64 : Nat) : (d.complete w st r r64).sram = d.sram := by
  obtain ⟨⟨_, _, _, e⟩, _⟩ := d.onlyHost_complete w st r r64; rw [e]
@[simp] theorem Dev.complete_fcu (d : Dev) (w : Work) (st r r64 : Nat) : (d.complete w st r r64).fcu = d.fcu := by
  obtain ⟨⟨_, _, _, e⟩, _⟩ := d.onlyHost_complete w st r r64; rw [e]
@[simp] theorem Dev.complete_pwr (d : Dev) (w : Work) (st r r64 : Nat) : (d.complete w st r r64).pwr = d.pwr := by
  obtain ⟨⟨_, _, _, e⟩, _⟩ := d.onlyHost_complete w st r r64; rw [e]
@[simp] theorem Dev.complete_clk (d : Dev) (w : Work) (st r r64 : Nat) : (d.complete w st r r64).clk = d.clk := by
  obtain ⟨⟨_, _, _, e⟩, _⟩ := d.onlyHost_complete w st r r64; rw [e]
@[simp] theorem Dev.complete_plls (d : Dev) (w : Work) (st r r64 : Nat) : (d.complete w st r r64).plls = d.plls := by
  obtain ⟨⟨_, _, _, e⟩, _⟩ := d.onlyHost_complete w st r r64; rw [e]
@[simp] theorem Dev.complete_chans (d : Dev) (w : Work) (st r r64 : Nat) : (d.complete w st r r64).chans = d.chans := by
  obtain ⟨⟨_, _, _, e⟩, _⟩ := d.onlyHost_complete w st r r64; rw [e]
@[simp] theorem Dev.complete_dies (d : Dev) (w : Work) (st r r64 : Nat) : (d.complete w st r r64).dies = d.dies := by
  obtain ⟨⟨_, _, _, e⟩, _⟩ := d.onlyHost_complete w st r r64; rw [e]
@[simp] theorem Dev.complete_seqs (d : Dev) (w : Work) (st r r64 : Nat) : (d.complete w st r r64).seqs = d.seqs := by
  obtain ⟨⟨_, _, _, e⟩, _⟩ := d.onlyHost_complete w st r r64; rw [e]
@[simp] theorem Dev.complete_strms (d : Dev) (w : Work) (st r r64 : Nat) : (d.complete w st r r64).strms = d.strms := by
  obtain ⟨⟨_, _, _, e⟩, _⟩ := d.onlyHost_complete w st r r64; rw [e]
@[simp] theorem Dev.complete_trigIn (d : Dev) (w : Work) (st r r64 : Nat) : (d.complete w st r r64).trigIn = d.trigIn := by
  obtain ⟨⟨_, _, _, e⟩, _⟩ := d.onlyHost_complete w st r r64; rw [e]
@[simp] theorem Dev.complete_twin (d : Dev) (w : Work) (st r r64 : Nat) : (d.complete w st r r64).twin = d.twin := by
  obtain ⟨⟨_, _, _, e⟩, _⟩ := d.onlyHost_complete w st r r64; rw [e]
@[simp] theorem Dev.complete_alm (d : Dev) (w : Work) (st r r64 : Nat) : (d.complete w st r r64).alm = d.alm := by
  obtain ⟨⟨_, _, _, e⟩, _⟩ := d.onlyHost_complete w st r r64; rw [e]
@[simp] theorem Dev.complete_tp (d : Dev) (w : Work) (st r r64 : Nat) : (d.complete w st r r64).tp = d.tp := by
  obtain ⟨⟨_, _, _, e⟩, _⟩ := d.onlyHost_complete w st r r64; rw [e]
@[simp] theorem Dev.complete_runs (d : Dev) (w : Work) (st r r64 : Nat) : (d.complete w st r r64).runs = d.runs := by
  obtain ⟨⟨_, _, _, e⟩, _⟩ := d.onlyHost_complete w st r r64; rw [e]
@[simp] theorem Dev.complete_led (d : Dev) (w : Work) (st r r64 : Nat) : (d.complete w st r r64).led = d.led := by
  obtain ⟨⟨_, _, _, e⟩, _⟩ := d.onlyHost_complete w st r r64; rw [e]
@[simp] theorem Dev.complete_aus (d : Dev) (w : Work) (st r r64 : Nat) : (d.complete w st r r64).aus = d.aus := by
  obtain ⟨⟨_, _, _, e⟩, _⟩ := d.onlyHost_complete w st r r64; rw [e]
@[simp] theorem Dev.complete_tmus (d : Dev) (w : Work) (st r r64 : Nat) : (d.complete w st r r64).tmus = d.tmus := by
  obtain ⟨⟨_, _, _, e⟩, _⟩ := d.onlyHost_complete w st r r64; rw [e]
@[simp] theorem Dev.complete_dses (d : Dev) (w : Work) (st r r64 : Nat) : (d.complete w st r r64).dses = d.dses := by
  obtain ⟨⟨_, _, _, e⟩, _⟩ := d.onlyHost_complete w st r r64; rw [e]
@[simp] theorem Dev.complete_jobs (d : Dev) (w : Work) (st r r64 : Nat) : (d.complete w st r r64).jobs = d.jobs := by
  obtain ⟨⟨_, _, _, e⟩, _⟩ := d.onlyHost_complete w st r r64; rw [e]
@[simp] theorem Dev.complete_cal (d : Dev) (w : Work) (st r r64 : Nat) : (d.complete w st r r64).cal = d.cal := by
  obtain ⟨⟨_, _, _, e⟩, _⟩ := d.onlyHost_complete w st r r64; rw [e]
@[simp] theorem Dev.complete_admitAt (d : Dev) (w : Work) (st r r64 : Nat) : (d.complete w st r r64).admitAt = d.admitAt := by
  obtain ⟨⟨_, _, _, e⟩, _⟩ := d.onlyHost_complete w st r r64; rw [e]
@[simp] theorem Dev.accept_tb (d : Dev) (w : Work) : (d.accept w).tb = d.tb := by
  obtain ⟨⟨_, _, _, e⟩, _⟩ := d.onlyHost_accept w; rw [e]
@[simp] theorem Dev.accept_tbFrac (d : Dev) (w : Work) : (d.accept w).tbFrac = d.tbFrac := by
  obtain ⟨⟨_, _, _, e⟩, _⟩ := d.onlyHost_accept w; rw [e]
@[simp] theorem Dev.accept_mclk (d : Dev) (w : Work) : (d.accept w).mclk = d.mclk := by
  obtain ⟨⟨_, _, _, e⟩, _⟩ := d.onlyHost_accept w; rw [e]
@[simp] theorem Dev.accept_freeCtr (d : Dev) (w : Work) : (d.accept w).freeCtr = d.freeCtr := by
  obtain ⟨⟨_, _, _, e⟩, _⟩ := d.onlyHost_accept w; rw [e]
@[simp] theorem Dev.accept_shadow (d : Dev) (w : Work) : (d.accept w).shadow = d.shadow := by
  obtain ⟨⟨_, _, _, e⟩, _⟩ := d.onlyHost_accept w; rw [e]
@[simp] theorem Dev.accept_held (d : Dev) (w : Work) : (d.accept w).held = d.held := by
  obtain ⟨⟨_, _, _, e⟩, _⟩ := d.onlyHost_accept w; rw [e]
@[simp] theorem Dev.accept_edgeOld (d : Dev) (w : Work) : (d.accept w).edgeOld = d.edgeOld := by
  obtain ⟨⟨_, _, _, e⟩, _⟩ := d.onlyHost_accept w; rw [e]
@[simp] theorem Dev.accept_sram (d : Dev) (w : Work) : (d.accept w).sram = d.sram := by
  obtain ⟨⟨_, _, _, e⟩, _⟩ := d.onlyHost_accept w; rw [e]
@[simp] theorem Dev.accept_fcu (d : Dev) (w : Work) : (d.accept w).fcu = d.fcu := by
  obtain ⟨⟨_, _, _, e⟩, _⟩ := d.onlyHost_accept w; rw [e]
@[simp] theorem Dev.accept_pwr (d : Dev) (w : Work) : (d.accept w).pwr = d.pwr := by
  obtain ⟨⟨_, _, _, e⟩, _⟩ := d.onlyHost_accept w; rw [e]
@[simp] theorem Dev.accept_clk (d : Dev) (w : Work) : (d.accept w).clk = d.clk := by
  obtain ⟨⟨_, _, _, e⟩, _⟩ := d.onlyHost_accept w; rw [e]
@[simp] theorem Dev.accept_plls (d : Dev) (w : Work) : (d.accept w).plls = d.plls := by
  obtain ⟨⟨_, _, _, e⟩, _⟩ := d.onlyHost_accept w; rw [e]
@[simp] theorem Dev.accept_chans (d : Dev) (w : Work) : (d.accept w).chans = d.chans := by
  obtain ⟨⟨_, _, _, e⟩, _⟩ := d.onlyHost_accept w; rw [e]
@[simp] theorem Dev.accept_dies (d : Dev) (w : Work) : (d.accept w).dies = d.dies := by
  obtain ⟨⟨_, _, _, e⟩, _⟩ := d.onlyHost_accept w; rw [e]
@[simp] theorem Dev.accept_seqs (d : Dev) (w : Work) : (d.accept w).seqs = d.seqs := by
  obtain ⟨⟨_, _, _, e⟩, _⟩ := d.onlyHost_accept w; rw [e]
@[simp] theorem Dev.accept_strms (d : Dev) (w : Work) : (d.accept w).strms = d.strms := by
  obtain ⟨⟨_, _, _, e⟩, _⟩ := d.onlyHost_accept w; rw [e]
@[simp] theorem Dev.accept_trigIn (d : Dev) (w : Work) : (d.accept w).trigIn = d.trigIn := by
  obtain ⟨⟨_, _, _, e⟩, _⟩ := d.onlyHost_accept w; rw [e]
@[simp] theorem Dev.accept_twin (d : Dev) (w : Work) : (d.accept w).twin = d.twin := by
  obtain ⟨⟨_, _, _, e⟩, _⟩ := d.onlyHost_accept w; rw [e]
@[simp] theorem Dev.accept_alm (d : Dev) (w : Work) : (d.accept w).alm = d.alm := by
  obtain ⟨⟨_, _, _, e⟩, _⟩ := d.onlyHost_accept w; rw [e]
@[simp] theorem Dev.accept_tp (d : Dev) (w : Work) : (d.accept w).tp = d.tp := by
  obtain ⟨⟨_, _, _, e⟩, _⟩ := d.onlyHost_accept w; rw [e]
@[simp] theorem Dev.accept_runs (d : Dev) (w : Work) : (d.accept w).runs = d.runs := by
  obtain ⟨⟨_, _, _, e⟩, _⟩ := d.onlyHost_accept w; rw [e]
@[simp] theorem Dev.accept_led (d : Dev) (w : Work) : (d.accept w).led = d.led := by
  obtain ⟨⟨_, _, _, e⟩, _⟩ := d.onlyHost_accept w; rw [e]
@[simp] theorem Dev.accept_aus (d : Dev) (w : Work) : (d.accept w).aus = d.aus := by
  obtain ⟨⟨_, _, _, e⟩, _⟩ := d.onlyHost_accept w; rw [e]
@[simp] theorem Dev.accept_tmus (d : Dev) (w : Work) : (d.accept w).tmus = d.tmus := by
  obtain ⟨⟨_, _, _, e⟩, _⟩ := d.onlyHost_accept w; rw [e]
@[simp] theorem Dev.accept_dses (d : Dev) (w : Work) : (d.accept w).dses = d.dses := by
  obtain ⟨⟨_, _, _, e⟩, _⟩ := d.onlyHost_accept w; rw [e]
@[simp] theorem Dev.accept_jobs (d : Dev) (w : Work) : (d.accept w).jobs = d.jobs := by
  obtain ⟨⟨_, _, _, e⟩, _⟩ := d.onlyHost_accept w; rw [e]
@[simp] theorem Dev.accept_cal (d : Dev) (w : Work) : (d.accept w).cal = d.cal := by
  obtain ⟨⟨_, _, _, e⟩, _⟩ := d.onlyHost_accept w; rw [e]
@[simp] theorem Dev.accept_admitAt (d : Dev) (w : Work) : (d.accept w).admitAt = d.admitAt := by
  obtain ⟨⟨_, _, _, e⟩, _⟩ := d.onlyHost_accept w; rw [e]

end Sys2Proof.Machine
end

