-- ==== Sys2Proof/Laws/Idle.lean ====
section
/-!
SUPPORT. What the end of the last work can change beyond the command's own effect: the power state, its timers and what its entry
stops or parks (R575 to R578).
-/

namespace Sys2Proof.Machine

/-- From `d` to `d'` nothing has changed but the host interface, the clock and power registers, the PLLs and the park orders. -/
def Dev.OnlyPower (d d' : Dev) : Prop :=
  (∃ r h o w p e, d' = { d with regs := r, host := h, out := o, pwr := w, plls := p, dies := e }) ∧
    ∀ a, (a < 0x10000 ∨ (0x10300 ≤ a ∧ a < 0x20000) ∨ (0x30000 ≤ a ∧ a < 0x70000) ∨ 0x71000 ≤ a) → d'.word a = d.word a

theorem Dev.OnlyPower.refl (d : Dev) : d.OnlyPower d := ⟨⟨_, _, _, _, _, _, rfl⟩, fun _ _ => rfl⟩

theorem Dev.OnlyPower.trans {d e f : Dev} (h : d.OnlyPower e) (k : e.OnlyPower f) : d.OnlyPower f := by
  obtain ⟨⟨_, _, _, _, _, _, rfl⟩, hw⟩ := h
  obtain ⟨⟨_, _, _, _, _, _, rfl⟩, kw⟩ := k
  exact ⟨⟨_, _, _, _, _, _, rfl⟩, fun a ha => (kw a ha).trans (hw a ha)⟩

theorem Dev.OnlyHost.power {d e : Dev} (h : d.OnlyHost e) : d.OnlyPower e := by
  obtain ⟨⟨_, _, _, rfl⟩, hw⟩ := h
  exact ⟨⟨_, _, _, _, _, _, rfl⟩, fun a ha => hw a (by omega)⟩

theorem Dev.onlyPower_put (d : Dev) (f : Fld) (v : Nat)
    (h : (0x20000 ≤ f.addr ∧ f.addr < 0x30000) ∨ (0x70000 ≤ f.addr ∧ f.addr < 0x71000)) : d.OnlyPower (d.put f v) :=
  ⟨⟨_, _, _, _, _, _, rfl⟩, fun a ha => d.word_put_ne f v (by omega)⟩

theorem Dev.onlyPower_pwr (d : Dev) (w : PwrSt) : d.OnlyPower { d with pwr := w } := ⟨⟨_, _, _, _, _, _, rfl⟩, fun _ _ => rfl⟩

theorem Dev.onlyPower_setPll (d : Dev) (p : Nat) (x : PllSt) : d.OnlyPower (d.setPll p x) :=
  ⟨⟨_, _, _, _, _, _, rfl⟩, fun _ _ => rfl⟩

theorem Dev.onlyPower_setDie (d : Dev) (e : Nat) (x : Die) : d.OnlyPower (d.setDie e x) :=
  ⟨⟨_, _, _, _, _, _, rfl⟩, fun _ _ => rfl⟩

theorem Dev.onlyPower_stateTo (d : Dev) (st cause : Nat) : d.OnlyPower (d.stateTo st cause) :=
  (d.onlyPower_put _ _ (by decide)).trans (Dev.onlyHost_event _ _ _ _).power

theorem Dev.onlyPower_tbDisc (d : Dev) : d.OnlyPower d.tbDisc :=
  (d.onlyPower_put _ _ (by decide)).trans (Dev.onlyPower_put _ _ _ (by decide))

theorem Dev.onlyPower_pllStop (d : Dev) (p : Nat) (h : p < 3) : d.OnlyPower (d.pllStop p) := by
  unfold Dev.pllStop
  dsimp only
  have a : ∀ f ∈ [pllState p, pllLockBit p, pllRamp p, pllFnow p], 0x20000 ≤ f.addr ∧ f.addr < 0x30000 := by
    intro f hf
    simp only [List.mem_cons, List.not_mem_nil, or_false] at hf
    rcases hf with rfl | rfl | rfl | rfl <;> simp only [pllState, pllLockBit, pllRamp, pllFnow] <;> omega
  refine ((((d.onlyPower_setPll p _).trans (Dev.onlyPower_put _ _ _ (.inl (a _ ?_)))).trans
    (Dev.onlyPower_put _ _ _ (.inl (a _ ?_)))).trans (Dev.onlyPower_put _ _ _ (.inl (a _ ?_)))).trans
    (Dev.onlyPower_put _ _ _ (.inl (a _ ?_))) <;> simp

theorem Dev.onlyPower_enterP2 (d : Dev) (cause : Nat) : d.OnlyPower (d.enterP2 cause) := by
  unfold Dev.enterP2
  dsimp only
  refine Dev.OnlyPower.trans ?_ (Dev.onlyPower_pllStop _ 2 (by decide))
  refine Dev.OnlyPower.trans ?_ (Dev.onlyPower_pllStop _ 1 (by decide))
  split
  · exact ((d.onlyPower_stateTo _ _).trans (Dev.onlyPower_pwr _ _)).trans (Dev.onlyPower_tbDisc _)
  · exact (d.onlyPower_stateTo _ _).trans (Dev.onlyPower_pwr _ _)

theorem Dev.onlyPower_forEach (l : List Nat) (f : Dev → Nat → Dev) (h : ∀ d, ∀ i, Dev.OnlyPower d (f d i)) (d : Dev) :
    d.OnlyPower (d.forEach l f) := by
  unfold Dev.forEach
  induction l generalizing d with
  | nil => exact .refl d
  | cons i l ih => exact (h d i).trans (ih (f d i))

theorem Dev.onlyPower_enterP3 (d : Dev) (cause : Nat) : d.OnlyPower (d.enterP3 cause) := by
  unfold Dev.enterP3
  dsimp only
  refine Dev.OnlyPower.trans ?_ (Dev.onlyPower_put _ _ _ (by decide))
  refine Dev.OnlyPower.trans ?_ (Dev.onlyPower_forEach _ _ (fun d i => d.onlyPower_setDie i _) _)
  exact (d.onlyPower_stateTo _ _).trans (Dev.onlyPower_put _ _ _ (by decide))

theorem Dev.onlyPower_powerIdle (d : Dev) : d.OnlyPower d.powerIdle := by
  unfold Dev.powerIdle
  dsimp only
  split
  · exact .refl d
  · have h1 : d.OnlyPower (if d.get pwrState = 0 then d.stateTo 1 0 else d) := by
      split
      · exact d.onlyPower_stateTo _ _
      · exact .refl d
    generalize (if d.get pwrState = 0 then d.stateTo 1 0 else d) = d1 at h1 ⊢
    have h2 : d1.OnlyPower (if d1.get pwrState = 1 ∧ 2 ≤ d.get pwrPin then d1.enterP2 1 else d1) := by
      split
      · exact d1.onlyPower_enterP2 _
      · exact .refl d1
    generalize (if d1.get pwrState = 1 ∧ 2 ≤ d.get pwrPin then d1.enterP2 1 else d1) = d2 at h2 ⊢
    split
    · exact (h1.trans h2).trans (d2.onlyPower_enterP3 _)
    · exact h1.trans h2

theorem Dev.onlyPower_idleRestart (d : Dev) : d.OnlyPower d.idleRestart :=
  d.onlyPower_powerIdle.trans (Dev.onlyPower_pwr _ _)

/-- What follows the end of the last work changes the power state and what its entry stops, and nothing else (R575 to R578). -/
theorem Dev.onlyPower_idleNote (d old : Dev) : d.OnlyPower (d.idleNote old) := by
  unfold Dev.idleNote
  split
  · exact d.onlyPower_idleRestart
  · exact .refl d

theorem Dev.OnlyPower.get {d e : Dev} (h : d.OnlyPower e) (f : Fld)
    (hf : f.addr < 0x10000 ∨ (0x10300 ≤ f.addr ∧ f.addr < 0x20000) ∨ (0x30000 ≤ f.addr ∧ f.addr < 0x70000) ∨ 0x71000 ≤ f.addr) :
    e.get f = d.get f := by
  unfold Dev.get; rw [h.2 _ hf]

/-- While something keeps the device busy, or nothing did before, the idle timers do not restart. -/
theorem Dev.idleNote_same (d old : Dev) (h : old.busy = false ∨ d.busy = true) : d.idleNote old = d := by
  unfold Dev.idleNote
  rcases h with h | h <;> simp [h]

end Sys2Proof.Machine
end

