-- ==== Sys2Proof/Laws/Frame.lean ====
section
/-!
SUPPORT. Which registers the shared operations leave, said for the frames of Safety: a chain of register writes, events and
completion records keeps every register outside the list of those it writes. What an event sends out adds to what was sent.
-/

namespace Sys2Proof.Machine

variable {d t : Dev} {l : List Nat}

theorem Dev.keepsRegs_refl (d : Dev) (l : List Nat) : d.KeepsRegs d l := fun _ _ => rfl
theorem Dev.keepsRegsEv_refl (d : Dev) (l : List Nat) : d.KeepsRegsEv d l := fun _ _ _ => rfl

theorem Dev.keepsRegs_put (f : Fld) (v : Nat) (hf : f.addr ∈ l) (h : d.KeepsRegs t l) : d.KeepsRegs (t.put f v) l := by
  intro a ha
  rw [Dev.word_put_ne t f v (by rintro rfl; exact ha hf)]
  exact h a ha

theorem Dev.keepsRegsEv_put (f : Fld) (v : Nat) (hf : f.addr ∈ l) (h : d.KeepsRegsEv t l) : d.KeepsRegsEv (t.put f v) l := by
  intro a ha hb
  rw [Dev.word_put_ne t f v (by rintro rfl; exact ha hf)]
  exact h a ha hb

theorem Dev.keepsRegs_bump (f : Fld) (hf : f.addr ∈ l) (h : d.KeepsRegs t l) : d.KeepsRegs (t.bump f) l :=
  Dev.keepsRegs_put f _ hf h

theorem Dev.keepsRegsEv_bump (f : Fld) (hf : f.addr ∈ l) (h : d.KeepsRegsEv t l) : d.KeepsRegsEv (t.bump f) l :=
  Dev.keepsRegsEv_put f _ hf h

theorem Dev.keepsRegsEv_onlyHost {e : Dev} (k : t.OnlyHost e) (h : d.KeepsRegsEv t l) : d.KeepsRegsEv e l :=
  fun a ha hb => (k.2 a hb).trans (h a ha hb)

theorem Dev.keepsRegsEv_event (src code pay : Nat) (h : d.KeepsRegsEv t l) : d.KeepsRegsEv (t.event src code pay) l :=
  Dev.keepsRegsEv_onlyHost (t.onlyHost_event src code pay) h

theorem Dev.keepsRegsEv_complete (w : Work) (st r r64 : Nat) (h : d.KeepsRegsEv t l) :
    d.KeepsRegsEv (t.complete w st r r64) l :=
  Dev.keepsRegsEv_onlyHost (t.onlyHost_complete w st r r64) h

theorem Dev.keepsRegsEv_accept (w : Work) (h : d.KeepsRegsEv t l) : d.KeepsRegsEv (t.accept w) l :=
  Dev.keepsRegsEv_onlyHost (t.onlyHost_accept w) h

/-! ## Changes made one after the other -/

/-- What each change of a list keeps, all of them keep. -/
theorem Dev.forEach_keeps {α : Type} (φ : Dev → α) {l : List Nat} {f : Dev → Nat → Dev} (h : ∀ d, ∀ i ∈ l, φ (f d i) = φ d)
    (d : Dev) : φ (d.forEach l f) = φ d := by
  unfold Dev.forEach
  induction l generalizing d with
  | nil => rfl
  | cons i l ih =>
    rw [List.foldl_cons, ih fun d j hj => h d j (.tail _ hj)]
    exact h d i (.head _)

/-- The die that a change names takes its new contents; every other stays. -/
theorem Dev.die_setDie_ite (d : Dev) (e i : Nat) (x : Die) : (d.setDie e x).die i = if i = e then x else d.die i := by
  by_cases h : i = e
  · subst h; rw [if_pos rfl]; exact Tab.get_set_same _ _ _ _
  · rw [if_neg h]; exact Tab.get_set_ne _ _ _ (Ne.symm h)

/-! ## What has been sent stays on record -/

theorem Dev.mem_ringMessage_out (d : Dev) (r : Nat) (o : Output) (h : o ∈ d.out) : o ∈ (d.ringMessage r).out := by
  unfold Dev.ringMessage
  dsimp only
  repeat' split
  all_goals first
    | exact h
    | exact .tail _ h

theorem Dev.mem_eqWrite_out (d : Dev) (e : EvRec) (o : Output) (h : o ∈ d.out) : o ∈ (d.eqWrite e).out := by
  unfold Dev.eqWrite
  dsimp only
  apply Dev.mem_ringMessage_out
  split <;> exact .tail _ h

theorem Dev.mem_event_out (d : Dev) (src code pay : Nat) (o : Output) (h : o ∈ d.out) : o ∈ (d.event src code pay).out := by
  unfold Dev.event Dev.evPut
  dsimp only
  repeat' split
  all_goals first
    | exact h
    | exact Dev.mem_eqWrite_out _ _ _ h

end Sys2Proof.Machine
end

