-- ==== Sys2Proof/Laws/Update.lean ====
section
/-!
SUPPORT. What the reading operations see of a device that was written out field by field, as a record update does: the one field
that they look at. Each reads a table; a table that is another device's reads as that device.
-/

namespace Sys2Proof.Machine

/-- A register field in a table of registers. -/
def regsGet (r : Tab Word) (f : Fld) : Nat := bitsOf (Tab.get regReset r f.addr).toNat f.lo f.w

@[simp] theorem regsGet_regs (d : Dev) (f : Fld) : regsGet d.regs f = d.get f := rfl
@[simp] theorem regsWord_regs (d : Dev) (a : Nat) : Tab.get regReset d.regs a = d.word a := rfl

section
variable (tb : Nat) (tbFrac : Nat) (mclk : Nat) (freeCtr : Nat) (regs : Tab Word) (shadow : Tab (Option Word)) (held : List (Nat × Nat)) (edgeOld : Tab (Option Word)) (sram : Tab Byte) (out : List Output) (host : HostSt) (fcu : FcuSt) (pwr : PwrSt) (clk : ClkSt) (plls : Tab PllSt) (chans : Tab Chan) (dies : Tab Die) (seqs : Tab Seq) (strms : Tab Strm) (trigIn : Nat) (twin : TwinSt) (alm : AlmSt) (tp : TpSt) (runs : List OpenRun) (led : LedSt) (aus : Tab Au) (tmus : Tab Tmu) (dses : Tab Dse) (jobs : List Job) (cal : CalSt) (admitAt : Option Nat)

@[simp] theorem Dev.get_mk (f : Fld) : Dev.get (Dev.mk tb tbFrac mclk freeCtr regs shadow held edgeOld sram out host fcu pwr clk plls chans dies seqs strms trigIn twin alm tp runs led aus tmus dses jobs cal admitAt) f = regsGet regs f := rfl
@[simp] theorem Dev.is_mk (f : Fld) : Dev.is (Dev.mk tb tbFrac mclk freeCtr regs shadow held edgeOld sram out host fcu pwr clk plls chans dies seqs strms trigIn twin alm tp runs led aus tmus dses jobs cal admitAt) f = (regsGet regs f == 1) := rfl
@[simp] theorem Dev.word_mk (a : Nat) : Dev.word (Dev.mk tb tbFrac mclk freeCtr regs shadow held edgeOld sram out host fcu pwr clk plls chans dies seqs strms trigIn twin alm tp runs led aus tmus dses jobs cal admitAt) a = Tab.get regReset regs a := rfl
@[simp] theorem Dev.chan_mk (i : Nat) : Dev.chan (Dev.mk tb tbFrac mclk freeCtr regs shadow held edgeOld sram out host fcu pwr clk plls chans dies seqs strms trigIn twin alm tp runs led aus tmus dses jobs cal admitAt) i = Tab.get (fun _ => Chan.init) chans i := rfl
@[simp] theorem Dev.die_mk (i : Nat) : Dev.die (Dev.mk tb tbFrac mclk freeCtr regs shadow held edgeOld sram out host fcu pwr clk plls chans dies seqs strms trigIn twin alm tp runs led aus tmus dses jobs cal admitAt) i = Tab.get (fun _ => Die.init) dies i := rfl
@[simp] theorem Dev.pll_mk (i : Nat) : Dev.pll (Dev.mk tb tbFrac mclk freeCtr regs shadow held edgeOld sram out host fcu pwr clk plls chans dies seqs strms trigIn twin alm tp runs led aus tmus dses jobs cal admitAt) i = Tab.get (fun _ => PllSt.init) plls i := rfl
@[simp] theorem Dev.seq_mk (i : Nat) : Dev.seq (Dev.mk tb tbFrac mclk freeCtr regs shadow held edgeOld sram out host fcu pwr clk plls chans dies seqs strms trigIn twin alm tp runs led aus tmus dses jobs cal admitAt) i = Tab.get (fun _ => Seq.init) seqs i := rfl
@[simp] theorem Dev.strm_mk (i : Nat) : Dev.strm (Dev.mk tb tbFrac mclk freeCtr regs shadow held edgeOld sram out host fcu pwr clk plls chans dies seqs strms trigIn twin alm tp runs led aus tmus dses jobs cal admitAt) i = Tab.get (fun _ => Strm.init) strms i := rfl
@[simp] theorem Dev.au_mk (i : Nat) : Dev.au (Dev.mk tb tbFrac mclk freeCtr regs shadow held edgeOld sram out host fcu pwr clk plls chans dies seqs strms trigIn twin alm tp runs led aus tmus dses jobs cal admitAt) i = Tab.get (fun _ => Au.init) aus i := rfl
@[simp] theorem Dev.tmu_mk (i : Nat) : Dev.tmu (Dev.mk tb tbFrac mclk freeCtr regs shadow held edgeOld sram out host fcu pwr clk plls chans dies seqs strms trigIn twin alm tp runs led aus tmus dses jobs cal admitAt) i = Tab.get (fun _ => Tmu.init) tmus i := rfl
@[simp] theorem Dev.dse_mk (i : Nat) : Dev.dse (Dev.mk tb tbFrac mclk freeCtr regs shadow held edgeOld sram out host fcu pwr clk plls chans dies seqs strms trigIn twin alm tp runs led aus tmus dses jobs cal admitAt) i = Tab.get (fun _ => Dse.init) dses i := rfl

end

@[simp] theorem Dev.get_eq_one (d : Dev) (f : Fld) : (d.get f == 1) = d.is f := rfl
@[simp] theorem chanTab_get (d : Dev) (i : Nat) : Tab.get (fun _ => Chan.init) d.chans i = d.chan i := rfl
@[simp] theorem dieTab_get (d : Dev) (i : Nat) : Tab.get (fun _ => Die.init) d.dies i = d.die i := rfl
@[simp] theorem pllTab_get (d : Dev) (i : Nat) : Tab.get (fun _ => PllSt.init) d.plls i = d.pll i := rfl
@[simp] theorem seqTab_get (d : Dev) (i : Nat) : Tab.get (fun _ => Seq.init) d.seqs i = d.seq i := rfl
@[simp] theorem strmTab_get (d : Dev) (i : Nat) : Tab.get (fun _ => Strm.init) d.strms i = d.strm i := rfl
@[simp] theorem auTab_get (d : Dev) (i : Nat) : Tab.get (fun _ => Au.init) d.aus i = d.au i := rfl
@[simp] theorem tmuTab_get (d : Dev) (i : Nat) : Tab.get (fun _ => Tmu.init) d.tmus i = d.tmu i := rfl
@[simp] theorem dseTab_get (d : Dev) (i : Nat) : Tab.get (fun _ => Dse.init) d.dses i = d.dse i := rfl

end Sys2Proof.Machine
end

