-- ==== Sys2Proof/WellFormed.lean ====
section
/-!
DEFINITION. Which commands are well formed: the operands name what exists, and the lists have the lengths that the manual gives them.
-/

namespace Sys2Proof

/-- A command is well formed. Rail monitor 7 does not exist (R564); a ramp, a walk and a slew belong to CKA and CKB (R417, R419,
R423); SYS has no frequency to commit (R428); a calibration step is on a channel of its sector; there are 16 edge and 8 core sensors (R436); Meridian trains 1,
2 or 4 lanes (R525), PCI Express generations 1 to 5 on 1, 2, 4 or 8 lanes (R522); a message carries 16 flags (R531); each pin is observed once;
a CONFIG_BLOCK has at most 4,096 writes and a RUN at most 65,535 steps (R495); a Transit frame has word bits only after a whole command (R557). -/
def Instr.wf : Instr → Bool
  | .pwrRail rail => rail.val != 7
  | .ckxSlewDone p => p.val != 0
  | .pllFreqCommit p => p.val != 0
  | .pllFreqWalkDone p => p.val != 0
  | .rampGo p => p.val != 0
  | .rampTrigger p => p.val != 0
  | .rampSegmentEnd p _ => p.val != 0
  | .rampStop p => p.val != 0
  | .shadowCommit blk => blk != .pllFreq 0
  | .run _ steps _ => decide (steps.length ≤ 65535)
  | .configBlock _ writes _ => decide (writes.length ≤ 4096)
  | .calStepDone sector obs => obs.ch.val / 16 == sector.val
  | .contactCheckSample _ codes => decide (codes.map fun p => p.1).Nodup
  | .vectorPlay _ obs => decide (obs.map fun o => o.ch).Nodup
  | .ppmuSettleExpiry _ _ codes => decide (codes.map fun p => p.1).Nodup
  | .tempSensorRead edge core => edge.length == 16 && core.length == 8
  | .linkUp lanes _ => lanes.val == 1 || lanes.val == 2 || lanes.val == 4
  | .heartbeat _ _ _ _ _ _ flags => flags.length == 16
  | .flag _ flags => flags.length == 16
  | .tpTargetFrame cmdBits _ bits _ => cmdBits.val == 8 || bits.isEmpty
  | .railInRange rail => rail.val != 7
  | .hostLinkUp gen width => gen.val != 0 && [1, 2, 4, 8].contains width.val
  | .porst _
  | .boot
  | .perst
  | .hkcRestart
  | .tapReset
  | .tapParkInstruction
  | .p1IdleExpiry
  | .p2IdleExpiry
  | .pinStateWrite _
  | .wake _
  | .sysRampStart
  | .sysRampEnd
  | .refLost
  | .refFound
  | .pllBandChosen _ _ _
  | .pllLockCriterionMet _
  | .lockLost _
  | .pllOpenRecovery _
  | .pllAcqTimeout _
  | .pllReturnMeasured _ _
  | .relock _ _
  | .syncArrival
  | .syncAlignRequest _
  | .syncCancel
  | .registerWrite _ _ _
  | .lowWordRead _ _
  | .genErrClrLocked
  | .genErrClrAccess
  | .siteMapWrite _ _ _
  | .seqQuadsWrite _ _ _ _
  | .seqRegionWrite _ _ _ _
  | .seqFlagWrite _ _
  | .seqJump _ _
  | .levelCodeWrite _ _ _
  | .peLvlUpdWrite _ _ _
  | .peCtrlWrite _ _ _
  | .peFaultClear _ _
  | .peTimClr _
  | .ppmuFaultClear _ _
  | .ppmuCtrlWrite _ _ _
  | .ppmuWfJump _ _
  | .auSrcWrite _ _ _
  | .auAllocWrite _ _ _
  | .auArm _
  | .auDisarm _
  | .auSwtrig _
  | .auRecRelease _ _
  | .auDrainRead _ _
  | .tmuArm _
  | .tmuDisarm _
  | .dseQuiesce _ _
  | .dseQuiesced _
  | .dseResume _
  | .dseRun _
  | .almTestWrite _ _ _ _
  | .ledRdWrite _ _
  | .ledHdrRdWrite _
  | .fcuPinRelease
  | .fcuFirstClr
  | .fcuSevsrcClear _ _
  | .fcuInj _
  | .twinTake
  | .twinRelease
  | .twinMirAck _
  | .tpGo
  | .tpAbort
  | .rxPop
  | .txLoad
  | .txClr
  | .bar4Write _ _ _
  | .hostSqEnWrite _
  | .hostCqEnWrite _
  | .sqTailDoorbell _ _
  | .cqHeadDoorbell _ _
  | .eqHeadDoorbell _
  | .msixUnmask _
  | .commandStop _
  | .commandAbort _
  | .commandPark _
  | .descriptorFetch _ _
  | .nop _
  | .writeVectors _ _ _
  | .streamAttach _ _ _ _
  | .streamDetach _
  | .readLedger _
  | .readCapture _
  | .readFaillog _
  | .loadKernel _ _ _
  | .configBlockApply _
  | .calRunMeasure _
  | .calRunStore _
  | .calRunEye _
  | .calRunRefcheck _ _ _
  | .calStoreDone _
  | .patUpdateConfig _ _ _
  | .patUpdateLoadExt _ _ _
  | .patUpdateExport _ _ _
  | .patUpdateClear _ _ _
  | .flashRead _
  | .flashWrite _ _ _
  | .fwStage _ _ _
  | .fwSwitch _
  | .fwImageReady
  | .fwReadyTimeout
  | .sectorQuiesce _
  | .sectorResume _
  | .fence _
  | .fenceComplete _
  | .stepStart _
  | .stepComplete _
  | .closeGuardExpiry _
  | .almanacCloseCheck _
  | .almanacAddValues _
  | .jmpcResolve _
  | .matchEnd _
  | .matchTimeout _
  | .seqHalt _
  | .syncwWaitBegin _
  | .syncwStart _
  | .syncwTimeout _
  | .deglitchRelease _ _
  | .hizExit _
  | .chunkReadDone _ _ _ _
  | .stallMaxExpiry _
  | .budgetAdmit _
  | .ppmuSample _ _ _
  | .ppmuReconnect _
  | .ppmuCompl _
  | .ppmuOpenLoop _
  | .wfSegmentEnd _
  | .drvOc _
  | .clampOc _
  | .loadCompl _
  | .parkInAssert
  | .parkInRelease
  | .edgePark _
  | .edgeUnpark _
  | .d2dCrcOut _ _ _
  | .d2dCrcIn _ _ _ _ _
  | .d2dEcho _ _ _
  | .d2dConfigAckTimeout _
  | .auTrigger _ _ _
  | .auRecordEnd _ _ _
  | .auRearmEnd _
  | .auSweepSettleEnd _
  | .acqWaitExpiry _
  | .trigInEdge _ _
  | .tmuCalDone _ _ _ _ _
  | .tmuSample _ _ _ _ _
  | .tmuTimeout _
  | .dspJobDispatch
  | .dspNop _
  | .dspHalt _
  | .dspBr _
  | .dspDbnz _
  | .dspRep _
  | .dspMac4 _
  | .dspMacs _
  | .dspCmac _
  | .dspAcs _
  | .dspAdd _
  | .dspSub _
  | .dspMin _
  | .dspMax _
  | .dspAbs _
  | .dspNeg _
  | .dspAnd _
  | .dspOr _
  | .dspXor _
  | .dspShf _
  | .dspCmp _
  | .dspAcc _
  | .dspSta _
  | .dspLda _
  | .dspClra _
  | .dspMov _
  | .dspLdi _
  | .calRecomputePeriod
  | .faultReport _
  | .fcuWindowExpiry _ _
  | .fcuWire _ _
  | .fcuWireRecovery _ _
  | .faultNMinwExpiry
  | .hostLossExpiry
  | .heartbeatSend
  | .meridianLinkLost
  | .meridianRetxTimeout
  | .openMsg _ _ _ _ _
  | .mirror _ _ _ _
  | .intent _ _
  | .intentAck _ _
  | .complete _ _
  | .abandon _ _
  | .almFull _ _
  | .almDelta _ _
  | .startReady _ _ _
  | .start _ _ _
  | .notify _ _
  | .takeReq _
  | .taken _
  | .takeoverDelayExpiry
  | .takeoverWaitExpiry
  | .tpStuck
  | .tpArbWindow
  | .tpBusTimeout
  | .tpDone _
  | .tpModeFault _
  | .sysStop
  | .hkcReady
  | .hostLinkDown
  | .meridianMessageDiscarded _
  | .tpBusyNEdge _
  | .dseLoaded _
  | .flashOperationDone _ _ => true

end Sys2Proof
end

