-- ==== Sys2Proof/Tests/Slice0.lean ====
section
/-!
SUPPORT. Tests: the well-formedness smoke test, the manual's own worked examples, and for each statement of
Obligations.lean with hypotheses a concrete state and operands that meet them, clause by clause.
-/

open Sys2Proof Sys2Proof.Machine

set_option maxRecDepth 20000
set_option exponentiation.threshold 1100

namespace Sys2Proof.Tests

/-! ## Well-formedness: each check refuses an ill-formed term and takes a well-formed one -/

theorem test_wf_rails : (Instr.pwrRail 7).wf = false ∧ (Instr.railInRange 7).wf = false ∧ (Instr.pwrRail 6).wf = true := by decide
theorem test_wf_sys_has_no_ramp_or_slew :
    (Instr.ckxSlewDone 0).wf = false ∧ (Instr.pllFreqCommit 0).wf = false ∧ (Instr.pllFreqWalkDone 0).wf = false ∧
    (Instr.rampGo 0).wf = false ∧ (Instr.rampTrigger 0).wf = false ∧ (Instr.rampSegmentEnd 0 0).wf = false ∧
    (Instr.rampStop 0).wf = false ∧ (Instr.shadowCommit (.pllFreq 0)).wf = false ∧ (Instr.rampStop 2).wf = true := by decide
theorem test_wf_run_steps :
    (∃ l : List StepData, l.length = 65536 ∧ (Instr.run 0 l true).wf = false) ∧ (Instr.run 0 [⟨0, [], []⟩] true).wf = true :=
  have no (l : List StepData) (h : l.length = 65536) : (Instr.run 0 l true).wf = false := decide_eq_false (by omega)
  ⟨⟨List.replicate 65536 ⟨0, [], []⟩, List.length_replicate, no _ List.length_replicate⟩, by decide⟩
theorem test_wf_config_block :
    (∃ l : List CfgWrite, l.length = 4097 ∧ (Instr.configBlock 0 l true).wf = false) ∧ (Instr.configBlock 0 [⟨0, 0⟩] true).wf = true :=
  have no (l : List CfgWrite) (h : l.length = 4097) : (Instr.configBlock 0 l true).wf = false := decide_eq_false (by omega)
  ⟨⟨List.replicate 4097 ⟨0, 0⟩, List.length_replicate, no _ List.length_replicate⟩, by decide⟩
theorem test_wf_channel_lists :
    (Instr.calStepDone 1 { ch := 3, item := 0, pinPa := 0, coefs := [], fallback := [], met := true, metFb := false, residT := 0, residL := 0, eyeWidth := 0, eyeHeight := 0 }).wf = false ∧
    (Instr.contactCheckSample 0 [(3, 0), (3, 1)]).wf = false ∧ (Instr.ppmuSettleExpiry 0 0 [(3, 0), (3, 1)]).wf = false ∧
    (Instr.vectorPlay 0 [⟨3, true, true, true, true, 0⟩, ⟨3, false, true, true, true, 0⟩]).wf = false ∧
    (Instr.contactCheckSample 0 [(3, 0), (4, 1)]).wf = true := by decide
theorem test_wf_sensors :
    (Instr.tempSensorRead (List.replicate 15 0) (List.replicate 8 0)).wf = false ∧
    (Instr.tempSensorRead (List.replicate 16 0) (List.replicate 9 0)).wf = false ∧
    (Instr.tempSensorRead (List.replicate 16 0) (List.replicate 8 0)).wf = true := by decide
theorem test_wf_links :
    (Instr.linkUp 3 true).wf = false ∧ (Instr.linkUp 4 true).wf = true ∧ (Instr.hostLinkUp 0 8).wf = false ∧
    (Instr.hostLinkUp 5 3).wf = false ∧ (Instr.hostLinkUp 5 8).wf = true := by decide
theorem test_wf_flags :
    (Instr.heartbeat 0 0 0 0 0 true (List.replicate 15 0)).wf = false ∧ (Instr.flag 0 (List.replicate 15 0)).wf = false ∧
    (Instr.flag 0 (List.replicate 16 0)).wf = true := by decide
theorem test_wf_target_frame :
    (Instr.tpTargetFrame 7 0 [true] false).wf = false ∧ (Instr.tpTargetFrame 8 0 [true] false).wf = true := by decide

/-- No row of the table has bits, so no word spells a command and the queue is left as it is. -/
theorem test_no_word_spells_a_command :
    decodeTableWord 32 0x12345678 = none ∧ State.reset.withFetchWord 32 0x12345678 = State.reset := ⟨rfl, rfl⟩

/-! ## The manual's worked examples: each expected value stands in the chapter named -/

/-- Chapter 0: TB is read at 0x1_FFFF_FFFE; the high word latched with the low word is 1. -/
theorem test_low_word_read_latches_the_high_word :
    ({ Dev.init with tb := 0x1FFFFFFFE }.lowWordRead .host 0x20018).host.latchHost = 1 := by decide +kernel

/-- Chapter 2: from level set 1 to level set 2, VIH holds for 60 master periods and VTT goes straight through. -/
theorem test_deglitch_example :
    Dac.load { out := 0x9091, holding := false, holdEnd := 0 } 1000 60 0x6364 false = { out := 0x9091, holding := true, holdEnd := 1060 } ∧
    Dac.load { out := 0x5EDF, holding := false, holdEnd := 0 } 1000 60 0x5A5A false = { out := 0x5A5A, holding := false, holdEnd := 0 } := by
  decide

/-- Chapter 3: FV on the ±40 mA range under a current limit of 100 claims 40 mA. -/
theorem test_ppmu_claim_example :
    ({ td := 9, force := 1, meas := 0, range := 4, wf := false, iclamp := 100, code := 0xBCA2, vhi := 0, vlo := 0, settle := 200,
       samples := 16, engine := 0, kid := 0 } : PpmuUse).claim = 40 := by decide

/-- Chapter 4: CH090's drives at ticks 9,830, 18,022 and 18,384: the third is applied at 19,005, and one conflict counts. -/
theorem test_minimum_pulse_example :
    ({ Drv.init with on := true, evs := [(9830, 200, 1, none, some true), (18022, 201, 1, none, some false), (18384, 202, 1, none, some true)] } : Drv).runTo
        none 9 0 =
      ({ Drv.init with on := true, lvl := true, lastT := some 19005 }, 1) := by decide +kernel

/-- Chapter 4: the drive of vector 203 changes nothing at the pin, so it is not an applied event. -/
theorem test_unchanged_drive_is_not_applied :
    ({ Drv.init with on := true, lvl := true, lastT := some 19005 } : Drv).apply 34768 none (some true) =
      ({ Drv.init with on := true, lvl := true, lastT := some 19005 }, false) := by decide +kernel

/-- Chapter 5: with one quad a line takes 10 bytes, and six lines share a memory line. -/
theorem test_line_size_example :
    ((Dev.init.put ⟨0x100008, 0, 32⟩ 1).lineSize 0) = 10 ∧ linesIn 10 1 = 6 := by decide +kernel

/-- Chapter 7: the guard band of ±100,000 pA at 20 ‰ is 4,000 pA, 97,200 pA is marginal, and the median reading is 96,600 pA. -/
theorem test_adaptive_repeat_example :
    let st : StepData := { raw := BitVec.ofNat 1024 (2 ^ 5 + 2 ^ 6 + 20 * 2 ^ 8 + ofSigned 40 (-100000) * 2 ^ 64 + 100000 * 2 ^ 104), perch := [], jobs := [] }
    guardBand st 20 = 4000 ∧ marginal st 4000 97200 = true ∧ marginal st 4000 95999 = false ∧
    median [96100, 98400, 95900, 97700, 96600] = 96600 := by decide +kernel

/-- Chapter 8: AU04's capacity of 4,194,048 sample times and its slot of 6,080 bytes. -/
theorem test_acquisition_example :
    (Dev.init.put (auSize 4) 16).auCapacity 4 = 4194048 ∧ slotBytes 24000 2 = 6080 ∧ 1048576 / slotBytes 24000 2 = 172 := by
  decide +kernel

/-- Chapter 9: the rise time of CH070 is 6,563 units of 62.5 fs. -/
theorem test_rise_time_example :
    let a := calGain 6682 13360
    let z := calGain 6671 13339
    tmuValue 3 0 0 (eventTime ⟨0, 178, 173⟩ a.1 a.2 0) (eventTime ⟨0, 152, 149⟩ z.1 z.2 0) 0 = some 6563 := by decide +kernel

/-- Chapter 10: an accumulator that leaves its range wraps with S = 0 and clamps with S = 1. -/
theorem test_accumulator_range_example :
    fit 48 false (2 ^ 47 - 256 + 512) = ⟨0x800000000100, false, true⟩ ∧ fit 48 true (2 ^ 47 - 256 + 512) = ⟨0x7FFFFFFFFFFF, true, false⟩ ∧
    (fit 48 false (-2 ^ 47 + 256 - 768)).bits = 0x7FFFFFFFFE00 ∧ (fit 48 true (2 ^ 47 - 1 - 768)).bits = 0x7FFFFFFFFCFF := by decide

/-- Chapter 10: 2,688 and −2,688 shifted right by 8, rounded and not. -/
theorem test_shift_round_example :
    shiftRound 2688 8 true = 11 ∧ shiftRound 2688 8 false = 10 ∧ shiftRound (-2688) 8 true = -10 ∧ shiftRound (-2688) 8 false = -11 := by
  decide

/-- Chapter 10: the circular buffer of P2, with N2 = 3, N2 = −3, and after L2 becomes 64. -/
theorem test_pointer_example :
    let rf (p n l : Nat) : Tab Nat := [(0x1A, p), (0x22, n), (0x2A, l), (0x32, 0x200)]
    let m := 2 * 64 + 3 * 16
    postMod (rf 0x262 3 100) m = 0x201 ∧ postMod (rf 0x201 0xFFFFFD 100) m = 0x262 ∧ postMod (rf 0x262 1 64) m = 0x223 := by decide

/-- Chapter 10: the metrics 2^40 − 16 and 2^40 + 16: the second is chosen, with bit 1. -/
theorem test_acs_example : acs false 0xFFFFFFFFF0 0 0 16 = (0x10, 1) := by decide

/-- Chapter 12, entry 17. -/
def alm17 : AlmCfg :=
  { test := 4210, lo := 1600000, hi := 2000000, flo := 0, fhi := 0, mode := 1, kX16 := 96, bin := 17, w := 1024, minCnt := 32, shift := 0 }

/-- Chapter 12: the quantiles of entry 17 give the limits 1,810,127 and 1,830,107; the values that close next stand in bins 534 and 589. -/
theorem test_almanac_example :
    let h : Hist := [(101, 230), (561, 40), (562, 95), (563, 105), (564, 60), (565, 110), (566, 100), (567, 40), (700, 220)]
    (alm17.stats h).limits alm17 = (1810127, 1830107) ∧ roundHalfUp (alm17.stats h).med = 1820117 ∧ roundHalfUp (alm17.stats h).scale = 1665 ∧
    alm17.code 1808950 = 1 + 534 ∧ alm17.code 1830107 = 1 + 589 := by decide +kernel

/-- Chapter 14: between −310 ticks at 30 °C and −262 ticks at 70 °C, 43.50 °C gives −293.8. -/
theorem test_interpolation_example :
    let d := (Dev.init.put (calItemPts 37 0) 0b01100)
    ({ d with cal := { d.cal with coefs := [(coefKey (37 * 8192) 2, -310 * 65536), (coefKey (37 * 8192) 3, -262 * 65536)] } }).interpolate (37 * 8192)
      (4350 * 64 / 100) = -2938 / 10 := by decide +kernel

/-- Chapter 16: 0xFFFF_0123 is a PARK of sites 16 to 31. -/
theorem test_command_example :
    cmdRefused 0xFFFF012 = false ∧ cmdValue 3 0xFFFF012 = 0xFFFF0123 ∧ Dev.init.cmdSites 0xFFFF012 = 0xFFFF0000 := by decide +kernel

/-- Chapter 18: the quad read of 256 bytes takes 532 clocks. -/
theorem test_transit_clocks_example :
    ((Dev.init.put ⟨0x6000C, 0, 32⟩ 0x00698082).put ⟨0x60010, 0, 32⟩ 0x00018800).tpClocks = 532 := by decide +kernel

/-- Chapter 20: the addresses of `TS_SYM[3][2]` are not registers of their own here; those of `SEQ_FLAG`, `AU_CTRL`, `TMU_CTRL`,
`ALM_TEST` word 9, `LED_RD` and `PED_BUDGET` are. -/
theorem test_address_examples :
    (seqFlag 12).addr = 0x1C0028 ∧ (auMeasEn 28).addr / 0x1000 = 0x21C ∧ (tmuMode 37).addr = 0x309400 ∧ almTestAddr 17 9 = 0x510464 ∧
    (ledRd 21).addr = 0x1401544 ∧ (pedLimit 2).addr = 0x11A0000 := by decide +kernel

/-- Chapter 20: `PE_TS[7][0]` of CH090 is locked while SEQ05 runs; an address above TMU 63 has no register. -/
theorem test_locked_and_absent_writes :
    let d := (Dev.init.put (seqState 5) 1).put ⟨0x150008, 0, 32⟩ (2 ^ 22)
    (let t := d.busWrite .host 0x105A8A8 7
     t.get genErrLocked = 1 ∧ t.get genErrAddr = 0x105A8A8 ∧ t.get genErrReq = 0 ∧ t.word 0x105A8A8 = d.word 0x105A8A8) ∧
    (d.busWrite .host 0x310000 7).get genErrAccess = 1 := by decide +kernel

/-- The check value of the CRC-32 of IEEE 802.3 (R202): the nine digits give 0xCBF43926. -/
theorem test_crc32 : crc32 [0x31, 0x32, 0x33, 0x34, 0x35, 0x36, 0x37, 0x38, 0x39] = 0xCBF43926 := by decide +kernel

/-! ## A state and operands that meet the hypotheses of each statement

Each theorem below applies one statement, clause by clause, to a concrete state and concrete operands, and proves every
hypothesis of the clause there. -/

/-- A command answers a next state. -/
def Completes (c : Instr) (s : State) : Prop := ∃ t, exec c s = .next t

end Sys2Proof.Tests

theorem Sys2Proof.Machine.Answers.completes {c s p} (h : Answers c s p) : Sys2Proof.Tests.Completes c s :=
  let ⟨_, e, _⟩ := h; ⟨_, e⟩
theorem Sys2Proof.Machine.AnswersIdle.completes {c s p} (h : AnswersIdle c s p) : Sys2Proof.Tests.Completes c s :=
  let ⟨_, e, _⟩ := h; ⟨_, e⟩
theorem Sys2Proof.Machine.AnswersNv.completes {c s p} (h : AnswersNv c s p) : Sys2Proof.Tests.Completes c s :=
  let ⟨_, _, e, _⟩ := h; ⟨_, e⟩

namespace Sys2Proof.Tests

/-- The reset state with some register fields set and the device changed. -/
def wit (fs : List (Fld × Nat)) (f : Dev → Dev := id) : State :=
  { State.reset with dev := f (fs.foldl (fun d p => d.put p.1 p.2) Dev.init) }
/-- The reset state, awake and booted, with some register fields set and the device changed. -/
def witUp (fs : List (Fld × Nat)) (f : Dev → Dev := id) : State :=
  wit ((pwrState, 1) :: fs) fun d => f { d with pwr := { d.pwr with booted := true, hkcReady := true } }
/-- A descriptor: its opcode and its operands, each at a byte. -/
def witX (opc : Nat) (ops : List (Nat × Nat)) : Nat := ops.foldl (fun x p => x + p.2 <<< (8 * p.1)) opc
def witW (opc : Nat) : Work := { id := 7, q := 0, cid := 0, opc := opc }
/-- Awake, with a descriptor waiting in SQ0. -/
def witD (opc : Nat) (ops : List (Nat × Nat)) (fs : List (Fld × Nat) := []) (f : Dev → Dev := id) : State :=
  witUp fs fun d => f { d with host := { d.host with
    fetchNo := 8, waiting := [(0, some { id := 7, d := witX opc ops })], work := [witW opc] } }
def witOp (opc : Nat) : FlashOp :=
  { id := 7, q := 0, cid := 0, opc := opc, offset := 0x1FFFFFC, length := 4, image := 0, host := 0, data := [1, 2, 3, 4] }
def witRes : FlashResult := { readbackOk := true, headerOk := true, version := 0 }
def witSw (started : Bool) : FwSwitch := { id := 7, q := 0, cid := 0, image := 1, started := started, deadline := 5 }
def witSeq (q : Nat) (x : Seq) (d : Dev) : Dev := d.setSeq q x
def refBit : Fld × Nat := (clkRefPresent, 1)
def witWr (off : BitVec 32) (v : Word) : List CfgWrite := [⟨0x6000C, 1⟩, ⟨off, v⟩]
def witCfg (off : BitVec 32) : CfgWait := { id := 7, q := 0, cid := 0, boundary := 0, td := 0, writes := witWr off 1, ready := true }
def witRun0 : List (Fld × Nat) := [(seqState 0, 1), (⟨0x100008, 0, 32⟩, 1)]
def witDw (n : Nat) (d : Dev) : Dev := d.setDie 3 { Die.init with lastWr := some { addr := 0x11C0000, old := 0, attempts := n, descId := none } }
/-- A test step: its fields, each at a byte. -/
def witStep (ops : List (Nat × Nat)) : StepData := { raw := BitVec.ofNat 1024 (witX 0 ops), perch := [], jobs := [] }
/-- An open RUN of site 0 with touchdown ID 9. -/
def witRun (ph : Phase) (k : Nat) (steps : List StepData) (res : List Res := []) : OpenRun :=
  { id := 5, q := 0, cid := 0, td := 9, sites := 1, stepCount := steps.length, startStep := 0, prior := 0, passBin := 1, retestBin := 2,
    steps := steps, hdr := 0, startTb := 0, phase := ph, k := k, dueAt := 0, ccAt := 60, startAt := 40, reloading := false,
    pllWait := [], res := res, masked := 0, carryBad := 0, progress := 0, cut := false, aborted := false, partialE := false,
    underrun := false, marks := [], pend := 0, first := [], reserve := [], latestEnd := 0, guardEnd := 80, verdicts := [],
    maxSettle := 0, flogDrop := 0, missing := [], mirSt := 0, mirSeq := 0, twinHeld := false }
def witRs (unit : Nat) (settled : Bool) (codes : List Nat) : Res :=
  { site := 0, j := 0, unit := unit, begun := true, startTb := 0, settled := settled, t0 := 0, rdTb := 0, compl := false,
    samples := codes, readings := [], left := 0, flags := 0, ents := [], fin := none, post := [], written := false }
/-- Awake, with open RUNs. -/
def witRuns (rs : List OpenRun) (fs : List (Fld × Nat) := []) (f : Dev → Dev := id) : State :=
  witUp fs fun d => f { d with runs := rs, host := { d.host with
    work := rs.map fun r => ({ id := r.id, q := r.q, cid := r.cid, opc := opRun } : Work) } }
def witPp : StepData := witStep [(0, 2), (4, 1), (32, 2), (64, 1), (72, 10), (76, 4)]
def witAu (a : Nat) (x : Au) (d : Dev) : Dev := { d with aus := Tab.set (fun _ => Au.init) d.aus a x }
def witDse (e : Nat) (x : Dse) (d : Dev) : Dev := { d with dses := Tab.set (fun _ => Dse.init) d.dses e x }
def witJob (run : Option Nat) : Job :=
  { run := run, step := 1, ppmu := false, site := 0, ch := 0, unit := 0, j := 0, n := 1, jobNo := 0, test := 0, kid := 3, engines := 0x8000,
    params := [], asks := [], samples := [], startTb := 0, views := [] }
/-- An instruction word: its opcode and its fields, each at a bit. -/
def witI (opc : Nat) (fs : List (Nat × Nat)) : Nat := fs.foldl (fun w p => w + p.2 <<< p.1) (opc <<< 58)
/-- Engine 3 with an active job, before an instruction word. -/
def witEng (w : Nat) (rf : Tab Nat) (f : Dev → Dev := id) : State :=
  witUp [(dseState 3, 2)] fun d =>
    f (witDse 3 { Dse.init with job := some (witJob none), code := 2, rf := rf } (d.st (dseInstr 3 0) 8 w))
def witRf : Tab Nat := [(0, 0x7FFFFFFFFF), (1, 0xFFFFF), (2, 0x8000000000), (3, 5)]
def witRa : Tab Nat := witRf ++ [(0x10, 0x7FFFFFFFFFFF), (0x11, 5), (0x12, 0x800000000000), (0x13, 7), (0x3A, 1)]
/-- A move slot: its operation, register, pointer and post-modification. -/
def witM (op r p pm : Nat) : Nat := op * 2 ^ 13 + r * 2 ^ 9 + p * 2 ^ 6 + pm * 2 ^ 4
def witRp : Tab Nat := witRa ++ [(0x1A, 0xFFFF), (0x22, 0xFFFFFE), (0x2A, 10), (0x32, 0xFFFA), (0x38, 0x1234567890)]
/-- A fetched line of an operation with an operand. -/
def witL (op cond operand : Nat) : FLine :=
  { ref := ⟨false, 5⟩, cw := op * 2 ^ 24 + cond * 2 ^ 28 + operand * 2 ^ 32 + 3 * 2 ^ 16, syms := [2, 3, 4, 5], plays := 1, fresh := true, go := false, tgt := false }
/-- Sequencer 0 in a state, with a queue, at master period 100; it owns quad 0. -/
def witPlay (st : Nat) (x : Seq) (fs : List (Fld × Nat) := []) : State :=
  witUp ([(seqState 0, st), (⟨0x100008, 0, 32⟩, 1), (seqMkrOut 0, 1)] ++ fs) (witSeq 0 x)
def witX0 (q : List FLine) : Seq := { Seq.init with pos := 409600, tick := 100, queue := q, step := 1 }
def witMa (endAt : Option Rat) : MatchSt := { start := 5, matched := 1, played := 4, limit := 4, endAt := endAt, lastH := 409600 }
def witQ (fs : List (Fld × Nat)) (f : Dev → Dev := id) : State := wit ([(hostSqEn, 1), (hostCqEn, 3)] ++ fs) f
def witF : State := witQ [(sqTail 0, 1), (hostGen, 5), (pwrState, 0), (⟨0x10008, 0, 32⟩, 0)]
def witImg : List Byte :=
  let hd : List Byte := [0xE1, 0xD5, 1, 0, 0, 0, 1, 0, 0, 0, 0, 0, 0x40, 0, 1, 0] ++ List.replicate 44 0
  let code : List Byte := List.replicate 8 0
  hd ++ toBytes 4 (crc32 ((hd ++ code).map fun b => b.toNat)) ++ code
def witDir : List DirEntry := [{ addr := 4, lines := 1, loopXing := false, crc := BitVec.ofNat 32 (crc32 [1, 2, 3, 4, 5, 6, 7, 8]) }]
def witStm (again : Bool) (att : Option Work) : Strm :=
  { Strm.init with dir := witDir, slots := [(0, { chunk := 0, st := .reading again, used := true, vgen := 3 })], attach := att }
/-- Channel 0 belongs to site 0. -/
def witSite : Fld × Nat := (siteMap 0, 0x80)
def witRunX : Nat := witX opRun [(8, 9), (24, 1), (36, 1), (44, 3), (46, 4)]
def witDsp : StepData := { witStep [(0, kDsp), (4, 1), (32, 1), (34, 3), (36, 1)] with jobs := [0] }
def witPat : StepData := witStep [(0, kPattern), (4, 1), (32, 1)]
def witUse : PpmuUse :=
  { td := 9, force := 1, meas := 0, range := 0, wf := false, iclamp := 0, code := 0, vhi := 0, vlo := 0, settle := 0, samples := 1, engine := 0, kid := 0 }
def witClosing : Dev → Dev := fun d => { d with alm := { d.alm with queue := [5] } }
def witTracked : List (Fld × Nat) := [(⟨0x510000, 0, 32⟩, 77), (⟨0x510004, 0, 32⟩, 10), (⟨0x51000C, 0, 32⟩, 1034), (⟨0x510024, 0, 2⟩, 1)]
def witOne : Dev → Dev := fun d => d.setAlmEnt 0 { AlmEnt.init with win := [1, 2], twin := [(3, 1)], ext := [(4, 1)] }
def witCfgRec : List Byte := toBytes 4 78 ++ toBytes 4 10 ++ toBytes 4 0 ++ toBytes 4 500 ++ List.replicate 20 0 ++ toBytes 4 0x10601 ++ toBytes 4 1024 ++ toBytes 4 32 ++ toBytes 4 0 ++ List.replicate 12 0
def witTemps : List (Fld × Nat) := (List.range 16).map fun i => (calTempValid i, 1)
def witTempOk (s : State) : Prop := ∀ j, j < 16 → ∃ t : Rat, s.dev.sectorTemp j = some t ∧ t - (pointTemp 1 : Rat) ≤ 320 ∧ -320 ≤ t - (pointTemp 1 : Rat)
def witCal (op : Nat) (resel : Bool) : CalRun :=
  { work := witW opCalRun, op := op, sectors := 1, items := 127, point := 2, resel := resel, todo := [(0, 0), (3, 0), (3, 3)], aborted := 4, status := stOk }
def witObs (item : Fin 7) (pa : Int) (met : Bool) : CalObs :=
  { ch := 3, item := item, pinPa := pa, coefs := [⟨0, 70000⟩], fallback := [], met := met, metFb := false, residT := 3, residL := 4, eyeWidth := 70000, eyeHeight := 5 }
def witRep : Report := { src := 0x10, chk := 2, cls := 0, t := 5, lat := some 0, syn := 1, det := 2, scope := 1, level := false, inj := false, real := false }
def witAcq : StepData := witStep [(0, kAcq), (4, 1), (32, 1)]
def witAcqR : OpenRun := witRun .running 1 [witAcq] [witRs 0 true []]
def witAcqS : State := witRuns [witAcqR] [(auState 0, 1), witSite] (witAu 0 { Au.init with waitEnd := some 60, run := some 5, armTb := 3 })
def witTw (fs : List (Fld × Nat)) (f : Dev → Dev := id) : State := witUp ([(twinLink, 2), (twinEn, 1)] ++ fs) f
def witTs (g : TwinSt → TwinSt) : Dev → Dev := fun d => { d with twin := g d.twin }
def witMir (st : Nat) : Dev → Dev := fun d => (d.st (mirAddr 63) 8 9).st (mirAddr 63 + 8) 1 st
def witTp (g : TpSt → TpSt) : Dev → Dev := fun d => { d with tp := g d.tp }

theorem test_witness_PowerOnResetRestoresResetValues (h : Obligations.PowerOnResetRestoresResetValues) :
    Completes (.porst true) (wit []) :=
  (h (wit []) true).completes

theorem test_witness_PlatformResetAndHostLinkTouchTheHostBlockOnly (h : Obligations.PlatformResetAndHostLinkTouchTheHostBlockOnly) :
    Completes (.perst) (witUp []) ∧
    Completes (.hostLinkUp 5 8) (wit []) ∧
    Completes (.hostLinkDown) (wit [(hostGen, 5), (hostWidth, 8), (twinHostLoss, 3)]) :=
  ⟨(h.1 (witUp []) rfl).completes,
   (h.2.1 (wit []) 5 8 (by decide) (by decide) (by decide)).completes,
   (h.2.2 (wit [(hostGen, 5), (hostWidth, 8), (twinHostLoss, 3)]) (by decide)).completes⟩

theorem test_witness_BootHkcAndTapCommands (h : Obligations.BootHkcAndTapCommands) :
    Completes (.boot) (wit [] (fun d => { d with pwr := { d.pwr with porstLow := true } })) ∧
    Completes (.hkcReady) (witUp []) ∧
    Completes (.hkcRestart) (witUp []) ∧
    Completes (.tapReset) (wit []) ∧
    Completes (.tapParkInstruction) (witUp []) :=
  ⟨(h.1 (wit [] (fun d => { d with pwr := { d.pwr with porstLow := true } })) (by decide) (by decide) (by decide) (by decide) (fun _ _ => rfl)).completes,
   (h.2.1 (witUp []) (by decide) (by decide) (by decide)).completes,
   (h.2.2.1 (witUp []) (by decide) (by decide)).completes,
   (h.2.2.2.1 (wit [])).completes,
   (h.2.2.2.2 (witUp []) (by decide) (by decide)).completes⟩

theorem test_witness_RailMonitorsReportAndPark (h : Obligations.RailMonitorsReportAndPark) :
    Completes (.pwrRail 11) (wit []) ∧
    Completes (.pwrRail 6) (wit []) ∧
    Completes (.railInRange 8) (wit [(⟨pwrRailCore.addr, 8, 1⟩, 0)]) :=
  ⟨(h.1 (wit []) 11 (by decide) (by decide) (by decide)).completes,
   (h.1 (wit []) 6 (by decide) (by decide) (by decide)).completes,
   (h.2 (wit [(⟨pwrRailCore.addr, 8, 1⟩, 0)]) 8 (by decide) (by decide)).completes⟩

theorem test_witness_StandbyIsEnteredAndLeft (h : Obligations.StandbyIsEnteredAndLeft) :
    Completes (.p1IdleExpiry) (witUp [(pllState 0, 3)]) ∧
    Completes (.p2IdleExpiry) (wit [(pwrP2s, 1)]) ∧
    Completes (.pinStateWrite 3) (witUp []) ∧
    Completes (.wake true) (wit [] (fun d => { d with pwr := { d.pwr with booted := true } })) ∧
    Completes (.sysRampStart) (wit [(pllState 0, 2)] (fun d => { d with pwr := { d.pwr with booted := true, wakeWhy := 1 } })) ∧
    Completes (.sysRampEnd) (wit [(pllState 0, 3)] (fun d => { d with pwr := { d.pwr with booted := true, wakeWhy := 2, ramp := .up } })) ∧
    Completes (.sysStop) (wit [] (fun d => { d with pwr := { d.pwr with ramp := .down, rampEnd := 5 } })) :=
  ⟨(h.1 (witUp [(pllState 0, 3)]) (by decide) (by decide) (by decide)).completes,
   (h.2.1 (wit [(pwrP2s, 1)]) (by decide) (by decide) (by decide) (by decide) (by decide)).completes,
   (h.2.2.1 (witUp []) 3).completes,
   (h.2.2.2.1 (wit [] (fun d => { d with pwr := { d.pwr with booted := true } })) (by decide) (by decide) (by decide) (by decide) (by decide)).completes,
   (h.2.2.2.2.1 (wit [(pllState 0, 2)] (fun d => { d with pwr := { d.pwr with booted := true, wakeWhy := 1 } })) (by decide) (by decide) (by decide) (by decide)).completes,
   (h.2.2.2.2.2.1 (wit [(pllState 0, 3)] (fun d => { d with pwr := { d.pwr with booted := true, wakeWhy := 2, ramp := .up } })) (by decide) (by decide) (by decide) (by decide) (by decide) (by decide) (by decide)).completes,
   (h.2.2.2.2.2.2 (wit [] (fun d => { d with pwr := { d.pwr with ramp := .down, rampEnd := 5 } })) (by decide)).completes⟩

theorem test_witness_FlashReadsAnywhereAndWritesOnlyInTheUserArea (h : Obligations.FlashReadsAnywhereAndWritesOnlyInTheUserArea) :
    Completes (.flashRead 0) (witD opFlashRead [(8, 0x1FFFFF0), (12, 16)]) ∧
    Completes (.flashOperationDone 0 { readbackOk := true, headerOk := true, version := 0 }) (witUp [] (fun d => { d with pwr := { d.pwr with flashOps := [witOp opFlashRead] } })) ∧
    Completes (.flashWrite 0 [] true) (witD opFlashWrite [(8, 0x18FFFFF), (12, 1)]) ∧
    Completes (.flashWrite 0 [] true) (witD opFlashWrite [(8, 0x1FFFFFF), (12, 2)]) :=
  ⟨(h.1 (witD opFlashRead [(8, 0x1FFFFF0), (12, 16)]) 0 (witX opFlashRead [(8, 0x1FFFFF0), (12, 16)]) (witW opFlashRead) (by decide) (by decide) (by decide)).completes,
   (h.2.1 (witUp [] (fun d => { d with pwr := { d.pwr with flashOps := [witOp opFlashRead] } })) 0 { readbackOk := true, headerOk := true, version := 0 } (witOp opFlashRead) (by decide) (by decide)).completes,
   (h.2.2 (witD opFlashWrite [(8, 0x18FFFFF), (12, 1)]) 0 [] true (witX opFlashWrite [(8, 0x18FFFFF), (12, 1)]) (witW opFlashWrite) (by decide) (by decide) (by decide)).completes,
   (h.2.2 (witD opFlashWrite [(8, 0x1FFFFFF), (12, 2)]) 0 [] true (witX opFlashWrite [(8, 0x1FFFFFF), (12, 2)]) (witW opFlashWrite) (by decide) (by decide) (by decide)).completes⟩

theorem test_witness_FlashWritesEraseProgramAndSwitchImages (h : Obligations.FlashWritesEraseProgramAndSwitchImages) :
    Completes (.flashWrite 0 [1, 2] true) (witD opFlashWrite [(8, 0x1FFFFFE), (12, 2)]) ∧
    Completes (.flashOperationDone 0 witRes) (witUp [] (fun d => { d with pwr := { d.pwr with flashOps := [witOp opFlashWrite] } })) ∧
    Completes (.fwStage 0 [5] true) (witD opFwStage [(8, 1), (12, 1)]) ∧
    Completes (.fwStage 0 [] false) (witD opFwStage [(8, 1), (12, 0x3FF000)] [(pwrFwImage, 1)]) ∧
    Completes (.fwSwitch 0) (witD opFwSwitch [(8, 1)] [(pwrFwStaged 1, 1)]) ∧
    Completes (.fwSwitch 0) (witD opFwSwitch [(8, 1)] [(pwrFwStaged 0, 1)]) ∧
    Completes (.fwImageReady) (witUp [(pwrFwStaged 1, 1)] (fun d => { d with pwr := { d.pwr with fwSwitch := some (witSw true) } })) ∧
    Completes (.fwReadyTimeout) (witUp [] (fun d => { d with pwr := { d.pwr with fwSwitch := some (witSw true) } })) :=
  ⟨(h.1.1 (witD opFlashWrite [(8, 0x1FFFFFE), (12, 2)]) 0 [1, 2] (witX opFlashWrite [(8, 0x1FFFFFE), (12, 2)]) (witW opFlashWrite) (by decide) (by decide) (by decide) (by decide) (by decide)).completes,
   (h.1.2.1 (witUp [] (fun d => { d with pwr := { d.pwr with flashOps := [witOp opFlashWrite] } })) 0 witRes (witOp opFlashWrite) (by decide) (by decide) (by decide) (by decide) (by decide)).completes,
   (h.1.2.2.1 (witD opFwStage [(8, 1), (12, 1)]) 0 [5] (witX opFwStage [(8, 1), (12, 1)]) (witW opFwStage) (by decide) (by decide) (by decide) (by decide) (by decide) (by decide) (by decide)).completes,
   (h.1.2.2.2 (witD opFwStage [(8, 1), (12, 0x3FF000)] [(pwrFwImage, 1)]) 0 [] false (witX opFwStage [(8, 1), (12, 0x3FF000)]) (witW opFwStage) (by decide) (by decide) (by decide) (by decide) (by decide)).completes,
   (h.2.1 (witD opFwSwitch [(8, 1)] [(pwrFwStaged 1, 1)]) 0 (witX opFwSwitch [(8, 1)]) (witW opFwSwitch) (by decide) (by decide) (by decide) (by decide) (by decide)).completes,
   (h.2.2.1 (witD opFwSwitch [(8, 1)] [(pwrFwStaged 0, 1)]) 0 (witX opFwSwitch [(8, 1)]) (witW opFwSwitch) (by decide) (by decide) (by decide) (by decide)).completes,
   (h.2.2.2.1 (witUp [(pwrFwStaged 1, 1)] (fun d => { d with pwr := { d.pwr with fwSwitch := some (witSw true) } })) (witSw true) (by decide) (by decide) (by decide) (by decide)).completes,
   (h.2.2.2.2 (witUp [] (fun d => { d with pwr := { d.pwr with fwSwitch := some (witSw true) } })) (witSw true) (by decide) (by decide)).completes⟩

theorem test_witness_SectorsAndEdgeDiesLeaveAndReenterService (h : Obligations.SectorsAndEdgeDiesLeaveAndReenterService) :
    Completes (.sectorQuiesce 0) (witD opSectorQuiesce [(8, 0x8001)]) ∧
    Completes (.sectorQuiesce 0) (witD opSectorQuiesce [(8, 0x8001)] [(⟨0x100008, 0, 32⟩, 1), (seqState 0, 1)]) ∧
    Completes (.sectorResume 0) (witD opSectorResume [(8, 0xF00F), (10, 1)] [(pwrQuiesced, 0xFFFF)] (fun d => d.setDie 0 { Die.init with parkOrd := true, parked := true })) ∧
    Completes (.edgePark 3) (witUp [] (fun d => d.setDie 3 { Die.init with parkRail := true })) ∧
    Completes (.edgeUnpark 3) (witUp [] (fun d => d.setDie 3 { Die.init with parked := true })) :=
  ⟨(h.1.1 (witD opSectorQuiesce [(8, 0x8001)]) 0 (witX opSectorQuiesce [(8, 0x8001)]) (witW opSectorQuiesce) (by decide) (by decide) (by decide)).completes,
   (h.1.2.1 (witD opSectorQuiesce [(8, 0x8001)] [(⟨0x100008, 0, 32⟩, 1), (seqState 0, 1)]) 0 (witX opSectorQuiesce [(8, 0x8001)]) (witW opSectorQuiesce) 0 (by decide) (by decide) (by decide) (by decide) (by decide)).completes,
   (h.1.2.2 (witD opSectorResume [(8, 0xF00F), (10, 1)] [(pwrQuiesced, 0xFFFF)] (fun d => d.setDie 0 { Die.init with parkOrd := true, parked := true })) 0 (witX opSectorResume [(8, 0xF00F), (10, 1)]) (witW opSectorResume) (by decide)).completes,
   (h.2.1 (witUp [] (fun d => d.setDie 3 { Die.init with parkRail := true })) 3 (by decide) (by decide) (by decide) (by decide) (by decide) (by decide)).completes,
   (h.2.2 (witUp [] (fun d => d.setDie 3 { Die.init with parked := true })) 3 (by decide) (by decide)).completes⟩

theorem test_witness_ReferenceLossCoastsAndReturnIsBuiltOut (h : Obligations.ReferenceLossCoastsAndReturnIsBuiltOut) :
    Completes (.refLost) (witUp [(pllState 0, 3), (pllState 1, 2), (⟨clkRefPresent.addr, clkRefPresent.lo, 1⟩, 1)] (fun d => d.setPll 0 { PllSt.init with avg := true })) ∧
    Completes (.refFound) (witUp [(pllState 0, 4), (pllState 1, 2)]) ∧
    Completes (.pllReturnMeasured 1 0xFFFFF0) (witUp [(pllState 1, 5), (⟨clkRefPresent.addr, clkRefPresent.lo, 1⟩, 1)]) ∧
    Completes (.ckxSlewDone 2) (witUp [(pllState 2, 5)] (fun d => d.setPll 2 { PllSt.init with slewing := true })) :=
  ⟨(h.1.1 (witUp [(pllState 0, 3), (pllState 1, 2), (⟨clkRefPresent.addr, clkRefPresent.lo, 1⟩, 1)] (fun d => d.setPll 0 { PllSt.init with avg := true })) (by decide) (by decide)).completes,
   (h.1.2 (witUp [(pllState 0, 4), (pllState 1, 2)]) (by decide)).completes,
   (h.2.1 (witUp [(pllState 1, 5), (⟨clkRefPresent.addr, clkRefPresent.lo, 1⟩, 1)]) 1 0xFFFFF0 (by decide) (by decide) (by decide)).completes,
   (h.2.2 (witUp [(pllState 2, 5)] (fun d => d.setPll 2 { PllSt.init with slewing := true })) 2 (by decide) (by decide)).completes⟩

theorem test_witness_PllStatesFollowTheLockDetector (h : Obligations.PllStatesFollowTheLockDetector) :
    Completes (.pllBandChosen 1 63 5) (witUp [refBit, (pllState 1, 1)]) ∧
    Completes (.pllLockCriterionMet 2) (witUp [refBit, (pllState 2, 2), (pllFnow 2, 12345)]) ∧
    Completes (.pllAcqTimeout 1) (witUp [refBit, (pllState 1, 2)] (fun d => d.setPll 1 { PllSt.init with toAt := 9, fails := 2 })) ∧
    Completes (.lockLost 0) (witUp [refBit, (pllState 0, 3), (pllLockBit 0, 1)]) ∧
    Completes (.pllOpenRecovery 1) (witUp [refBit, (pllState 1, 6)]) :=
  ⟨(h.1 (witUp [refBit, (pllState 1, 1)]) 1 63 5 (by decide)).completes,
   (h.2.1 (witUp [refBit, (pllState 2, 2), (pllFnow 2, 12345)]) 2 (by decide) (by decide) (by decide)).completes,
   (h.2.2.1 (witUp [refBit, (pllState 1, 2)] (fun d => d.setPll 1 { PllSt.init with toAt := 9, fails := 2 })) 1 (by decide) (by decide) (by decide)).completes,
   (h.2.2.2.1 (witUp [refBit, (pllState 0, 3), (pllLockBit 0, 1)]) 0 (by decide) (by decide)).completes,
   (h.2.2.2.2 (witUp [refBit, (pllState 1, 6)]) 1 (by decide) (by decide) (by decide)).completes⟩

theorem test_witness_FrequenciesCommitWalkAndRamp (h : Obligations.FrequenciesCommitWalkAndRamp) :
    Completes (.pllFreqCommit 1) (witUp [] (fun d => { d with shadow := [((pllHz 1).addr, some 1000000)] })) ∧
    Completes (.pllFreqWalkDone 2) (witUp [(pllState 2, 3)] (fun d => d.setPll 2 { PllSt.init with walking := true })) ∧
    Completes (.rampGo 1) (witUp [(pllState 1, 3), (pllRptTarget 1 0, 1000), (pllRptTarget 1 1, 1050)] (fun d => d.setPll 1 { PllSt.init with lockHz := 1000 })) ∧
    Completes (.rampTrigger 2) (witUp [(pllState 2, 3), (pllRampSrc 2, 1), (pllRptTarget 2 0, 950), (pllRptTarget 2 1, 1050)] (fun d => d.setPll 2 { PllSt.init with lockHz := 1000 })) ∧
    Completes (.rampSegmentEnd 1 true) (witUp [(pllState 1, 3), (pllRamp 1, 1)] (fun d => d.setPll 1 { PllSt.init with rampIdx := 63 })) ∧
    Completes (.rampStop 1) (witUp [(pllState 1, 3), (pllRamp 1, 1)]) ∧
    Completes (.relock .host 2) (witUp [refBit, (pllState 2, 7)]) :=
  ⟨(h.1.1 (witUp [] (fun d => { d with shadow := [((pllHz 1).addr, some 1000000)] })) 1 1000000 (by decide) (by decide) (by decide) (by decide)).completes,
   (h.1.2 (witUp [(pllState 2, 3)] (fun d => d.setPll 2 { PllSt.init with walking := true })) 2 (by decide) (by decide)).completes,
   ((h.2.1 (witUp [(pllState 1, 3), (pllRptTarget 1 0, 1000), (pllRptTarget 1 1, 1050)] (fun d => d.setPll 1 { PllSt.init with lockHz := 1000 })) 1 (by decide) (by decide) (by decide) (by decide)).1 (by decide)).completes,
   ((h.2.1 (witUp [(pllState 2, 3), (pllRampSrc 2, 1), (pllRptTarget 2 0, 950), (pllRptTarget 2 1, 1050)] (fun d => d.setPll 2 { PllSt.init with lockHz := 1000 })) 2 (by decide) (by decide) (by decide) (by decide)).2 (by decide)).completes,
   (h.2.2.1 (witUp [(pllState 1, 3), (pllRamp 1, 1)] (fun d => d.setPll 1 { PllSt.init with rampIdx := 63 })) 1 true (by decide) (by decide) (by decide)).completes,
   (h.2.2.2.1 (witUp [(pllState 1, 3), (pllRamp 1, 1)]) 1 (by decide) (by decide)).completes,
   (h.2.2.2.2 (witUp [refBit, (pllState 2, 7)]) 2 .host (by decide) (by decide) (by decide)).completes⟩

theorem test_witness_SyncAlignsTheTimebase (h : Obligations.SyncAlignsTheTimebase) :
    Completes (.syncAlignRequest true) (wit []) ∧
    Completes (.syncCancel) (wit [(clkAlignPend, 1)]) ∧
    Completes (.syncArrival) (witUp [(clkAlignPend, 1), (clkSyncLoad, 77), (clkSyncLoadHi, 3)]) :=
  ⟨(h.1 (wit []) true).completes,
   (h.2.1 (wit [(clkAlignPend, 1)])).completes,
   (h.2.2 (witUp [(clkAlignPend, 1), (clkSyncLoad, 77), (clkSyncLoadHi, 3)]) (by decide) (by decide) (by decide) (by decide)).completes⟩

theorem test_witness_RegisterWritesFollowAccessAndOwner (h : Obligations.RegisterWritesFollowAccessAndOwner) :
    Completes (.registerWrite .hkc 0x1000000 5) (witUp [(seqState 0, 1), (⟨0x100008, 0, 32⟩, 1)]) ∧
    Completes (.registerWrite .host 0x6000C 0xFFFFFFFF) (wit []) ∧
    Completes (.registerWrite .host 4 7) (wit []) ∧
    Completes (.registerWrite .host 0x1FFFFFC 7) (wit []) :=
  ⟨(h.1.1 (witUp [(seqState 0, 1), (⟨0x100008, 0, 32⟩, 1)]) .hkc 0x1000000 5 ⟨.rwl, 0x3F, 0, .chan 0⟩ (by decide) (by decide) (by decide) (by decide)).completes,
   (h.1.2 (wit []) .host 0x6000C 0xFFFFFFFF ((regInfo 0x6000C).getD ⟨.ro, 0, 0, .never⟩) (by decide) (by decide) (by decide) (by decide)).completes,
   (h.2.1 (wit []) .host 4 7 ((regInfo 4).getD ⟨.rw, 0, 0, .never⟩) (by decide) (by decide)).completes,
   (h.2.2 (wit []) .host 0x1FFFFFC 7 (by decide) (by decide)).completes⟩

theorem test_witness_LowWordReadLatchesTheHighWord (h : Obligations.LowWordReadLatchesTheHighWord) :
    Completes (.lowWordRead .hkc 0x20018) (wit [] (fun d => { d with tb := 0xFFFFFFFFFFFFFFFF })) :=
  (h (wit [] (fun d => { d with tb := 0xFFFFFFFFFFFFFFFF })) .hkc 0x20018 ((regInfo 0x2001C).getD ⟨.rw, 0, 0, .never⟩) (by decide) (by decide)).completes

theorem test_witness_OwnershipFlagAndCounterRegisters (h : Obligations.OwnershipFlagAndCounterRegisters) :
    Completes (.siteMapWrite .host 255 0xFF) (witUp []) ∧
    Completes (.seqQuadsWrite .host 15 true 5) (witUp []) ∧
    Completes (.seqRegionWrite .host 3 true 100) (witUp []) ∧
    Completes (.seqRegionWrite .host 3 false 100) (witUp []) ∧
    Completes (.auSrcWrite .hkc 31 0x80000001) (witUp []) ∧
    Completes (.auAllocWrite .host 0 0x10001) (witUp []) ∧
    Completes (.genErrClrLocked) (wit [(genErrLocked, 5)]) ∧
    Completes (.genErrClrAccess) (wit [(genErrAccess, 5)]) ∧
    Completes (.seqFlagWrite 15 0x1FF) (witUp []) ∧
    Completes (.trigInEdge 3 true) (wit []) ∧
    Completes (.shadowCommit .fcuClass) (witUp [] (fun d => { d with shadow := [(0x301FC, some 9)] })) :=
  ⟨(h.1.1 (witUp []) .host 255 0xFF (by decide) (by decide)).completes,
   (h.1.2.1 (witUp []) .host 15 true 5 (by decide) (by decide)).completes,
   ((h.1.2.2.1 (witUp []) .host 3 100 (by decide) (by decide)).1).completes,
   ((h.1.2.2.1 (witUp []) .host 3 100 (by decide) (by decide)).2).completes,
   (h.1.2.2.2.1 (witUp []) .hkc 31 0x80000001 (by decide) (by decide)).completes,
   (h.1.2.2.2.2 (witUp []) .host 0 0x10001 (by decide) (by decide)).completes,
   (h.2.1.1 (wit [(genErrLocked, 5)])).completes,
   (h.2.1.2 (wit [(genErrAccess, 5)])).completes,
   (h.2.2.1 (witUp []) 15 0x1FF (by decide) (by decide)).completes,
   (h.2.2.2.1 (wit []) 3 true (by decide)).completes,
   (h.2.2.2.2 (witUp [] (fun d => { d with shadow := [(0x301FC, some 9)] })) 0x301FC 9 (by decide) (by decide) (by decide) (by decide)).completes⟩

theorem test_witness_ConfigBlockAppliesAllOrNothing (h : Obligations.ConfigBlockAppliesAllOrNothing) :
    Completes (.configBlock 0 (witWr 0x1000000 1) true) (witD opConfigBlock [(10, 2)] [(seqState 0, 1), (⟨0x100008, 0, 32⟩, 1)]) ∧
    Completes (.configBlock 0 (witWr 0x60010 1) true) (witD opConfigBlock [(10, 2)]) ∧
    Completes (.configBlock 0 (witWr 0x60012 1) true) (witD opConfigBlock [(10, 2)]) ∧
    Completes (.configBlockApply 0) (witUp [] (fun d => { d with host := { d.host with cfgs := [witCfg 0x60010], work := [witW opConfigBlock] } })) ∧
    Completes (.configBlockApply 0) (witUp witRun0 (fun d => { d with host := { d.host with cfgs := [witCfg 0x1000000], work := [witW opConfigBlock] } })) :=
  ⟨(h.1 (witD opConfigBlock [(10, 2)] [(seqState 0, 1), (⟨0x100008, 0, 32⟩, 1)]) 0 (witWr 0x1000000 1) (witX opConfigBlock [(10, 2)]) (witW opConfigBlock) (by decide) (by decide) (by decide) (by decide)).completes,
   (h.2.1 (witD opConfigBlock [(10, 2)]) 0 (witWr 0x60010 1) (witX opConfigBlock [(10, 2)]) (witW opConfigBlock) ((cfgFold (witWr 0x60010 1) (witD opConfigBlock [(10, 2)]).dev).getD Dev.init) (by decide) (by decide) (by decide) (by decide) (by decide)).completes,
   (h.2.2.1 (witD opConfigBlock [(10, 2)]) 0 (witWr 0x60012 1) (witX opConfigBlock [(10, 2)]) (witW opConfigBlock) (by decide) (by decide) (by decide) (by decide) (by decide)).completes,
   ((h.2.2.2 (witUp [] (fun d => { d with host := { d.host with cfgs := [witCfg 0x60010], work := [witW opConfigBlock] } })) 0 (witCfg 0x60010) ((cfgFold (witWr 0x60010 1) { (witUp [] (fun d => { d with host := { d.host with cfgs := [witCfg 0x60010], work := [witW opConfigBlock] } })).dev with host := { (witUp [] (fun d => { d with host := { d.host with cfgs := [witCfg 0x60010], work := [witW opConfigBlock] } })).dev.host with cfgs := [] } }).getD Dev.init) (by decide)).2 (by decide) (by decide)).completes,
   ((h.2.2.2 (witUp witRun0 (fun d => { d with host := { d.host with cfgs := [witCfg 0x1000000], work := [witW opConfigBlock] } })) 0 (witCfg 0x1000000) Dev.init (by decide)).1 (by decide)).completes⟩

theorem test_witness_LevelsLoadAndChannelsLeaveHighImpedance (h : Obligations.LevelsLoadAndChannelsLeaveHighImpedance) :
    Completes (.levelCodeWrite 255 10 0xFFFF) (witUp []) ∧
    Completes (.levelCodeWrite 0 0 0xFFFF) (witUp [(peIdeal 0 1, 0)]) ∧
    Completes (.peLvlUpdWrite .host 255 0xFFFF) (witUp []) ∧
    Completes (.deglitchRelease 3 4) (witUp [] (fun d => d.setChan 3 { Chan.init with dacs := Tab.set Dac.init [] 4 { out := 1, holding := true, holdEnd := 60 } })) ∧
    Completes (.peCtrlWrite .host 9 0x1F) (witUp []) ∧
    Completes (.peCtrlWrite .host 9 0x20) (witUp []) ∧
    Completes (.peFaultClear 9 0xFFFFFFF6) (witUp [(peFault 9, 15), (peCntRej 9, 7)]) ∧
    Completes (.peTimClr 9) (witUp [(peTimCnt 9, 7)]) ∧
    Completes (.hizExit 9) (witUp [(⟨peCtrlAddr 9, 5, 1⟩, 1)]) :=
  ⟨(h.1.1 (witUp []) 255 10 0xFFFF (by decide) (by decide) (by decide) (by decide) (by decide) (by decide) (by decide) (by decide) (by decide)).completes,
   (h.1.2.1 (witUp [(peIdeal 0 1, 0)]) 0 0xFFFF (by decide) (by decide) (by decide) (by decide) (by decide)).completes,
   (h.1.2.2.1 (witUp []) .host 255 0xFFFF (by decide) (by decide)).completes,
   (h.1.2.2.2 (witUp [] (fun d => d.setChan 3 { Chan.init with dacs := Tab.set Dac.init [] 4 { out := 1, holding := true, holdEnd := 60 } })) 3 4 (by decide)).completes,
   (h.2.1 (witUp []) .host 9 0x1F (by decide) (by decide) (by decide)).completes,
   (h.2.2.1 (witUp []) .host 9 0x20 (by decide) (by decide) (by decide) (by decide) (by decide)).completes,
   (h.2.2.2.1 (witUp [(peFault 9, 15), (peCntRej 9, 7)]) 9 0xFFFFFFF6 (by decide)).completes,
   (h.2.2.2.2.1 (witUp [(peTimCnt 9, 7)]) 9 (by decide)).completes,
   (h.2.2.2.2.2 (witUp [(⟨peCtrlAddr 9, 5, 1⟩, 1)]) 9 (by decide) (by decide) (by decide) (by decide)).completes⟩

theorem test_witness_SupervisionTripsChannelsAndDieLinksReport (h : Obligations.SupervisionTripsChannelsAndDieLinksReport) :
    Completes (.drvOc 255) (witUp [(peHiz 255, 0)]) ∧
    Completes (.clampOc 0) (witUp [(peHiz 0, 0), (peClampEn 0, 1)]) ∧
    Completes (.loadCompl 0) (witUp [(peHiz 0, 0), (⟨peCtrlAddr 0, 0, 6⟩, 0x3F), (peOffMode 0, 0)]) ∧
    Completes (.d2dCrcOut 3 0x8 5) (witUp []) ∧
    Completes (.d2dCrcIn 3 0x8 5 1 []) (witUp []) ∧
    Completes (.d2dEcho 3 0x8 5) (witUp []) ∧
    Completes (.d2dConfigAckTimeout 3) (witUp [] (witDw 3)) :=
  ⟨(h.1.1 (witUp [(peHiz 255, 0)]) 255 (by decide) (by decide)).completes,
   (h.1.2.1 (witUp [(peHiz 0, 0), (peClampEn 0, 1)]) 0 (by decide) (by decide) (by decide)).completes,
   (h.1.2.2 (witUp [(peHiz 0, 0), (⟨peCtrlAddr 0, 0, 6⟩, 0x3F), (peOffMode 0, 0)]) 0 (by decide) (by decide)).completes,
   ((h.2 (witUp []) 3 0x8 5 (by decide) (by decide) (by decide)).1).completes,
   ((h.2 (witUp []) 3 0x8 5 (by decide) (by decide) (by decide)).2.1 1).completes,
   ((h.2 (witUp []) 3 0x8 5 (by decide) (by decide) (by decide)).2.2.1).completes,
   ((h.2 (witUp [] (witDw 3)) 3 0x8 5 (by decide) (by decide) (by decide)).2.2.2 ⟨0x11C0000, 0, 3, none⟩ (by decide)).completes⟩

theorem test_witness_ParametricSupervisionSetsAndClears (h : Obligations.ParametricSupervisionSetsAndClears) :
    Completes (.ppmuCompl 255) (witUp [(ppmuForceNow 255, 2)]) ∧
    Completes (.ppmuOpenLoop 255) (witUp [(ppmuForceNow 255, 1)]) ∧
    Completes (.ppmuFaultClear 1 2) (witUp (witRun0 ++ [(ppmuFaultF 1, 7)]) (fun d => d.setChan 1 { Chan.init with olHold := true })) ∧
    Completes (.ppmuReconnect 1) (witUp [(peHiz 1, 0), (ppmuForce 1, 2)] (fun d => d.setChan 1 { Chan.init with reconAt := some 9 })) ∧
    Completes (.ppmuCtrlWrite .host 1 0x73F) (witUp []) :=
  ⟨(h.1 (witUp [(ppmuForceNow 255, 2)]) 255 (by decide) (by decide)).completes,
   (h.2.1 (witUp [(ppmuForceNow 255, 1)]) 255 (by decide) (by decide)).completes,
   (h.2.2.1 (witUp (witRun0 ++ [(ppmuFaultF 1, 7)]) (fun d => d.setChan 1 { Chan.init with olHold := true })) 1 2 (by decide) (by decide)).completes,
   (h.2.2.2.1 (witUp [(peHiz 1, 0), (ppmuForce 1, 2)] (fun d => d.setChan 1 { Chan.init with reconAt := some 9 })) 1 9 (by decide) (by decide) (by decide) (by decide) (by decide) (by decide)).completes,
   (h.2.2.2.2 (witUp []) .host 1 0x73F (by decide) (by decide) (by decide) (by decide) (by decide)).completes⟩

theorem test_witness_WaveformSegmentsAndParametricSamples (h : Obligations.WaveformSegmentsAndParametricSamples) :
    Completes (.ppmuWfJump 1 0x1FF) (witUp [(ppmuWfRun 1, 1)] (fun d => d.setChan 1 { Chan.init with wfEnd := 1000000 })) ∧
    Completes (.wfSegmentEnd 1) (witUp [(ppmuWfRun 1, 1), (ppmuWfSeg 1, 3), (pedSegEnd 0 3, 1)]) ∧
    Completes (.wfSegmentEnd 1) (witUp [(ppmuWfRun 1, 1), (ppmuWfSeg 1, 3), (pedSegLength 0 3, 16)] (fun d => d.setChan 1 { Chan.init with wfLeft := 2 })) ∧
    Completes (.ppmuSample 9 1 0x3FFFF) (witUp []) ∧
    Completes (.ppmuSample 9 1 0x3FFFF) (witRuns [witRun .running 1 [witPp] [witRs 1 true [3]]]) ∧
    Completes (.ppmuSettleExpiry 9 0 [(1, 0x20000)]) (witRuns [witRun .running 1 [witPp] [witRs 1 false []]]) ∧
    Completes (.budgetAdmit 9) (witRuns [witRun .running 1 [witPp] [witRs 1 true []]] [] (fun d => { d with admitAt := some 1500 })) :=
  ⟨(h.1.1 (witUp [(ppmuWfRun 1, 1)] (fun d => d.setChan 1 { Chan.init with wfEnd := 1000000 })) 1 0x1FF (by decide) (by decide)).completes,
   (h.1.2.1 (witUp [(ppmuWfRun 1, 1), (ppmuWfSeg 1, 3), (pedSegEnd 0 3, 1)]) 1 (by decide) (by decide) (by decide) (by decide) (by decide)).completes,
   (h.1.2.2 (witUp [(ppmuWfRun 1, 1), (ppmuWfSeg 1, 3), (pedSegLength 0 3, 16)] (fun d => d.setChan 1 { Chan.init with wfLeft := 2 })) 1 (by decide) (by decide) (by decide) (by decide) (by decide)).completes,
   (h.2.1 (witUp []) 9 1 0x3FFFF (by decide) (by decide) (by decide)).completes,
   (h.2.2.1 (witRuns [witRun .running 1 [witPp] [witRs 1 true [3]]]) 9 1 0x3FFFF (witRun .running 1 [witPp] [witRs 1 true [3]]) witPp (witRs 1 true [3]) (by decide) (by decide) (by decide) (by decide) (by decide) (by decide) (by decide) (by decide) (by decide) (by decide) (by decide) (by decide)).completes,
   (h.2.2.2.1 (witRuns [witRun .running 1 [witPp] [witRs 1 false []]]) 9 0 1 0x20000 (witRun .running 1 [witPp] [witRs 1 false []]) witPp (witRs 1 false []) (by decide) (by decide) (by decide) (by decide) (by decide) (by decide) (by decide) (by decide) (by decide) (by decide) (by decide) (by decide) (by decide)).completes,
   (h.2.2.2.2 (witRuns [witRun .running 1 [witPp] [witRs 1 true []]] [] (fun d => { d with admitAt := some 1500 })) 9 1500 (by decide) (by decide)).completes⟩

theorem test_witness_AcquisitionUnitsArmTriggerAndRecord (h : Obligations.AcquisitionUnitsArmTriggerAndRecord) :
    Completes (.auArm 31) (witUp [(⟨0x21F014, 0, 32⟩, 0x10000), (auKind 31, 9), (⟨0x21F010, 31, 1⟩, 1)]) ∧
    Completes (.auArm 31) (witUp [(auKind 31, 15)]) ∧
    Completes (.auSwtrig 0) (witUp [(auKind 0, 9), (auState 0, 1)]) ∧
    Completes (.auTrigger 0 [[1], [0]] 4096) (witUp [(auKind 0, 9), (auState 0, 1)] (witAu 0 { Au.init with ev := some 4096 })) ∧
    Completes (.auRecordEnd 0 [[1], [2]] false) (witUp [(auState 0, 2)] (witAu 0 { Au.init with post := 3, slotSz := 320, slotsN := 204, preS := [[0]] })) ∧
    Completes (.auDisarm 0) (witUp [(auState 0, 1)]) ∧
    Completes (.auRearmEnd 0) (witUp [(auState 0, 3)] (witAu 0 { Au.init with left := some 0, waitTo := 64 })) ∧
    Completes (.auSweepSettleEnd 0) (witUp [(auState 0, 5)] (witAu 0 { Au.init with waitTo := 64 })) ∧
    Completes (.auRecRelease 0 0x1FFFF) (witUp []) ∧
    Completes (.auDrainRead 0 5) (witUp []) ∧
    Completes (.acqWaitExpiry 0) (witAcqS) :=
  ⟨(h.1.1 (witUp [(⟨0x21F014, 0, 32⟩, 0x10000), (auKind 31, 9), (⟨0x21F010, 31, 1⟩, 1)]) 31 ⟨0, 1024, false, false, 320, 204⟩ (by decide) (by decide) (by decide) (by decide) (by decide)).completes,
   (h.1.2.1 (witUp [(auKind 31, 15)]) 31 (by decide) (by decide) (by decide) (by decide)).completes,
   (h.1.2.2.1 (witUp [(auKind 0, 9), (auState 0, 1)]) 0 (by decide) (by decide) (by decide) (by decide) (by decide)).completes,
   (h.1.2.2.2 (witUp [(auKind 0, 9), (auState 0, 1)] (witAu 0 { Au.init with ev := some 4096 })) 0 [[1], [0]] 4096 (by decide) (by decide) (by decide) (Or.inr ⟨(by decide), (by decide), 4096, (by decide), (by decide), (by decide)⟩)).completes,
   (h.2.1 (witUp [(auState 0, 2)] (witAu 0 { Au.init with post := 3, slotSz := 320, slotsN := 204, preS := [[0]] })) 0 [[1], [2]] false (by decide) (by decide) (by decide) (by decide) (by decide) (by decide)).completes,
   (h.2.2.1 (witUp [(auState 0, 1)]) 0 (by decide) (by decide) (by decide) (by decide)).completes,
   (h.2.2.2.1 (witUp [(auState 0, 3)] (witAu 0 { Au.init with left := some 0, waitTo := 64 })) 0 (by decide) (by decide)).completes,
   (h.2.2.2.2.1 (witUp [(auState 0, 5)] (witAu 0 { Au.init with waitTo := 64 })) 0 (by decide)).completes,
   (h.2.2.2.2.2.2.1 (witUp []) 0 0x1FFFF (by decide)).completes,
   (h.2.2.2.2.2.2.2 (witUp []) 0 5 (by decide)).completes,
   (h.2.2.2.2.2.1 witAcqS 0 60 5 0 witAcqR (by decide) (by decide) (by decide) (by decide) (by decide) (by decide) (by decide)).completes⟩

theorem test_witness_TimeMeasurementUnitsCalibrateAndSample (h : Obligations.TimeMeasurementUnitsCalibrateAndSample) :
    Completes (.tmuArm 63) (witUp []) ∧
    Completes (.tmuDisarm 63) (witUp [(tmuState 63, 2), (tmuStatCnt 63, 5)]) ∧
    Completes (.tmuCalDone 1 100000 106667 100000 106667) (witUp [(tmuState 1, 1)]) ∧
    Completes (.tmuCalDone 1 0 0 0 1) (witUp [(tmuState 1, 1)]) ∧
    Completes (.tmuSample 1 ⟨1, 2, 3⟩ ⟨4, 5, 6⟩ ⟨7, 8, 9⟩ 1) (witUp [(tmuState 1, 2), (tmuNM1 1, 5)]) ∧
    Completes (.tmuTimeout 1) (witUp [(tmuState 1, 2)] (fun d => { d with tmus := Tab.set (fun _ => Tmu.init) [] 1 { Tmu.init with toEnd := some 8 } })) :=
  ⟨(h.1 (witUp []) 63 (by decide) (by decide) (by decide) (by decide)).completes,
   (h.2.1 (witUp [(tmuState 63, 2), (tmuStatCnt 63, 5)]) 63 (by decide) (by decide) (by decide)).completes,
   (h.2.2.1 (witUp [(tmuState 1, 1)]) 1 100000 106667 100000 106667 (by decide) (by norm_num [calFails, masterPs]) (by norm_num [calFails, masterPs])).completes,
   (h.2.2.2.1 (witUp [(tmuState 1, 1)]) 1 0 0 0 1 (by decide) (by norm_num [calFails, masterPs]) (by decide)).completes,
   (h.2.2.2.2.1 (witUp [(tmuState 1, 2), (tmuNM1 1, 5)]) 1 ⟨1, 2, 3⟩ ⟨4, 5, 6⟩ ⟨7, 8, 9⟩ 1 (by decide) (by decide) (by decide)).completes,
   (h.2.2.2.2.2 (witUp [(tmuState 1, 2)] (fun d => { d with tmus := Tab.set (fun _ => Tmu.init) [] 1 { Tmu.init with toEnd := some 8 } })) 1 8 (by decide) (by decide) (by decide)).completes⟩

theorem test_witness_DspEnginesQuiesceLoadAndStartJobs (h : Obligations.DspEnginesQuiesceLoadAndStartJobs) :
    Completes (.dseQuiesce 15 false) (witUp [(dseState 15, 1)]) ∧
    Completes (.dseQuiesced 15) (witUp [(dseState 15, 4)]) ∧
    Completes (.dseResume 15) (witUp [(dseState 15, 5)]) ∧
    Completes (.dseRun 15) (witUp [(dseState 15, 1)] (witDse 15 { Dse.init with code := 2, entry := 1 })) ∧
    Completes (.dspJobDispatch) (witUp [(dseState 15, 1), (dseKid 15, 3)] (fun d => { d with jobs := [witJob none], dses := [(15, { Dse.init with entry := 1 })] })) ∧
    Completes (.dseLoaded 15) (witUp [(dseState 15, 3)] (fun d => { d with dses := [(15, { Dse.init with load := some { work := 7, image := [1, 2, 3, 4, 5, 6, 7, 8, 9, 10] } })] })) :=
  ⟨(h.1 (witUp [(dseState 15, 1)]) 15 (by decide) (by decide) (by decide)).completes,
   (h.2.1 (witUp [(dseState 15, 4)]) 15 (by decide) (by decide)).completes,
   (h.2.2.1 (witUp [(dseState 15, 5)]) 15 (by decide) (by decide)).completes,
   (h.2.2.2.1 (witUp [(dseState 15, 1)] (witDse 15 { Dse.init with code := 2, entry := 1 })) 15 (by decide) (by decide) (by decide)).completes,
   (h.2.2.2.2.1 (witUp [(dseState 15, 1), (dseKid 15, 3)] (fun d => { d with jobs := [witJob none], dses := [(15, { Dse.init with entry := 1 })] })) (witJob none) 15 (by decide) (fun i _ => (by interval_cases i <;> rfl)) (by decide) (by decide)).completes,
   (h.2.2.2.2.2 (witUp [(dseState 15, 3)] (fun d => { d with dses := [(15, { Dse.init with load := some { work := 7, image := [1, 2, 3, 4, 5, 6, 7, 8, 9, 10] } })] })) 15 { work := 7, image := [1, 2, 3, 4, 5, 6, 7, 8, 9, 10] } (by decide) (by decide)).completes⟩

theorem test_witness_DspArithmeticWritesItsRegister (h : Obligations.DspArithmeticWritesItsRegister) :
    Completes (.dspAdd 3) (witEng (witI 0x10 [(46, 4), (42, 0), (38, 1), (57, 1)]) witRf) ∧
    Completes (.dspSub 3) (witEng (witI 0x11 [(46, 0), (42, 0), (38, 1)]) witRf) ∧
    Completes (.dspMin 3) (witEng (witI 0x12 [(46, 15), (42, 0), (38, 2)]) witRf) ∧
    Completes (.dspMax 3) (witEng (witI 0x13 [(46, 15), (42, 0), (38, 2), (34, 1)]) witRf) ∧
    Completes (.dspAbs 3) (witEng (witI 0x14 [(46, 15), (42, 2), (57, 1)]) witRf) ∧
    Completes (.dspNeg 3) (witEng (witI 0x15 [(46, 15), (42, 2)]) witRf) ∧
    Completes (.dspShf 3) (witEng (witI 0x19 [(46, 2), (42, 2), (50, 39), (56, 1)]) witRf) ∧
    Completes (.dspShf 3) (witEng (witI 0x19 [(46, 2), (42, 3), (50, 39), (32, 1), (57, 1)]) witRf) ∧
    Completes (.dspAnd 3) (witEng (witI 0x16 [(46, 2), (42, 0), (38, 1)]) witRf) ∧
    Completes (.dspOr 3) (witEng (witI 0x17 [(46, 2), (42, 0), (38, 2)]) witRf) ∧
    Completes (.dspXor 3) (witEng (witI 0x18 [(46, 2), (42, 0), (38, 0)]) witRf) ∧
    Completes (.dspCmp 3) (witEng (witI 0x1A [(42, 2), (38, 0)]) ((0x39, 0x3F) :: witRf)) :=
  ⟨((h (witEng (witI 0x10 [(46, 4), (42, 0), (38, 1), (57, 1)]) witRf) 3 (witI 0x10 [(46, 4), (42, 0), (38, 1), (57, 1)]) (by decide)).1 (by decide)).completes,
   ((h (witEng (witI 0x11 [(46, 0), (42, 0), (38, 1)]) witRf) 3 (witI 0x11 [(46, 0), (42, 0), (38, 1)]) (by decide)).2.1 (by decide)).completes,
   ((h (witEng (witI 0x12 [(46, 15), (42, 0), (38, 2)]) witRf) 3 (witI 0x12 [(46, 15), (42, 0), (38, 2)]) (by decide)).2.2.1 (by decide)).completes,
   ((h (witEng (witI 0x13 [(46, 15), (42, 0), (38, 2), (34, 1)]) witRf) 3 (witI 0x13 [(46, 15), (42, 0), (38, 2), (34, 1)]) (by decide)).2.2.2.1 (by decide)).completes,
   ((h (witEng (witI 0x14 [(46, 15), (42, 2), (57, 1)]) witRf) 3 (witI 0x14 [(46, 15), (42, 2), (57, 1)]) (by decide)).2.2.2.2.1 (by decide)).completes,
   ((h (witEng (witI 0x15 [(46, 15), (42, 2)]) witRf) 3 (witI 0x15 [(46, 15), (42, 2)]) (by decide)).2.2.2.2.2.1 (by decide)).completes,
   ((h (witEng (witI 0x19 [(46, 2), (42, 2), (50, 39), (56, 1)]) witRf) 3 (witI 0x19 [(46, 2), (42, 2), (50, 39), (56, 1)]) (by decide)).2.2.2.2.2.2.1 (by decide) (by decide)).completes,
   ((h (witEng (witI 0x19 [(46, 2), (42, 3), (50, 39), (32, 1), (57, 1)]) witRf) 3 (witI 0x19 [(46, 2), (42, 3), (50, 39), (32, 1), (57, 1)]) (by decide)).2.2.2.2.2.2.2.1 (by decide) (by decide)).completes,
   ((h (witEng (witI 0x16 [(46, 2), (42, 0), (38, 1)]) witRf) 3 (witI 0x16 [(46, 2), (42, 0), (38, 1)]) (by decide)).2.2.2.2.2.2.2.2.1 (by decide)).completes,
   ((h (witEng (witI 0x17 [(46, 2), (42, 0), (38, 2)]) witRf) 3 (witI 0x17 [(46, 2), (42, 0), (38, 2)]) (by decide)).2.2.2.2.2.2.2.2.2.1 (by decide)).completes,
   ((h (witEng (witI 0x18 [(46, 2), (42, 0), (38, 0)]) witRf) 3 (witI 0x18 [(46, 2), (42, 0), (38, 0)]) (by decide)).2.2.2.2.2.2.2.2.2.2.1 (by decide)).completes,
   ((h (witEng (witI 0x1A [(42, 2), (38, 0)]) ((0x39, 0x3F) :: witRf)) 3 (witI 0x1A [(42, 2), (38, 0)]) (by decide)).2.2.2.2.2.2.2.2.2.2.2 (by decide)).completes⟩

theorem test_witness_DspAccumulatorSelectAndCopyOperations (h : Obligations.DspAccumulatorSelectAndCopyOperations) :
    Completes (.dspMac4 3) (witEng (witI 0x08 [(42, 0), (38, 2), (57, 1)]) witRa) ∧
    Completes (.dspMacs 3) (witEng (witI 0x09 [(42, 0), (38, 2), (36, 2), (34, 1)]) witRa) ∧
    Completes (.dspCmac 3) (witEng (witI 0x0A [(42, 0), (38, 1), (36, 2), (34, 3), (32, 1)]) witRa) ∧
    Completes (.dspAcc 3) (witEng (witI 0x20 [(36, 2), (34, 3), (32, 2), (57, 1)]) witRa) ∧
    Completes (.dspLda 3) (witEng (witI 0x22 [(36, 3), (34, 2), (42, 0), (50, 39)]) witRa) ∧
    Completes (.dspSta 3) (witEng (witI 0x21 [(36, 0), (34, 1), (46, 3), (50, 2), (56, 1), (57, 1)]) witRa) ∧
    Completes (.dspClra 3) (witEng (witI 0x23 [(32, 9)]) ((0x39, 0x3F) :: witRa)) ∧
    Completes (.dspAcs 3) (witEng (witI 0x0B [(32, 3), (42, 0), (38, 2), (46, 14), (52, 1)]) (witRa ++ [(0x38, 0xFFFFFFFFFF)])) ∧
    Completes (.dspMov 3) (witEng (witI 0x30 [(44, 0x18), (38, 0x12)]) witRa) ∧
    Completes (.dspLdi 3) (witEng (witI 0x31 [(52, 0x13), (0, 0x8000000000)]) witRa) :=
  ⟨((h.1 (witEng (witI 0x08 [(42, 0), (38, 2), (57, 1)]) witRa) 3 (witI 0x08 [(42, 0), (38, 2), (57, 1)]) (by decide)).1 (by decide)).completes,
   ((h.1 (witEng (witI 0x09 [(42, 0), (38, 2), (36, 2), (34, 1)]) witRa) 3 (witI 0x09 [(42, 0), (38, 2), (36, 2), (34, 1)]) (by decide)).2.1 (by decide)).completes,
   ((h.1 (witEng (witI 0x0A [(42, 0), (38, 1), (36, 2), (34, 3), (32, 1)]) witRa) 3 (witI 0x0A [(42, 0), (38, 1), (36, 2), (34, 3), (32, 1)]) (by decide)).2.2.1 (by decide)).completes,
   ((h.1 (witEng (witI 0x20 [(36, 2), (34, 3), (32, 2), (57, 1)]) witRa) 3 (witI 0x20 [(36, 2), (34, 3), (32, 2), (57, 1)]) (by decide)).2.2.2.1 (by decide)).completes,
   ((h.1 (witEng (witI 0x22 [(36, 3), (34, 2), (42, 0), (50, 39)]) witRa) 3 (witI 0x22 [(36, 3), (34, 2), (42, 0), (50, 39)]) (by decide)).2.2.2.2.1 (by decide)).completes,
   ((h.1 (witEng (witI 0x21 [(36, 0), (34, 1), (46, 3), (50, 2), (56, 1), (57, 1)]) witRa) 3 (witI 0x21 [(36, 0), (34, 1), (46, 3), (50, 2), (56, 1), (57, 1)]) (by decide)).2.2.2.2.2.1 (by decide)).completes,
   ((h.1 (witEng (witI 0x23 [(32, 9)]) ((0x39, 0x3F) :: witRa)) 3 (witI 0x23 [(32, 9)]) (by decide)).2.2.2.2.2.2 (by decide)).completes,
   ((h.2 (witEng (witI 0x0B [(32, 3), (42, 0), (38, 2), (46, 14), (52, 1)]) (witRa ++ [(0x38, 0xFFFFFFFFFF)])) 3 (witI 0x0B [(32, 3), (42, 0), (38, 2), (46, 14), (52, 1)]) (by decide)).1 (by decide) (by decide) (by decide)).completes,
   ((h.2 (witEng (witI 0x30 [(44, 0x18), (38, 0x12)]) witRa) 3 (witI 0x30 [(44, 0x18), (38, 0x12)]) (by decide)).2.1 (by decide) (by decide)).completes,
   ((h.2 (witEng (witI 0x31 [(52, 0x13), (0, 0x8000000000)]) witRa) 3 (witI 0x31 [(52, 0x13), (0, 0x8000000000)]) (by decide)).2.2 (by decide) (by decide)).completes⟩

theorem test_witness_DspControlSetsTheProgramCounter (h : Obligations.DspControlSetsTheProgramCounter) :
    Completes (.dspNop 3) (witEng 0 witRa (fun d => d.setDse 3 { d.dse 3 with rep := some 2 })) ∧
    Completes (.dspBr 3) (witEng (witI 0x02 [(54, 0xB), (32, 0x1FFF)]) [(0x39, 32)]) ∧
    Completes (.dspRep 3) (witEng (witI 0x04 [(32, 0xFFFF)]) []) ∧
    Completes (.dspHalt 3) (witEng (witI 0x01 []) [(0x39, 0x3F)]) :=
  ⟨((h (witEng 0 witRa (fun d => d.setDse 3 { d.dse 3 with rep := some 2 })) 3 0 (by decide)).1 (by decide)).completes,
   ((h (witEng (witI 0x02 [(54, 0xB), (32, 0x1FFF)]) [(0x39, 32)]) 3 (witI 0x02 [(54, 0xB), (32, 0x1FFF)]) (by decide)).2.1 (by decide) (by decide)).completes,
   ((h (witEng (witI 0x04 [(32, 0xFFFF)]) []) 3 (witI 0x04 [(32, 0xFFFF)]) (by decide)).2.2.1 (by decide)).completes,
   ((h (witEng (witI 0x01 []) [(0x39, 0x3F)]) 3 (witI 0x01 []) (by decide)).2.2.2 (witJob none) (by decide) (by decide) (by decide) (by decide) (by decide)).completes⟩

theorem test_witness_DspDbnzCountsAndBranches (h : Obligations.DspDbnzCountsAndBranches) :
    Completes (.dspDbnz 3) (witEng (witI 0x03 [(50, 3), (32, 0x100)]) witRa) :=
  (h (witEng (witI 0x03 [(50, 3), (32, 0x100)]) witRa) 3 (witI 0x03 [(50, 3), (32, 0x100)]) (by decide) (by decide) (by decide)).completes

theorem test_witness_DspMovesLoadAndStoreLocalWords (h : Obligations.DspMovesLoadAndStoreLocalWords) :
    Completes (.dspNop 3) (witEng (witM 1 5 2 3) witRp (fun d => d.setLocal 3 0xFFFF 0x98765)) :=
  (h (witEng (witM 1 5 2 3) witRp (fun d => d.setLocal 3 0xFFFF 0x98765)) 3 (witM 1 5 2 3) (witM 1 5 2 3) 0xFFFF (by decide) (by decide) (by decide) (by decide)).completes

theorem test_witness_SequencerPlaysItsNextLine (h : Obligations.SequencerPlaysItsNextLine) :
    Completes (.vectorPlay 0 []) (witPlay 1 { witX0 [] with fillTo := 409601, mark := 3 }) ∧
    Completes (.vectorPlay 0 []) (witPlay 1 (witX0 [witL oAdv 0 0])) :=
  ⟨((h (witPlay 1 { witX0 [] with fillTo := 409601, mark := 3 }) 0 [] (by decide) (by decide) (by decide) (by decide)).1 (by decide) (by decide)).completes,
   ((h (witPlay 1 (witX0 [witL oAdv 0 0])) 0 [] (by decide) (by decide) (by decide) (by decide)).2 (witL oAdv 0 0) [] (by decide) (by decide) (by decide) (by decide) (by decide) (by decide) (by decide)).completes⟩

theorem test_witness_MatchJmpcAndSyncwLinesDecideTheirFlow (h : Obligations.MatchJmpcAndSyncwLinesDecideTheirFlow) :
    Completes (.jmpcResolve 0) (witPlay 2 { witX0 [] with fillTo := 500000, jline := some (⟨false, 5⟩, (witL oJmpc 0 0x80000007).cw) }) ∧
    Completes (.matchEnd 0) (witPlay 3 { witX0 [witL oMatch 0 4] with mtch := some (witMa (some 409600)) }) ∧
    Completes (.matchTimeout 0) (witPlay 3 { witX0 [witL oMatch 0 4] with mtch := some (witMa none) }) ∧
    Completes (.syncwWaitBegin 0) (witPlay 1 (witX0 [witL oSyncw 0 0x702])) ∧
    Completes (.syncwStart 0) (witPlay 4 { witX0 [witL oSyncw 0 0x702] with syncT := some 300 }) ∧
    Completes (.syncwTimeout 0) (witPlay 4 { witX0 [witL oSyncw 0 0x702] with syncEnd := some 300 }) :=
  ⟨(h.1.1 (witPlay 2 { witX0 [] with fillTo := 500000, jline := some (⟨false, 5⟩, (witL oJmpc 0 0x80000007).cw) }) 0 ⟨false, 5⟩ (witL oJmpc 0 0x80000007).cw (by decide) (by decide) (by decide)).completes,
   (h.1.2.1 (witPlay 3 { witX0 [witL oMatch 0 4] with mtch := some (witMa (some 409600)) }) 0 (by decide) (by decide) (by decide)).completes,
   (h.1.2.2 (witPlay 3 { witX0 [witL oMatch 0 4] with mtch := some (witMa none) }) 0 (by decide) (by decide) (by decide) (by decide)).completes,
   (h.2.1 (witPlay 1 (witX0 [witL oSyncw 0 0x702])) 0 (witL oSyncw 0 0x702) [] (by decide) (by decide) (by decide) (by decide) (by decide) (by decide) (by decide) (by decide)).completes,
   (h.2.2.1 (witPlay 4 { witX0 [witL oSyncw 0 0x702] with syncT := some 300 }) 0 (witL oSyncw 0 0x702) [] 300 (by decide) (by decide) (by decide) (by decide) (by decide) (by decide) (by decide)).completes,
   (h.2.2.2 (witPlay 4 { witX0 [witL oSyncw 0 0x702] with syncEnd := some 300 }) 0 300 (by decide) (by decide) (by decide)).completes⟩

theorem test_witness_SequencersHaltAndTakeJumpRequests (h : Obligations.SequencersHaltAndTakeJumpRequests) :
    Completes (.seqHalt 0) (witPlay 5 { witX0 [witL oAdv 0 0] with jReq := some 7, why := .line, failSeen := 3 } [(seqJpend 0, 1), (pllState 0, 3)]) ∧
    Completes (.vectorPlay 0 []) (witPlay 1 { witX0 [witL oAdv 0 0] with haltReq := some .program }) ∧
    Completes (.stallMaxExpiry 0) (witPlay 1 { witX0 [] with stall := true, stallEnd := some 700 }) ∧
    Completes (.seqJump 0 0x1FF) (witPlay 4 (witX0 [])) ∧
    Completes (.seqJump 0 0x1FF) (witPlay 6 (witX0 []) [(seqCntJrej 0, 4)]) :=
  ⟨(h.1 (witPlay 5 { witX0 [witL oAdv 0 0] with jReq := some 7, why := .line, failSeen := 3 } [(seqJpend 0, 1), (pllState 0, 3)]) 0 (by decide)).completes,
   (h.2.1 (witPlay 1 { witX0 [witL oAdv 0 0] with haltReq := some .program }) 0 [] .program (by decide) (by decide)).completes,
   (h.2.2.1 (witPlay 1 { witX0 [] with stall := true, stallEnd := some 700 }) 0 700 (by decide) (by decide) (by decide) (by decide)).completes,
   (h.2.2.2.1 (witPlay 4 (witX0 [])) 0 0x1FF (by decide) (by decide)).completes,
   (h.2.2.2.2 (witPlay 6 (witX0 []) [(seqCntJrej 0, 4)]) 0 0x1FF (by decide) (by decide)).completes⟩

theorem test_witness_RingsAreEnabledAndDoorbellsMoveThem (h : Obligations.RingsAreEnabledAndDoorbellsMoveThem) :
    Completes (.hostSqEnWrite 0x18003) (witQ [(sqHead 0, 3), (sqTail 0, 5), (sqHead 15, 3)]) ∧
    Completes (.hostCqEnWrite 0x8005) (witQ [(cqHead 2, 3), (cqTail 2, 4), (hostEqEn, 1)] (fun d => { d with host := { d.host with held := [{ id := 3, q := 4, cid := 0, opc := 0, status := 0, result := 0, result64 := 0, tb := 0 }] } })) ∧
    Completes (.hostCqEnWrite 0) (witQ []) ∧
    Completes (.hostCqEnWrite 0x10000) (wit [(eqTail, 3)]) ∧
    Completes (.sqTailDoorbell 0 2) (witQ [(sqHead 0, 4), (sqTail 0, 6)]) ∧
    Completes (.sqTailDoorbell 0 4) (witQ [(sqHead 0, 4), (sqTail 0, 6)]) ∧
    Completes (.cqHeadDoorbell 1 6) (witQ [(cqHead 1, 4), (cqTail 1, 6)]) ∧
    Completes (.cqHeadDoorbell 1 16) (witQ [(cqHead 1, 4), (cqTail 1, 6)]) ∧
    Completes (.eqHeadDoorbell 1) (wit [(hostEqEn, 1), (eqHead, 14), (eqTail, 1)]) ∧
    Completes (.msixUnmask 63) (wit [] (fun d => { d with host := { d.host with vecPend := 0x8000000000000001, vecMask := 0xFFFFFFFFFFFFFFFF } })) :=
  ⟨(h.1.1 (witQ [(sqHead 0, 3), (sqTail 0, 5), (sqHead 15, 3)]) 0x18003).completes,
   (h.1.2.1 (witQ [(cqHead 2, 3), (cqTail 2, 4), (hostEqEn, 1)] (fun d => { d with host := { d.host with held := [{ id := 3, q := 4, cid := 0, opc := 0, status := 0, result := 0, result64 := 0, tb := 0 }] } })) 0x8005 (by decide) (by decide) (by decide)).completes,
   (h.1.2.2.1 (witQ []) 0 0 (by decide) (by decide) (by decide) (by decide) (by decide)).completes,
   (h.1.2.2.2 (wit [(eqTail, 3)]) 0x10000 (by decide) (by decide) (by decide) (by decide) (by decide)).completes,
   ((h.2.1 (witQ [(sqHead 0, 4), (sqTail 0, 6)]) 0 2).1 (by decide) (by decide) (by decide)).completes,
   ((h.2.1 (witQ [(sqHead 0, 4), (sqTail 0, 6)]) 0 4).2 (Or.inr (Or.inr (by decide)))).completes,
   (h.2.2.1 (witQ [(cqHead 1, 4), (cqTail 1, 6)]) 1 6 (by decide) (by decide) (by decide) (by decide) (by decide)).completes,
   (h.2.2.2.1 (witQ [(cqHead 1, 4), (cqTail 1, 6)]) 1 16 (by decide) (Or.inr (by decide))).completes,
   (h.2.2.2.2.1 (wit [(hostEqEn, 1), (eqHead, 14), (eqTail, 1)]) 1 (by decide) (by decide) (by decide) (by decide)).completes,
   (h.2.2.2.2.2 (wit [] (fun d => { d with host := { d.host with vecPend := 0x8000000000000001, vecMask := 0xFFFFFFFFFFFFFFFF } })) 63).completes⟩

theorem test_witness_DebugWritesFollowTheOwner (h : Obligations.DebugWritesFollowTheOwner) :
    Completes (.bar4Write .host 0xFF80 0x12345678) (witUp ([(hostBar4, 2), (seqVlines 0, 1024)])) ∧
    Completes (.bar4Write .hkc 0xFFFF 0x12345678) (witUp ([(hostBar4, 2), (seqVlines 0, 1024), (seqState 0, 1), (⟨0x100008, 0, 32⟩, 1)])) ∧
    Completes (.bar4Write .hkc 0xFFFF 0x12345678) (witUp [(hostBar4, 1)]) :=
  ⟨(h.1 (witUp ([(hostBar4, 2), (seqVlines 0, 1024)])) .host 0xFF80 0x12345678 (.seq 0) (by decide) (by decide) (by decide)).completes,
   (h.2.1 (witUp ([(hostBar4, 2), (seqVlines 0, 1024), (seqState 0, 1), (⟨0x100008, 0, 32⟩, 1)])) .hkc 0xFFFF 0x12345678 (.seq 0) (by decide) (by decide) (by decide)).completes,
   (h.2.2 (witUp [(hostBar4, 1)]) .hkc 0xFFFF 0x12345678 (by decide)).completes⟩

theorem test_witness_DescriptorsAreFetchedAndFencesComplete (h : Obligations.DescriptorsAreFetchedAndFencesComplete) :
    Completes (.descriptorFetch 0 0x10000) (witQ [(sqTail 0, 1), (hostGen, 5), (pwrState, 0)]) ∧
    Completes (.descriptorFetch 0 0x100FF) (witQ [(sqTail 0, 1), (hostGen, 5)]) ∧
    Completes (.nop 0) (witD opNop []) ∧
    Completes (.fence 0) (witD opFence []) ∧
    Completes (.fence 0) (witD opFence [(8, 3)] [] (fun d => { d with host := { d.host with work := ⟨5, 1, 0, 1⟩ :: d.host.work } })) ∧
    Completes (.fenceComplete 0) (witUp [] (fun d => { d with host := { d.host with work := [witW opFence], fences := [⟨7, 0, 0, 1⟩] } })) :=
  ⟨(h.1.1 (witQ [(sqTail 0, 1), (hostGen, 5), (pwrState, 0)]) 0 0x10000 (by decide) (by decide) (by decide) (by decide)).completes,
   (h.1.2 (witQ [(sqTail 0, 1), (hostGen, 5)]) 0 0x100FF (by decide) (by decide) (by decide)).completes,
   (h.2.1 (witD opNop []) 0 (witX opNop []) (witW opNop) (by decide)).completes,
   (h.2.2.1 (witD opFence []) 0 (witX opFence []) (witW opFence) (by decide) (by decide)).completes,
   (h.2.2.1 (witD opFence [(8, 3)] [] (fun d => { d with host := { d.host with work := ⟨5, 1, 0, 1⟩ :: d.host.work } })) 0 (witX opFence [(8, 3)]) (witW opFence) (by decide) (by decide)).completes,
   (h.2.2.2 (witUp [] (fun d => { d with host := { d.host with work := [witW opFence], fences := [⟨7, 0, 0, 1⟩] } })) 0 ⟨7, 0, 0, 1⟩ (by decide) (by decide)).completes⟩

theorem test_witness_CompletionRecordsAreWrittenToTheirRing (h : Obligations.CompletionRecordsAreWrittenToTheirRing) :
    (((witQ [(cqTail 0, 15), (cqHead 0, 1), (cqPhase 0, 1)]).dev.complete (witW 3) 1 2 3).get (cqTail 0) = 0) ∧
    Completes (.nop 0) (witD opNop [] [(hostCqEn, 1)]) :=
  ⟨(h.1 (witQ [(cqTail 0, 15), (cqHead 0, 1), (cqPhase 0, 1)]).dev (witW 3) 1 2 3 (by decide) (by decide) (by decide) (by decide) (by decide)).2.1,
   (h.2 (witD opNop [] [(hostCqEn, 1)]) 0 (witX opNop []) (witW opNop) (by decide)).completes⟩

theorem test_witness_VectorsStreamsAndKernelsAreLoaded (h : Obligations.VectorsStreamsAndKernelsAreLoaded) :
    Completes (.writeVectors 0 [1, 2, 3, 4, 5, 6, 7, 8, 9, 10] true) (witD opWriteVectors [(12, 11), (16, 1)] [(seqVlines 0, 2), (⟨0x100008, 0, 32⟩, 1)]) ∧
    Completes (.writeVectors 0 [] true) (witD opWriteVectors [(12, 11), (16, 1)] [(seqVlines 0, 2), (⟨0x100008, 0, 32⟩, 1), (seqState 0, 1)]) ∧
    Completes (.streamAttach 0 witDir [] true) (witD opStreamAttach [(9, 1), (10, 2), (11, 1), (24, 1)] [(seqVlines 0, 0x8000)]) ∧
    Completes (.streamDetach 0) (witD opStreamDetach [] [(strmAttached 0, 1), (seqVlines 0, 0x8000)] (fun d => d.setStrm 0 (witStm false none))) ∧
    Completes (.chunkReadDone 0 0 [] false) (witUp [(strmAttached 0, 1), (seqVlines 0, 0x8000)] (fun d => d.setStrm 0 (witStm false none))) ∧
    Completes (.chunkReadDone 0 0 [] false) (witUp [(strmAttached 0, 1), (seqVlines 0, 0x8000)] (fun d => d.setStrm 0 (witStm true none))) ∧
    Completes (.chunkReadDone 0 0 [1, 2, 3, 4, 5, 6, 7, 8] true) (witUp [(strmAttached 0, 1), (seqVlines 0, 0x8000)] (fun d => d.setStrm 0 (witStm true none))) ∧
    Completes (.loadKernel 0 [] true) (witD opLoadKernel [(8, 0x8000), (16, 72)] [(dseState 15, 2)] (witDse 15 { Dse.init with job := some (witJob none) })) ∧
    Completes (.loadKernel 0 (List.replicate 72 0) true) (witD opLoadKernel [(8, 0x8000), (16, 72)]) ∧
    Completes (.loadKernel 0 witImg true) (witD opLoadKernel [(8, 0x8001), (16, 72)]) :=
  ⟨((h.1.1 (witD opWriteVectors [(12, 11), (16, 1)] [(seqVlines 0, 2), (⟨0x100008, 0, 32⟩, 1)]) 0 [1, 2, 3, 4, 5, 6, 7, 8, 9, 10] (witX opWriteVectors [(12, 11), (16, 1)]) (witW opWriteVectors) (by decide)).1 (by decide) (by decide) (by decide)).completes,
   ((h.1.1 (witD opWriteVectors [(12, 11), (16, 1)] [(seqVlines 0, 2), (⟨0x100008, 0, 32⟩, 1), (seqState 0, 1)]) 0 [] (witX opWriteVectors [(12, 11), (16, 1)]) (witW opWriteVectors) (by decide)).2 (by decide) (by decide)).completes,
   (h.1.2.1 (witD opStreamAttach [(9, 1), (10, 2), (11, 1), (24, 1)] [(seqVlines 0, 0x8000)]) 0 witDir (witX opStreamAttach [(9, 1), (10, 2), (11, 1), (24, 1)]) (witW opStreamAttach) (by decide) (by decide) (by decide) (by decide) (by decide) (by decide) (by decide) (by decide)).completes,
   (h.1.2.2.1 (witD opStreamDetach [] [(strmAttached 0, 1), (seqVlines 0, 0x8000)] (fun d => d.setStrm 0 (witStm false none))) 0 (witX opStreamDetach []) (witW opStreamDetach) (by decide) (by decide) (by decide)).completes,
   (h.1.2.2.2.1 (witUp [(strmAttached 0, 1), (seqVlines 0, 0x8000)] (fun d => d.setStrm 0 (witStm false none))) 0 0 [] false { addr := 4, lines := 1, loopXing := false, crc := BitVec.ofNat 32 (crc32 [1, 2, 3, 4, 5, 6, 7, 8]) } (by decide) (by decide) (by decide) (by decide)).completes,
   (h.1.2.2.2.1 (witUp [(strmAttached 0, 1), (seqVlines 0, 0x8000)] (fun d => d.setStrm 0 (witStm true none))) 0 0 [] true { addr := 4, lines := 1, loopXing := false, crc := BitVec.ofNat 32 (crc32 [1, 2, 3, 4, 5, 6, 7, 8]) } (by decide) (by decide) (by decide) (by decide)).completes,
   (h.1.2.2.2.2 (witUp [(strmAttached 0, 1), (seqVlines 0, 0x8000)] (fun d => d.setStrm 0 (witStm true none))) 0 0 [1, 2, 3, 4, 5, 6, 7, 8] true { addr := 4, lines := 1, loopXing := false, crc := BitVec.ofNat 32 (crc32 [1, 2, 3, 4, 5, 6, 7, 8]) } (by decide) (by decide) (by decide) (by decide) (by decide) (by decide)).completes,
   ((h.2 (witD opLoadKernel [(8, 0x8000), (16, 72)] [(dseState 15, 2)] (witDse 15 { Dse.init with job := some (witJob none) })) 0 [] (witX opLoadKernel [(8, 0x8000), (16, 72)]) (witW opLoadKernel) (by decide) (by decide)).1 15 (by decide) (by decide) (by decide)).completes,
   (((h.2 (witD opLoadKernel [(8, 0x8000), (16, 72)]) 0 (List.replicate 72 0) (witX opLoadKernel [(8, 0x8000), (16, 72)]) (witW opLoadKernel) (by decide) (by decide)).2 (by decide) (by decide)).1 (by decide)).completes,
   (((h.2 (witD opLoadKernel [(8, 0x8001), (16, 72)]) 0 witImg (witX opLoadKernel [(8, 0x8001), (16, 72)]) (witW opLoadKernel) (by decide) (by decide)).2 (by decide) (by decide)).2 (by decide) (by decide)).completes⟩

theorem test_witness_ReadbackCopiesAndReleases (h : Obligations.ReadbackCopiesAndReleases) :
    Completes (.readLedger 0) (witD opReadLedger [(9, 63), (10, 1919), (12, 5)] [(ledWr 63, 2)] (fun d => { d with led := { d.led with wrote := [(63, 4000)] } })) ∧
    Completes (.readFaillog 0) (witD opReadFaillog [(8, 63), (12, 1), (16, 5)] [(flogCount 63, 3)]) ∧
    Completes (.readCapture 0) (witD opReadCapture [(8, 31), (10, 0xFFFF), (12, 5), (16, 96)] [(auRecWr 31, 1)] (witAu 31 { Au.init with seqNo := 65537, slotSz := 32, slotsN := 4 })) ∧
    Completes (.ledRdWrite 63 0x801) (witUp [(ledRd 63, 1919), (ledWr 63, 2)]) ∧
    Completes (.ledRdWrite 63 1920) (witUp []) ∧
    Completes (.ledHdrRdWrite 0x1001) (witUp [(ledHdrRd, 4095), (ledHdrWr, 1)]) :=
  ⟨(h.1 (witD opReadLedger [(9, 63), (10, 1919), (12, 5)] [(ledWr 63, 2)] (fun d => { d with led := { d.led with wrote := [(63, 4000)] } })) 0 (witX opReadLedger [(9, 63), (10, 1919), (12, 5)]) (witW opReadLedger) (by decide) (by decide) (by decide) (by decide)).completes,
   (h.2.1 (witD opReadFaillog [(8, 63), (12, 1), (16, 5)] [(flogCount 63, 3)]) 0 (witX opReadFaillog [(8, 63), (12, 1), (16, 5)]) (witW opReadFaillog) (by decide)).completes,
   (h.2.2.1 (witD opReadCapture [(8, 31), (10, 0xFFFF), (12, 5), (16, 96)] [(auRecWr 31, 1)] (witAu 31 { Au.init with seqNo := 65537, slotSz := 32, slotsN := 4 })) 0 (witX opReadCapture [(8, 31), (10, 0xFFFF), (12, 5), (16, 96)]) (witW opReadCapture) (by decide) (by decide)).completes,
   (h.2.2.2.1 (witUp [(ledRd 63, 1919), (ledWr 63, 2)]) 63 0x801 (by decide) (by decide) (by decide) (by decide)).completes,
   (h.2.2.2.2.1 (witUp []) 63 1920 (by decide)).completes,
   (h.2.2.2.2.2 (witUp [(ledHdrRd, 4095), (ledHdrWr, 1)]) 0x1001 (by decide) (by decide)).completes⟩

theorem test_witness_RunsOpenWithTheirHeaderOrAreRefused (h : Obligations.RunsOpenWithTheirHeaderOrAreRefused) :
    Completes (.run 0 [] true) (witD opRun [(8, 9), (24, 1), (36, 1), (44, 3), (46, 4)] [witSite] (fun d => { d with tb := 0xFFFFFFFFFFFFFFF0 })) ∧
    Completes (.run 0 [witPp] true) (witD opRun [(8, 9), (24, 1), (36, 1), (44, 3), (46, 4)] [witSite, (siteMap 1, 0x80), (ledHdrWr, 4095), (ledHdrRd, 1)]) :=
  ⟨((h (witD opRun [(8, 9), (24, 1), (36, 1), (44, 3), (46, 4)] [witSite] (fun d => { d with tb := 0xFFFFFFFFFFFFFFF0 })) 0 [] true witRunX (witW opRun) (by decide) (by decide)).1 stIntegrity (by decide)).completes,
   ((h (witD opRun [(8, 9), (24, 1), (36, 1), (44, 3), (46, 4)] [witSite, (siteMap 1, 0x80), (ledHdrWr, 4095), (ledHdrRd, 1)]) 0 [witPp] true witRunX (witW opRun) (by decide) (by decide)).2 (by decide)).completes⟩

theorem test_witness_StepsStartAndComplete (h : Obligations.StepsStartAndComplete) :
    Completes (.stepStart 9) (witRuns [{ witRun .due 1 [witPp] with masked := 1 }]) ∧
    Completes (.stepStart 9) (witRuns [witRun .due 1 [witDsp]]) ∧
    Completes (.stepStart 9) (witRuns [witRun .due 1 [witPat]] [(pllState 0, 3), (⟨0x100008, 0, 32⟩, 1), witSite, (calAllowInvalid, 1), (seqCntVec 0, 7)]) ∧
    Completes (.stepComplete 9) (witRuns [witRun .running 1 [witPp] [{ witRs 0 true [] with written := true }]]) :=
  ⟨(h.1 (witRuns [{ witRun .due 1 [witPp] with masked := 1 }]) 9 { witRun .due 1 [witPp] with masked := 1 } witPp (by decide) (by decide) (by decide) (by decide) (by decide) (by decide)).completes,
   (h.2.1 (witRuns [witRun .due 1 [witDsp]]) 9 (witRun .due 1 [witDsp]) witDsp (by decide) (by decide) (by decide) (by decide) (by decide) (by decide) (by decide)).completes,
   (h.2.2.1 (witRuns [witRun .due 1 [witPat]] [(pllState 0, 3), (⟨0x100008, 0, 32⟩, 1), witSite, (calAllowInvalid, 1), (seqCntVec 0, 7)]) 9 (witRun .due 1 [witPat]) witPat 0 (by decide) (by decide) (by decide) (by decide) (by decide) (by decide) (by decide) (by decide) (by decide) (by decide) (by intro i x hi; revert x; revert i; decide) (by decide) (by decide) (by decide)).completes,
   (h.2.2.2 (witRuns [witRun .running 1 [witPp] [{ witRs 0 true [] with written := true }]]) 9 (witRun .running 1 [witPp] [{ witRs 0 true [] with written := true }]) (by decide) (by decide) (by decide) (by decide) (by decide)).completes⟩

theorem test_witness_ContactChecksAndCloseGuardsEnd (h : Obligations.ContactChecksAndCloseGuardsEnd) :
    Completes (.contactCheckSample 9 [(0, 5)]) (witRuns [witRun .contact 0 [witPp] [witRs 0 true []]] [witSite] (fun d => d.setChan 0 { Chan.init with ppmuUse := some witUse })) ∧
    Completes (.closeGuardExpiry 9) (witRuns [{ witRun .guard 1 [witPp] with sites := 5 }]) :=
  ⟨(h.1 (witRuns [witRun .contact 0 [witPp] [witRs 0 true []]] [witSite] (fun d => d.setChan 0 { Chan.init with ppmuUse := some witUse })) 9 [(0, 5)] (witRun .contact 0 [witPp] [witRs 0 true []]) (by decide) (by decide) (by decide) (by decide)).completes,
   (h.2 (witRuns [{ witRun .guard 1 [witPp] with sites := 5 }]) 9 { witRun .guard 1 [witPp] with sites := 5 } (by decide) (by decide) (by decide) (by decide)).completes⟩

theorem test_witness_CommandsEndRunsAndParkDies (h : Obligations.CommandsEndRunsAndParkDies) :
    Completes (.commandPark 0x5) (witUp []) ∧
    Completes (.commandStop 0) (witRuns [witRun .due 1 [witPp]]) ∧
    Completes (.commandAbort 0) (witRuns [witRun .running 1 [witPp] [witRs 1 true [3]]]) ∧
    Completes (.commandPark 0x3003) (witRuns [witRun .running 1 [witPp] [witRs 1 true [3]]]) :=
  ⟨(h.1 (witUp []) 5 (by decide) (.commandPark 5) (by decide)).completes,
   ((h.2 (witRuns [witRun .due 1 [witPp]]) 0 (by decide)).1).completes,
   ((h.2 (witRuns [witRun .running 1 [witPp] [witRs 1 true [3]]]) 0 (by decide)).2.1).completes,
   ((h.2 (witRuns [witRun .running 1 [witPp] [witRs 1 true [3]]]) 0x3003 (by decide)).2.2).completes⟩

theorem test_witness_AlmanacConfigurationAndPatternUpdates_1 (h : Obligations.AlmanacConfigurationAndPatternUpdates) :
    Completes (.almTestWrite .host 4095 2 0x1FF) (witUp [] witClosing) ∧
    Completes (.almTestWrite .host 4095 9 1) (witUp [] witClosing) ∧
    Completes (.almTestWrite .host 4095 13 1) (witUp []) :=
  ⟨((h.1.1 (witUp [] witClosing) .host 4095 2 0x1FF ⟨.rws, 0xFF, 0, .almanac⟩ (by decide) (by decide) (by decide)).1 (by decide)).completes,
   ((h.1.1 (witUp [] witClosing) .host 4095 9 1 ⟨.rws, 0xFFFFFF03, 0xFFFF6000, .almanac⟩ (by decide) (by decide) (by decide)).2 (by decide)).completes,
   (h.1.2 (witUp []) .host 4095 13 1 (by decide)).completes⟩

theorem test_witness_AlmanacConfigurationAndPatternUpdates_2 (h : Obligations.AlmanacConfigurationAndPatternUpdates) :
    Completes (.patUpdateClear 0 [77, 0, 0, 0] true) (witD opPatUpdate [(8, 3), (9, 7), (10, 1)] witTracked witClosing) ∧
    Completes (.patUpdateClear 0 [77, 0, 0, 0] true) (witD opPatUpdate [(8, 3), (9, 5), (10, 1)] witTracked witOne) ∧
    Completes (.patUpdateExport 0 [77, 0, 0, 0] true) (witD opPatUpdate [(8, 2), (9, 5), (10, 1)] witTracked witOne) :=
  ⟨((h.2 (witD opPatUpdate [(8, 3), (9, 7), (10, 1)] witTracked witClosing) 0 [77, 0, 0, 0] (witX opPatUpdate [(8, 3), (9, 7), (10, 1)]) (witW opPatUpdate) (by decide) (by decide) (by decide) (by decide)).1 (by decide)).completes,
   (((h.2 (witD opPatUpdate [(8, 3), (9, 5), (10, 1)] witTracked witOne) 0 [77, 0, 0, 0] (witX opPatUpdate [(8, 3), (9, 5), (10, 1)]) (witW opPatUpdate) (by decide) (by decide) (by decide) (by decide)).2 (by decide) (by decide) (by decide) (by decide) (by decide)).2.2.2.2 (by decide) [0] (by decide)).completes,
   (((h.2 (witD opPatUpdate [(8, 2), (9, 5), (10, 1)] witTracked witOne) 0 [77, 0, 0, 0] (witX opPatUpdate [(8, 2), (9, 5), (10, 1)]) (witW opPatUpdate) (by decide) (by decide) (by decide) (by decide)).2 (by decide) (by decide) (by decide) (by decide) (by decide)).2.2.2.1 (by decide) [0] (by decide) (by decide) (by decide)).completes⟩

theorem test_witness_AlmanacConfigurationAndPatternUpdates_3 (h : Obligations.AlmanacConfigurationAndPatternUpdates) :
    Completes (.patUpdateLoadExt 0 [] true) (witD opPatUpdate [(8, 1)] witTracked witOne) ∧
    Completes (.patUpdateConfig 0 witCfgRec true) (witD opPatUpdate [(10, 1)] witTracked witOne) ∧
    Completes (.patUpdateConfig 0 (List.replicate 64 1) true) (witD opPatUpdate [(10, 1)] witTracked witOne) :=
  ⟨(((h.2 (witD opPatUpdate [(8, 1)] witTracked witOne) 0 [] (witX opPatUpdate [(8, 1)]) (witW opPatUpdate) (by decide) (by decide) (by decide) (by decide)).2 (by decide) (by decide) (by decide) (by decide) (by decide)).2.2.1 (by decide) (((witD opPatUpdate [(8, 1)] witTracked witOne).dev.accept (witW opPatUpdate)).almUpdate) rfl).completes,
   (((h.2 (witD opPatUpdate [(10, 1)] witTracked witOne) 0 witCfgRec (witX opPatUpdate [(10, 1)]) (witW opPatUpdate) (by decide) (by decide) (by decide) (by decide)).2 (by decide) (by decide) (by decide) (by decide) (by decide)).1 (by decide) ((((witD opPatUpdate [(10, 1)] witTracked witOne).dev.accept (witW opPatUpdate)).patConfig 1 witCfgRec).getD Dev.init) rfl).completes,
   (((h.2 (witD opPatUpdate [(10, 1)] witTracked witOne) 0 (List.replicate 64 1) (witX opPatUpdate [(10, 1)]) (witW opPatUpdate) (by decide) (by decide) (by decide) (by decide)).2 (by decide) (by decide) (by decide) (by decide) (by decide)).2.1 (by decide) (by decide)).completes⟩

theorem test_witness_ClosesAreCheckedThenEnterTheWindows (h : Obligations.ClosesAreCheckedThenEnterTheWindows) :
    Completes (.almanacCloseCheck 9) (witRuns [witRun .almWait 1 [witPp]] (witTracked ++ [(almEn, 1)]) (fun d => { d with alm := { d.alm with queue := [5, 6] } })) ∧
    Completes (.almanacAddValues 9) (witUp (witTracked ++ [(almEn, 1)]) (fun d => { d with alm := { d.alm with adding := some (9, [(0, 5), (1, 7), (0, 6)]) } })) :=
  ⟨(h.1 (witRuns [witRun .almWait 1 [witPp]] (witTracked ++ [(almEn, 1)]) (fun d => { d with alm := { d.alm with queue := [5, 6] } })) 9 (witRun .almWait 1 [witPp]) [6] (by decide) (by decide) (by decide) (by decide) (by decide) (by decide) (by decide) (by decide)).completes,
   (h.2 (witUp (witTracked ++ [(almEn, 1)]) (fun d => { d with alm := { d.alm with adding := some (9, [(0, 5), (1, 7), (0, 6)]) } })) 9 [(0, 5), (1, 7), (0, 6)] (by decide) (by decide) (by decide) (by decide)).completes⟩

theorem test_witness_AlmanacCodesFollowTheValues (h : Obligations.AlmanacCodesFollowTheValues) :
    ({ (wit []).dev.almCfg 0 with lo := -3, hi := 8 } : AlmCfg).code 8 = 1024 ∨ ({ (wit []).dev.almCfg 0 with lo := -3, hi := 8 } : AlmCfg).code 9 = 1025 :=
  (Or.inr : ({ (wit []).dev.almCfg 0 with lo := -3, hi := 8 } : AlmCfg).code 9 = 1025 → ({ (wit []).dev.almCfg 0 with lo := -3, hi := 8 } : AlmCfg).code 8 = 1024 ∨ ({ (wit []).dev.almCfg 0 with lo := -3, hi := 8 } : AlmCfg).code 9 = 1025) ((h { (wit []).dev.almCfg 0 with lo := -3, hi := 8 } 0 9 (by decide)).2.2.1.2 (by decide))

theorem test_witness_ResultsSaturateOrWrap (h : Obligations.ResultsSaturateOrWrap) :
    toSigned 20 (fit 20 true (-600000)).bits = max (-2 ^ (20 - 1)) (min (2 ^ (20 - 1) - 1) (-600000)) :=
  (h 20 (-600000) (by decide)).1

theorem test_witness_CalibrationRunsBeginAndStepsEnd (h : Obligations.CalibrationRunsBeginAndStepsEnd) :
    Completes (.calRunMeasure 0) (witD opCalRun [(10, 1), (12, 1), (14, 1)] (witTemps ++ [(seqState 0, 1), (⟨0x100008, 0, 32⟩, 1)])) ∧
    Completes (.calRunMeasure 0) (witD opCalRun [(10, 1), (12, 0x8000), (14, 0x41)] witTemps) ∧
    Completes (.calRunEye 0) (witD opCalRun [(8, 2), (12, 1), (16, 4096), (20, 100), (22, 24)]) ∧
    Completes (.calRunRefcheck 0 5100000 0x0003E8FFFC18FFFC17) (witD opCalRun [(8, 3)]) ∧
    Completes (.calStepDone 0 (witObs 0 (-100001) true)) (witUp [] (fun d => { d with cal := { d.cal with runs := [witCal 0 false] } })) ∧
    Completes (.calStepDone 0 (witObs 0 100000 true)) (witUp [(calItemPts 3 0, 1)] (fun d => { d with cal := { d.cal with runs := [witCal 0 false] } })) ∧
    Completes (.calStepDone 0 (witObs 0 100000 false)) (witUp [(calItemPts 3 0, 1)] (fun d => { d with cal := { d.cal with runs := [witCal 0 false] } })) ∧
    Completes (.calStepDone 0 (witObs 0 0 false)) (witUp [(calItemPts 3 0, 1)] (fun d => { d with cal := { d.cal with runs := [witCal 2 false] } })) :=
  ⟨(h.1.1 (witD opCalRun [(10, 1), (12, 1), (14, 1)] (witTemps ++ [(seqState 0, 1), (⟨0x100008, 0, 32⟩, 1)])) 0 (witX opCalRun [(10, 1), (12, 1), (14, 1)]) (witW opCalRun) (by decide) (by decide) (by decide) |>.1 0 (by decide) (by decide) (by decide) (by decide) (by decide) (fun j hj _ => (by unfold witTempOk; intro j hj; refine ⟨0, ?_, by norm_num [pointTemp], by norm_num [pointTemp]⟩; interval_cases j <;> rfl : witTempOk ((witD opCalRun [(10, 1), (12, 1), (14, 1)] (witTemps ++ [(seqState 0, 1), (⟨0x100008, 0, 32⟩, 1)])))) j hj)).completes,
   ((h.1.1 (witD opCalRun [(10, 1), (12, 0x8000), (14, 0x41)] witTemps) 0 (witX opCalRun [(10, 1), (12, 0x8000), (14, 0x41)]) (witW opCalRun) (by decide) (by decide) (by decide) |>.2 (by decide) (by decide)).1 (by decide) (by decide) (by decide) (fun j hj _ => (by unfold witTempOk; intro j hj; refine ⟨0, ?_, by norm_num [pointTemp], by norm_num [pointTemp]⟩; interval_cases j <;> rfl : witTempOk ((witD opCalRun [(10, 1), (12, 0x8000), (14, 0x41)] witTemps))) j hj)).completes,
   ((h.1.1 (witD opCalRun [(8, 2), (12, 1), (16, 4096), (20, 100), (22, 24)]) 0 (witX opCalRun [(8, 2), (12, 1), (16, 4096), (20, 100), (22, 24)]) (witW opCalRun) (by decide) (by decide) (by decide) |>.2 (by decide) (by decide)).2 (by decide) (by decide) (by decide) (by decide)).completes,
   (h.1.2 (witD opCalRun [(8, 3)]) 0 5100000 0x0003E8FFFC18FFFC17 (witX opCalRun [(8, 3)]) (witW opCalRun) (by decide) (by decide) (by decide) (by decide)).completes,
   ((h.2 (witUp [] (fun d => { d with cal := { d.cal with runs := [witCal 0 false] } })) 0 (witObs 0 (-100001) true) (witCal 0 false) (by decide) (by decide) (by decide) (by decide) (by decide)).1 (by decide)).completes,
   ((h.2 (witUp [(calItemPts 3 0, 1)] (fun d => { d with cal := { d.cal with runs := [witCal 0 false] } })) 0 (witObs 0 100000 true) (witCal 0 false) (by decide) (by decide) (by decide) (by decide) (by decide)).2.1 (by decide) (by decide) (by decide) (by decide)).completes,
   ((h.2 (witUp [(calItemPts 3 0, 1)] (fun d => { d with cal := { d.cal with runs := [witCal 0 false] } })) 0 (witObs 0 100000 false) (witCal 0 false) (by decide) (by decide) (by decide) (by decide) (by decide)).2.2.1 (by decide) (by decide) (by decide) (by decide)).completes,
   ((h.2 (witUp [(calItemPts 3 0, 1)] (fun d => { d with cal := { d.cal with runs := [witCal 2 false] } })) 0 (witObs 0 0 false) (witCal 2 false) (by decide) (by decide) (by decide) (by decide) (by decide)).2.2.2 (by decide) (by decide)).completes⟩

theorem test_witness_CalibrationStoreAndTemperatures (h : Obligations.CalibrationStoreAndTemperatures) :
    Completes (.calRunStore 0) (witD opCalRun [(8, 1)]) ∧
    Completes (.calStoreDone true) (witUp [] (fun d => { d with cal := { d.cal with stores := [witW opCalRun], gen := 5 } })) ∧
    Completes (.calStoreDone false) (witUp [] (fun d => { d with cal := { d.cal with stores := [witW opCalRun], gen := 5 } })) ∧
    Completes (.tempSensorRead (List.replicate 15 0 ++ [0xF3C0]) (List.replicate 8 9601)) (witUp []) ∧
    Completes (.calRecomputePeriod) (witUp (witTemps ++ [(calInterpEn, 1), (calTemp 3, 77)]) (fun d => { d with cal := { d.cal with due := 99 } })) :=
  ⟨(h.1.1 (witD opCalRun [(8, 1)]) 0 (witX opCalRun [(8, 1)]) (witW opCalRun) (by decide) (by decide) (by decide) (by decide) (by decide) (by decide)).completes,
   (h.1.2.1 (witUp [] (fun d => { d with cal := { d.cal with stores := [witW opCalRun], gen := 5 } })) (witW opCalRun) rfl).completes,
   (h.1.2.2 (witUp [] (fun d => { d with cal := { d.cal with stores := [witW opCalRun], gen := 5 } })) (witW opCalRun) rfl).completes,
   (h.2.1 (witUp []) (List.replicate 15 0 ++ [0xF3C0]) (List.replicate 8 9601) (by decide) (by decide) (by decide) (by decide)).completes,
   (h.2.2 (witUp (witTemps ++ [(calInterpEn, 1), (calTemp 3, 77)]) (fun d => { d with cal := { d.cal with due := 99 } })) (by decide) (by decide)).completes⟩

theorem test_witness_InjectionIsAcceptedOrRefused (h : Obligations.InjectionIsAcceptedOrRefused) :
    Completes (.fcuInj 0x1012F01F) (witUp []) ∧
    Completes (.fcuInj 0x1FF201F) (witUp [(fcuInjRefused, 1), (fcuInjReal, 1)]) ∧
    Completes (.fcuInj 0x1093) (witUp [(fcuInjBusy, 1), (fcuInjBusyS, 1), (fcuInjLeft, 7)]) :=
  ⟨(h.2.2 (witUp []) 0x1012F01F (Or.inl (by decide))).completes,
   (h.1 (witUp [(fcuInjRefused, 1), (fcuInjReal, 1)]) 0x1FF201F (by decide) (by decide) (by decide)).completes,
   (h.2.1 (witUp [(fcuInjBusy, 1), (fcuInjBusyS, 1), (fcuInjLeft, 7)]) 0x1093 (by decide) (by decide)).completes⟩

theorem test_witness_ReportsAreRecordedAndAnswered (h : Obligations.ReportsAreRecordedAndAnswered) :
    Completes (.faultReport none) (witUp [(fcuReact 0, 0x49), (seqState 0, 2), (⟨0x100008, 0, 32⟩, 1), witSite] (fun d => { d with tb := 9, mclk := 9, fcu := { d.fcu with raised := [{ witRep with chk := 1, cls := 1 }, witRep] } })) :=
  (h (witUp [(fcuReact 0, 0x49), (seqState 0, 2), (⟨0x100008, 0, 32⟩, 1), witSite] (fun d => { d with tb := 9, mclk := 9, fcu := { d.fcu with raised := [{ witRep with chk := 1, cls := 1 }, witRep] } })) witRep (by decide) (by decide) (by decide)).completes

theorem test_witness_CountsWiresPinAndLatchAreReleased (h : Obligations.CountsWiresPinAndLatchAreReleased) :
    Completes (.fcuWindowExpiry 0x1F 3) (witUp [] (fun d => d.setChecker (chkKey 0x1F 3) { count := 3, isOpen := true, winEnd := 77, severe := false })) ∧
    Completes (.fcuSevsrcClear 0 0x80010000) (witUp [(fcuSevsrc 0, 0xFFFFFFFF)] (fun d => d.setChecker (chkKey 0x1F 3) { count := 0, isOpen := false, winEnd := 0, severe := true })) ∧
    Completes (.fcuWire 0x93 5) (witUp []) ∧
    Completes (.fcuWireRecovery 0x93 5) (witUp [] (fun d => { d with fcu := { d.fcu with wireBad := [chkKey 0x93 5] } })) ∧
    Completes (.fcuPinRelease) (witUp [(fcuFaultLow, 1)] (fun d => { d with mclk := 99, fcu := { d.fcu with minwEnd := 99 } })) ∧
    Completes (.fcuPinRelease) (witUp [(fcuFaultLow, 1)] (fun d => { d with mclk := 98, fcu := { d.fcu with minwEnd := 99 } })) ∧
    Completes (.faultNMinwExpiry) (witUp [(fcuFaultLow, 1)] (fun d => { d with mclk := 98, fcu := { d.fcu with minwEnd := 99, released := true } })) ∧
    Completes (.fcuFirstClr) (witUp [(fcuFirstValid, 1), (fcuFirst 3, 5)]) :=
  ⟨(h.1.1 (witUp [] (fun d => d.setChecker (chkKey 0x1F 3) { count := 3, isOpen := true, winEnd := 77, severe := false })) 0x1F 3 (by decide)).completes,
   (h.1.2.1 (witUp [(fcuSevsrc 0, 0xFFFFFFFF)] (fun d => d.setChecker (chkKey 0x1F 3) { count := 0, isOpen := false, winEnd := 0, severe := true })) 0 0x80010000).completes,
   (h.1.2.2.1 (witUp []) 0x93 5 0x12 (by decide) (by decide) (by decide) (by decide)).completes,
   (h.1.2.2.2 (witUp [] (fun d => { d with fcu := { d.fcu with wireBad := [chkKey 0x93 5] } })) 0x93 5).completes,
   ((h.2.1 (witUp [(fcuFaultLow, 1)] (fun d => { d with mclk := 99, fcu := { d.fcu with minwEnd := 99 } })) (by decide)).1 (by decide)).completes,
   ((h.2.1 (witUp [(fcuFaultLow, 1)] (fun d => { d with mclk := 98, fcu := { d.fcu with minwEnd := 99 } })) (by decide)).2 (by decide)).completes,
   (h.2.2.1 (witUp [(fcuFaultLow, 1)] (fun d => { d with mclk := 98, fcu := { d.fcu with minwEnd := 99, released := true } })) (by decide)).completes,
   (h.2.2.2 (witUp [(fcuFirstValid, 1), (fcuFirst 3, 5)])).completes⟩

theorem test_witness_TheTwinLinkIsTrainedWatchedAndLost (h : Obligations.TheTwinLinkIsTrainedWatchedAndLost) :
    Completes (.linkUp 4 true) (witUp [(twinEn, 1)]) ∧
    Completes (.linkUp 4 false) (witUp [(twinEn, 1)]) ∧
    Completes (.heartbeatSend) (witTw [] (witTs fun t => { t with hbSend := 30, hbLast := some (4, 5) })) ∧
    Completes (.heartbeat 0 5 6 20 1 true (List.replicate 16 3)) (witTw [] (fun d => { d with tb := 30 })) ∧
    Completes (.flag 7 (List.replicate 16 255)) (witTw []) ∧
    Completes (.meridianLinkLost) (witTw [(twinAuto, 1), (twinState, 1)]) ∧
    Completes (.meridianRetxTimeout) (witTw [(twinRetx, 0xFFFF)] (witTs fun t => { t with retxAt := 50, unacked := [⟨3, 2, [1], 50⟩] })) ∧
    Completes (.meridianMessageDiscarded .crc) (witTw []) :=
  ⟨(h.1 (witUp [(twinEn, 1)]) 4 true (by decide) (by decide) (by decide) (by decide) (by decide)).completes,
   (h.2.1 (witUp [(twinEn, 1)]) 4 false (by decide) (by decide) (by decide) (by decide) (by decide)).completes,
   (h.2.2.1 (witTw [] (witTs fun t => { t with hbSend := 30, hbLast := some (4, 5) })) (by decide)).completes,
   (h.2.2.2.1 (witTw [] (fun d => { d with tb := 30 })) 0 5 6 20 1 true (List.replicate 16 3) (by decide) (by decide) (by decide)).completes,
   (h.2.2.2.2.1 (witTw []) 7 (List.replicate 16 255) (by decide) (by decide) (by decide)).completes,
   (h.2.2.2.2.2.1 (witTw [(twinAuto, 1), (twinState, 1)]) (by decide) (by decide) (by decide) (by decide)).completes,
   (h.2.2.2.2.2.2.1 (witTw [(twinRetx, 0xFFFF)] (witTs fun t => { t with retxAt := 50, unacked := [⟨3, 2, [1], 50⟩] })) (by decide) (by decide)).completes,
   (h.2.2.2.2.2.2.2 (witTw []) .crc).completes⟩

theorem test_witness_TwinStartsMirrorsAndNotesAreTaken (h : Obligations.TwinStartsMirrorsAndNotesAreTaken) :
    Completes (.startReady 0 15 44) (witTw []) ∧
    Completes (.startReady 0 0 44) (witTw [(seqState 0, 4)] (fun d => witTs (fun t => { t with readyO := [(0, some 40)] }) (witSeq 0 (witX0 [witL oSyncw 0 1]) d))) ∧
    Completes (.start 0 0 44) (witTw [(seqState 0, 4)] (witSeq 0 (witX0 [witL oSyncw 0 1]))) ∧
    Completes (.notify 0 0x1234) (witTw [(hostEqEn, 1)]) ∧
    Completes (.almFull 0 []) (witTw [] witClosing) ∧
    Completes (.almDelta 0 []) (witTw [] witClosing) ∧
    Completes (.openMsg 0 9 5 7 3) (witTw []) ∧
    Completes (.mirror 0 9 0x77 [(63, 0x55)]) (witTw [] (witMir 1)) ∧
    Completes (.intent 0 9) (witTw [] (witMir 2)) ∧
    Completes (.complete 0 9) (witTw [] (witMir 3)) ∧
    Completes (.abandon 0 9) (witTw [] (witMir 2)) ∧
    Completes (.intentAck 0 9) (witTw [] (witTs fun t => { t with closing := [{ witRun .almWait 1 [witPp] with mirSt := 2 }] })) ∧
    Completes (.twinMirAck 0x7F) (witTw [] (witMir 5)) ∧
    Completes (.twinMirAck 0x3F) (witTw [] (witMir 3)) :=
  ⟨((h.1.1 (witTw []) 0 15 44 (by decide) (by decide)).1 rfl).completes,
   ((h.1.1 (witTw [(seqState 0, 4)] (fun d => witTs (fun t => { t with readyO := [(0, some 40)] }) (witSeq 0 (witX0 [witL oSyncw 0 1]) d))) 0 0 44 (by decide) (by decide)).2 40 rfl (by decide) (by decide)).completes,
   (h.1.2.1 (witTw [(seqState 0, 4)] (witSeq 0 (witX0 [witL oSyncw 0 1]))) 0 0 44 (by decide) (by decide) (by decide)).completes,
   (h.1.2.2.1 (witTw [(hostEqEn, 1)]) 0 0x1234 (by decide) (by decide)).completes,
   ((h.1.2.2.2 (witTw [] witClosing) 0 [] [] (by decide) (by decide) (by decide)).1).completes,
   ((h.1.2.2.2 (witTw [] witClosing) 0 [] [] (by decide) (by decide) (by decide)).2).completes,
   (h.2.1 (witTw []) 0 9 5 7 3 0 (by decide) (by decide) (by decide) (by decide)).completes,
   (h.2.2.1 (witTw [] (witMir 1)) 0 9 0x77 63 0x55 63 (by decide) (by decide) (by decide)).completes,
   ((h.2.2.2.1 (witTw [] (witMir 2)) 0 9 63 (by decide) (by decide) (by decide)).1 (by decide)).completes,
   ((h.2.2.2.1 (witTw [] (witMir 3)) 0 9 63 (by decide) (by decide) (by decide)).2.1).completes,
   ((h.2.2.2.1 (witTw [] (witMir 2)) 0 9 63 (by decide) (by decide) (by decide)).2.2).completes,
   (h.2.2.2.2.1 (witTw [] (witTs fun t => { t with closing := [{ witRun .almWait 1 [witPp] with mirSt := 2 }] })) 0 9 { witRun .almWait 1 [witPp] with mirSt := 2 } (by decide) (by decide) (by decide)).completes,
   ((h.2.2.2.2.2 (witTw [] (witMir 5)) 0x7F).1 (Or.inr (by decide))).completes,
   ((h.2.2.2.2.2 (witTw [] (witMir 3)) 0x3F).2 (by decide) (by decide)).completes⟩

theorem test_witness_TakeoversRunInOrder (h : Obligations.TakeoversRunInOrder) :
    Completes (.twinTake) (witTw [(twinState, 1)]) ∧
    Completes (.takeReq 0) (witTw [(twinState, 1), (twinAuto, 1)]) ∧
    Completes (.takeoverDelayExpiry) (witTw [(twinState, 1)] (witTs fun t => { t with delayAt := some 60 })) ∧
    Completes (.twinTake) (witTw [(twinState, 0)]) ∧
    Completes (.hostLossExpiry) (witTw [] (witTs fun t => { t with lossAt := some 60 })) ∧
    Completes (.tpStuck) (witTw [] (witTs fun t => { t with take := .bus, takeEnd := 60 })) ∧
    Completes (.taken 0) (witTw [] (witTs fun t => { t with take := .bus, takeEnd := 60 })) ∧
    Completes (.takeoverWaitExpiry) (witTw [] (fun d => witMir 3 (witTs (fun t => { t with take := .wait, takeEnd := 60 }) d))) ∧
    Completes (.parkInAssert) (witTw [(twinState, 2), (twinRole, 1), (twinParkOut, 1)]) ∧
    Completes (.parkInAssert) (witTw [(twinState, 2)]) ∧
    Completes (.parkInRelease) (witTw [(twinState, 4)]) ∧
    Completes (.twinRelease) (witTw [(twinState, 3), (twinParkOut, 1), (tpOwner, 1)]) ∧
    Completes (.twinRelease) (witTw [(twinState, 2)]) :=
  ⟨((h.1 (witTw [(twinState, 1)]) (by decide) (by decide)).1).completes,
   ((h.1 (witTw [(twinState, 1), (twinAuto, 1)]) (by decide) (by decide)).2.1 0 (by decide) (by decide) (by decide)).completes,
   ((h.1 (witTw [(twinState, 1)] (witTs fun t => { t with delayAt := some 60 })) (by decide) (by decide)).2.2 60 (by decide)).completes,
   (h.2.1 (witTw [(twinState, 0)]) (by decide)).completes,
   (h.2.2.1 (witTw [] (witTs fun t => { t with lossAt := some 60 })) 60 (by decide)).completes,
   (h.2.2.2.1 (witTw [] (witTs fun t => { t with take := .bus, takeEnd := 60 })) (by decide) (by decide) (by decide)).completes,
   (h.2.2.2.2.1 (witTw [] (witTs fun t => { t with take := .bus, takeEnd := 60 })) 0 (by decide) (by decide) (by decide)).completes,
   ((h.2.2.2.2.2.1 (witTw [] (fun d => witMir 3 (witTs (fun t => { t with take := .wait, takeEnd := 60 }) d))) (by decide) (by decide)).1).completes,
   (h.2.2.2.2.2.2.1 (witTw [(twinState, 2), (twinRole, 1), (twinParkOut, 1)]) (by decide) (by decide) (by decide) (by decide) (by decide)).completes,
   (h.2.2.2.2.2.2.2.1 (witTw [(twinState, 2)]) (by decide) (by decide) (by decide)).completes,
   (h.2.2.2.2.2.2.2.2.1 (witTw [(twinState, 4)])).completes,
   ((h.2.2.2.2.2.2.2.2.2 (witTw [(twinState, 3), (twinParkOut, 1), (tpOwner, 1)])).1 (by decide)).completes,
   ((h.2.2.2.2.2.2.2.2.2 (witTw [(twinState, 2)])).2 (by decide)).completes⟩

theorem test_witness_TransitMasterPhases (h : Obligations.TransitMasterPhases) :
    Completes (.tpGo) (witUp [(tpLen, 8192), (tpCmdLen, 32), (tpAddrLen, 32)]) ∧
    Completes (.tpArbWindow) (witUp [(tpState, 1)] (witTp fun t => { t with winAt := some 60 })) ∧
    Completes (.tpDone [true]) (witUp [(tpState, 2), (tpHoldSel, 1), (tpLen, 16), (tpCmdLen, 8), (tpCmdv, 0xA5)]) ∧
    Completes (.tpAbort) (witUp [(tpState, 2)]) ∧
    Completes (.tpBusTimeout) (witUp [(tpState, 1)] (witTp fun t => { t with toAt := some 60 })) ∧
    Completes (.tpModeFault 9) (witUp [(tpState, 2)]) ∧
    Completes (.tpBusyNEdge true) (witUp [(tpState, 3)]) :=
  ⟨(h.1 (witUp [(tpLen, 8192), (tpCmdLen, 32), (tpAddrLen, 32)]) (by decide) (by decide) (by decide) (by decide) (by decide) (by decide) (by decide)).completes,
   (h.2.1 (witUp [(tpState, 1)] (witTp fun t => { t with winAt := some 60 })) 60 (by decide) (by decide) (by decide)).completes,
   (h.2.2.1 (witUp [(tpState, 2), (tpHoldSel, 1), (tpLen, 16), (tpCmdLen, 8), (tpCmdv, 0xA5)]) [true] (by decide) (by decide) (by decide)).completes,
   (h.2.2.2.1 (witUp [(tpState, 2)]) (by decide)).completes,
   (h.2.2.2.2.1 (witUp [(tpState, 1)] (witTp fun t => { t with toAt := some 60 })) 60 (by decide) (by decide)).completes,
   (h.2.2.2.2.2.1 (witUp [(tpState, 2)]) 9 (by decide)).completes,
   (h.2.2.2.2.2.2 (witUp [(tpState, 3)]) true).completes⟩

theorem test_witness_TransitTargetFramesAndBuffers (h : Obligations.TransitTargetFramesAndBuffers) :
    Completes (.tpTargetFrame 8 0 (List.replicate 9 true) false) (witUp [(tpTgtEn, 1), (tpTgtLen, 9), (tpRxHead, 5), (tpRxCount, 7)]) ∧
    Completes (.tpTargetFrame 8 0 [true] false) (witUp [(tpTgtEn, 1), (tpTgtLen, 0), (tpRxHead, 5), (tpRxCount, 8)]) ∧
    Completes (.tpTargetFrame 8 0x80 [true, false] false) (witUp [(tpTgtEn, 1), (tpTgtLen, 2), (tpTxValid, 1)]) ∧
    Completes (.rxPop) (witUp [(tpRxHead, 7), (tpRxCount, 8)]) ∧
    Completes (.rxPop) (witUp [(tpRxHead, 7)]) ∧
    Completes (.txLoad) (witUp []) ∧
    Completes (.txClr) (witUp [(tpTxValid, 1)]) :=
  ⟨(h.1.1 (witUp [(tpTgtEn, 1), (tpTgtLen, 9), (tpRxHead, 5), (tpRxCount, 7)]) 0 (List.replicate 9 true) (by decide) (by decide) (by decide) (by decide) (by decide) (by decide)).completes,
   (h.1.2.1 (witUp [(tpTgtEn, 1), (tpTgtLen, 0), (tpRxHead, 5), (tpRxCount, 8)]) [true] (by decide) (by decide) (by decide) (by decide)).completes,
   (h.1.2.2 (witUp [(tpTgtEn, 1), (tpTgtLen, 2), (tpTxValid, 1)]) [true, false] (by decide) (by decide) (by decide) (by decide)).completes,
   (h.2.1 (witUp [(tpRxHead, 7), (tpRxCount, 8)]) (by decide)).completes,
   (h.2.2.1 (witUp [(tpRxHead, 7)]) (by decide)).completes,
   (h.2.2.2.1 (witUp [])).completes,
   (h.2.2.2.2 (witUp [(tpTxValid, 1)])).completes⟩

theorem test_witness_EveryStepKeepsTheFlashFormAndTheIdentityRegion :
    let s : State := { State.reset with nv := { State.reset.nv with flash := [(5, 0), (0x1800000, 7)] } }
    s.flashOk ∧ ∃ t, step s = .next t := ⟨rfl, _, rfl⟩

end Sys2Proof.Tests
end

section
/-!
PROOFS. Rules that the proofs share: the two forms of a command's meaning, SRAM bytes, single register words, shadow sets of one
word, the register map by blocks, and writes to locked and live registers.
-/

namespace Sys2Proof.Machine

/-! ## Commands of the two forms of Lift -/

/-- A command of the form `onDev` answers with the device that its effect makes. -/
theorem Answers.of_onDev {c : Instr} {s : State} {t : Dev} {post : Dev → Prop} (f : Dev → Dev)
    (h : exec c s = onDev s f) (ht : f s.dev = t) (hp : post t) : Answers c s post := by
  subst ht; exact ⟨_, h, hp⟩

/-- A command of the form `onDevIdle` answers with the device that its effect makes, and the idle timers follow. -/
theorem AnswersIdle.of_onDevIdle {c : Instr} {s : State} {t : Dev} {post : Dev → Prop} (f : Dev → Dev)
    (h : exec c s = onDevIdle s f) (ht : f s.dev = t) (hp : post t) : AnswersIdle c s post := by
  subst ht; exact ⟨_, h, hp⟩

/-! ## SRAM bytes -/

/-- A byte after a run of bytes has been stored. -/
theorem Dev.byte_stBytes (d : Dev) (a b : Nat) (bs : List Byte) :
    (d.stBytes a bs).byte b = if a ≤ b then (bs[b - a]?).getD (d.byte b) else d.byte b :=
  Tab.get_setList _ _ _ _ _

/-- A run of values reads back as it was written. -/
theorem Tab.getList_setList_same {α : Type} [DecidableEq α] (dflt : Nat → α) (vs : List α) (t : Tab α) (k : Nat) :
    Tab.getList dflt (Tab.setList dflt t k vs) k vs.length = vs := by
  induction vs generalizing t k with
  | nil => rfl
  | cons v vs ih =>
    rw [Tab.setList, List.length_cons, Tab.getList, ih, Tab.get_setList, if_neg (by omega), Tab.get_set_same]

@[simp] theorem length_toBytes (n v : Nat) : (toBytes n v).length = n := by
  induction n generalizing v with
  | zero => rfl
  | succ n ih => simp [toBytes, ih]

/-- The bytes of a number make the number, as far as they reach (R2). -/
theorem ofBytes_toBytes (n v : Nat) : ofBytes (toBytes n v) = v % 256 ^ n := by
  induction n generalizing v with
  | zero => simp [toBytes, ofBytes, Nat.mod_one]
  | succ n ih => rw [toBytes, ofBytes, ih, BitVec.toNat_ofNat, pow_succ' 256 n, Nat.mod_mul]

/-- A stored number reads back (R2). -/
theorem Dev.ld_st (d : Dev) (a n v : Nat) : (d.st a n v).ld a n = v % 256 ^ n := by
  have h := Tab.getList_setList_same sramDefault (toBytes n v) d.sram a
  rw [length_toBytes] at h
  rw [← ofBytes_toBytes, ← h]; rfl

/-- A store leaves every byte outside its range as it was. -/
theorem Dev.byte_st_outside (d : Dev) {a n b : Nat} (v : Nat) (h : b < a ∨ a + n ≤ b) : (d.st a n v).byte b = d.byte b := by
  rw [Dev.st, Dev.byte_stBytes]
  split
  · rw [List.getElem?_eq_none (by rw [length_toBytes]; omega)]; rfl
  · rfl

/-! ## Registers of the core die, and frames of single words -/

/-- The registers below 0x1000000 lie on no edge die. -/
theorem edgeOf_eq_none {a : Nat} (h : a < 0x1000000) : edgeOf a = none := by
  rw [edgeOf, if_neg (by omega)]

/-- A register of the core die takes a value and nothing else changes. -/
theorem Dev.storeReg_core (d : Dev) {a : Nat} (v : Nat) (desc : Option Nat) (h : edgeOf a = none) :
    d.storeReg a v desc = d.setWord a (BitVec.ofNat 32 v) := by
  simp only [Dev.storeReg, h]

theorem Dev.keepsRegs_setWord {d t : Dev} {l : List Nat} {a : Nat} (v : Word) (ha : a ∈ l) (h : d.KeepsRegs t l) :
    d.KeepsRegs (t.setWord a v) l := by
  intro b hb
  rw [Dev.word_setWord_ne t v (by rintro rfl; exact hb ha)]
  exact h b hb

/-- Two devices with the same register words keep the same registers. -/
theorem Dev.keepsRegs_of_regs {d t u : Dev} {l : List Nat} (e : u.regs = t.regs) (h : d.KeepsRegs t l) : d.KeepsRegs u l := by
  intro a ha
  rw [← h a ha, Dev.word, e, Dev.word]

/-- A register of one field from bit 0 reads the number that its word was given. -/
theorem Dev.get_of_word {d : Dev} {f : Fld} {x : Nat} (h : d.word f.addr = BitVec.ofNat 32 x) (hlo : f.lo = 0) (hw : f.w ≤ 32)
    (hx : x < 2 ^ f.w) : d.get f = x := by
  rw [Dev.get, h, BitVec.toNat_ofNat, Nat.mod_eq_of_lt (hx.trans_le (Nat.pow_le_pow_right (by decide) hw)), hlo, bitsOf,
    pow_zero, Nat.div_one, Nat.mod_eq_of_lt hx]

/-- A word that a mask cuts, as the device stores it. -/
theorem ofNat_toNat_and (v : Word) (m : Nat) : BitVec.ofNat 32 (v.toNat &&& m) = v &&& BitVec.ofNat 32 m := by
  apply BitVec.eq_of_toNat_eq
  rw [BitVec.toNat_and, BitVec.toNat_ofNat, BitVec.toNat_ofNat, Nat.and_mod_two_pow, Nat.mod_eq_of_lt v.isLt]

/-- A register word that takes a value alone: it reads as that value, every other register is as it was, and so is the rest. -/
theorem Dev.setWord_alone (d : Dev) (a : Nat) {w v : Word} (h : w = v) :
    (d.setWord a w).word a = v ∧ d.KeepsRegs (d.setWord a w) [a] ∧ { d.setWord a w with regs := d.regs } = d :=
  ⟨(d.word_setWord a w).trans h, Dev.keepsRegs_setWord w (by simp) (d.keepsRegs_refl _), rfl⟩

/-- The same for a register of one field from bit 0. -/
theorem Dev.setWord_field_alone (d : Dev) (f : Fld) {x : Nat} (hlo : f.lo = 0) (hw : f.w ≤ 32) (hx : x < 2 ^ f.w) :
    let t := d.setWord f.addr (BitVec.ofNat 32 x)
    t.get f = x ∧ d.KeepsRegs t [f.addr] ∧ { t with regs := d.regs } = d :=
  ⟨Dev.get_of_word (d.word_setWord _ _) hlo hw hx, (d.setWord_alone f.addr rfl).2⟩

/-! ## Shadow sets: one word waits (R7, R9) -/

/-- With nothing written, nothing waits in any shadow set. -/
theorem Dev.shadowPending_nil {d : Dev} (h : d.shadow = []) (b : ShadowBlock) : d.shadowPending b = false := by
  rw [Dev.shadowPending, h]; rfl

theorem Dev.shadowPending_single {d : Dev} {a : Nat} {w : Option Word} {b : ShadowBlock} (h : d.shadow = [(a, w)])
    (hb : b.holds a = true) : d.shadowPending b = true := by
  rw [Dev.shadowPending, h]; simp [hb]

/-- The copies of a set with one word waiting: the word goes into its register. -/
theorem Dev.commitShadow_single {d : Dev} {a : Nat} {w : Word} {b : ShadowBlock} (h : d.shadow = [(a, some w)])
    (hb : b.holds a = true) (he : edgeOf a = none) :
    d.commitShadow b =
      b.pendBit.elim ({ d with shadow := [] }.setWord a w) fun f => ({ d with shadow := [] }.setWord a w).put f 0 := by
  simp only [Dev.commitShadow, h, Tab.keep, hb, List.filterMap_cons, List.filterMap_nil, List.foldl_cons, List.foldl_nil,
    Dev.storeReg_core _ _ _ he, BitVec.ofNat_toNat, BitVec.setWidth_eq, Bool.not_true, Bool.false_eq_true, if_false]
  cases b.pendBit <;> rfl

/-! ## Where the registers of a block stand in the register map (R591) -/

/-- A register of the sequencer block. -/
theorem regInfo_seq {a : Nat} (h : 0x100000 ≤ a ∧ a < 0x200000) (h4 : a % 4 = 0) :
    regInfo a = regSeq ((a - 0x100000) / 0x10000) (a % 0x10000) := by
  simp only [regInfo]
  repeat rw [if_neg (by omega)]
  rw [if_pos (by omega)]

/-- A register of the acquisition block. -/
theorem regInfo_au {a : Nat} (h : 0x200000 ≤ a ∧ a < 0x220000) (h4 : a % 4 = 0) :
    regInfo a = regAu ((a - 0x200000) / 0x1000) (a % 0x1000) := by
  simp only [regInfo]
  repeat rw [if_neg (by omega)]
  rw [if_pos (by omega)]

theorem ownerAt_of_regInfo {a : Nat} {r : RegInfo} (h : regInfo a = some r) : ownerAt a = r.owner := by
  rw [ownerAt, h]

/-- The owner of the register at offset `o` of sequencer `n`, from the block's table. -/
theorem ownerAt_seq {a n : Nat} {r : RegInfo} (o : Nat) (ha : a = 0x100000 + 0x10000 * n + o) (hn : n < 16)
    (ho : o < 0x10000 ∧ o % 4 = 0) (h : regSeq n o = some r) : ownerAt a = r.owner := by
  refine ownerAt_of_regInfo ((regInfo_seq (by omega) (by omega)).trans ?_)
  rw [← h]
  congr 1 <;> omega

/-- The owner of the register at offset `o` of AU `i`, from the block's table. -/
theorem ownerAt_au {a i : Nat} {r : RegInfo} (o : Nat) (ha : a = 0x200000 + 0x1000 * i + o) (hi : i < 32)
    (ho : o < 0x1000 ∧ o % 4 = 0) (h : regAu i o = some r) : ownerAt a = r.owner := by
  refine ownerAt_of_regInfo ((regInfo_au (by omega) (by omega)).trans ?_)
  rw [← h]
  congr 1 <;> omega

theorem regInfo_aligned {a : Nat} {r : RegInfo} (h : regInfo a = some r) : a % 4 = 0 := by
  by_contra h4
  rw [regInfo, if_pos h4] at h
  cases h

/-- The table of its block holds a register (R591). -/
structure RegInfo.InBlock (r : RegInfo) (a : Nat) : Prop where
  clk : 0x20000 ≤ a → a < 0x30000 → regClk (a - 0x20000) = some r
  fcu : 0x30000 ≤ a → a < 0x40000 → regFcu (a - 0x30000) = some r
  twin : 0x50000 ≤ a → a < 0x60000 → regTwin (a - 0x50000) = some r
  tp : 0x60000 ≤ a → a < 0x70000 → regTp (a - 0x60000) = some r
  seq : 0x100000 ≤ a → a < 0x200000 → regSeq ((a - 0x100000) / 0x10000) (a % 0x10000) = some r
  au : 0x200000 ≤ a → a < 0x300000 → regAu ((a - 0x200000) / 0x1000) (a % 0x1000) = some r
  tmu : 0x300000 ≤ a → a < 0x400000 → regTmu ((a - 0x300000) / 0x400) (a % 0x400) = some r
  dse : 0x400000 ≤ a → a < 0x500000 → regDse ((a - 0x400000) / 0x1000) (a % 0x1000) = some r
  alm : 0x500000 ≤ a → a < 0x800000 → regAlm (a - 0x500000) = some r
  pe : 0x1000000 ≤ a → a < 0x1100000 → regPe ((a - 0x1000000) / 0x1000) (a % 0x1000) = some r
  led : 0x1400000 ≤ a → regLed (a - 0x1400000) = some r

theorem RegInfo.inBlock {a : Nat} {r : RegInfo} (hr : regInfo a = some r) : r.InBlock a := by
  have h4 := regInfo_aligned hr
  constructor <;> intros <;> grind [regInfo]

/-! ## Writes to locked and live registers while the clocks run (R6, R10) -/

theorem Dev.waits_awake {d : Dev} (a : Nat) (h : d.awake = true) : d.waits a = false := by
  simp [Dev.waits, h]

/-- A locked register whose owner runs refuses the write (R10). -/
theorem Dev.lockWrite_running {d : Dev} {a : Nat} (req : Requester) (v : Nat) (eff : Dev → Dev) (h : d.running (ownerAt a) = true) :
    d.lockWrite req a v eff = d.refuseWrite req a := by
  rw [Dev.lockWrite, if_pos h]

/-- A locked register of the core die whose owner is idle takes the value (R10). -/
theorem Dev.lockWrite_idle {d : Dev} {a : Nat} (req : Requester) (v : Nat) (eff : Dev → Dev) (h : d.running (ownerAt a) = false)
    (hw : d.waits a = false) (he : edgeOf a = none) :
    d.lockWrite req a v eff = eff (d.setWord a (BitVec.ofNat 32 v)) := by
  rw [Dev.lockWrite, if_neg (by simp [h]), if_neg (by simp [hw]), Dev.storeReg_core _ _ _ he]

/-- A live register of the core die whose owner is idle takes the value at once (R6). -/
theorem Dev.rwWrite_idle {d : Dev} {a : Nat} (req : Requester) (v : Nat) (h : d.running (ownerAt a) = false)
    (hw : d.waits a = false) (ha : a < 0x1000000) : d.rwWrite req a v = d.setWord a (BitVec.ofNat 32 v) := by
  have hl : lvlCodeAt a = none := by rw [lvlCodeAt]; exact if_neg (by omega)
  rw [Dev.rwWrite, if_neg (by simp [hw]), Dev.liveWrite, if_neg (by simp [h])]
  simp [Dev.applyLive, Dev.forEach, hl, Dev.storeReg_core _ _ _ (edgeOf_eq_none ha)]

end Sys2Proof.Machine
end

section
/-!
PROOFS. Which writes to BAR0 store nothing, block by block, and what a write does otherwise (R4, R5, R10, R592, R599).
-/

namespace Sys2Proof.Machine

/-! ## A write that stores nothing: a read-only register, or a locked one whose owner runs (R4, R10) -/

/-- The register takes no write now. -/
def Dev.Closed (d : Dev) (r : RegInfo) : Prop :=
  r.acc = .ro ∨ r.acc = .rop ∨ r.acc = .rwl ∧ d.running r.owner = true

/-- What a write to a closed register does: a locked one refuses it, a read-only one lets it pass. -/
def Dev.closedWrite (d : Dev) (req : Requester) (a : Nat) (r : RegInfo) : Dev :=
  if r.acc = .rwl then d.refuseWrite req a else d

/-- The register at `b` of a table is not the one found at `o` when their classes differ. -/
theorem ne_of_row {T : Nat → Option RegInfo} {o m rs : Nat} {r : RegInfo} {acc : Access} {ow : Owner} (b : Nat)
    (hx : T o = some r) (hb : T b = regRow acc m rs ow) (h : r.acc ≠ acc) : o ≠ b := by
  rintro rfl
  rw [hx] at hb
  cases hb
  exact h rfl

/-- A register that is live, shadowed, or written for its effect is not closed. -/
theorem Dev.Closed.acc_ne {d : Dev} {r : RegInfo} {acc : Access} (hc : d.Closed r) (h : acc ∈ [.rw, .rws, .w1c, .wo]) :
    r.acc ≠ acc := by
  rintro rfl
  rcases hc with hc | hc | ⟨hc, _⟩ <;> simp [hc] at h

theorem Dev.Closed.false_of_row {d : Dev} {r : RegInfo} {acc : Access} {m rs : Nat} {o : Owner} (hc : d.Closed r)
    (hx : regRow acc m rs o = some r) (h : acc ∈ [.rw, .rws, .w1c, .wo]) : False := by
  cases hx
  exact hc.acc_ne h rfl

/-- A closed register is not the one at `b` of its table, where that one is live, shadowed, or written for its effect. -/
theorem Dev.Closed.ne {d : Dev} {T : Nat → Option RegInfo} {o m rs : Nat} {r : RegInfo} {acc : Access} {ow : Owner}
    (hc : d.Closed r) (b : Nat) (hx : T o = some r) (hb : T b = regRow acc m rs ow) (h : acc ∈ [.rw, .rws, .w1c, .wo]) : o ≠ b :=
  ne_of_row b hx hb (hc.acc_ne h)

/-- A locked register that is closed has a running owner, and refuses the write. -/
theorem Dev.Closed.rwl_of_row {d : Dev} {r : RegInfo} {m rs : Nat} {o : Owner} (hc : d.Closed r)
    (hx : regRow .rwl m rs o = some r) (req : Requester) {a : Nat} (hr : regInfo a = some r) :
    d.running o = true ∧ d.running (ownerAt a) = true ∧ d.closedWrite req a r = d.refuseWrite req a := by
  rw [ownerAt_of_regInfo hr]
  cases hx
  rcases hc with hc | hc | ⟨_, hc⟩
  · cases hc
  · cases hc
  · exact ⟨hc, hc, if_pos rfl⟩

theorem Dev.plainWrite_closed {d : Dev} {a : Nat} {r : RegInfo} (req : Requester) (v : Nat) (hr : regInfo a = some r)
    (hc : d.Closed r) : d.plainWrite req a v = d.closedWrite req a r := by
  rw [Dev.plainWrite, hr, Dev.closedWrite]
  rcases hc with hc | hc | ⟨hc, hrun⟩
  · simp only [hc]; rfl
  · simp only [hc]; rfl
  · simp only [hc, if_true]
    exact Dev.lockWrite_running _ _ _ (by rw [ownerAt_of_regInfo hr, hrun])

/-! ## Closed registers, block by block -/

section
variable {d : Dev} {a : Nat} {r : RegInfo} (req : Requester) (v : Nat)

theorem Dev.writePll_closed {p o : Nat} (ha : a = 0x20100 + 0x100 * p + o) (hr : regInfo a = some r) (hx : regPll p o = some r)
    (hc : d.Closed r) : d.writePll req p o v = d.closedWrite req a r := by
  subst ha
  unfold Dev.writePll
  split
  · obtain ⟨_, hrun, hw⟩ := hc.rwl_of_row hx req hr
    rw [hw]
    split <;> exact Dev.lockWrite_running req _ _ hrun
  · exact (hc.false_of_row hx (by decide)).elim
  · exact (hc.false_of_row hx (by decide)).elim
  · exact Dev.plainWrite_closed req v hr hc

theorem Dev.writeClk_closed {o : Nat} (ha : a = 0x20000 + o) (hr : regInfo a = some r) (hx : regClk o = some r)
    (hc : d.Closed r) : d.writeClk req o v = d.closedWrite req a r := by
  rw [Dev.writeClk, if_neg (hc.ne 0x0C hx rfl (by decide))]
  split
  next h =>
    unfold regClk at hx
    rw [if_neg (by omega), if_pos (by omega)] at hx
    exact Dev.writePll_closed req v (by omega) hr hx hc
  · exact ha ▸ Dev.plainWrite_closed req v hr hc

theorem Dev.writeFcu_closed {o : Nat} (ha : a = 0x30000 + o) (hr : regInfo a = some r) (hx : regFcu o = some r)
    (hc : d.Closed r) : d.writeFcu req o v = d.closedWrite req a r := by
  rw [Dev.writeFcu, if_neg (hc.ne 0x00 hx rfl (by decide)), if_neg (hc.ne 0x08 hx rfl (by decide)),
    if_neg (hc.ne 0x0C hx rfl (by decide)), if_neg (hc.ne 0x14 hx rfl (by decide)), if_neg (hc.ne 0x24 hx rfl (by decide))]
  split
  next h =>
    unfold regFcu at hx
    rw [if_neg (by omega), if_neg (by omega), if_pos h] at hx
    exact (hc.false_of_row hx (by decide)).elim
  split
  next h =>
    unfold regFcu at hx
    rw [if_neg (by omega), if_neg (by omega), if_neg (by omega), if_pos h] at hx
    split at hx <;> exact (hc.false_of_row hx (by decide)).elim
  · exact ha ▸ Dev.plainWrite_closed req v hr hc

theorem Dev.writeTwin_closed {o : Nat} (ha : a = 0x50000 + o) (hr : regInfo a = some r) (hx : regTwin o = some r)
    (hc : d.Closed r) : d.writeTwin req o v = d.closedWrite req a r := by
  unfold Dev.writeTwin
  split
  next h =>
    subst h ha
    obtain ⟨_, hrun, hw⟩ := hc.rwl_of_row hx req hr
    rw [hw]
    exact Dev.lockWrite_running req _ _ hrun
  rw [if_neg (hc.ne 0x08 hx rfl (by decide)), if_neg (hc.ne 0x2C hx rfl (by decide))]
  exact ha ▸ Dev.plainWrite_closed req v hr hc

theorem Dev.writeTp_closed {o : Nat} (ha : a = 0x60000 + o) (hr : regInfo a = some r) (hx : regTp o = some r)
    (hc : d.Closed r) : d.writeTp req o v = d.closedWrite req a r := by
  rw [Dev.writeTp, if_neg (hc.ne 0x08 hx rfl (by decide)), if_neg (hc.ne 0x30 hx rfl (by decide))]
  exact ha ▸ Dev.plainWrite_closed req v hr hc

/-- SEQ_QUADS is refused while its own sequencer runs. -/
theorem Dev.quadsWrite_running {n : Nat} {hi : Bool} (h : d.running (.seq n) = true) :
    d.quadsWrite req n hi v = d.refuseWrite req (if hi then 0x10000C + 0x10000 * n else 0x100008 + 0x10000 * n) := by
  have hown : ((d.quadsOwners n hi v).any fun x => d.running (.seq x)) = true := by simp [Dev.quadsOwners, h]
  rw [Dev.quadsWrite, hown]
  rfl

theorem Dev.ruleWrite_running {o : Owner} (bad : Bool) (hown : d.running (ownerAt a) = true) :
    (if !d.running o && bad then d.refuseWrite req a else d.lockWrite req a v fun d => d) = d.refuseWrite req a := by
  rw [Dev.lockWrite_running req v _ hown, ite_self]

theorem Dev.writeSeq_closed {n o : Nat} (ha : a = 0x100000 + 0x10000 * n + o) (hr : regInfo a = some r) (hx : regSeq n o = some r)
    (hc : d.Closed r) : d.writeSeq req n o v = d.closedWrite req a r := by
  unfold Dev.writeSeq
  split
  case h_1 =>
    obtain ⟨hrun, _, hw⟩ := hc.rwl_of_row hx req hr
    rw [hw, Dev.quadsWrite_running req v hrun, ha]
    congr 1; simp; omega
  case h_2 =>
    obtain ⟨hrun, _, hw⟩ := hc.rwl_of_row hx req hr
    rw [hw, Dev.quadsWrite_running req v hrun, ha]
    congr 1; simp; omega
  case h_3 =>
    obtain ⟨_, hown, hw⟩ := hc.rwl_of_row hx req hr
    have ha' : a = 0x100010 + 0x10000 * n := by omega
    subst ha'
    exact (Dev.ruleWrite_running req _ _ hown).trans hw.symm
  case h_4 =>
    obtain ⟨_, hown, hw⟩ := hc.rwl_of_row hx req hr
    have ha' : a = 0x100014 + 0x10000 * n := by omega
    subst ha'
    exact (Dev.ruleWrite_running req _ _ hown).trans hw.symm
  case h_5 => exact (hc.false_of_row hx (by decide)).elim
  case h_6 => exact (hc.false_of_row hx (by decide)).elim
  case h_7 => exact ha ▸ Dev.plainWrite_closed req v hr hc

theorem Dev.writeAu_closed {i o : Nat} (ha : a = 0x200000 + 0x1000 * i + o) (hr : regInfo a = some r) (hx : regAu i o = some r)
    (hc : d.Closed r) : d.writeAu req i o v = d.closedWrite req a r := by
  unfold Dev.writeAu
  split
  case h_1 => exact (hc.false_of_row hx (by decide)).elim
  case h_2 => exact (hc.false_of_row hx (by decide)).elim
  case h_3 =>
    obtain ⟨_, hown, hw⟩ := hc.rwl_of_row hx req hr
    have ha' : a = 0x200010 + 0x1000 * i := by omega
    subst ha'
    exact (Dev.ruleWrite_running req _ _ hown).trans hw.symm
  case h_4 =>
    obtain ⟨_, hown, hw⟩ := hc.rwl_of_row hx req hr
    have ha' : a = 0x200014 + 0x1000 * i := by omega
    subst ha'
    exact (Dev.ruleWrite_running req _ _ hown).trans hw.symm
  case h_5 => exact (hc.false_of_row hx (by decide)).elim
  case h_6 => exact (hc.false_of_row hx (by decide)).elim
  case h_7 => exact ha ▸ Dev.plainWrite_closed req v hr hc

theorem Dev.writeTmu_closed {u o : Nat} (ha : a = 0x300000 + 0x400 * u + o) (hr : regInfo a = some r) (hx : regTmu u o = some r)
    (hc : d.Closed r) : d.writeTmu req u o v = d.closedWrite req a r := by
  rw [Dev.writeTmu, if_neg (hc.ne 0x08 hx rfl (by decide))]
  exact ha ▸ Dev.plainWrite_closed req v hr hc

theorem Dev.writeDse_closed {e o : Nat} (ha : a = 0x400000 + 0x1000 * e + o) (hr : regInfo a = some r) (hx : regDse e o = some r)
    (hc : d.Closed r) : d.writeDse req e o v = d.closedWrite req a r := by
  unfold Dev.writeDse
  split
  case h_1 => exact (hc.false_of_row hx (by decide)).elim
  case h_2 => exact (hc.false_of_row hx (by decide)).elim
  case h_3 => exact ha ▸ Dev.plainWrite_closed req v hr hc

/-- Every word of an ALM_TEST entry that holds a register is shadowed (R399). -/
theorem acc_almTestWord {w : Nat} (h : almTestWord w = some r) : r.acc = .rws := by
  unfold almTestWord at h
  split at h <;> cases h <;> rfl

theorem Dev.writeAlm_closed {o : Nat} (ha : a = 0x500000 + o) (hr : regInfo a = some r) (hx : regAlm o = some r)
    (hc : d.Closed r) : d.writeAlm req o v = d.closedWrite req a r := by
  rw [Dev.writeAlm, if_neg (hc.ne 0x10 hx rfl (by decide))]
  split
  next h =>
    unfold regAlm at hx
    rw [if_neg (by omega), if_pos (by omega)] at hx
    have hacc := acc_almTestWord hx
    simp [Dev.Closed, hacc] at hc
  · exact ha ▸ Dev.plainWrite_closed req v hr hc

theorem Dev.tsWrite_closed (hr : regInfo a = some r) (hc : d.Closed r) : d.tsWrite req a v = d.closedWrite req a r := by
  unfold Dev.tsWrite
  split <;> exact Dev.plainWrite_closed req _ hr hc

theorem Dev.lockedWrite_running (eff : Dev → Nat → Nat → Dev) (h : d.running (ownerAt a) = true) :
    d.lockedWrite req a v eff = d.refuseWrite req a := by
  rw [Dev.lockedWrite, if_pos h]

theorem Dev.writePe_closed {c o : Nat} (ha : a = 0x1000000 + 0x1000 * c + o) (hr : regInfo a = some r) (hx : regPe c o = some r)
    (hc : d.Closed r) : d.writePe req c o v = d.closedWrite req a r := by
  unfold Dev.writePe
  split
  case h_1 =>
    obtain ⟨_, hown, hw⟩ := hc.rwl_of_row hx req hr
    subst ha
    exact (Dev.lockedWrite_running req _ _ hown).trans hw.symm
  case h_2 => exact (hc.false_of_row hx (by decide)).elim
  case h_3 =>
    obtain ⟨_, hown, hw⟩ := hc.rwl_of_row hx req hr
    have ha' : a = 0x100000C + 0x1000 * c := by omega
    subst ha'
    exact (Dev.lockedWrite_running req _ _ hown).trans hw.symm
  case h_4 =>
    obtain ⟨_, hown, hw⟩ := hc.rwl_of_row hx req hr
    have ha' : a = 0x1000600 + 0x1000 * c := by omega
    subst ha'
    unfold Dev.ppmuCtrlWrite
    exact (Dev.lockedWrite_running req _ _ hown).trans hw.symm
  case h_5 => exact (hc.false_of_row hx (by decide)).elim
  case h_6 => exact (hc.false_of_row hx (by decide)).elim
  case h_7 => exact (hc.false_of_row hx (by decide)).elim
  case h_8 => exact ha ▸ Dev.plainWrite_closed req v hr hc

theorem Dev.writeLed_closed {o : Nat} (ha : a = 0x1400000 + o) (hr : regInfo a = some r) (hx : regLed o = some r)
    (hc : d.Closed r) : d.writeLed req o v = d.closedWrite req a r := by
  have h4 := regInfo_aligned hr
  unfold Dev.writeLed
  split
  next h =>
    unfold regLed at hx
    rw [if_pos h] at hx
    obtain ⟨hrun, _, hw⟩ := hc.rwl_of_row hx req hr
    rw [hw, Dev.siteMapWrite, if_pos hrun]
    congr 1; omega
  rw [if_neg (hc.ne 0x414 hx rfl (by decide))]
  split
  next h =>
    unfold regLed at hx
    rw [if_neg (by omega), if_neg (by omega), if_pos (by omega)] at hx
    rw [h.2.2] at hx
    exact (hc.false_of_row hx (by decide)).elim
  · exact ha ▸ Dev.plainWrite_closed req v hr hc

/-- A write to a closed register is refused and counted when the register is locked, and passes when it is read-only (R4, R10). -/
theorem Dev.busWrite_closed (hr : regInfo a = some r) (hc : d.Closed r) :
    d.busWrite req a v = d.closedWrite req a r := by
  have h4 := regInfo_aligned hr
  have hb := RegInfo.inBlock hr
  rw [Dev.busWrite, if_neg (by omega), if_neg (by simp [hr]), if_neg (hc.ne 0x28 hr rfl (by decide)),
    if_neg (hc.ne 0x10010 hr rfl (by decide)), if_neg (hc.ne 0x10014 hr rfl (by decide))]
  refine ite_eq_iff'.mpr ⟨fun _ => Dev.plainWrite_closed req v hr hc, fun _ => ?_⟩
  refine ite_eq_iff'.mpr ⟨fun _ => Dev.writeClk_closed req v (by omega) hr (hb.clk (by omega) (by omega)) hc, fun _ => ?_⟩
  refine ite_eq_iff'.mpr ⟨fun _ => Dev.writeFcu_closed req v (by omega) hr (hb.fcu (by omega) (by omega)) hc, fun _ => ?_⟩
  refine ite_eq_iff'.mpr ⟨fun _ => Dev.plainWrite_closed req v hr hc, fun _ => ?_⟩
  refine ite_eq_iff'.mpr ⟨fun _ => Dev.writeTwin_closed req v (by omega) hr (hb.twin (by omega) (by omega)) hc, fun _ => ?_⟩
  refine ite_eq_iff'.mpr ⟨fun _ => Dev.writeTp_closed req v (by omega) hr (hb.tp (by omega) (by omega)) hc, fun _ => ?_⟩
  rw [if_neg (hc.ne 0x70000 hr rfl (by decide)), if_neg (hc.ne 0x70008 hr rfl (by decide))]
  refine ite_eq_iff'.mpr ⟨fun _ => Dev.plainWrite_closed req v hr hc, fun _ => ?_⟩
  refine ite_eq_iff'.mpr ⟨fun _ => Dev.writeSeq_closed req v (by omega) hr (hb.seq (by omega) (by omega)) hc, fun _ => ?_⟩
  refine ite_eq_iff'.mpr ⟨fun _ => Dev.writeAu_closed req v (by omega) hr (hb.au (by omega) (by omega)) hc, fun _ => ?_⟩
  refine ite_eq_iff'.mpr ⟨fun _ => Dev.writeTmu_closed req v (by omega) hr (hb.tmu (by omega) (by omega)) hc, fun _ => ?_⟩
  refine ite_eq_iff'.mpr ⟨fun _ => Dev.writeDse_closed req v (by omega) hr (hb.dse (by omega) (by omega)) hc, fun _ => ?_⟩
  refine ite_eq_iff'.mpr ⟨fun _ => Dev.writeAlm_closed req v (by omega) hr (hb.alm (by omega) (by omega)) hc, fun _ => ?_⟩
  refine ite_eq_iff'.mpr ⟨fun _ => Dev.tsWrite_closed req v hr hc, fun _ => ?_⟩
  refine ite_eq_iff'.mpr ⟨fun _ => Dev.writePe_closed req v (by omega) hr (hb.pe (by omega) (by omega)) hc, fun _ => ?_⟩
  refine ite_eq_iff'.mpr ⟨fun _ => Dev.plainWrite_closed req v hr hc, fun _ => ?_⟩
  exact Dev.writeLed_closed req v (by omega) hr (hb.led (by omega)) hc

end

/-- A refused write is counted, with its address and its requester (R10, R599). -/
theorem Dev.refuseWrite_counts (d : Dev) (req : Requester) {a : Nat} (ha : a < 2 ^ 25) :
    (d.refuseWrite req a).get genErrLocked = min (d.get genErrLocked + 1) (2 ^ genErrLocked.w - 1) ∧
    (d.refuseWrite req a).get genErrAddr = a ∧ (d.refuseWrite req a).get genErrReq = (if req = .hkc then 1 else 0) ∧
    d.KeepsRegs (d.refuseWrite req a) [genErrLocked.addr, genErrAddr.addr, genErrReq.addr] ∧
    { d.refuseWrite req a with regs := d.regs } = d := by
  refine ⟨?_, ?_, ?_, ?_, by simp [Dev.refuseWrite]⟩
  · exact (Dev.get_put_addr _ _ _ _ (by decide)).trans ((Dev.get_put_addr _ _ _ _ (by decide)).trans (d.get_bump _ (by decide)))
  · refine (Dev.get_put_bits _ _ _ _ (by decide) (by decide)).trans ((Dev.get_put _ _ _ (by decide)).trans ?_)
    exact Nat.mod_eq_of_lt ha
  · refine (Dev.get_put _ _ _ (by decide)).trans ?_
    split <;> rfl
  · exact Dev.keepsRegs_put _ _ (by simp) (Dev.keepsRegs_put _ _ (by simp) (Dev.keepsRegs_bump _ (by simp) (d.keepsRegs_refl _)))

/-- A locked register of the core die that never stops takes the writable bits while its owner is idle. -/
theorem Dev.plainWrite_rwl_idle {d : Dev} {a : Nat} {r : RegInfo} (req : Requester) (v : Nat) (hr : regInfo a = some r)
    (hacc : r.acc = .rwl) (hrun : d.running r.owner = false) (hstop : stoppedAt a = false) (ha : a < 0x1000000) :
    d.plainWrite req a v = d.setWord a (BitVec.ofNat 32 (v &&& r.mask)) := by
  rw [Dev.plainWrite, hr]
  simp only [hacc]
  exact Dev.lockWrite_idle req _ _ (by rw [ownerAt_of_regInfo hr, hrun]) (by simp [Dev.waits, hstop]) (edgeOf_eq_none ha)

/-- A register of the Transit block that is no command register is written under its access class. -/
theorem Dev.writeTp_plain {d : Dev} {o : Nat} (req : Requester) (v : Nat) (h8 : o ≠ 0x08) (h30 : o ≠ 0x30) :
    d.writeTp req o v = d.plainWrite req (0x60000 + o) v := by
  rw [Dev.writeTp, if_neg h8, if_neg h30]

/-- In the host block and the Transit block a locked register whose owner is idle takes the writable bits. -/
theorem Dev.busWrite_rwl_idle {d : Dev} {a : Nat} {r : RegInfo} (req : Requester) (v : Nat)
    (hblk : (0x10000 ≤ a ∧ a < 0x18000) ∨ (0x60000 ≤ a ∧ a < 0x70000)) (hr : regInfo a = some r)
    (hacc : r.acc = .rwl) (hrun : d.running r.owner = false) :
    d.busWrite req a v = d.setWord a (BitVec.ofNat 32 (v &&& r.mask)) := by
  have h4 := regInfo_aligned hr
  have hstop : stoppedAt a = false := by simp [stoppedAt]; omega
  have hplain := Dev.plainWrite_rwl_idle req v hr hacc hrun hstop (by omega)
  have hother {b m rs : Nat} {acc : Access} {ow : Owner} (hb : regInfo b = regRow acc m rs ow) (h : acc ≠ .rwl) : a ≠ b :=
    ne_of_row b hr hb (hacc ▸ h.symm)
  rw [Dev.busWrite, if_neg (by omega), if_neg (by simp [hr]), if_neg (by omega),
    if_neg (hother (b := 0x10010) rfl (by decide)), if_neg (hother (b := 0x10014) rfl (by decide))]
  rcases hblk with h | h
  · rw [if_pos (by omega), hplain]
  · have h8 : a ≠ 0x60008 := hother rfl (by decide)
    have h30 : a ≠ 0x60030 := hother rfl (by decide)
    rw [if_neg (by omega), if_neg (by omega), if_neg (by omega), if_neg (by omega), if_neg (by omega), if_pos (by omega),
      Dev.writeTp_plain req v (by omega) (by omega), Nat.add_sub_of_le h.1, hplain]

/-- Settles O18: a closed register takes nothing, an idle locked one its bits, and an address without register a count. -/
theorem registerWritesFollowAccessAndOwner : Obligations.RegisterWritesFollowAccessAndOwner := by
  refine ⟨⟨fun s req addr v r _ hr hacc hrun => ?_, fun s req addr v r hblk hr hacc hrun => ?_⟩,
    fun s req addr v r hr hacc => ?_, fun s req addr v h4 hr => ?_⟩
  · have hw : s.dev.busWrite req addr.toNat v.toNat = s.dev.refuseWrite req addr.toNat :=
      (Dev.busWrite_closed req _ hr (.inr (.inr ⟨hacc, hrun⟩))).trans (if_pos hacc)
    exact .of_onDevIdle (fun d => d.busWrite req addr.toNat v.toNat) rfl hw (s.dev.refuseWrite_counts req addr.isLt)
  · exact .of_onDevIdle (fun d => d.busWrite req addr.toNat v.toNat) rfl (Dev.busWrite_rwl_idle req _ hblk hr hacc hrun)
      (s.dev.setWord_alone _ rfl)
  · have hro : r.acc ≠ .rwl := by rcases hacc with h | h <;> simp [h]
    exact .of_onDevIdle (fun d => d.busWrite req addr.toNat v.toNat) rfl
      ((Dev.busWrite_closed req _ hr (hacc.imp_right .inl)).trans (if_neg hro)) rfl
  · have hw : s.dev.busWrite req addr.toNat v.toNat = s.dev.bump genErrAccess := by
      rw [Dev.busWrite, if_neg (by omega), if_pos (by simp [hr])]
    exact .of_onDevIdle (fun d => d.busWrite req addr.toNat v.toNat) rfl hw
      ⟨Dev.get_bump _ _ (by decide), Dev.keepsRegs_bump _ (by simp) (s.dev.keepsRegs_refl _), rfl⟩

end Sys2Proof.Machine
end

section
/-!
PROOFS. Ownership registers, flags, error counters, trigger inputs and the commit of the FCU class set (R9, R26 to R28, R158,
R162, R265, R268, R282, R478, R531, R599).
-/

namespace Sys2Proof.Machine

/-! ## SITE_MAP (R27, R28) -/

/-- While no sequencer owns a quad, no site is split between sequencers. -/
theorem Dev.siteWhole_unowned (d : Dev) {own : Nat → Option Nat} (h : ∀ q, own q = none) (site : Nat) :
    d.siteWhole own site = true := by
  simp [Dev.siteWhole, h]

theorem Dev.quadOwner_of_no_quads {d : Dev} (h : ∀ q, q < 16 → d.seqQuads q = 0) (q : Nat) : d.quadOwner q = none := by
  rw [Dev.quadOwner, List.find?_eq_none]
  intro s hs
  simp [h s (List.mem_range.mp hs)]

/-- A register outside the sequencer block leaves the quads as they are. -/
theorem Dev.seqQuads_setWord (d : Dev) {a n : Nat} (v : Word) (hn : n < 16) (ha : 0x200000 ≤ a) :
    (d.setWord a v).seqQuads n = d.seqQuads n := by
  simp only [Dev.seqQuads, Dev.get2, Dev.get]
  rw [Dev.word_setWord_ne _ _ (by simp only [seqQuadsLo]; omega), Dev.word_setWord_ne _ _ (by simp only [seqQuadsHi]; omega)]

/-- While no sequencer owns a quad, a SITE_MAP register takes its value, and no other register changes. -/
theorem Dev.siteMapWrite_unowned {d : Dev} (req : Requester) (c v : Nat) (hrun : d.running (.siteMap c) = false)
    (hq : ∀ q, q < 16 → d.seqQuads q = 0) :
    (d.siteMapWrite req c v).word (siteMap c).addr = BitVec.ofNat 32 (v % 256 &&& 0xBF) ∧
    d.KeepsRegs (d.siteMapWrite req c v) [(siteMap c).addr] := by
  have hown : ∀ w q, (d.setWord (0x1400000 + 4 * c) w).quadOwner q = none := fun w =>
    Dev.quadOwner_of_no_quads fun n hn => (d.seqQuads_setWord w hn (by omega)).trans (hq n hn)
  simp only [Dev.siteMapWrite, hrun, Dev.siteWhole_unowned _ (hown _), Bool.false_eq_true, if_false]
  rw [if_neg (by split <;> simp)]
  split
  next heq =>
    rw [Dev.word_setWord] at heq
    exact ⟨heq, d.keepsRegs_refl _⟩
  · exact ⟨Dev.word_setWord _ _ _, Dev.keepsRegs_setWord _ (by simp [siteMap]) (d.keepsRegs_refl _)⟩

/-! ## Writes that their own rule may refuse (R158, R162, R265, R268) -/

/-- With every sequencer idle, SEQ_QUADS takes its value unless R158 or R201 refuses it. -/
theorem Dev.quadsWrite_idle {d : Dev} (req : Requester) {n : Nat} (hi : Bool) (v : Nat) (hn : n < 16) (haw : d.awake = true)
    (hrun : ∀ x, x < 16 → d.running (.seq x) = false) :
    let a := if hi then 0x10000C + 0x10000 * n else 0x100008 + 0x10000 * n
    d.quadsWrite req n hi v = if d.quadsBad n hi v then d.refuseWrite req a else d.setWord a (BitVec.ofNat 32 v) := by
  intro a
  have hown : ((d.quadsOwners n hi v).any fun x => d.running (.seq x)) = false := by
    rw [List.any_eq_false]
    intro x hx
    rw [hrun x]
    · decide
    · rcases List.mem_cons.mp hx with rfl | hx
      · exact hn
      · exact List.mem_range.mp (List.mem_of_mem_filter hx)
  have ha : edgeOf a = none := edgeOf_eq_none (by simp only [a]; split <;> omega)
  rw [Dev.quadsWrite, hown, Bool.false_or, if_neg (c := d.waits _ = true) (by rw [Dev.waits_awake _ haw]; decide),
    Dev.storeReg_core _ _ _ ha]

/-- A register whose rule refuses some values: with its owner idle and the clocks running it refuses those and takes the others. -/
theorem Dev.ruleWrite_idle {d : Dev} {a : Nat} {o : Owner} (req : Requester) (v : Nat) (bad : Bool) (hown : ownerAt a = o)
    (ha : a < 0x1000000) (haw : d.awake = true) (hrun : d.running o = false) :
    (if !d.running o && bad then d.refuseWrite req a else d.lockWrite req a v fun d => d) =
      if bad then d.refuseWrite req a else d.setWord a (BitVec.ofNat 32 v) := by
  rw [Dev.lockWrite_idle req v _ (by rw [hown, hrun]) (Dev.waits_awake _ haw) (edgeOf_eq_none ha), hrun]
  rfl

theorem Dev.regionWrite_lines_idle {d : Dev} (req : Requester) {n : Nat} (v : Nat) (hn : n < 16) (haw : d.awake = true)
    (hrun : d.running (.seq n) = false) :
    d.regionWrite req n true v = if d.regionBad n (d.get (seqVbase n)) (v % 2 ^ 22) then d.refuseWrite req (seqVlines n).addr
      else d.setWord (seqVlines n).addr (BitVec.ofNat 32 (v % 2 ^ 22)) := by
  have ha : (seqVlines n).addr = 0x100000 + 0x10000 * n + 0x14 := by simp only [seqVlines]; omega
  exact Dev.ruleWrite_idle (a := (seqVlines n).addr) req _ _ (ownerAt_seq 0x14 ha hn (by decide) rfl) (by omega) haw hrun

theorem Dev.regionWrite_base_idle {d : Dev} (req : Requester) {n : Nat} (v : Nat) (hn : n < 16) (haw : d.awake = true)
    (hrun : d.running (.seq n) = false) :
    d.regionWrite req n false v = if d.regionBad n (v % 2 ^ 22) (d.get (seqVlines n)) then d.refuseWrite req (seqVbase n).addr
      else d.setWord (seqVbase n).addr (BitVec.ofNat 32 (v % 2 ^ 22)) := by
  have ha : (seqVbase n).addr = 0x100000 + 0x10000 * n + 0x10 := by simp only [seqVbase]; omega
  exact Dev.ruleWrite_idle (a := (seqVbase n).addr) req _ _ (ownerAt_seq 0x10 ha hn (by decide) rfl) (by omega) haw hrun

theorem Dev.auSrcWrite_idle {d : Dev} (req : Requester) {i : Nat} (v : Nat) (hi : i < 32) (haw : d.awake = true)
    (hrun : d.running (.au i) = false) :
    d.auSrcWrite req i v = if d.auSrcBad i (v &&& 0x803FFFFF) then d.refuseWrite req (0x200010 + 0x1000 * i)
      else d.setWord (0x200010 + 0x1000 * i) (BitVec.ofNat 32 (v &&& 0x803FFFFF)) := by
  exact Dev.ruleWrite_idle req _ _ (ownerAt_au 0x10 (by omega) hi (by decide) rfl) (by omega) haw hrun

theorem Dev.auAllocWrite_idle {d : Dev} (req : Requester) {i : Nat} (v : Nat) (hi : i < 32) (haw : d.awake = true)
    (hrun : d.running (.au i) = false) :
    d.auAllocWrite req i v = if d.auAllocBad i (v &&& 0x3FF01FF) then d.refuseWrite req (0x200014 + 0x1000 * i)
      else d.setWord (0x200014 + 0x1000 * i) (BitVec.ofNat 32 (v &&& 0x3FF01FF)) := by
  exact Dev.ruleWrite_idle req _ _ (ownerAt_au 0x14 (by omega) hi (by decide) rfl) (by omega) haw hrun

/-! ## SEQ_FLAG (R531) -/

/-- An unreliable message adds to what was sent, or is not sent. -/
theorem Dev.sendRaw_out (d : Dev) (kind : Nat) (bytes : List Byte) : ∃ o, d.sendRaw kind bytes = { d with out := o } := by
  rw [Dev.sendRaw]
  split
  · exact ⟨_, rfl⟩
  · exact ⟨d.out, rfl⟩

/-- With its sequencer idle, SEQ_FLAG takes its value; the partner may be told. -/
theorem Dev.flagWrite_idle {d : Dev} (req : Requester) {n : Nat} (v : Nat) (hn : n < 16) (haw : d.awake = true)
    (hrun : d.running (.seq n) = false) :
    ∃ o, d.flagWrite req n v = { d.setWord (0x100028 + 0x10000 * n) (BitVec.ofNat 32 (v % 256)) with out := o } := by
  have hown : ownerAt (0x100028 + 0x10000 * n) = .seq n := ownerAt_seq 0x28 (by omega) hn (by decide) rfl
  rw [Dev.flagWrite, Dev.rwWrite_idle req _ (by rw [hown, hrun]) (Dev.waits_awake _ haw) (by omega)]
  split
  · exact ⟨_, rfl⟩
  · exact Dev.sendRaw_out _ _ _

/-! ## TRIG_IN (R282) -/

/-- The levels after an edge of input `i` to level `b`. -/
def trigLevels (n i : Nat) (b : Bool) : Nat := if n.testBit i == b then n else if b then n ||| 2 ^ i else n - 2 ^ i

theorem testBit_eq_bitsOf (n i : Nat) : n.testBit i = decide (bitsOf n i 1 = 1) := by
  rw [Nat.testBit_eq_decide_div_mod_eq, bitsOf, pow_one]

/-- A bit that is 1 is cleared by taking its weight away. -/
theorem testBit_sub_two_pow {n i : Nat} (h : n.testBit i = true) (j : Nat) :
    (n - 2 ^ i).testBit j = if j = i then false else n.testBit j := by
  have hput : n - 2 ^ i = putBits n i 1 0 := by
    rw [testBit_eq_bitsOf, decide_eq_true_eq] at h
    rw [putBits, h, Nat.one_mul, Nat.zero_mod, Nat.zero_mul, Nat.add_zero]
  rw [hput, testBit_eq_bitsOf]
  split
  next he => rw [he, bitsOf_putBits]; rfl
  next hne => rw [bitsOf_putBits_ne _ _ _ _ _ _ (by omega), testBit_eq_bitsOf]

theorem testBit_trigLevels (n i : Nat) (b : Bool) (j : Nat) : (trigLevels n i b).testBit j = if j = i then b else n.testBit j := by
  rw [trigLevels]
  split
  next hsame =>
    split
    next hj => rw [hj]; exact beq_iff_eq.mp hsame
    · rfl
  next hchange =>
    cases b
    · exact testBit_sub_two_pow (by simpa using hchange) j
    · rw [if_pos rfl, Nat.testBit_or, Nat.testBit_two_pow]
      split
      next hj => simp [hj]
      next hj => simp [Ne.symm hj]

/-- In standby an edge of TRIG_IN changes the level of its input alone. -/
theorem Dev.trigEdge_standby {d : Dev} (i : Nat) (rise : Bool) (h : d.awake = false) :
    d.trigEdge i rise = { d with trigIn := trigLevels d.trigIn i rise } := by
  have hall (t : Nat) : ({ d with trigIn := t } : Dev).awake = false := h
  rw [Dev.trigEdge, trigLevels]
  split
  · rfl
  · simp only [hall, Bool.not_false, if_true]

/-! ## Shadow commits (R7, R9) -/

/-- Changes that leave the device as it is leave it so one after the other. -/
theorem Dev.forEach_same {d : Dev} {l : List Nat} {f : Dev → Nat → Dev} (h : ∀ i ∈ l, f d i = d) : d.forEach l f = d := by
  unfold Dev.forEach
  induction l with
  | nil => rfl
  | cons i l ih =>
    rw [List.foldl_cons, h i (.head _)]
    exact ih fun j hj => h j (.tail _ hj)

/-- The FCU class set alone waits and no RUN is open: what becomes idle commits that set. -/
theorem Dev.idleShadows_fcuClass {d : Dev} (hp : d.shadowPending .fcuClass = true) (hruns : d.runs = [])
    (hnone : (d.commitShadow .fcuClass).shadow = []) : d.idleShadows = d.commitShadow .fcuClass := by
  have hpend := Dev.shadowPending_nil hnone
  rw [Dev.idleShadows, hp, hruns]
  simp only [List.isEmpty_nil, Bool.and_self, if_true, hpend, Bool.false_and, Bool.false_eq_true, if_false]
  rw [Dev.forEach_same (d := d.commitShadow .fcuClass) (l := [1, 2]), Dev.forEach_same (d := d.commitShadow .fcuClass),
    Dev.forEach_same (d := d.commitShadow .fcuClass)]
  · simp [hpend]
  · simp [hpend]
  · simp [Dev.pllCommit, hpend]

/-- Settles O20: each write is a refusal or one register, each clear one counter, each edge one level, and the commit one word. -/
theorem ownershipFlagAndCounterRegisters : Obligations.OwnershipFlagAndCounterRegisters := by
  refine ⟨⟨fun s req c v hrun hq => ?_, fun s req n hi v haw hrun => ?_, fun s req n v haw hrun => ⟨?_, ?_⟩,
      fun s req a v haw hrun => ?_, fun s req a v haw hrun => ?_⟩, ⟨fun s => ?_, fun s => ?_⟩,
    fun s n v haw hrun => ?_, fun s i rise haw => ?_, fun s a w hlo hhi hsh hruns => ?_⟩
  · obtain ⟨hword, hkeep⟩ := Dev.siteMapWrite_unowned req c v.toNat hrun hq
    exact .of_onDev (fun d => d.siteMapWrite req c v.toNat) rfl rfl
      ⟨Dev.get_of_word hword rfl (by simp [siteMap]) (Nat.and_lt_two_pow _ (show 0xBF < 2 ^ 8 by decide)), hkeep⟩
  · refine .of_onDev (fun d => d.quadsWrite req n hi v.toNat) rfl (Dev.quadsWrite_idle req hi _ n.isLt haw hrun) ?_
    split
    · rfl
    · exact s.dev.setWord_alone _ (by simp)
  · refine .of_onDev (fun d => d.regionWrite req n true v.toNat) rfl (Dev.regionWrite_lines_idle req _ n.isLt haw hrun) ?_
    split
    · rfl
    · exact s.dev.setWord_field_alone (seqVlines n) rfl (by simp [seqVlines]) (Nat.mod_lt _ (by decide))
  · refine .of_onDev (fun d => d.regionWrite req n false v.toNat) rfl (Dev.regionWrite_base_idle req _ n.isLt haw hrun) ?_
    split
    · rfl
    · exact s.dev.setWord_field_alone (seqVbase n) rfl (by simp [seqVbase]) (Nat.mod_lt _ (by decide))
  · refine .of_onDev (fun d => d.auSrcWrite req a v.toNat) rfl (Dev.auSrcWrite_idle req _ a.isLt haw hrun) ?_
    split
    · rfl
    · exact s.dev.setWord_alone _ (ofNat_toNat_and v _)
  · refine .of_onDev (fun d => d.auAllocWrite req a v.toNat) rfl (Dev.auAllocWrite_idle req _ a.isLt haw hrun) ?_
    split
    · rfl
    · exact s.dev.setWord_alone _ (ofNat_toNat_and v _)
  · refine .of_onDev (fun d => d.errClrLocked) rfl rfl ⟨?_, ?_, ?_, rfl⟩
    · rw [Dev.errClrLocked, Dev.get, Dev.word_setWord_ne _ _ (by decide)]
      exact Dev.get_put _ _ _ (by decide)
    · exact Dev.get_of_word (x := 0) (Dev.word_setWord _ _ _) rfl (by decide) (by decide)
    · rw [Dev.errClrLocked, Dev.get, Dev.word_setWord_ne _ _ (by decide)]
      exact Dev.get_put_addr _ _ _ _ (by decide)
  · exact .of_onDev (fun d => d.errClrAccess) rfl rfl ⟨Dev.get_put _ _ _ (by decide),
      Dev.get_put_addr _ _ _ _ (by decide), Dev.get_put_addr _ _ _ _ (by decide), rfl⟩
  · obtain ⟨o, ho⟩ := Dev.flagWrite_idle .host v.toNat n.isLt haw hrun
    refine .of_onDev (fun d => d.flagWrite .host n v.toNat) rfl ho ⟨(Dev.word_setWord _ _ _).trans ?_,
      Dev.keepsRegs_of_regs rfl (Dev.keepsRegs_setWord _ (by simp) (s.dev.keepsRegs_refl _)), rfl⟩
    rw [← Nat.and_two_pow_sub_one_eq_mod _ 8]
    exact ofNat_toNat_and v 0xFF
  · refine .of_onDev (fun d => d.trigEdge i rise) rfl (Dev.trigEdge_standby i rise haw) ⟨?_, fun j hj => ?_, rfl⟩
    · exact (testBit_trigLevels _ _ _ _).trans (if_pos rfl)
    · exact (testBit_trigLevels _ _ _ _).trans (if_neg hj)
  · have hb : ShadowBlock.fcuClass.holds a = true := by simp [ShadowBlock.holds, hlo, hhi]
    have hc := Dev.commitShadow_single hsh hb (edgeOf_eq_none (by omega))
    refine .of_onDev (fun d => d.idleShadows) rfl
      ((Dev.idleShadows_fcuClass (Dev.shadowPending_single hsh hb) hruns (by rw [hc]; rfl)).trans hc) ⟨?_, rfl, ?_, ?_, rfl⟩
    · exact (Dev.word_put_ne _ _ _ (by simp only [fcuCommitPend]; omega)).trans (Dev.word_setWord _ _ _)
    · exact Dev.get_put _ _ _ (by decide)
    · exact Dev.keepsRegs_put _ _ (by simp) (Dev.keepsRegs_setWord _ (by simp) (s.dev.keepsRegs_refl _))

end Sys2Proof.Machine
end

section
/-!
PROOFS. CONFIG_BLOCK (R11, R497), low-word reads (R13) and the debug window of BAR4 (R483, R484).
-/

namespace Sys2Proof.Machine

/-! ## CONFIG_BLOCK (R11, R497) -/

theorem Dev.cfgApply_locked {d : Dev} {ws : List CfgWrite} (b : Nat) (h : ws.any d.cfgLocked = true) :
    d.cfgApply b ws = (d, stLocked) := by
  rw [Dev.cfgApply, if_pos h]

theorem Dev.cfgApply_refused {d : Dev} {ws : List CfgWrite} (b : Nat) (h : ws.any d.cfgLocked = false)
    (hf : cfgFold ws d = none) : d.cfgApply b ws = (d, stRange) := by
  rw [Dev.cfgApply, if_neg (by simp [h]), hf]

theorem Dev.cfgApply_ok {d d' : Dev} {ws : List CfgWrite} (b : Nat) (h : ws.any d.cfgLocked = false)
    (hf : cfgFold ws d = some d') : d.cfgApply b ws = (if b = 0 then d' else d'.cfgCommit ws, stOk) := by
  rw [Dev.cfgApply, if_neg (by simp [h]), hf]

/-- A command on the descriptor that waits acts on that descriptor. -/
theorem Dev.onDesc_of_descOf {d : Dev} {q opc x : Nat} {w : Work} (f : Dev → Nat → Work → Dev) (h : d.descOf q opc = some (x, w)) :
    d.onDesc q opc f = f d x w := by
  rw [Dev.onDesc, h]

/-- A CONFIG_BLOCK read whole that names no boundary acts at once. -/
theorem Dev.configBlock_at_once {d : Dev} {q x : Nat} {w : Work} {ws : List CfgWrite} (h : d.descOf q opConfigBlock = some (x, w))
    (hb : dField x 8 0 8 = 0) (hn : dField x 10 0 16 = ws.length) :
    d.configBlock q ws true = (d.cfgApply 0 ws).1.done w (d.cfgApply 0 ws).2 := by
  rw [Dev.configBlock, Dev.onDesc_of_descOf _ h]
  simp [hb, hn]

/-- A CONFIG_BLOCK whose boundary has been reached acts on the device that no longer lists it. -/
theorem Dev.configApply_of_find {d : Dev} {q : Nat} {c : CfgWait} (h : d.host.cfgs.find? (fun c => c.q == q && c.ready) = some c) :
    let d0 : Dev := { d with host := { d.host with cfgs := d.host.cfgs.filter fun x => x.id != c.id } }
    d.configApply q = (d0.cfgApply c.boundary c.writes).1.done { id := c.id, q := c.q, cid := c.cid, opc := opConfigBlock }
      (d0.cfgApply c.boundary c.writes).2 := by
  rw [Dev.configApply, h]

/-- Settles O21: a CONFIG_BLOCK completes as `cfgApply` judges its list, on arrival and at its boundary alike. -/
theorem configBlockAppliesAllOrNothing : Obligations.ConfigBlockAppliesAllOrNothing := by
  refine ⟨fun s q ws x w h hb hn hl => ?_, fun s q ws x w d h hb hn hl hf => ?_, fun s q ws x w h hb hn hl hf => ?_,
    fun s q c d h => ⟨fun hl => ?_, fun hl hf => ?_⟩⟩
  · refine .of_onDevIdle (fun d => d.configBlock q ws true) rfl (Dev.configBlock_at_once h hb hn) ?_
    rw [Dev.cfgApply_locked 0 hl]
  · refine .of_onDevIdle (fun d => d.configBlock q ws true) rfl (Dev.configBlock_at_once h hb hn) ?_
    rw [Dev.cfgApply_ok 0 hl hf, if_pos rfl]
  · refine .of_onDevIdle (fun d => d.configBlock q ws true) rfl (Dev.configBlock_at_once h hb hn) ?_
    rw [Dev.cfgApply_refused 0 hl hf]
  · refine .of_onDevIdle (fun d => d.configApply q) rfl (Dev.configApply_of_find h) ?_
    rw [Dev.cfgApply_locked _ hl]
  · refine .of_onDevIdle (fun d => d.configApply q) rfl (Dev.configApply_of_find h) ?_
    rw [Dev.cfgApply_ok _ hl hf]

/-! ## Low-word reads (R13) -/

/-- The partner of a low word is a latched register. -/
theorem acc_of_isLowWord {a : Nat} {r : RegInfo} (h : isLowWord a = true) (hr : regInfo (a + 4) = some r) : r.acc = .rop := by
  rw [isLowWord, hr] at h
  cases hlo : regInfo a with
  | none => simp [hlo] at h
  | some r' => simpa [hlo] using h

/-- A latched register reads the requester's own latch. -/
theorem Dev.readReg_rop (d : Dev) (req : Requester) {a : Nat} {r : RegInfo} (hr : regInfo a = some r) (hacc : r.acc = .rop) :
    d.readReg req a = (if req = .hkc then d.host.latchHkc else d.host.latchHost).toNat &&& r.mask := by
  rw [Dev.readReg, hr]
  simp only [hacc]

/-- Settles O19: the read fills the requester's latch, and the partner is a latched register. -/
theorem lowWordReadLatchesTheHighWord : Obligations.LowWordReadLatchesTheHighWord := by
  intro s req addr r hlow hr
  have hacc := acc_of_isLowWord hlow hr
  refine .of_onDev (fun d => d.lowWordRead req addr.toNat) rfl (if_pos hlow) ?_
  cases req <;> simp [Dev.readReg_rop _ _ hr hacc]

/-! ## BAR4 (R483, R484) -/

theorem Dev.bar4Write_disabled (d : Dev) (off v : Nat) (h : d.get hostBar4 ≠ 2) : d.bar4Write off v = d := by
  rw [Dev.bar4Write, if_pos h]

theorem Dev.bar4Write_enabled (d : Dev) (off v : Nat) {o : Owner} (h : d.get hostBar4 = 2) (ho : d.sramOwner (off / 4 * 4) = some o) :
    d.bar4Write off v = if d.running o then d.bump genErrLocked else d.st (off / 4 * 4) 4 v := by
  rw [Dev.bar4Write, if_neg (not_not.mpr h)]
  simp only [ho]

/-- Settles O39: a write through the debug window is one 4-byte store, one count, or nothing. -/
theorem debugWritesFollowTheOwner : Obligations.DebugWritesFollowTheOwner := by
  refine ⟨fun s req off v o hen ho hrun => ?_, fun s req off v o hen ho hrun => ?_, fun s req off v hen => ?_⟩
  · have hst : s.dev.bar4Write off.toNat v.toNat = s.dev.st (off.toNat / 4 * 4) 4 v.toNat :=
      (s.dev.bar4Write_enabled _ _ hen ho).trans (if_neg (by simp [hrun]))
    refine .of_onDev (fun d => d.bar4Write off.toNat v.toNat) rfl hst ⟨?_, fun a ha => s.dev.byte_st_outside _ ha, rfl⟩
    rw [Dev.ld_st]
    exact Nat.mod_eq_of_lt v.isLt
  · have hcount : s.dev.bar4Write off.toNat v.toNat = s.dev.bump genErrLocked :=
      (s.dev.bar4Write_enabled _ _ hen ho).trans (if_pos hrun)
    exact .of_onDev (fun d => d.bar4Write off.toNat v.toNat) rfl hcount
      ⟨Dev.get_bump _ _ (by decide), Dev.keepsRegs_bump _ (by simp) (s.dev.keepsRegs_refl _), rfl⟩
  · exact .of_onDev (fun d => d.bar4Write off.toNat v.toNat) rfl (s.dev.bar4Write_disabled _ _ hen) rfl

end Sys2Proof.Machine
end

section
/-!
PROOFS. Frequencies, ramps and lock attempts of the PLLs (R411, R413, R417, R419).
-/

namespace Sys2Proof.Machine

/-! ## Frequencies (R417) -/

/-- A PLL that is OFF does not move. -/
theorem Dev.pllMove_off {d : Dev} {p : Nat} (h : d.get (pllState p) = 0) : d.pllMove p = d := by
  simp [Dev.pllMove, h]

/-- A frequency that waits for a PLL that is OFF goes into its register. -/
theorem Dev.pllFreqCommit_off {d : Dev} {p : Fin 3} {w : Word} (hrun : d.running (.pll p) = false)
    (hst : d.get (pllState p) = 0) (hsh : d.shadow = [((pllHz p).addr, some w)]) :
    d.pllFreqCommit p = { d with shadow := [] }.setWord (pllHz p).addr w := by
  have hb : (ShadowBlock.pllFreq p).holds (pllHz p).addr = true := by simp [ShadowBlock.holds, pllHz]
  have he : edgeOf (pllHz p).addr = none := edgeOf_eq_none (by simp only [pllHz]; omega)
  have hstate : ({ d with shadow := [] }.setWord (pllHz p).addr w).get (pllState p) = 0 := by
    rw [Dev.get, Dev.word_setWord_ne _ _ (by simp [pllHz, pllState])]; exact hst
  rw [Dev.pllFreqCommit, if_neg (by simp [hrun]), Dev.pllCommit, Fin.ofNat_val_eq_self,
    if_pos (Dev.shadowPending_single hsh hb), Dev.commitShadow_single hsh hb he]
  exact Dev.pllMove_off hstate

theorem Dev.walkDone_walking {d : Dev} {p : Nat} (hw : (d.pll p).walking = true) (hst : d.get (pllState p) = 3) :
    d.walkDone p = (d.setPll p { d.pll p with walking := false }).put (pllFnow p) (d.pllSet p) :=
  if_pos ⟨hw, hst⟩

/-! ## Ramps (R419) -/

/-- A ramp of a LOCKED PLL whose points all lie near the lock starts at point 0, with SLEW_LIM clear. -/
theorem Dev.rampStart_locked {d : Dev} {p : Nat} (hst : d.get (pllState p) = 3)
    (hnear : ((List.range (d.rampPoints p)).all fun k => d.nearLock p (d.get (pllRptTarget p k))) = true) :
    (d.rampStart p).get (pllRamp p) = 1 ∧ (d.rampStart p).get (pllSlewLim p) = 0 ∧
    ((d.rampStart p).pll p).rampIdx = 0 ∧ ((d.rampStart p).pll p).rampAt = d.mclk ∧
    d.KeepsRegs (d.rampStart p) [(pllRamp p).addr, (pllFnow p).addr] := by
  rw [Dev.rampStart, if_pos ⟨hst, hnear⟩]
  refine ⟨?_, ?_, by simp, by simp, ?_⟩
  · rw [Dev.get_setPll, Dev.get_put_addr _ _ _ _ (by simp [pllFnow, pllRamp]),
      Dev.get_put_bits _ _ _ _ (by simp [pllSlewLim]) (by simp [pllSlewLim, pllRamp]), Dev.get_put _ _ _ (by simp [pllRamp])]
    rfl
  · rw [Dev.get_setPll, Dev.get_put_addr _ _ _ _ (by simp [pllFnow, pllSlewLim]), Dev.get_put _ _ _ (by simp [pllSlewLim])]
    rfl
  · exact Dev.keepsRegs_of_regs (Dev.setPll_regs _ _ _)
      (Dev.keepsRegs_put _ _ (by simp) (Dev.keepsRegs_put _ _ (by simp [pllSlewLim, pllRamp])
        (Dev.keepsRegs_put _ _ (by simp) (d.keepsRegs_refl _))))

/-- The end of a ramp segment begins: its time has come, and a slew limit is noted. -/
def Dev.rampNoted (d : Dev) (p : Nat) (slew : Bool) : Dev :=
  let d' := d.advanceTo ((d.pll p).rampAt + (d.rampDur p (d.pll p).rampIdx - (d.pll p).rampRan))
  if slew then d'.put (pllSlewLim p) 1 else d'

/-- Then the frequency is the segment's target. -/
def Dev.rampReached (d : Dev) (p : Nat) (slew : Bool) : Dev :=
  (d.rampNoted p slew).put (pllFnow p) ((d.rampNoted p slew).get (pllRptTarget p (d.pll p).rampIdx))

/-- Every field apart from SLEW_LIM reads as before the note. -/
theorem Dev.get_rampNoted_ne (d : Dev) (p : Nat) (slew : Bool) (g : Fld)
    (h : (pllSlewLim p).addr ≠ g.addr ∨ (g.lo + g.w ≤ 5 ∨ 6 ≤ g.lo)) : (d.rampNoted p slew).get g = d.get g := by
  cases slew
  · rfl
  · exact Dev.get_put_ne _ _ _ _ (h.imp_right fun h => ⟨by simp [pllSlewLim], h⟩)

theorem Dev.get_rampReached_ne (d : Dev) (p : Nat) (slew : Bool) (g : Fld) (hf : (pllFnow p).addr ≠ g.addr)
    (h : (pllSlewLim p).addr ≠ g.addr ∨ (g.lo + g.w ≤ 5 ∨ 6 ≤ g.lo)) : (d.rampReached p slew).get g = d.get g :=
  (Dev.get_put_addr _ _ _ _ hf).trans (d.get_rampNoted_ne p slew g h)

theorem Dev.get_rampReached_fnow (d : Dev) (p : Nat) (slew : Bool) :
    (d.rampReached p slew).get (pllFnow p) = d.get (pllRptTarget p (d.pll p).rampIdx) := by
  rw [Dev.rampReached, Dev.get_put _ _ _ (by simp [pllFnow]),
    d.get_rampNoted_ne p slew _ (.inl (by simp only [pllSlewLim, pllRptTarget]; omega))]
  exact Nat.mod_eq_of_lt ((d.get_lt _).trans (by simp [pllRptTarget, pllFnow]))

theorem Dev.get_rampReached_slewLim (d : Dev) (p : Nat) : (d.rampReached p true).get (pllSlewLim p) = 1 := by
  rw [Dev.rampReached, Dev.get_put_addr _ _ _ _ (by simp [pllFnow, pllSlewLim])]
  exact Dev.get_put _ _ _ (by simp [pllSlewLim])

theorem Dev.keepsRegs_rampReached (d : Dev) (p : Nat) (slew : Bool) :
    d.KeepsRegs (d.rampReached p slew) [(pllRamp p).addr, (pllFnow p).addr] := by
  refine Dev.keepsRegs_put _ _ (by simp) ?_
  cases slew
  · exact d.keepsRegs_refl _
  · exact Dev.keepsRegs_put _ _ (by simp [pllSlewLim, pllRamp]) (d.keepsRegs_refl _)

/-- A segment of a ramp that runs ends: the ramp goes on to the next point, or it is over and raises its event. -/
theorem Dev.rampSegmentEnd_running {d : Dev} {p : Nat} (slew : Bool) (hr : d.is (pllRamp p) = true) (hst : d.get (pllState p) = 3) :
    d.rampSegmentEnd p slew = if (d.pll p).rampIdx + 1 < d.rampPoints p then
        (d.rampReached p slew).setPll p { d.pll p with
          rampIdx := (d.pll p).rampIdx + 1, rampFrom := (d.rampNoted p slew).get (pllRptTarget p (d.pll p).rampIdx),
          rampAt := (d.rampReached p slew).mclk, rampRan := 0 }
      else ((d.rampReached p slew).put (pllRamp p) 0).event (srcPll p) 0x0107 ((d.pll p).rampIdx + 1) := by
  have hpts : (d.rampReached p slew).rampPoints p = d.rampPoints p := by
    rw [Dev.rampPoints, d.get_rampReached_ne p slew _ (by simp [pllFnow, pllNpts]) (by simp [pllSlewLim, pllNpts]), Dev.rampPoints]
  rw [Dev.rampSegmentEnd, if_neg (by simp [hr, hst]), ← hpts]
  rfl

/-- The end of a segment: PLL_FNOW shows its target, RAMP stays while points are left, and a slew limit is noted. -/
theorem Dev.rampSegmentEnd_reaches {d : Dev} {p : Nat} (slew : Bool) (hr : d.is (pllRamp p) = true) (hst : d.get (pllState p) = 3) :
    (d.rampSegmentEnd p slew).get (pllFnow p) = d.get (pllRptTarget p (d.pll p).rampIdx) ∧
    (d.rampSegmentEnd p slew).is (pllRamp p) = decide ((d.pll p).rampIdx + 1 < d.rampPoints p) ∧
    (slew = true → (d.rampSegmentEnd p slew).get (pllSlewLim p) = 1) ∧
    d.KeepsRegsEv (d.rampSegmentEnd p slew) [(pllRamp p).addr, (pllFnow p).addr] := by
  have hlim : slew = true → (d.rampReached p slew).get (pllSlewLim p) = 1 := by
    rintro rfl; exact d.get_rampReached_slewLim p
  have hkeep : d.KeepsRegsEv (d.rampReached p slew) [(pllRamp p).addr, (pllFnow p).addr] :=
    fun a ha _ => d.keepsRegs_rampReached p slew a ha
  rw [Dev.rampSegmentEnd_running slew hr hst]
  split
  next hmore =>
    refine ⟨d.get_rampReached_fnow p slew, ?_, hlim, hkeep⟩
    rw [Dev.is_setPll, Dev.is, d.get_rampReached_ne p slew _ (by simp [pllFnow, pllRamp]) (by simp [pllRamp])]
    simpa [hmore] using hr
  next hlast =>
    have high (f : Fld) (hf : 0x20000 ≤ f.addr) := Dev.get_event ((d.rampReached p slew).put (pllRamp p) 0) (srcPll p) 0x0107
      ((d.pll p).rampIdx + 1) f (.inr (by omega))
    refine ⟨?_, ?_, fun hs => ?_, Dev.keepsRegsEv_event _ _ _ (Dev.keepsRegsEv_put _ _ (by simp) hkeep)⟩
    · rw [high _ (by simp only [pllFnow]; omega), Dev.get_put_addr _ _ _ _ (by simp [pllRamp, pllFnow]), Dev.get_rampReached_fnow]
    · rw [Dev.is, high _ (by simp only [pllRamp]; omega), Dev.get_put _ _ _ (by simp [pllRamp])]
      simp [hlast]
    · rw [high _ (by simp only [pllSlewLim]; omega),
        Dev.get_put_bits _ _ _ _ (by simp [pllRamp]) (by simp [pllRamp, pllSlewLim]), hlim hs]

/-- A ramp that stops holds the frequency that it has reached. -/
theorem Dev.rampStop_running {d : Dev} {p : Nat} (hr : d.is (pllRamp p) = true) :
    d.rampStop p = (d.put (pllFnow p) (d.rampFreq p)).put (pllRamp p) 0 := if_pos hr

/-! ## Lock attempts (R411, R413) -/

/-- A lock attempt shows SEARCH. -/
theorem Dev.get_pllSearch_state (d : Dev) (p : Nat) : (d.pllSearch p).get (pllState p) = 1 := by
  rw [Dev.pllSearch, Dev.get_put_addr _ _ _ _ (by simp [pllFnow, pllState]),
    Dev.get_put_bits _ _ _ _ (by simp [pllLockBit]) (by simp [pllLockBit, pllState]), Dev.get_put _ _ _ (by simp [pllState])]
  rfl

/-- A lock attempt keeps whether the PLL holds a lock average (R411). -/
theorem Dev.avg_pllSearch (d : Dev) (p : Nat) : ((d.pllSearch p).pll p).avg = (d.pll p).avg := by
  change ((d.setPll p _).pll p).avg = _
  rw [Dev.pll_setPll_same]

/-- RELOCK of a PLL that has FAILED starts a lock attempt without a lock average. -/
theorem Dev.relock_failed {d : Dev} {p : Nat} (req : Requester) (hrun : d.running (.pll p) = false) (hst : d.get (pllState p) = 7) :
    d.relock req p = ((d.pllLeave p 7).setPll p { (d.pllLeave p 7).pll p with avg := false }).pllSearch p := by
  simp [Dev.relock, hrun, hst]

/-- While the clocks run a command acts at once. -/
theorem Dev.orHold_awake {d : Dev} (a v : Nat) (f : Dev → Dev) (h : d.awake = true) : d.orHold a v f = f d := if_pos h

/-- Settles O16: each command is one branch of its function, and the PLL's fields lie apart. -/
theorem frequenciesCommitWalkAndRamp : Obligations.FrequenciesCommitWalkAndRamp := by
  refine ⟨⟨fun s p w _ hrun hst hsh => ?_, fun s p hw hst => ?_⟩, fun s p hp haw hst hnear => ⟨fun hsrc => ?_, fun hsrc => ?_⟩,
    fun s p slew hr hst _ => ?_, fun s p haw hr => ?_, fun s p req haw hrun hst => ?_⟩
  · exact .of_onDev (fun d => d.pllFreqCommit p) rfl (Dev.pllFreqCommit_off hrun hst hsh)
      ⟨Dev.word_setWord _ _ _, rfl, Dev.keepsRegs_setWord _ (by simp) (s.dev.keepsRegs_refl _), rfl⟩
  · refine .of_onDev (fun d => d.walkDone p) rfl (Dev.walkDone_walking hw hst)
      ⟨Dev.get_put _ _ _ (by simp [pllFnow]), ?_, Dev.keepsRegs_put _ _ (by simp) (s.dev.keepsRegs_refl _), rfl⟩
    exact congrArg PllSt.walking (Dev.pll_setPll_same s.dev p _)
  · exact .of_onDev (fun d => d.orHold (0x20124 + 0x100 * p) 1 fun d => d.rampGo p) rfl
      ((Dev.orHold_awake _ _ _ haw).trans (if_neg (by simp [hp, hsrc]))) (Dev.rampStart_locked hst hnear)
  · exact .of_onDev (fun d => d.rampTrigger p) rfl (if_neg (by simp [hp, hsrc, haw])) (Dev.rampStart_locked hst hnear)
  · exact .of_onDevIdle (fun d => d.rampSegmentEnd p slew) rfl rfl (Dev.rampSegmentEnd_reaches slew hr hst)
  · refine .of_onDevIdle (fun d => d.orHold (0x20124 + 0x100 * p) 2 fun d => d.rampStop p) rfl
      ((Dev.orHold_awake _ _ _ haw).trans (Dev.rampStop_running hr)) ⟨Dev.get_put _ _ _ (by simp [pllRamp]), ?_, ?_⟩
    · rw [Dev.get_put_addr _ _ _ _ (by simp [pllFnow, pllRamp]), Dev.get_put _ _ _ (by simp [pllFnow])]
      rfl
    · exact Dev.keepsRegs_put _ _ (by simp) (Dev.keepsRegs_put _ _ (by simp) (s.dev.keepsRegs_refl _))
  · refine .of_onDevIdle (fun d => d.orHold (0x20124 + 0x100 * p) 4 fun d => d.relock req p) rfl
      ((Dev.orHold_awake _ _ _ haw).trans (Dev.relock_failed req hrun hst)) ⟨Dev.get_pllSearch_state _ _, ?_⟩
    rw [Dev.avg_pllSearch, Dev.pll_setPll_same]

end Sys2Proof.Machine
end

section
/-!
PROOFS. The two forms of every command's answer, and what the flash keeps: its canonical form and the identity and factory region
(R16, R17).
-/

namespace Sys2Proof.Machine

/-! ## The forms of a command's answer -/

/-- The commands that may touch the flash. -/
def touchesFlash : Instr → Bool
  | .calRunStore _ | .calStoreDone _ | .flashWrite _ _ _ | .fwStage _ _ _ | .flashOperationDone _ _ | .fwImageReady
  | .hkcRestart => true
  | _ => false

/-- A command that does not touch the flash changes the device alone. -/
theorem exec_dev_alone {c : Instr} (h : touchesFlash c = false) (s : State) : ∃ d, exec c s = .next { s with dev := d } := by
  cases c with
  | calRunStore q => cases h
  | calStoreDone ok => cases h
  | flashWrite q data ok => cases h
  | fwStage q data ok => cases h
  | flashOperationDone q r => cases h
  | fwImageReady => cases h
  | hkcRestart => cases h
  | _ => exact ⟨_, rfl⟩

/-- A command that touches the flash changes the flash and the device alone. -/
theorem exec_flash_dev {c : Instr} (h : touchesFlash c = true) (s : State) :
    ∃ nv d, exec c s = .next { s with nv := nv, dev := d } := by
  cases c with
  | calRunStore q => exact ⟨_, _, rfl⟩
  | calStoreDone ok => exact ⟨_, _, rfl⟩
  | flashWrite q data ok => exact ⟨_, _, rfl⟩
  | fwStage q data ok => exact ⟨_, _, rfl⟩
  | flashOperationDone q r => exact ⟨_, _, rfl⟩
  | fwImageReady => exact ⟨_, _, rfl⟩
  | hkcRestart => exact ⟨_, _, rfl⟩
  | _ => cases h

theorem touchesFlash_iff (c : Instr) : touchesFlash c = true ↔
    (∃ q, c = .calRunStore q) ∨ (∃ ok, c = .calStoreDone ok) ∨ (∃ q data ok, c = .flashWrite q data ok) ∨
    (∃ q data ok, c = .fwStage q data ok) ∨ (∃ q r, c = .flashOperationDone q r) ∨ c = .fwImageReady ∨ c = .hkcRestart := by
  cases c <;> simp [touchesFlash]

/-- Settles O2: every answer has one of the two forms, and the seven commands of the second are those that the statement excepts. -/
theorem everyCommandCompletesAndKeepsTheQueue : Obligations.EveryCommandCompletesAndKeepsTheQueue := by
  intro c s
  cases htouch : touchesFlash c
  case false =>
    obtain ⟨d, hd⟩ := exec_dev_alone htouch s
    exact ⟨_, hd, rfl, fun _ _ _ _ _ _ _ => rfl⟩
  case true =>
    obtain ⟨nv, d, hd⟩ := exec_flash_dev htouch s
    refine ⟨_, hd, rfl, fun h1 h2 h3 h4 h5 h6 h7 => ?_⟩
    rcases (touchesFlash_iff c).mp htouch with ⟨q, hc⟩ | ⟨ok, hc⟩ | ⟨q, data, ok, hc⟩ | ⟨q, data, ok, hc⟩ | ⟨q, r, hc⟩ | hc | hc
    exacts [absurd hc (h1 q), absurd hc (h2 ok), absurd hc (h3 q data ok), absurd hc (h4 q data ok), absurd hc (h5 q r),
      absurd hc h6, absurd hc h7]

/-- Settles O4: at reset both memories are the empty table. -/
theorem resetMeetsTheFlashInvariant : Obligations.ResetMeetsTheFlashInvariant :=
  ⟨rfl, rfl, rfl, fun _ _ => rfl⟩

/-! ## What a change of the flash keeps -/

/-- From `nv` to `nv'` the flash has kept its canonical form and every byte of the identity and factory region. -/
structure NonVol.Kept (nv nv' : NonVol) : Prop where
  form : Memory.wf flashDefault nv.flash = true → Memory.wf flashDefault nv'.flash = true
  identity : ∀ a, 0x1800000 ≤ a → a < 0x1900000 → nv'.bytes a 1 = nv.bytes a 1

theorem NonVol.Kept.refl (nv : NonVol) : nv.Kept nv := ⟨id, fun _ _ _ => rfl⟩

theorem NonVol.Kept.trans {nv nv' nv'' : NonVol} (h : nv.Kept nv') (k : nv'.Kept nv'') : nv.Kept nv'' :=
  ⟨k.form ∘ h.form, fun a lo hi => (k.identity a lo hi).trans (h.identity a lo hi)⟩

/-- `n` bytes from `a` on miss the identity and factory region. -/
def MissesIdentity (a n : Nat) : Prop := a + n ≤ 0x1800000 ∨ 0x1900000 ≤ a

theorem NonVol.bytes_one (nv : NonVol) (a : Nat) : nv.bytes a 1 = [Tab.get flashDefault nv.flash a] := rfl

theorem NonVol.kept_write (nv : NonVol) {a : Nat} {bs : List Byte} (h : MissesIdentity a bs.length) : nv.Kept (nv.write a bs) := by
  refine ⟨Tab.wf_setList _ _ _, fun b lo hi => ?_⟩
  rw [NonVol.bytes_one, NonVol.bytes_one, NonVol.write, Tab.get_setList]
  split
  next hab =>
    have hout : bs.length ≤ b - a := by unfold MissesIdentity at h; omega
    rw [List.getElem?_eq_none hout]
    rfl
  · rfl

theorem NonVol.kept_erase (nv : NonVol) {a n : Nat} (h : MissesIdentity a n) : nv.Kept (nv.erase a n) := by
  refine ⟨Tab.wf_keep _ _, fun b lo hi => ?_⟩
  have hout : b < a ∨ a + n ≤ b := by unfold MissesIdentity at h; omega
  rw [NonVol.bytes_one, NonVol.bytes_one, NonVol.erase, Tab.get_keep, if_pos (by simp; omega)]

theorem NonVol.kept_scramble (nv : NonVol) (ctr : Nat) {a n : Nat} (h : MissesIdentity a n) : nv.Kept (nv.scramble ctr a n) :=
  nv.kept_write (by simpa using h)

/-! ## The store of the calibration (R448, R449) -/

/-- Both banks lie below the identity and factory region. -/
theorem missesIdentity_bank (b : Nat) {o n : Nat} (h : o + n ≤ 0x800000) : MissesIdentity (calBankAddr b + o) n := by
  unfold MissesIdentity calBankAddr; omega

theorem length_calHeader (gen : Nat) (body : List Byte) : (calHeader gen body).length = 256 := by
  simp only [calHeader, List.length_append, length_toBytes, List.length_replicate]

theorem length_calCommit (gen crc : Nat) : (calCommit gen crc).length = 256 := by
  simp only [calCommit, List.length_append, length_toBytes, List.length_replicate]

theorem Dev.length_calBody (d : Dev) : d.calBody.length ≤ 0x7FFD00 := List.length_take_le _ _

theorem Dev.kept_storeBegin (nv : NonVol) (d : Dev) (w : Work) : nv.Kept (Dev.storeBegin nv d w).1 :=
  nv.kept_erase (missesIdentity_bank _ (o := 0) (by decide))

theorem Dev.kept_calStoreRow (nv : NonVol) (d : Dev) (q : Nat) : nv.Kept (Dev.calStoreRow nv d q).1 := by
  unfold Dev.calStoreRow
  dsimp only
  repeat' split
  case h_2.isFalse.isFalse.isTrue w _ _ _ _ => exact Dev.kept_storeBegin nv _ w
  all_goals exact .refl nv

/-- The flash once a STORE has written its header and body, and its commit page where the readback is good. -/
def Dev.storeWritten (nv : NonVol) (d : Dev) (ok : Bool) : NonVol :=
  let a := calBankAddr d.cal.bank
  let nv := (nv.write a (calHeader d.cal.gen d.calBody)).write (a + 0x100) d.calBody
  if ok then nv.write (a + 0x7FFF00) (calCommit d.cal.gen (crcOf d.calBody)) else nv

theorem Dev.kept_storeWritten (nv : NonVol) (d : Dev) (ok : Bool) : nv.Kept (Dev.storeWritten nv d ok) := by
  have hheader : nv.Kept (nv.write (calBankAddr d.cal.bank) (calHeader d.cal.gen d.calBody)) :=
    nv.kept_write (missesIdentity_bank _ (o := 0) (by simp [length_calHeader]))
  have hbody := hheader.trans (NonVol.kept_write _ (missesIdentity_bank d.cal.bank (o := 0x100)
    (show 0x100 + d.calBody.length ≤ 0x800000 by have := d.length_calBody; omega)))
  cases ok
  · exact hbody
  · exact hbody.trans (NonVol.kept_write _ (missesIdentity_bank _ (by simp [length_calCommit])))

theorem Dev.kept_calStoreDone (nv : NonVol) (d : Dev) (ok : Bool) : nv.Kept (Dev.calStoreDone nv d ok).1 := by
  unfold Dev.calStoreDone
  split
  · exact .refl nv
  next w rest _ =>
    cases rest with
    | nil => exact Dev.kept_storeWritten nv d ok
    | cons w2 rest => exact (Dev.kept_storeWritten nv d ok).trans (Dev.kept_storeBegin _ _ w2)

/-! ## Flash descriptors (R16, R17, R496, R581) -/

/-- Both firmware images lie below the identity and factory region. -/
theorem missesIdentity_image (i : Nat) {o n : Nat} (h : o + n ≤ 0x400000) : MissesIdentity (fwBase i + o) n := by
  unfold MissesIdentity fwBase; omega

/-- Where an operation writes, it misses the identity and factory region. -/
theorem FlashOp.missesIdentity_of_range {o : FlashOp} {a : Nat} (h : o.range = some a) : MissesIdentity a o.length := by
  unfold FlashOp.range at h
  split at h
  next hw => cases h; exact .inr hw.2.1
  split at h
  next hs => cases h; exact missesIdentity_image o.image (o := 0) (by omega)
  · cases h

theorem Dev.kept_flashWrite (nv : NonVol) (d : Dev) (q : Nat) (data : List Byte) (ok : Bool) :
    nv.Kept (Dev.flashWrite nv d q data ok).1 := by
  unfold Dev.flashWrite
  dsimp only
  repeat' split
  case h_2.isFalse.isFalse.isFalse => exact nv.kept_erase (by unfold MissesIdentity; omega)
  all_goals exact .refl nv

theorem Dev.kept_fwStage (nv : NonVol) (d : Dev) (q : Nat) (data : List Byte) (ok : Bool) :
    nv.Kept (Dev.fwStage nv d q data ok).1 := by
  unfold Dev.fwStage
  dsimp only
  repeat' split
  case h_2.isFalse.isFalse.isFalse.isFalse => exact nv.kept_erase (missesIdentity_image _ (o := 0) (by decide))
  all_goals exact .refl nv

/-- The staging of an image records its version and leaves the bytes. -/
theorem kept_fwStaged (nv : NonVol) (d : Dev) (o : FlashOp) (res : FlashResult) : nv.Kept (fwStaged nv d o res).1 := by
  unfold fwStaged
  repeat' split
  all_goals exact ⟨id, fun _ _ _ => rfl⟩

/-- The flash once an operation that writes at `a` has ended. -/
def FlashOp.written (nv : NonVol) (ctr : Nat) (o : FlashOp) (res : FlashResult) (a : Nat) : NonVol :=
  if res.readbackOk then nv.write a (o.data.take o.length) else nv.scramble ctr a o.length

theorem FlashOp.kept_written (nv : NonVol) (ctr : Nat) {o : FlashOp} (res : FlashResult) {a : Nat} (h : o.range = some a) :
    nv.Kept (o.written nv ctr res a) := by
  have hm := FlashOp.missesIdentity_of_range h
  unfold FlashOp.written
  split
  · exact nv.kept_write (by have := List.length_take_le o.length o.data; unfold MissesIdentity at hm ⊢; omega)
  · exact nv.kept_scramble ctr hm

theorem Dev.kept_flashDone (nv : NonVol) (d : Dev) (q : Nat) (res : FlashResult) : nv.Kept (Dev.flashDone nv d q res).1 := by
  unfold Dev.flashDone
  split
  · exact .refl nv
  next o _ =>
    dsimp only
    split
    · exact .refl nv
    next a ha =>
      have hwritten := FlashOp.kept_written nv d.freeCtr res ha
      split
      · exact hwritten.trans (kept_fwStaged _ _ _ _)
      · exact hwritten

/-! ## The firmware switch and the HKC (R570, R582) -/

theorem NonVol.kept_fwCommit (nv : NonVol) (i : Nat) : nv.Kept (nv.fwCommit i) := by
  refine (nv.kept_erase ?_).trans (NonVol.kept_write _ ?_)
  · exact missesIdentity_image i (by decide)
  · exact missesIdentity_image i (by simp)

theorem Dev.kept_fwReady (nv : NonVol) (d : Dev) : nv.Kept (Dev.fwReady nv d).1 := by
  unfold Dev.fwReady
  repeat' split
  · exact .refl nv
  · exact .refl nv
  · exact nv.kept_fwCommit _

theorem kept_flashCut (p : NonVol × Dev) (o : FlashOp) : p.1.Kept (flashCut p o).1 := by
  unfold flashCut
  dsimp only
  split
  next a ha => exact p.1.kept_scramble _ (FlashOp.missesIdentity_of_range ha)
  · exact .refl _

theorem kept_foldl_flashCut (ops : List FlashOp) (p : NonVol × Dev) : p.1.Kept (ops.foldl flashCut p).1 := by
  induction ops generalizing p with
  | nil => exact .refl _
  | cons o ops ih => exact (kept_flashCut p o).trans (ih _)

theorem kept_storeCut (p : NonVol × Dev) : p.1.Kept (storeCut p).1 := by
  unfold storeCut
  split
  · exact .refl _
  · exact p.1.kept_scramble _ (missesIdentity_bank _ (o := 0) (by decide))

theorem Dev.kept_hkcRestart (nv : NonVol) (d : Dev) : nv.Kept (Dev.hkcRestart nv d).1 := by
  unfold Dev.hkcRestart
  split
  · exact .refl nv
  · exact (kept_foldl_flashCut _ (nv, _)).trans (kept_storeCut _)

/-! ## Every step -/

/-- A command that touches the flash keeps its form and its identity and factory region. -/
theorem kept_exec {c : Instr} (s t : State) (h : exec c s = .next t) : s.nv.Kept t.nv := by
  cases htouch : touchesFlash c
  case false =>
    obtain ⟨d, hd⟩ := exec_dev_alone htouch s
    cases hd.symm.trans h
    exact .refl _
  case true =>
    rcases (touchesFlash_iff c).mp htouch with ⟨q, rfl⟩ | ⟨ok, rfl⟩ | ⟨q, data, ok, rfl⟩ | ⟨q, data, ok, rfl⟩ | ⟨q, r, rfl⟩ | rfl | rfl <;>
      cases h
    · exact Dev.kept_calStoreRow _ _ _
    · exact Dev.kept_calStoreDone _ _ _
    · exact Dev.kept_flashWrite _ _ _ _ _
    · exact Dev.kept_fwStage _ _ _ _ _
    · exact Dev.kept_flashDone _ _ _ _
    · exact Dev.kept_fwReady _ _
    · exact Dev.kept_hkcRestart _ _

theorem kept_step {s t : State} (h : step s = .next t) : s.nv.Kept t.nv := by
  unfold step at h
  split at h
  · cases h; exact .refl _
  next c cs _ => exact kept_exec { s with pending := cs } t h

/-- Settles O3: seven commands touch the flash, and each of them writes and erases outside the identity and factory region. -/
theorem everyStepKeepsTheFlashFormAndTheIdentityRegion : Obligations.EveryStepKeepsTheFlashFormAndTheIdentityRegion :=
  fun _ _ hstep hok => ⟨(kept_step hstep).form hok, (kept_step hstep).identity⟩

end Sys2Proof.Machine
end

section
/-!
PROOFS. Where the two statements on flash descriptors and the one on the SYS ramp fail: each counterexample is a state that their
premises admit, whether or not a sequence of commands from reset leads to it.
-/

namespace Sys2Proof.Machine

/-! ## A command has one answer -/

theorem Answers.post_of_onDev {c : Instr} {s : State} {post : Dev → Prop} (f : Dev → Dev) (h : Answers c s post)
    (e : exec c s = onDev s f) : post (f s.dev) := by
  obtain ⟨t, ht, hpost⟩ := h
  cases e.symm.trans ht
  exact hpost

theorem AnswersNv.post_of_onNv {c : Instr} {s : State} {post : NonVol → Dev → Prop} (f : NonVol → Dev → NonVol × Dev)
    (h : AnswersNv c s post) (e : exec c s = onNv s f) : post (f s.nv s.dev).1 (f s.nv s.dev).2 := by
  obtain ⟨nv, t, ht, hpost⟩ := h
  cases e.symm.trans ht
  exact hpost

/-- Where nothing kept the device busy before, the idle timers do not follow, and the answer is the effect alone. -/
theorem AnswersIdle.post_of_onDevIdle {c : Instr} {s : State} {post : Dev → Prop} (f : Dev → Dev) (h : AnswersIdle c s post)
    (e : exec c s = onDevIdle s f) (hidle : s.dev.busy = false) : post (f s.dev) := by
  obtain ⟨t, ht, hpost⟩ := h
  have hnote : (f s.dev).idleNote s.dev = t.idleNote s.dev := congrArg State.dev (Host.Outcome.next.inj (e.symm.trans ht))
  rw [Dev.idleNote_same _ _ (.inl hidle), Dev.idleNote_same _ _ (.inl hidle)] at hnote
  exact hnote ▸ hpost

/-! ## A descriptor whose work record names another SQ -/

/-- Awake with the HKC ready; the descriptor `x` waits in SQ0, and the record of its work names SQ1. -/
def strayWork (x : Nat) : State :=
  { State.reset with
    dev := { Dev.init.put pwrState 1 with
      pwr := { PwrSt.init with booted := true, hkcReady := true }
      host := { HostSt.init with
        fetchNo := 8, waiting := [(0, some { id := 7, d := x })], work := [{ id := 7, q := 1, cid := 0, opc := dOpc x }] } } }

theorem strayWork_flashOps (x : Nat) : (strayWork x).dev.pwr.flashOps = [] := rfl

/-- A FLASH_READ of no bytes from offset 0. -/
def strayRead : Nat := opFlashRead

/-- A FLASH_WRITE of no bytes at the start of the user area. -/
def strayWrite : Nat := opFlashWrite + 0x1900000 * 2 ^ 64

/-- Refutes O11: a flash operation takes its SQ from the record of the descriptor's work, and the premises do not say that the record
names the SQ in which the descriptor waits. -/
theorem not_flashReadsAnywhereAndWritesOnlyInTheUserArea : ¬ Obligations.FlashReadsAnywhereAndWritesOnlyInTheUserArea := by
  intro h
  obtain ⟨⟨o, hops, -, -, -, hq, -, -⟩, -⟩ :=
    (h.1 (strayWork strayRead) 0 strayRead { id := 7, q := 1, cid := 0, opc := opFlashRead } (by decide) (by decide)
      (by decide)).post_of_onDev (fun d => d.flashRead 0) rfl
  have hrun : ((strayWork strayRead).dev.flashRead 0).pwr.flashOps.map FlashOp.q = [1] := by decide
  rw [hops] at hrun
  simp [strayWork_flashOps, hq] at hrun

/-- Refutes O12: as for FLASH_READ, the operation of a FLASH_WRITE takes its SQ from the record of the descriptor's work. -/
theorem not_flashWritesEraseProgramAndSwitchImages : ¬ Obligations.FlashWritesEraseProgramAndSwitchImages := by
  intro h
  obtain ⟨-, ⟨o, hops, -, -, -, hq⟩, -⟩ :=
    (h.1.1 (strayWork strayWrite) 0 [] strayWrite { id := 7, q := 1, cid := 0, opc := opFlashWrite } (by decide) (by decide)
      (by decide) (by decide) (by decide)).post_of_onNv (fun nv d => Dev.flashWrite nv d 0 [] true) rfl
  have hrun : (Dev.flashWrite (strayWork strayWrite).nv (strayWork strayWrite).dev 0 [] true).2.pwr.flashOps.map FlashOp.q = [1] := by
    decide
  rw [hops] at hrun
  simp [strayWork_flashOps, hq] at hrun

/-! ## A wake that finds the device pinned to P3 and idle -/

/-- In P2, pinned to P3 and idle, with SYS LOCKED and the start ramp of a wake by doorbell running. -/
def pinnedWake : State :=
  { State.reset with
    dev := { ((Dev.init.put pwrState 2).put pwrPin 3).put (pllState 0) 3 with
      pwr := { PwrSt.init with booted := true, hkcReady := true, ramp := .up, wakeWhy := 2 } } }

set_option maxRecDepth 20000 in
/-- Refutes O10: where the device is pinned to P3 and nothing keeps it busy, the end of the SYS ramp enters P0 and goes on to P1, P2
and P3 at once (R575, R578), so PARK_P3 then names the dies that P3 parks and is not 0. -/
theorem not_standbyIsEnteredAndLeft : ¬ Obligations.StandbyIsEnteredAndLeft := by
  intro h
  obtain ⟨-, -, hpark, -⟩ :=
    (h.2.2.2.2.2.1 pinnedWake (by decide) (by decide) (by decide) (by decide) (by decide) (by decide) (by decide)).post_of_onDevIdle
      (fun d => d.rampUpEnd) rfl (by decide)
  have hrun : pinnedWake.dev.rampUpEnd.get pwrParkP3 = 15 := by decide
  omega

end Sys2Proof.Machine
end

section
/-!
PROOFS. What the operations on a channel leave alone: time, the SRAM, the work of the host's descriptors, every register outside the
channel's own, and of each open RUN all but its settle times (R57 to R61, R93 to R114, R281).
-/

namespace Sys2Proof.Machine

/-! ## Events leave the work records -/

theorem Dev.ringMessage_work (d : Dev) (ring : Nat) : (d.ringMessage ring).host.work = d.host.work := by
  unfold Dev.ringMessage
  dsimp only
  repeat' split
  all_goals rfl

theorem Dev.eqWrite_work (d : Dev) (e : EvRec) : (d.eqWrite e).host.work = d.host.work := by
  unfold Dev.eqWrite
  rw [Dev.ringMessage_work]
  split
  all_goals simp

theorem Dev.evPut_work (d : Dev) (e : EvRec) : (d.evPut e).host.work = d.host.work := by
  unfold Dev.evPut
  repeat' split
  · rfl
  · rfl
  · exact d.eqWrite_work e
  · rfl

theorem Dev.event_work (d : Dev) (src code pay : Nat) : (d.event src code pay).host.work = d.host.work :=
  Dev.evPut_work _ _

/-! ## Changes beside the RUNs and the ledger -/

/-- A RUN changes in nothing but the settle times that it has noted. -/
def OpenRun.SettleOnly (r r' : OpenRun) : Prop := r' = { r with maxSettle := r'.maxSettle, ccAt := r'.ccAt }

theorem OpenRun.SettleOnly.refl (r : OpenRun) : r.SettleOnly r := rfl

theorem OpenRun.SettleOnly.trans {r r' r'' : OpenRun} (h : r.SettleOnly r') (k : r'.SettleOnly r'') : r.SettleOnly r'' := by
  unfold OpenRun.SettleOnly at *
  rw [k, h]

theorem OpenRun.SettleOnly.id {r r' : OpenRun} (h : r.SettleOnly r') : r'.id = r.id := by rw [h]

/-- From `d` to `d'`: no time passes, the SRAM, the work records and every word outside `W` stay, and each open RUN keeps all but its
settle times. -/
structure Dev.Beside (W : Nat → Prop) (d d' : Dev) : Prop where
  mclk : d'.mclk = d.mclk
  tb : d'.tb = d.tb
  sram : d'.sram = d.sram
  work : d'.host.work = d.host.work
  word : ∀ a, ¬ W a → d'.word a = d.word a
  runs : List.Forall₂ OpenRun.SettleOnly d.runs d'.runs

theorem settleOnly_runs_refl (l : List OpenRun) : List.Forall₂ OpenRun.SettleOnly l l :=
  List.forall₂_same.2 fun r _ => .refl r

theorem settleOnly_runs_trans {l m n : List OpenRun} (h : List.Forall₂ OpenRun.SettleOnly l m)
    (k : List.Forall₂ OpenRun.SettleOnly m n) : List.Forall₂ OpenRun.SettleOnly l n := by
  induction h generalizing n with
  | nil => exact k
  | cons hr _ ih =>
    cases k with
    | cons kr k => exact .cons (hr.trans kr) (ih k)

theorem Dev.Beside.refl (W : Nat → Prop) (d : Dev) : d.Beside W d :=
  ⟨rfl, rfl, rfl, rfl, fun _ _ => rfl, settleOnly_runs_refl _⟩

theorem Dev.Beside.trans {W : Nat → Prop} {d e f : Dev} (h : d.Beside W e) (k : e.Beside W f) : d.Beside W f where
  mclk := k.mclk.trans h.mclk
  tb := k.tb.trans h.tb
  sram := k.sram.trans h.sram
  work := k.work.trans h.work
  word a ha := (k.word a ha).trans (h.word a ha)
  runs := settleOnly_runs_trans h.runs k.runs

theorem Dev.Beside.mono {W V : Nat → Prop} {d e : Dev} (h : d.Beside W e) (hv : W ≤ V) : d.Beside V e :=
  { h with word := fun _ ha => h.word _ fun hw => ha (hv _ hw) }

theorem Dev.beside_put {W : Nat → Prop} (d : Dev) (f : Fld) (v : Nat) (h : W f.addr) : d.Beside W (d.put f v) :=
  { Dev.Beside.refl W d with word := fun _ ha => d.word_put_ne f v fun e => ha (e ▸ h) }

theorem Dev.beside_event {W : Nat → Prop} (d : Dev) (src code pay : Nat) (h : ∀ a, 0x10000 ≤ a → a < 0x10300 → W a) :
    d.Beside W (d.event src code pay) where
  mclk := d.event_mclk src code pay
  tb := d.event_tb src code pay
  sram := d.event_sram src code pay
  work := d.event_work src code pay
  word a ha := d.word_event src code pay a (by
    by_contra hin
    exact ha (h a (by omega) (by omega)))
  runs := by rw [d.event_runs]; exact settleOnly_runs_refl _

/-- What each change of a list keeps beside, all of them do. -/
theorem Dev.Beside.foldl {W : Nat → Prop} {β : Type} {l : List β} {f : Dev → β → Dev} (h : ∀ d, ∀ i ∈ l, Dev.Beside W d (f d i))
    (d : Dev) : d.Beside W (l.foldl f d) :=
  List.foldlRecOn l f (.refl W d) fun d' hd i hi => hd.trans (h d' i hi)

/-! ## Operations on a channel -/

/-- A word that an operation on a channel may write: the units of the core, and of an edge die any word but a channel's PPMU_RESULT. -/
def ChanWord (a : Nat) : Prop := a < 0x1000000 ∨ a < 0x1200000 ∧ a % 0x1000 ≠ 0x61C

/-- A change beside the RUNs that gives no channel to a PPMU step. -/
structure Dev.ChanOnly (d d' : Dev) : Prop extends Dev.Beside ChanWord d d' where
  unused : ∀ c, (d.chan c).ppmuUse = none → (d'.chan c).ppmuUse = none

theorem Dev.ChanOnly.refl (d : Dev) : d.ChanOnly d := ⟨.refl _ d, fun _ => id⟩

theorem Dev.ChanOnly.trans {d e f : Dev} (h : d.ChanOnly e) (k : e.ChanOnly f) : d.ChanOnly f :=
  ⟨h.toBeside.trans k.toBeside, fun c hc => k.unused c (h.unused c hc)⟩

theorem Dev.ChanOnly.foldl {β : Type} {l : List β} {f : Dev → β → Dev} (h : ∀ d, ∀ i ∈ l, Dev.ChanOnly d (f d i)) (d : Dev) :
    d.ChanOnly (l.foldl f d) :=
  List.foldlRecOn l f (.refl d) fun d' hd i hi => hd.trans (h d' i hi)

theorem Dev.chanOnly_put (d : Dev) (f : Fld) (v : Nat) (h : ChanWord f.addr) : d.ChanOnly (d.put f v) :=
  ⟨d.beside_put f v h, fun _ => id⟩

theorem Dev.beside_setChan {W : Nat → Prop} (d : Dev) (c : Nat) (x : Chan) : d.Beside W (d.setChan c x) :=
  ⟨rfl, rfl, rfl, rfl, fun _ _ => rfl, settleOnly_runs_refl _⟩

theorem Dev.chanOnly_setAu (d : Dev) (a : Nat) (x : Au) : d.ChanOnly (d.setAu a x) :=
  ⟨⟨rfl, rfl, rfl, rfl, fun _ _ => rfl, settleOnly_runs_refl _⟩, fun _ => id⟩

theorem Dev.ChanOnly.ite {d e f : Dev} {p : Prop} [Decidable p] (h : d.ChanOnly e) (k : d.ChanOnly f) :
    d.ChanOnly (if p then e else f) := by
  split
  · exact h
  · exact k

theorem Dev.chanOnly_setChan (d : Dev) (c : Nat) (x : Chan) (h : (d.chan c).ppmuUse = none → x.ppmuUse = none) :
    d.ChanOnly (d.setChan c x) := by
  refine ⟨d.beside_setChan c x, fun c' hc' => ?_⟩
  rw [Dev.chan_setChan]
  split
  next e => exact h (e ▸ hc')
  next => exact hc'

theorem Dev.chanOnly_event (d : Dev) (src code pay : Nat) : d.ChanOnly (d.event src code pay) := by
  refine ⟨d.beside_event src code pay fun a _ h => .inl (by omega), fun c hc => ?_⟩
  unfold Dev.chan
  rw [d.event_chans]
  exact hc

/-- A channel's word other than PPMU_RESULT. -/
theorem chanWord_pe {c o : Nat} (hc : c < 256) (ho : o < 0x1000) (h : o ≠ 0x61C) : ChanWord (0x1000000 + o + 0x1000 * c) :=
  .inr ⟨by omega, by omega⟩

section
variable (d : Dev) {c : Nat} (hc : c < 256)
include hc

theorem Dev.chanOnly_noteClip (k ideal : Nat) : d.ChanOnly (d.noteClip c k ideal) := by
  unfold Dev.noteClip
  dsimp only
  split
  · exact d.chanOnly_put _ _ (.inl (by simp only [calClipped]; omega))
  · exact .refl d

theorem Dev.chanOnly_setDac (k : Nat) (x : Dac) : d.ChanOnly (d.setDac c k x) :=
  (d.chanOnly_setChan c { d.chan c with dacs := Tab.set Dac.init (d.chan c).dacs k x } id).trans
    (Dev.chanOnly_put _ (peHold c) _ (chanWord_pe (o := 4) hc (by decide) (by decide)))

theorem Dev.chanOnly_reconvert {k : Nat} (hk : k < 64) : d.ChanOnly (d.reconvert c k) :=
  ((d.chanOnly_noteClip hc k _).trans (Dev.chanOnly_put _ (peCorr c k) _ (.inr (by simp only [peCorr]; omega)))).trans
    (Dev.chanOnly_setDac _ hc k _)

theorem Dev.chanOnly_wfPut (code : Nat) : d.ChanOnly (d.wfPut c code) := by
  unfold Dev.wfPut
  dsimp only
  refine Dev.ChanOnly.trans ?_ (Dev.chanOnly_reconvert _ hc (by decide))
  split
  next u hu => exact d.chanOnly_setChan c _ fun hn => by simp [hu] at hn
  next => exact d.chanOnly_put _ _ (.inr (by simp only [peIdeal]; omega))

theorem Dev.chanOnly_wfStop : d.ChanOnly (d.wfStop c) :=
  (d.chanOnly_put (ppmuWfRun c) 0 (chanWord_pe (o := 0x604) hc (by decide) (by decide))).trans (Dev.chanOnly_setChan _ c _ id)

theorem Dev.chanOnly_wfRange (seg : Nat) : d.ChanOnly (d.wfRange c seg) := by
  have hen := (d.chanOnly_wfStop hc).trans
    (Dev.chanOnly_put _ (ppmuWfEn c) 0 (chanWord_pe (o := 0x600) hc (by decide) (by decide)))
  have hfault (v : Nat) := hen.trans (Dev.chanOnly_put _ (ppmuFaultF c) v (chanWord_pe (o := 0x608) hc (by decide) (by decide)))
  unfold Dev.wfRange
  refine Dev.ChanOnly.trans ((hfault _).trans (Dev.chanOnly_setChan _ c _ fun hn => ?_)) (Dev.chanOnly_event _ _ _ _)
  simp only [hn]

end

theorem Dev.chanOnly_auMissed (d : Dev) {a : Nat} (ha : a < 32) : d.ChanOnly (d.auMissed a) := by
  have hcount (x : Au) : d.ChanOnly ((d.setAu a x).bump (auCntMiss a)) :=
    (d.chanOnly_setAu a x).trans (Dev.chanOnly_put _ _ _ (.inl (by simp only [auCntMiss]; omega)))
  unfold Dev.auMissed
  exact .ite (hcount _) ((hcount _).trans (Dev.chanOnly_event _ _ _ _))

theorem Dev.chanOnly_auEvent (d : Dev) {a : Nat} (ha : a < 32) (tick : Nat) : d.ChanOnly (d.auEvent a tick) := by
  unfold Dev.auEvent
  exact .ite (.ite (.refl d) (d.chanOnly_setAu a _)) (.ite (d.chanOnly_auMissed ha) (.refl d))

theorem Dev.chanOnly_auEvents (d : Dev) (kind idx : Nat) (rise : Option Bool) (tick : Nat) :
    d.ChanOnly (d.auEvents kind idx rise tick) := by
  unfold Dev.auEvents Dev.forEach
  refine Dev.ChanOnly.foldl (fun d a ha => ?_) d
  exact .ite (d.chanOnly_auEvent (List.mem_range.1 ha) tick) (.refl d)

theorem Dev.chanOnly_noteFv (d : Dev) (c : Nat) : d.ChanOnly (d.noteFv c) := by
  unfold Dev.noteFv
  split
  next s _ =>
    refine ⟨{ Dev.Beside.refl ChanWord d with runs := ?_ }, fun _ => id⟩
    refine List.forall₂_map_right_iff.2 (List.forall₂_same.2 fun r _ => ?_)
    split
    · exact rfl
    · exact .refl r
  next => exact .refl d

section
variable (d : Dev) {c : Nat} (hc : c < 256)
include hc

theorem Dev.chanOnly_wfPlay (seg left : Nat) : d.ChanOnly (d.wfPlay c seg left) := by
  have hplay := (d.chanOnly_put (ppmuWfRun c) 1 (chanWord_pe (o := 0x604) hc (by decide) (by decide))).trans
    (Dev.chanOnly_put _ (ppmuWfSeg c) seg (chanWord_pe (o := 0x604) hc (by decide) (by decide)))
  have hput (x : Chan) (hx) (code : Nat) := (hplay.trans (Dev.chanOnly_setChan _ c x hx)).trans (Dev.chanOnly_wfPut _ hc code)
  unfold Dev.wfPlay
  refine .ite (d.chanOnly_wfRange hc seg) ?_
  refine .ite ((hput _ ?_ _).trans (Dev.chanOnly_auEvents _ _ _ _ _)) (hput _ ?_ _)
  all_goals exact id

theorem Dev.chanOnly_wfStart : d.ChanOnly (d.wfStart c) :=
  (d.chanOnly_wfStop hc).trans (Dev.chanOnly_wfPlay _ hc _ _)

theorem Dev.chanOnly_syncForce : d.ChanOnly (d.syncForce c) := by
  have hput := d.chanOnly_put (ppmuForceNow c) (d.wantForce c) (chanWord_pe (o := 0x604) hc (by decide) (by decide))
  unfold Dev.syncForce
  refine Dev.ChanOnly.trans (hput.trans (.ite (p := d.wantForce c = 1) (Dev.chanOnly_noteFv _ c) (.refl _))) (.ite ?_ ?_)
  · exact .ite (Dev.chanOnly_wfStop _ hc) (.refl _)
  · exact .ite (Dev.chanOnly_wfStart _ hc) (.refl _)

theorem Dev.chanOnly_ppmuReturn : d.ChanOnly (d.ppmuReturn c) := by
  unfold Dev.ppmuReturn
  exact (((Dev.ChanOnly.ite (d.chanOnly_wfStop hc) (.refl d)).trans (Dev.chanOnly_setChan _ c _ fun _ => rfl)).trans
    (Dev.chanOnly_syncForce _ hc)).trans
    ((Dev.chanOnly_put _ (ppmuCompl c) 0 (chanWord_pe (o := 0x604) hc (by decide) (by decide))).trans
      (Dev.chanOnly_reconvert _ hc (by decide)))

end

end Sys2Proof.Machine
end

section
/-!
PROOFS. The contact check and the end of the close guard (R36, R37, R105 to R107, R250).
-/

namespace Sys2Proof.Machine

/-! ## What the result of a site keeps -/

theorem Dev.lt_of_mem_siteChans {d : Dev} {s c : Nat} (h : c ∈ d.siteChans s) : c < 256 :=
  List.mem_range.1 (List.mem_filter.1 h).1

/-- From `d` to `d'`: no time passes, every channel's PPMU_RESULT reads the same and no channel is given to a PPMU step. -/
structure Dev.KeepsReadings (d d' : Dev) : Prop where
  mclk : d'.mclk = d.mclk
  result : ∀ c, c < 256 → d'.get (ppmuResult c) = d.get (ppmuResult c)
  unused : ∀ c, (d.chan c).ppmuUse = none → (d'.chan c).ppmuUse = none

theorem Dev.KeepsReadings.refl (d : Dev) : d.KeepsReadings d := ⟨rfl, fun _ _ => rfl, fun _ => id⟩

theorem Dev.KeepsReadings.trans {d e f : Dev} (h : d.KeepsReadings e) (k : e.KeepsReadings f) : d.KeepsReadings f :=
  ⟨k.mclk.trans h.mclk, fun c hc => (k.result c hc).trans (h.result c hc), fun c hc => k.unused c (h.unused c hc)⟩

theorem Dev.KeepsReadings.ite {d e f : Dev} {p : Prop} [Decidable p] (h : d.KeepsReadings e) (k : d.KeepsReadings f) :
    d.KeepsReadings (if p then e else f) := by
  split
  · exact h
  · exact k

theorem Dev.KeepsReadings.foldl {β : Type} {l : List β} {f : Dev → β → Dev} (h : ∀ d, ∀ i ∈ l, Dev.KeepsReadings d (f d i))
    (d : Dev) : d.KeepsReadings (l.foldl f d) :=
  List.foldlRecOn l f (.refl d) fun d' hd i hi => hd.trans (h d' i hi)

theorem Dev.ChanOnly.readings {d e : Dev} (h : d.ChanOnly e) : d.KeepsReadings e where
  mclk := h.mclk
  result c hc := by
    unfold Dev.get
    rw [h.word]
    simp only [ppmuResult, ChanWord]
    omega
  unused := h.unused

/-- A register above those of the channels is written. -/
theorem Dev.keepsReadings_put (d : Dev) (f : Fld) (v : Nat) (h : 0x1100000 ≤ f.addr) : d.KeepsReadings (d.put f v) :=
  ⟨rfl, fun c hc => d.get_put_addr f _ v (by simp only [ppmuResult]; omega), fun _ => id⟩

theorem Dev.keepsReadings_setRun (d : Dev) (r : OpenRun) : d.KeepsReadings (d.setRun r) := ⟨rfl, fun _ _ => rfl, fun _ => id⟩

theorem Dev.keepsReadings_st (d : Dev) (a n v : Nat) : d.KeepsReadings (d.st a n v) := ⟨rfl, fun _ _ => rfl, fun _ => id⟩

theorem Dev.keepsReadings_led (d : Dev) (x : LedSt) : d.KeepsReadings { d with led := x } := ⟨rfl, fun _ _ => rfl, fun _ => id⟩

theorem Dev.keepsReadings_writeEnt (d : Dev) (id : Nat) (e : Ent) : d.KeepsReadings (d.writeEnt id e) := by
  unfold Dev.writeEnt
  split
  · exact .refl d
  · exact (((d.keepsReadings_st _ _ _).trans (Dev.keepsReadings_put _ _ _ (by simp only [ledWr]; omega))).trans
      (Dev.keepsReadings_led _ _)).trans (Dev.keepsReadings_setRun _ _)

theorem Dev.keepsReadings_ppmuSiteDone (d : Dev) (st : StepData) (s : Nat) : d.KeepsReadings (d.ppmuSiteDone st s) := by
  have hheld : d.KeepsReadings (d.forEach [0, 1, 2, 3] fun d e => d.put (pedHeld e) (d.get (pedHeld e) - d.siteClaim st s e)) :=
    Dev.KeepsReadings.foldl (fun d e _ => d.keepsReadings_put _ _ (by simp only [pedHeld]; omega)) d
  have hback (d : Dev) : d.KeepsReadings (d.forEach (d.stepChans st s) fun d c => d.ppmuReturn c) :=
    Dev.KeepsReadings.foldl
      (fun d _ hc => (d.chanOnly_ppmuReturn (Dev.lt_of_mem_siteChans (List.mem_filter.1 hc).1)).readings) d
  exact (hheld.trans (hback _)).trans ⟨rfl, fun _ _ => rfl, fun _ => id⟩

theorem Dev.keepsReadings_flushSite (d : Dev) (id s : Nat) : d.KeepsReadings (d.flushSite id s) := by
  have hwrite (due : List Res) (es : Res → List Ent) :
      d.KeepsReadings (due.foldl (fun d x => (es x).foldl (fun d e => d.writeEnt id e) d) d) :=
    .foldl (fun d _ _ => .foldl (fun d e _ => d.keepsReadings_writeEnt id e) d) d
  unfold Dev.flushSite
  split
  · exact .refl d
  · split
    · exact .refl d
    · refine .ite (Dev.KeepsReadings.trans ?_ (Dev.keepsReadings_ppmuSiteDone _ _ s)) ?_
      all_goals
        split
        · exact (hwrite _ _).trans (Dev.keepsReadings_setRun _ _)
        · exact hwrite _ _

theorem Dev.keepsReadings_putReading (d : Dev) (id s j : Nat) (x : Reading) : d.KeepsReadings (d.putReading id s j x) := by
  unfold Dev.putReading
  split
  · exact .refl d
  · split
    · exact .refl d
    · exact (d.keepsReadings_setRun _).trans (Dev.keepsReadings_flushSite _ id s)

theorem Dev.keepsReadings_flogLost (d : Dev) (s : Nat) : d.KeepsReadings (d.flogLost s) := by
  have hdrop : d.KeepsReadings (d.bump (flogDrop s)) := d.keepsReadings_put _ _ (by simp only [flogDrop]; omega)
  unfold Dev.flogLost
  dsimp only
  split
  · exact hdrop.trans (Dev.keepsReadings_setRun _ _)
  · exact hdrop

theorem Dev.keepsReadings_flogGrow (d : Dev) (s n : Nat) : d.KeepsReadings (d.flogGrow s n) := by
  unfold Dev.flogGrow
  dsimp only
  split
  · exact d.keepsReadings_led _
  · exact .refl d

theorem Dev.keepsReadings_flogPush (d : Dev) (c s entry : Nat) : d.KeepsReadings (d.flogPush c s entry) := by
  have hgrow (x : LedSt) (n : Nat) := (d.keepsReadings_led x).trans (Dev.keepsReadings_flogGrow _ s n)
  unfold Dev.flogPush
  refine .ite (d.keepsReadings_flogLost s) ?_
  dsimp only
  split
  · exact ((hgrow _ _).trans (Dev.keepsReadings_st _ _ _ _)).trans (Dev.keepsReadings_put _ _ _ (by simp only [flogCount]; omega))
  · exact (hgrow _ _).trans (Dev.keepsReadings_flogLost _ s)

theorem Dev.keepsReadings_contactSite (d : Dev) (r : OpenRun) (codes : List (Nat × Nat)) (s : Nat) :
    d.KeepsReadings (d.contactSite r codes s) := by
  have hlog (bad : List (Nat × Int × Bool)) (f : Nat × Int × Bool → Nat) :
      d.KeepsReadings (bad.foldl (fun d p => d.flogPush p.1 s (f p)) d) :=
    .foldl (fun d _ _ => d.keepsReadings_flogPush _ s _) d
  unfold Dev.contactSite
  split
  · exact .refl d
  · exact (hlog _ _).trans (Dev.keepsReadings_putReading _ _ _ _ _)

/-! ## The readings and the release -/

theorem Dev.mclk_advanceTo (d : Dev) (deadline : Nat) : (d.advanceTo deadline).mclk = max d.mclk deadline := by
  simp only [Dev.advanceTo, Dev.advance]
  omega

/-- The channels of the sites of a RUN. -/
def Dev.runChans (d : Dev) (r : OpenRun) : List Nat := (maskList 64 r.sites).flatMap d.siteChans

/-- The channels of a RUN that its contact check has forced and no park has stopped. -/
def Dev.forcedChans (d : Dev) (r : OpenRun) : List Nat :=
  (d.runChans r).filter fun c => (d.chan c).ppmuUse.isSome && !d.is (peParked c)

/-- A channel shows its code of the contact check. -/
def Dev.showReading (codes : List (Nat × Nat)) (d : Dev) (c : Nat) : Dev :=
  match codes.find? fun p => p.1 == c with
  | some p => d.put (ppmuResult c) p.2
  | none => d

/-- The device when every site of the contact check of a RUN has its test 0 result. -/
def Dev.contactResults (d : Dev) (r : OpenRun) (codes : List (Nat × Nat)) : Dev :=
  ((d.forcedChans r).foldl (Dev.showReading codes) (d.advanceTo r.ccAt).nextFree).forEach (maskList 64 r.sites)
    fun d s => d.contactSite r codes s

theorem Dev.lt_of_mem_runChans {d : Dev} {r : OpenRun} {c : Nat} (h : c ∈ d.runChans r) : c < 256 := by
  obtain ⟨s, -, hs⟩ := List.mem_flatMap.1 h
  exact Dev.lt_of_mem_siteChans hs

/-- CONTACT_CHECK_SAMPLE in its moment with a code for every forced channel. -/
theorem Dev.contactSample_eq {d : Dev} {td : Nat} {codes : List (Nat × Nat)} {r : OpenRun} (hr : d.findRun td = some r)
    (hphase : r.phase = .contact) (hopen : r.openRes ≠ []) (hcodes : ∀ c ∈ d.forcedChans r, ∃ p ∈ codes, p.1 = c) :
    d.contactSample td codes =
      (d.contactResults r codes).forEach ((d.runChans r).filter fun c => ((d.contactResults r codes).chan c).ppmuUse.isSome)
        fun d c => d.ppmuReturn c := by
  have hall : ((d.forcedChans r).all fun c => codes.any fun p => p.1 == c) = true := by simpa using hcodes
  unfold Dev.contactSample
  rw [hr]
  refine if_neg ?_
  rintro (h | h | h)
  · exact h hphase
  · exact hopen (List.isEmpty_iff.1 h)
  · exact absurd (hall.symm.trans h) (by decide)

theorem Dev.showReading_mclk (codes : List (Nat × Nat)) (d : Dev) (c : Nat) : (d.showReading codes c).mclk = d.mclk := by
  unfold Dev.showReading
  split
  all_goals rfl

theorem Dev.get_showReading_ne (codes : List (Nat × Nat)) (d : Dev) {c k : Nat} (h : c ≠ k) :
    (d.showReading codes c).get (ppmuResult k) = d.get (ppmuResult k) := by
  unfold Dev.showReading
  split
  · exact d.get_put_addr _ _ _ (by simp only [ppmuResult]; omega)
  · rfl

theorem Dev.get_showReading_same {codes : List (Nat × Nat)} (d : Dev) {c : Nat} {p : Nat × Nat}
    (h : (codes.find? fun p => p.1 == c) = some p) : (d.showReading codes c).get (ppmuResult c) = p.2 % 2 ^ 18 := by
  unfold Dev.showReading
  rw [h]
  exact d.get_put _ _ (by simp only [ppmuResult]; decide)

/-- Each channel of a list shows its code, whatever the others of the list show. -/
theorem Dev.get_showReadings {codes : List (Nat × Nat)} {c : Nat} {p : Nat × Nat} (h : (codes.find? fun p => p.1 == c) = some p)
    (l : List Nat) (d : Dev) :
    (l.foldl (Dev.showReading codes) d).get (ppmuResult c) = if c ∈ l then p.2 % 2 ^ 18 else d.get (ppmuResult c) := by
  induction l generalizing d with
  | nil => rfl
  | cons k l ih =>
    rw [List.foldl_cons, ih]
    by_cases hk : k = c
    · subst hk
      simp [d.get_showReading_same h]
    · simp [d.get_showReading_ne codes hk, Ne.symm hk]

theorem Dev.ppmuReturn_unused (d : Dev) {c : Nat} (hc : c < 256) : ((d.ppmuReturn c).chan c).ppmuUse = none := by
  have hafter (d : Dev) (hd : (d.chan c).ppmuUse = none) :
      ((((d.syncForce c).put (ppmuCompl c) 0).reconvert c 10).chan c).ppmuUse = none :=
    (((d.chanOnly_syncForce hc).trans
      (Dev.chanOnly_put _ (ppmuCompl c) 0 (chanWord_pe (o := 0x604) hc (by decide) (by decide)))).trans
      (Dev.chanOnly_reconvert _ hc (by decide))).unused c hd
  exact hafter _ (by rw [Dev.chan_setChan_same])

/-- When the channels of a list that a step uses have returned, no step uses a channel of the list. -/
theorem Dev.unused_of_returned (d : Dev) {l : List Nat} (hl : ∀ c ∈ l, c < 256) {c : Nat} (hc : c ∈ l) :
    ((d.forEach (l.filter fun c => (d.chan c).ppmuUse.isSome) fun d c => d.ppmuReturn c).chan c).ppmuUse = none := by
  have hkeep (l' : List Nat) (hl' : ∀ c ∈ l', c < 256) (d : Dev) (h : (d.chan c).ppmuUse = none) :
      ((l'.foldl (fun d c => d.ppmuReturn c) d).chan c).ppmuUse = none :=
    (Dev.ChanOnly.foldl (fun d i hi => d.chanOnly_ppmuReturn (hl' i hi)) d).unused c h
  have hlt : ∀ i ∈ l.filter fun c => (d.chan c).ppmuUse.isSome, i < 256 := fun i hi => hl i (List.mem_filter.1 hi).1
  unfold Dev.forEach
  by_cases h : (d.chan c).ppmuUse = none
  · exact hkeep _ hlt d h
  · obtain ⟨before, after, hsplit⟩ := List.append_of_mem ((List.mem_filter (p := fun c => (d.chan c).ppmuUse.isSome)).2
      ⟨hc, Option.isSome_iff_ne_none.2 h⟩)
    rw [hsplit] at hlt ⊢
    rw [List.foldl_append, List.foldl_cons]
    exact hkeep after (fun i hi => hlt i (by simp [hi])) _ (Dev.ppmuReturn_unused _ (hl c hc))

theorem Dev.keepsReadings_contactSites (d : Dev) (r : OpenRun) (codes : List (Nat × Nat)) (l : List Nat) :
    d.KeepsReadings (d.forEach l fun d s => d.contactSite r codes s) :=
  Dev.KeepsReadings.foldl (fun d s _ => d.keepsReadings_contactSite r codes s) d

theorem Dev.keepsReadings_returned (d : Dev) {l : List Nat} (hl : ∀ c ∈ l, c < 256) :
    d.KeepsReadings (d.forEach l fun d c => d.ppmuReturn c) :=
  Dev.KeepsReadings.foldl (fun d c hc => (d.chanOnly_ppmuReturn (hl c hc)).readings) d

theorem Dev.contactSample_released {d : Dev} {td : Nat} {codes : List (Nat × Nat)} {r : OpenRun} (hr : d.findRun td = some r)
    (hphase : r.phase = .contact) (hopen : r.openRes ≠ []) (hcodes : ∀ c ∈ d.forcedChans r, ∃ p ∈ codes, p.1 = c) :
    (d.contactSample td codes).mclk = max d.mclk r.ccAt ∧
      (∀ c ∈ d.runChans r, ((d.contactSample td codes).chan c).ppmuUse = none) ∧
      ∀ c ∈ d.forcedChans r, ∀ p, (codes.find? fun p => p.1 == c) = some p →
        (d.contactSample td codes).get (ppmuResult c) = p.2 % 2 ^ 18 := by
  have hlt : ∀ c ∈ d.runChans r, c < 256 := fun c hc => Dev.lt_of_mem_runChans hc
  have hsites := Dev.keepsReadings_contactSites
    ((d.forcedChans r).foldl (Dev.showReading codes) (d.advanceTo r.ccAt).nextFree) r codes (maskList 64 r.sites)
  have hback := (d.contactResults r codes).keepsReadings_returned
    (l := (d.runChans r).filter fun c => ((d.contactResults r codes).chan c).ppmuUse.isSome)
    fun c hc => hlt c (List.mem_filter.1 hc).1
  rw [Dev.contactSample_eq hr hphase hopen hcodes]
  refine ⟨?_, fun c hc => Dev.unused_of_returned _ hlt hc, fun c hc p hp => ?_⟩
  · rw [(hsites.trans hback).mclk]
    calc ((d.forcedChans r).foldl (Dev.showReading codes) (d.advanceTo r.ccAt).nextFree).mclk
      _ = (d.advanceTo r.ccAt).mclk := Dev.forEach_keeps Dev.mclk (fun d c _ => Dev.showReading_mclk codes d c) _
      _ = max d.mclk r.ccAt := d.mclk_advanceTo _
  · rw [(hsites.trans hback).result c (hlt c (List.mem_filter.1 hc).1), Dev.get_showReadings hp, if_pos hc]

/-! ## The close guard ends -/

theorem Dev.verdict_site (d : Dev) (r : OpenRun) (s : Nat) : (d.verdict r s).site = s := by
  unfold Dev.verdict
  dsimp only
  repeat' split
  all_goals rfl

theorem Dev.mem_queueIn (d : Dev) (r : OpenRun) (l : List Nat) : r.id ∈ d.queueIn r l := by
  induction l with
  | nil => exact .head _
  | cons i l ih =>
    unfold Dev.queueIn
    split
    · split
      · exact .tail _ ih
      · exact .head _
    · exact .tail _ ih

/-- A RUN that is open is found as it has been set. -/
theorem Dev.runById_setRun {d : Dev} {r r' : OpenRun} (h : d.runById r'.id = some r) : (d.setRun r').runById r'.id = some r' := by
  have hid : r.id = r'.id := by simpa using List.find?_some h
  unfold Dev.runById Dev.setRun at *
  dsimp only
  have hsame : ((fun x : OpenRun => x.id == r'.id) ∘ fun x => if x.id = r'.id then r' else x) = fun x => x.id == r'.id := by
    funext x
    by_cases hx : x.id = r'.id <;> simp [hx]
  rw [List.find?_map, hsame, h]
  simp [hid]

/-- A RUN whose verdicts are formed from what the device holds. -/
def Dev.judged (d : Dev) (r : OpenRun) : OpenRun :=
  { r with phase := .almWait, verdicts := (maskList 64 r.sites).map fun s => d.verdict r s }

theorem Dev.judged_sites (d : Dev) (r : OpenRun) : (d.judged r).verdicts.map (fun v => v.site) = maskList 64 r.sites := by
  simp [Dev.judged, Function.comp_def, Dev.verdict_site]

/-- CLOSE_GUARD_EXPIRY at its moment. -/
theorem Dev.guardExpiry_eq {d : Dev} {td : Nat} {r : OpenRun} (hr : d.findRun td = some r) (hphase : r.phase = .guard)
    (hraised : d.fcu.raised = []) :
    let f := (d.advanceTo r.guardEnd).setRun ((d.advanceTo r.guardEnd).judged r)
    d.guardExpiry td = { f with alm := { f.alm with queue := f.queueIn r f.alm.queue } } := by
  unfold Dev.guardExpiry
  rw [hr]
  exact if_neg (by simp [hphase, hraised])

theorem Dev.guardExpiry_queues {d : Dev} {td : Nat} {r : OpenRun} (hr : d.findRun td = some r) (hid : d.runById r.id = some r)
    (hphase : r.phase = .guard) (hraised : d.fcu.raised = []) :
    (d.guardExpiry td).mclk = max d.mclk r.guardEnd ∧ r.id ∈ (d.guardExpiry td).alm.queue ∧
      (∃ r', (d.guardExpiry td).runById r.id = some r' ∧ r'.phase = .almWait ∧
        r'.verdicts.map (fun v => v.site) = maskList 64 r.sites) ∧
      d.KeepsRegs (d.guardExpiry td) [] ∧ (d.guardExpiry td).sram = d.sram := by
  rw [Dev.guardExpiry_eq hr hphase hraised]
  have hset := Dev.runById_setRun (d := d.advanceTo r.guardEnd) (r' := (d.advanceTo r.guardEnd).judged r) hid
  exact ⟨d.mclk_advanceTo _, Dev.mem_queueIn _ r _, ⟨_, hset, rfl, Dev.judged_sites _ r⟩, fun _ _ => rfl, rfl⟩

/-! ## The statement -/

/-- The commands tell the codes by channel and width; the model reads them as numbers. -/
theorem find?_codes (codes : List (Fin 256 × BitVec 18)) (c : Nat) :
    ((codes.map fun p => (p.1.val, p.2.toNat)).find? fun p => p.1 == c) =
      (codes.find? fun p => p.1.val == c).map fun p => (p.1.val, p.2.toNat) :=
  List.find?_map ..

/-- Settles O46: the test 0 results and the return of the channels keep what PPMU_RESULT shows, and the verdicts read what the close
guard leaves as it is. -/
theorem contactChecksAndCloseGuardsEnd : Obligations.ContactChecksAndCloseGuardsEnd := by
  refine ⟨fun s td codes r hr hphase hopen hcodes => ?_, fun s td r hr hid hphase hraised => ?_⟩
  · have hforced : ∀ c ∈ s.dev.forcedChans r, ∃ p ∈ codes.map fun p => (p.1.val, p.2.toNat), p.1 = c := by
      intro c hc
      obtain ⟨hmem, huse⟩ := List.mem_filter.1 hc
      obtain ⟨hused, hpark⟩ := Bool.and_eq_true_iff.1 huse
      obtain ⟨p, hp, hpc⟩ := hcodes c hmem hused (by simpa using hpark)
      exact ⟨_, List.mem_map_of_mem hp, hpc⟩
    obtain ⟨hmclk, hunused, hresult⟩ := Dev.contactSample_released hr hphase hopen hforced
    refine Answers.of_onDev (fun d => d.contactSample td.toNat (codes.map fun p => (p.1.val, p.2.toNat))) rfl rfl ?_
    refine ⟨hmclk, hunused, fun c p hc hused hpark hp => ?_⟩
    have hshown := hresult c (List.mem_filter.2 ⟨hc, by simp [hused, hpark]⟩) (p.1.val, p.2.toNat) (by rw [find?_codes, hp]; rfl)
    exact hshown.trans (Nat.mod_eq_of_lt p.2.isLt)
  · exact Answers.of_onDev (fun d => d.guardExpiry td.toNat) rfl rfl (Dev.guardExpiry_queues hr hid hphase hraised)

end Sys2Proof.Machine
end

section
/-!
PROOFS. The open of a RUN (R32, R34, R222, R236, R242, R246): its header in the SRAM and what the rest of the open leaves as it was.
-/

namespace Sys2Proof.Machine

/-! ## Part of a number in the SRAM -/

theorem Tab.getList_add {α : Type} (dflt : Nat → α) (t : Tab α) (a k m : Nat) :
    Tab.getList dflt t a (k + m) = Tab.getList dflt t a k ++ Tab.getList dflt t (a + k) m := by
  induction k generalizing a with
  | zero => rw [Nat.zero_add]; rfl
  | succ k ih =>
    rw [Nat.add_right_comm, Tab.getList, ih, Tab.getList, List.cons_append, Nat.add_assoc a 1 k, Nat.add_comm 1 k]

theorem Tab.length_getList {α : Type} (dflt : Nat → α) (t : Tab α) (a n : Nat) : (Tab.getList dflt t a n).length = n := by
  induction n generalizing a with
  | zero => rfl
  | succ n ih => rw [Tab.getList, List.length_cons, ih]

theorem ofBytes_append (xs ys : List Byte) : ofBytes (xs ++ ys) = ofBytes xs + 256 ^ xs.length * ofBytes ys := by
  induction xs with
  | nil => simp [ofBytes]
  | cons x xs ih => rw [List.cons_append, ofBytes, ofBytes, ih, List.length_cons, pow_succ']; ring

theorem ofBytes_lt (bs : List Byte) : ofBytes bs < 256 ^ bs.length := by
  induction bs with
  | nil => decide
  | cons b bs ih =>
    have hb : b.toNat < 256 := b.isLt
    rw [ofBytes, List.length_cons, pow_succ']
    omega

theorem Dev.ld_lt (d : Dev) (a n : Nat) : d.ld a n < 256 ^ n := by
  have h := ofBytes_lt (Tab.getList sramDefault d.sram a n)
  rwa [Tab.length_getList] at h

theorem Dev.ld_add (d : Dev) (a k m : Nat) : d.ld a (k + m) = d.ld a k + 256 ^ k * d.ld (a + k) m := by
  unfold Dev.ld
  rw [Tab.getList_add, ofBytes_append, Tab.length_getList]

/-- The low bytes of a number that stands in the SRAM. -/
theorem Dev.ld_low (d : Dev) (a k m : Nat) : d.ld a k = d.ld a (k + m) % 256 ^ k := by
  rw [d.ld_add, Nat.add_mul_mod_self_left, Nat.mod_eq_of_lt (d.ld_lt a k)]

/-- The high bytes of a number that stands in the SRAM. -/
theorem Dev.ld_high (d : Dev) (a k m : Nat) : d.ld (a + k) m = d.ld a (k + m) / 256 ^ k := by
  rw [d.ld_add, Nat.add_mul_div_left _ _ (by positivity), Nat.div_eq_of_lt (d.ld_lt a k), Nat.zero_add]

/-- A part of a stored number reads back. -/
theorem Dev.ld_st_part (d : Dev) {a n : Nat} (v k m : Nat) (h : k + m ≤ n) : (d.st a n v).ld (a + k) m = v / 256 ^ k % 256 ^ m := by
  obtain ⟨j, rfl⟩ := Nat.exists_eq_add_of_le h
  rw [Dev.ld_high, Dev.ld_low _ _ _ j, Dev.ld_st, Nat.mod_mod_of_dvd _ (pow_dvd_pow 256 h), pow_add, Nat.mod_mul_right_div_self]

/-! ## The header (R242) -/

theorem crcBit_lt {c : Nat} (h : c < 2 ^ 32) : crcBit c < 2 ^ 32 := by
  unfold crcBit
  split
  · exact Nat.xor_lt_two_pow (by omega) (by decide)
  · omega

theorem crcByte_lt {c : Nat} (b : Nat) (h : c < 2 ^ 32) : crcByte c b < 2 ^ 32 := by
  have hx : c ^^^ (b % 256) < 2 ^ 32 := Nat.xor_lt_two_pow h (by omega)
  exact crcBit_lt (crcBit_lt (crcBit_lt (crcBit_lt (crcBit_lt (crcBit_lt (crcBit_lt (crcBit_lt hx)))))))

theorem crc32_lt (bs : List Nat) : crc32 bs < 2 ^ 32 :=
  Nat.xor_lt_two_pow (List.foldlRecOn (motive := fun c => c < 2 ^ 32) bs crcByte (by decide) fun _ hc b _ => crcByte_lt b hc) (by decide)

theorem bitsOf_lt (n lo w : Nat) : bitsOf n lo w < 2 ^ w := Nat.mod_lt _ (Nat.two_pow_pos w)

theorem ofSigned_lt (w : Nat) (v : Int) : ofSigned w v < 2 ^ w := by
  have hpos : (0 : Int) < 2 ^ w := by positivity
  have hlt := Int.emod_lt_of_pos v hpos
  have hnn := Int.emod_nonneg v hpos.ne'
  unfold ofSigned
  zify
  omega

theorem getD_lt {l : List Nat} {b : Nat} (hb : 0 < b) (h : ∀ x ∈ l, x < b) (i : Nat) : l.getD i 0 < b := by
  rw [List.getD_eq_getElem?_getD]
  cases hi : l[i]? with
  | none => exact hb
  | some x => exact h x (List.mem_of_getElem? hi)

/-- The header's fields as numbers: the touchdown ID lowest, the sites in bits 384 to 447. -/
theorem Dev.header_parts (d : Dev) (x : Nat) :
    d.header x % 256 ^ 8 = runTd x ∧ d.header x / 256 ^ 48 % 256 ^ 8 = runSites x := by
  have htd : runTd x < 2 ^ 64 := bitsOf_lt ..
  have hhash : d.mapHash < 2 ^ 32 := crc32_lt _
  have hcount : runCount x < 2 ^ 16 := bitsOf_lt ..
  have htb : d.tb % 2 ^ 64 < 2 ^ 64 := Nat.mod_lt _ (by decide)
  have hsites : runSites x < 2 ^ 64 := bitsOf_lt ..
  have hte := getD_lt (l := (List.range 4).map fun e => d.headerTemp e ((List.range 4).map fun j => d.get (calTemp (4 * e + j))))
    (b := 2 ^ 16) (by decide) fun t ht => by
      obtain ⟨e, -, rfl⟩ := List.mem_map.1 ht
      exact ofSigned_lt ..
  have htc : d.headerTemp 4 ((List.range 8).map fun k => d.get (calTempC k)) < 2 ^ 16 := ofSigned_lt ..
  have h0 := hte 0
  have h1 := hte 1
  have h2 := hte 2
  have h3 := hte 3
  unfold Dev.header
  dsimp only
  generalize d.mapHash = hash at *
  generalize d.tb % 2 ^ 64 = tb at *
  generalize runTd x = td at *
  generalize runCount x = count at *
  generalize runSites x = sites at *
  generalize runPrior x = prior at *
  generalize List.map _ (List.range 4) = te at *
  generalize d.headerTemp 4 _ = tc at *
  generalize te.getD 0 0 = t0 at *
  generalize te.getD 1 0 = t1 at *
  generalize te.getD 2 0 = t2 at *
  generalize te.getD 3 0 = t3 at *
  omega

end Sys2Proof.Machine
end

section
/-!
PROOFS. A RUN's open beside its header, and the statement that a RUN opens or is refused (R32, R34, R105, R236, R246, R414, R535).
-/

namespace Sys2Proof.Machine

/-! ## Beside the header's write index -/

/-- Every word but that of LED_HDR_WR. -/
abbrev OtherWord (a : Nat) : Prop := a ≠ 0x1400410

theorem Dev.Beside.ite {W : Nat → Prop} {d e f : Dev} {p : Prop} [Decidable p] (h : d.Beside W e) (k : d.Beside W f) :
    d.Beside W (if p then e else f) := by
  split
  · exact h
  · exact k

theorem Dev.ChanOnly.other {d e : Dev} (h : d.ChanOnly e) : d.Beside OtherWord e :=
  h.toBeside.mono fun a ha => by simp only [ChanWord, OtherWord] at *; omega

theorem Dev.beside_flogClear (d : Dev) (s : Nat) : d.Beside OtherWord (d.flogClear s) := by
  have hled (x : LedSt) : d.Beside OtherWord { d with led := x } := ⟨rfl, rfl, rfl, rfl, fun _ _ => rfl, settleOnly_runs_refl _⟩
  exact ((hled _).trans (Dev.beside_put _ (flogCount s) 0 (by simp only [flogCount, OtherWord]; omega))).trans
    (Dev.beside_put _ (flogDrop s) 0 (by simp only [flogDrop, OtherWord]; omega))

theorem Dev.beside_cal {W : Nat → Prop} (d : Dev) (x : CalSt) : d.Beside W { d with cal := x } :=
  ⟨rfl, rfl, rfl, rfl, fun _ _ => rfl, settleOnly_runs_refl _⟩

theorem Dev.beside_recompute (d : Dev) (k : Nat) : d.Beside OtherWord (d.recompute k) := by
  unfold Dev.recompute
  split
  · exact .ite ((d.beside_cal _).trans (Dev.beside_put _ calPending _ (by decide))) (.refl _ d)
  · exact .refl _ d

theorem lt_of_mem_sectorChans {k c : Nat} (hk : k < 16) (h : c ∈ sectorChans k) : c < 256 := by
  obtain ⟨i, hi, rfl⟩ := List.mem_map.1 h
  have := List.mem_range.1 hi
  omega

theorem Dev.beside_applyCal (d : Dev) {k : Nat} (hk : k < 16) : d.Beside OtherWord (d.applyCal k).1 := by
  have hpend (x : CalSt) (v : Nat) := (d.beside_cal x).trans (Dev.beside_put _ calPending v (by decide : OtherWord calPending.addr))
  have hdacs (l : List (Nat × Nat)) (hl : ∀ p ∈ l, p ∈ (sectorChans k).flatMap fun c => (List.range 11).map fun i => (c, i)) (d : Dev) :
      d.Beside OtherWord (l.foldl (fun d p => d.reconvert p.1 p.2) d) := by
    refine Dev.Beside.foldl (fun d p hp => ?_) d
    obtain ⟨c, hc, hp⟩ := List.mem_flatMap.1 (hl p hp)
    obtain ⟨i, hi, rfl⟩ := List.mem_map.1 hp
    exact (d.chanOnly_reconvert (lt_of_mem_sectorChans hk hc) (by have := List.mem_range.1 hi; omega)).other
  unfold Dev.applyCal
  dsimp only
  split
  · exact hpend _ _
  · refine (hpend _ _).trans (hdacs _ (fun p hp => ?_) _)
    obtain ⟨⟨p', n⟩, hz, rfl⟩ := List.mem_map.1 hp
    exact (List.of_mem_zip (List.mem_filter.1 hz).1).1

theorem Dev.beside_calOpen (d : Dev) (sites : Nat) : d.Beside OtherWord (d.calOpen sites) := by
  refine Dev.Beside.foldl (fun d k hk => ?_) d
  have hlt : k < 16 := List.mem_range.1 (List.mem_filter.1 hk).1
  exact (Dev.Beside.ite (d.beside_recompute k) (.refl _ d)).trans (.ite (Dev.beside_applyCal _ hlt) (.refl _ _))

theorem Dev.beside_pllStart (d : Dev) {p : Nat} (hp : p ≠ 0) : d.Beside OtherWord (d.pllStart p) := by
  have hset (x : PllSt) : d.Beside OtherWord (d.setPll p x) := ⟨rfl, rfl, rfl, rfl, fun _ _ => rfl, settleOnly_runs_refl _⟩
  unfold Dev.pllStart Dev.pllSearch
  rw [if_neg hp]
  refine .ite (.refl _ d) ?_
  exact (((hset _).trans (Dev.beside_put _ (pllState p) 1 (by simp only [pllState, OtherWord]; omega))).trans
    (Dev.beside_put _ (pllLockBit p) 0 (by simp only [pllLockBit, OtherWord]; omega))).trans
    (Dev.beside_put _ (pllFnow p) _ (by simp only [pllFnow, OtherWord]; omega))

theorem Dev.beside_autoClock (d : Dev) (seqs : Nat) {p : Nat} (hp : p ≠ 0) : d.Beside OtherWord (d.autoClock seqs p) :=
  .ite (d.beside_pllStart hp) (.refl _ d)

theorem Dev.beside_ledSync (d : Dev) : d.Beside OtherWord d.ledSync :=
  (d.beside_put ledRuns _ (by decide)).trans (Dev.beside_put _ ledClosing _ (by decide))

theorem Dev.beside_sendOne {W : Nat → Prop} (d : Dev) (kind : Nat) (payload : List Byte) : d.Beside W (d.sendOne kind payload) :=
  ⟨rfl, rfl, rfl, rfl, fun _ _ => rfl, settleOnly_runs_refl _⟩

theorem Dev.beside_sendOpen {W : Nat → Prop} (d : Dev) (r : OpenRun) : d.Beside W (d.sendOpen r) :=
  .ite (Dev.Beside.foldl (fun d p _ => d.beside_sendOne mOpen p) d) (.refl _ d)

/-- A paired device tells its TWIN of the open (R535). -/
theorem Dev.beside_openToTwin {W : Nat → Prop} (d : Dev) (r : OpenRun) : d.Beside W (if d.paired then d.sendOpen r else d) :=
  .ite (d.beside_sendOpen r) (.refl _ d)

/-! ## The RUN that has opened -/

theorem OpenRun.SettleOnly.symm {r r' : OpenRun} (h : r.SettleOnly r') : r'.SettleOnly r := by
  unfold OpenRun.SettleOnly at *
  rw [h]

theorem exists_settleOnly_of_mem {l m : List OpenRun} (h : List.Forall₂ OpenRun.SettleOnly l m) {r : OpenRun} (hr : r ∈ l) :
    ∃ r' ∈ m, r.SettleOnly r' := by
  induction h with
  | nil => exact absurd hr List.not_mem_nil
  | @cons x y l m hxy _ ih =>
    rcases List.mem_cons.1 hr with rfl | hr
    · exact ⟨y, .head _, hxy⟩
    · obtain ⟨r', hr', hs⟩ := ih hr
      exact ⟨r', .tail _ hr', hs⟩

theorem exists_settleOnly_to_mem {l m : List OpenRun} (h : List.Forall₂ OpenRun.SettleOnly l m) {r' : OpenRun} (hr : r' ∈ m) :
    ∃ r ∈ l, r.SettleOnly r' := by
  have hflip : List.Forall₂ OpenRun.SettleOnly m l := List.Forall₂.flip (h.imp fun _ _ => OpenRun.SettleOnly.symm)
  obtain ⟨r, hr, hs⟩ := exists_settleOnly_of_mem hflip hr
  exact ⟨r, hr, hs.symm⟩

/-- Every open RUN with the fetch number of `r` is `r`, but for the settle times it has noted. -/
def Dev.KnownRun (d : Dev) (r : OpenRun) : Prop := ∀ x ∈ d.runs, x.id = r.id → r.SettleOnly x

theorem Dev.Beside.knownRun {W : Nat → Prop} {d e : Dev} (h : d.Beside W e) {r : OpenRun} (hr : d.KnownRun r) : e.KnownRun r := by
  intro x hx hid
  obtain ⟨y, hy, hs⟩ := exists_settleOnly_to_mem h.runs hx
  exact (hr y hy (hs.id.symm.trans hid)).trans hs

/-- The RUN that has opened notes a settle time. -/
theorem Dev.beside_setRun {W : Nat → Prop} {d : Dev} {r x y : OpenRun} (hr : d.KnownRun r) (hx : d.runById r.id = some x)
    (hy : x.SettleOnly y) : d.Beside W (d.setRun y) := by
  have hid : x.id = r.id := by simpa using List.find?_some hx
  have hry : r.SettleOnly y := (hr x (List.mem_of_find?_eq_some hx) hid).trans hy
  refine ⟨rfl, rfl, rfl, rfl, fun _ _ => rfl, List.forall₂_map_right_iff.2 (List.forall₂_same.2 fun z hz => ?_)⟩
  split
  next h => exact (hr z hz (h.trans hry.id)).symm.trans hry
  next => exact .refl z

theorem Dev.beside_noteSettle {W : Nat → Prop} {d : Dev} {r : OpenRun} (hr : d.KnownRun r) : d.Beside W (d.noteSettle r.id) := by
  unfold Dev.noteSettle
  split
  · exact .refl _ d
  next x hx => exact Dev.beside_setRun hr hx rfl

/-- What the contact check does to one channel of a RUN: it is forced where it is enabled and nothing holds its outputs (R105). -/
def Dev.contactForce (r : OpenRun) (d : Dev) (c : Nat) : Dev :=
  let x := d.chan c
  let d := if d.is (peParked c) || d.quiesced (sectorOf c) then d else d.setChan c { x with waitStep := false }
  if d.eis (ppmuCcEn c) && !d.hizHeld c then
    ((d.wfStop c).setChan c { (d.wfStop c).chan c with ppmuUse := some { contactUse r.td with settle := d.ccSettle c } }).syncForce c
      |>.reconvert c 10
  else d

theorem Dev.beside_contactForce (r : OpenRun) (d : Dev) {c : Nat} (hc : c < 256) : d.Beside OtherWord (d.contactForce r c) := by
  have hforce (d : Dev) (x : Chan) : d.Beside OtherWord ((((d.wfStop c).setChan c x).syncForce c).reconvert c 10) :=
    ((d.chanOnly_wfStop hc).other.trans (Dev.beside_setChan _ c x)).trans
      ((Dev.chanOnly_syncForce _ hc).trans (Dev.chanOnly_reconvert _ hc (by decide))).other
  exact (Dev.Beside.ite (.refl _ d) (d.beside_setChan c _)).trans (.ite (hforce _ _) (.refl _ _))

theorem Dev.beside_contactStart {d : Dev} {r : OpenRun} (hr : d.KnownRun r) : d.Beside OtherWord (d.contactStart r.id) := by
  unfold Dev.contactStart
  split
  · exact .refl _ d
  next x _ =>
    have hforce : d.Beside OtherWord (((maskList 64 x.sites).flatMap d.siteChans).foldl (Dev.contactForce x) d) :=
      Dev.Beside.foldl (fun e c hc => e.beside_contactForce x (Dev.lt_of_mem_runChans (r := x) hc)) d
    refine hforce.trans ?_
    dsimp only
    split
    next y hy => exact Dev.beside_setRun (hforce.knownRun hr) hy rfl
    next => exact .refl _ _

/-! ## The open -/

/-- The open of a RUN up to its header (R242). -/
def Dev.headed (d : Dev) (x : Nat) (w : Work) : Dev :=
  let e := (d.accept w).nextFree
  ((e.st (ledHdrAddr (d.get ledHdrWr)) 64 (e.header x)).put ledHdrWr ((d.get ledHdrWr + 1) % 4096)).ledCount 64

/-- The fail logs of the sites are emptied, and the calibration follows the temperatures (R236, R442). -/
def Dev.prepared (d : Dev) (x : Nat) (w : Work) : Dev :=
  ((d.headed x w).forEach (maskList 64 (runSites x)) fun d s => d.flogClear s).calOpen (runSites x)

/-- A RUN joins the open RUNs, and its clocks, its TWIN and its contact check start. -/
def Dev.joined (d : Dev) (r : OpenRun) : Dev :=
  let e := (({ d with runs := d.runs ++ [r] } : Dev).ledSync.autoClock r.seqs 1).autoClock r.seqs 2
  ((if e.paired then e.sendOpen r else e).noteSettle r.id).contactStart r.id

theorem Dev.beside_headed_prepared (d : Dev) (x : Nat) (w : Work) : (d.headed x w).Beside OtherWord (d.prepared x w) :=
  (Dev.Beside.foldl (fun d s _ => d.beside_flogClear s) _).trans (Dev.beside_calOpen _ _)

theorem Dev.beside_joined {d : Dev} {r : OpenRun} (h : ∀ x ∈ d.runs, x.id ≠ r.id) :
    ({ d with runs := d.runs ++ [r] } : Dev).Beside OtherWord (d.joined r) := by
  have hknown : ({ d with runs := d.runs ++ [r] } : Dev).KnownRun r := by
    intro x hx hid
    rcases List.mem_append.1 hx with hx | hx
    · exact absurd hid (h x hx)
    · exact (List.mem_singleton.1 hx) ▸ .refl _
  have hclocks := ((Dev.beside_ledSync { d with runs := d.runs ++ [r] }).trans (Dev.beside_autoClock _ r.seqs (p := 1) (by decide))).trans
    (Dev.beside_autoClock _ r.seqs (p := 2) (by decide))
  have hsent := hclocks.trans (Dev.beside_openToTwin _ r)
  have hnoted := hsent.trans (Dev.beside_noteSettle (hsent.knownRun hknown))
  exact hnoted.trans (Dev.beside_contactStart (hnoted.knownRun hknown))

/-- The RUN as it opens, with its fields named. -/
structure OpenRun.Fresh (r : OpenRun) (x : Nat) (w : Work) (steps : List StepData) (hdr tb : Nat) : Prop where
  id : r.id = w.id
  td : r.td = runTd x
  sites : r.sites = runSites x
  hdr : r.hdr = hdr
  startTb : r.startTb = tb
  phase : r.phase = .contact
  k : r.k = 0
  steps : r.steps = steps

theorem OpenRun.Fresh.settled {r r' : OpenRun} {x hdr tb : Nat} {w : Work} {steps : List StepData} (h : r.Fresh x w steps hdr tb)
    (hs : r.SettleOnly r') : r'.Fresh x w steps hdr tb := by
  rw [hs]
  exact ⟨h.id, h.td, h.sites, h.hdr, h.startTb, h.phase, h.k, h.steps⟩

/-- The open is the header, the sites made ready and the RUN joining the open ones. -/
theorem Dev.runOpen_eq (d : Dev) (q x : Nat) (w : Work) (steps : List StepData) :
    ∃ r : OpenRun, r.Fresh x w steps (d.get ledHdrWr) (d.prepared x w).tb ∧ d.runOpen q x w steps = (d.prepared x w).joined r :=
  ⟨_, ⟨rfl, rfl, rfl, rfl, rfl, rfl, rfl, rfl⟩, rfl⟩

theorem Dev.accept_work (d : Dev) (w : Work) : (d.accept w).host.work = d.host.work := by
  unfold Dev.accept
  repeat' split
  all_goals rfl

theorem Dev.headed_hdrWr (d : Dev) (x : Nat) (w : Work) : (d.headed x w).get ledHdrWr = (d.get ledHdrWr + 1) % 4096 := by
  refine (Dev.get_put _ ledHdrWr _ (by decide)).trans (Nat.mod_eq_of_lt ?_)
  exact Nat.mod_lt _ (by decide)

theorem Dev.headed_td (d : Dev) (x : Nat) (w : Work) : (d.headed x w).ld (ledHdrAddr (d.get ledHdrWr)) 8 = runTd x := by
  have h := (d.accept w).nextFree.ld_st_part (a := ledHdrAddr (d.get ledHdrWr)) ((d.accept w).nextFree.header x) 0 8 (n := 64) (by decide)
  rw [pow_zero, Nat.div_one] at h
  exact h.trans (Dev.header_parts _ x).1

theorem Dev.headed_sites (d : Dev) (x : Nat) (w : Work) : (d.headed x w).ld (ledHdrAddr (d.get ledHdrWr) + 48) 8 = runSites x := by
  have h := (d.accept w).nextFree.ld_st_part (a := ledHdrAddr (d.get ledHdrWr)) ((d.accept w).nextFree.header x) 48 8 (n := 64) (by decide)
  exact h.trans (Dev.header_parts _ x).2

/-! ## The statement -/

/-- A RUN whose checks pass opens with its header. -/
theorem Dev.runOpen_opens {d : Dev} {q x : Nat} {w : Work} {steps : List StepData} (hnew : ∀ r ∈ d.runs, r.id ≠ w.id) :
    let t := d.runOpen q x w steps
    let h := d.get ledHdrWr
    (∃ r, r ∈ t.runs ∧ r.id = w.id ∧ r.td = runTd x ∧ r.sites = runSites x ∧ r.hdr = h ∧ r.startTb = d.tb ∧
      r.phase = .contact ∧ r.k = 0 ∧ r.steps = steps) ∧
    t.runs.length = d.runs.length + 1 ∧ t.get ledHdrWr = (h + 1) % 4096 ∧ t.ld (ledHdrAddr h) 8 = runTd x ∧
    t.ld (ledHdrAddr h + 48) 8 = runSites x ∧ t.host.work = d.host.work ∧ t.mclk = d.mclk := by
  intro t h
  obtain ⟨r, hfresh, hopen⟩ := d.runOpen_eq q x w steps
  have ht : t = (d.prepared x w).joined r := hopen
  have hprep := d.beside_headed_prepared x w
  have hruns : List.Forall₂ OpenRun.SettleOnly d.runs (d.prepared x w).runs := (d.accept_runs w) ▸ hprep.runs
  have htb : (d.prepared x w).tb = d.tb := hprep.tb.trans (d.accept_tb w)
  have hjoin : ({ d.prepared x w with runs := (d.prepared x w).runs ++ [r] } : Dev).Beside OtherWord t := by
    rw [ht]
    refine Dev.beside_joined fun y hy hid => ?_
    obtain ⟨z, hz, hs⟩ := exists_settleOnly_to_mem hruns hy
    exact hnew z hz (hs.id.symm.trans (hid.trans hfresh.id))
  have hsram : t.sram = (d.headed x w).sram := hjoin.sram.trans hprep.sram
  have hld (a n : Nat) : t.ld a n = (d.headed x w).ld a n := by unfold Dev.ld; rw [hsram]
  have hword : t.word ledHdrWr.addr = (d.headed x w).word ledHdrWr.addr :=
    (hjoin.word _ (by simp [OtherWord, ledHdrWr])).trans (hprep.word _ (by simp [OtherWord, ledHdrWr]))
  refine ⟨?_, ?_, ?_, (hld _ _).trans (d.headed_td x w), (hld _ _).trans (d.headed_sites x w),
    (hjoin.work.trans hprep.work).trans (d.accept_work w), (hjoin.mclk.trans hprep.mclk).trans (d.accept_mclk w)⟩
  · obtain ⟨r', hr', hs⟩ := exists_settleOnly_of_mem hjoin.runs (List.mem_append_right _ (List.mem_singleton_self r))
    have hf := hfresh.settled hs
    exact ⟨r', hr', hf.id, hf.td, hf.sites, hf.hdr, hf.startTb.trans htb, hf.phase, hf.k, hf.steps⟩
  · rw [← hjoin.runs.length_eq, hruns.length_eq, List.length_append, List.length_singleton]
  · exact (congrArg (fun v : Word => bitsOf v.toNat 0 12) hword).trans (d.headed_hdrWr x w)

section
variable {d : Dev} {q x : Nat} {w : Work} {steps : List StepData} {readOk : Bool} (hdesc : d.descOf q opRun = some (x, w))
  (hnew : ∀ r ∈ d.runs, r.id ≠ w.id)
include hdesc hnew

theorem Dev.runDesc_refused {st : Nat} (h : d.runRefusal x steps readOk = some st) :
    d.runDesc q steps readOk = d.doneWith w st 0 (runTd x) := by
  rw [Dev.runDesc, Dev.onDesc_of_descOf _ hdesc, if_neg (by simpa using hnew), h]

theorem Dev.runDesc_opens (h : d.runRefusal x steps readOk = none) : d.runDesc q steps readOk = d.runOpen q x w steps := by
  rw [Dev.runDesc, Dev.onDesc_of_descOf _ hdesc, if_neg (by simpa using hnew), h]

end

/-- Settles O44: the header stands when the fail logs, the calibration, the clocks, the TWIN and the contact check have had their part,
and of a RUN these change the noted settle times alone. -/
theorem runsOpenWithTheirHeaderOrAreRefused : Obligations.RunsOpenWithTheirHeaderOrAreRefused := by
  intro s q steps readOk x w hdesc hnew
  exact ⟨fun st hst => Answers.of_onDev (fun d => d.runDesc q steps readOk) rfl (Dev.runDesc_refused hdesc hnew hst) rfl,
    fun hst => Answers.of_onDev (fun d => d.runDesc q steps readOk) rfl (Dev.runDesc_opens hdesc hnew hst)
      (Dev.runOpen_opens (q := q) hnew)⟩

end Sys2Proof.Machine
end

section
/-!
PROOFS. What the operations on the levels and the outputs of a channel write and leave alone: a register of an edge die, a report,
the fall to high impedance, the conversion of a level and the load of level codes (R24, R56, R57, R61, R72, R73).
-/

namespace Sys2Proof.Machine

/-! ## Frames of registers, one after the other -/

section
variable {d e f : Dev} {l m : List Nat}

theorem Dev.KeepsRegs.trans (h : d.KeepsRegs e l) (k : e.KeepsRegs f l) : d.KeepsRegs f l :=
  fun a ha => (k a ha).trans (h a ha)

theorem Dev.KeepsRegs.mono (h : d.KeepsRegs e l) (hlm : l ⊆ m) : d.KeepsRegs e m := fun a ha => h a fun hl => ha (hlm hl)

theorem Dev.KeepsRegs.get (h : d.KeepsRegs e l) {g : Fld} (hg : g.addr ∉ l) : e.get g = d.get g := by
  rw [Dev.get, h _ hg, Dev.get]

theorem Dev.KeepsRegs.is (h : d.KeepsRegs e l) {g : Fld} (hg : g.addr ∉ l) : e.is g = d.is g := by
  rw [Dev.is, h.get hg, Dev.is]

theorem Dev.KeepsRegs.ite {p : Prop} [Decidable p] (h : d.KeepsRegs e l) (k : d.KeepsRegs f l) :
    d.KeepsRegs (if p then e else f) l := by
  split
  · exact h
  · exact k

end

theorem Dev.keepsRegs_forEach {l ks : List Nat} {g : Dev → Nat → Dev} (h : ∀ d, ∀ k ∈ ks, Dev.KeepsRegs d (g d k) l) (d : Dev) :
    d.KeepsRegs (d.forEach ks g) l := by
  unfold Dev.forEach
  exact List.foldlRecOn ks g (motive := fun t => d.KeepsRegs t l) (d.keepsRegs_refl l) fun d' hd k hk => hd.trans (h d' k hk)

theorem Dev.is_put_one (d : Dev) (f : Fld) (h : f.lo + f.w ≤ 32) (hw : f.w = 1) : (d.put f 1).is f = true := by
  rw [Dev.is, d.get_put f 1 h, hw]; rfl

theorem Dev.is_put_zero (d : Dev) (f : Fld) (h : f.lo + f.w ≤ 32) : (d.put f 0).is f = false := by
  rw [Dev.is, d.get_put f 0 h, Nat.zero_mod]; rfl

/-- The low bits of a word, as the device stores them. -/
theorem ofNat_toNat_mod (v : Word) (n : Nat) : BitVec.ofNat 32 (v.toNat % 2 ^ n) = v &&& BitVec.ofNat 32 (2 ^ n - 1) := by
  rw [← Nat.and_two_pow_sub_one_eq_mod, ofNat_toNat_and]

/-! ## A register of an edge die (R24) -/

/-- A register takes a value; beside it only what the edge dies have been sent changes. -/
theorem Dev.storeReg_eq (d : Dev) (a v : Nat) (desc : Option Nat) :
    ∃ x y, d.storeReg a v desc = { d.setWord a (BitVec.ofNat 32 v) with edgeOld := x, dies := y } := by
  unfold Dev.storeReg
  dsimp only
  split
  · exact ⟨d.edgeOld, d.dies, rfl⟩
  · exact ⟨_, _, rfl⟩

section
variable (d : Dev) (a v : Nat) (desc : Option Nat)

theorem Dev.word_storeReg : (d.storeReg a v desc).word a = BitVec.ofNat 32 v := by
  obtain ⟨x, y, h⟩ := d.storeReg_eq a v desc
  rw [h]; exact d.word_setWord a _

theorem Dev.keepsRegs_storeReg : d.KeepsRegs (d.storeReg a v desc) [a] := by
  obtain ⟨x, y, h⟩ := d.storeReg_eq a v desc
  rw [h]; exact Dev.keepsRegs_of_regs rfl (Dev.keepsRegs_setWord _ (by simp) (d.keepsRegs_refl _))

theorem Dev.chans_storeReg : (d.storeReg a v desc).chans = d.chans := by
  obtain ⟨x, y, h⟩ := d.storeReg_eq a v desc
  rw [h]; rfl

/-- An edge die holds every other register as before. -/
theorem Dev.eget_storeReg_ne {g : Fld} (h : g.addr ≠ a) : (d.storeReg a v desc).eget g = d.eget g := by
  have hget : (d.storeReg a v desc).get g = d.get g := (d.keepsRegs_storeReg a v desc).get (by simp [h])
  have hold : Tab.get (fun _ => none) (d.storeReg a v desc).edgeOld g.addr = Tab.get (fun _ => none) d.edgeOld g.addr := by
    unfold Dev.storeReg
    dsimp only
    split
    · rfl
    · exact Tab.get_set_ne _ _ _ h.symm
  rw [Dev.eget, hold, hget, Dev.eget]

end

/-! ## Reports (R456) -/

/-- A report changes the collector alone. -/
theorem Dev.report_eq (d : Dev) (src chk syn det scope : Nat) (level : Bool) :
    ∃ x, d.report src chk syn det scope level = { d with fcu := x } := by
  unfold Dev.report
  split
  · exact ⟨_, rfl⟩
  · exact ⟨d.fcu, rfl⟩

theorem Dev.keepsRegs_report (d : Dev) (src chk syn det scope : Nat) (level : Bool) (l : List Nat) :
    d.KeepsRegs (d.report src chk syn det scope level) l := by
  obtain ⟨x, h⟩ := d.report_eq src chk syn det scope level
  rw [h]; exact Dev.keepsRegs_of_regs rfl (d.keepsRegs_refl l)

/-! ## The fall to high impedance (R72, R73) -/

/-- The force mode in effect goes off: FORCE_NOW reads 0, and a waveform that plays stops. -/
theorem Dev.syncForce_off {d : Dev} {c : Nat} (h : d.wantForce c = 0) :
    d.syncForce c = if (d.put (ppmuForceNow c) 0).is (ppmuWfRun c) then (d.put (ppmuForceNow c) 0).wfStop c
      else d.put (ppmuForceNow c) 0 := by
  simp [Dev.syncForce, h]

theorem Dev.wfStop_alone (d : Dev) (c : Nat) (regs chans) :
    { d.wfStop c with regs := regs, chans := chans } = { d with regs := regs, chans := chans } := rfl

section
variable {d : Dev} {c : Nat} (h : d.wantForce c = 0)
include h

theorem Dev.syncForce_off_alone : { d.syncForce c with regs := d.regs, chans := d.chans } = d := by
  rw [Dev.syncForce_off h]
  split
  · exact (d.put (ppmuForceNow c) 0).wfStop_alone c d.regs d.chans
  · rfl

theorem Dev.keepsRegs_syncForce_off : d.KeepsRegs (d.syncForce c) [(ppmuForceNow c).addr] := by
  have hput := Dev.keepsRegs_put (l := [(ppmuForceNow c).addr]) (ppmuForceNow c) 0 (by simp) (d.keepsRegs_refl _)
  rw [Dev.syncForce_off h]
  exact .ite (Dev.keepsRegs_of_regs rfl (Dev.keepsRegs_put (ppmuWfRun c) 0 (by simp [ppmuForceNow, ppmuWfRun]) hput)) hput

end

/-- In a channel that shows high impedance no force mode is in effect. -/
theorem Dev.wantForce_of_hiz {d : Dev} {c : Nat} (h : d.is (peHiz c) = true) : d.wantForce c = 0 := by
  simp [Dev.wantForce, h]

theorem Dev.keepStop_alone (d : Dev) (c : Nat) : { d.keepStop c with pwr := d.pwr } = d := by
  unfold Dev.keepStop
  split <;> rfl

/-- While the clocks run no status word is kept. -/
theorem Dev.keepStop_awake {d : Dev} (c : Nat) (h : d.awake = true) : d.keepStop c = d := by
  rw [Dev.keepStop, if_pos h]

/-- The channel as its fall to high impedance begins: the time is noted, and the status bit stands. -/
def Dev.hizShown (d : Dev) (c : Nat) : Dev :=
  ((if d.is (peHiz c) then d else d.setChan c { d.chan c with hizAt := some d.mclk }).keepStop c).put (peHiz c) 1

section
variable (d : Dev) (c : Nat)

theorem Dev.toHiz_eq : d.toHiz c = (d.hizShown c).syncForce c := rfl

theorem Dev.regs_keepStop : (d.keepStop c).regs = d.regs :=
  (congrArg Dev.regs (d.keepStop_alone c) :)

theorem Dev.get_hizShown (g : Fld) : (d.hizShown c).get g = (d.put (peHiz c) 1).get g := by
  have hregs : (d.hizShown c).regs = (d.put (peHiz c) 1).regs := by
    unfold Dev.hizShown Dev.put Dev.word Dev.setWord
    dsimp only
    rw [Dev.regs_keepStop]
    split <;> rfl
  rw [Dev.get, Dev.word, hregs, Dev.get, Dev.word]

theorem Dev.hizShown_alone : { d.hizShown c with regs := d.regs, pwr := d.pwr, chans := d.chans } = d := by
  unfold Dev.hizShown Dev.keepStop
  split <;> split <;> rfl

theorem Dev.is_hizShown : (d.hizShown c).is (peHiz c) = true := by
  rw [Dev.is, Dev.get_hizShown]; exact d.is_put_one _ (by simp [peHiz]) rfl

theorem Dev.wantForce_hizShown : (d.hizShown c).wantForce c = 0 := Dev.wantForce_of_hiz (d.is_hizShown c)

/-- A channel falls to high impedance: its registers, the kept status words and the channel change, nothing else. -/
theorem Dev.toHiz_alone : { d.toHiz c with regs := d.regs, pwr := d.pwr, chans := d.chans } = d := by
  have h := Dev.syncForce_off_alone (d.wantForce_hizShown c)
  rw [Dev.toHiz_eq]
  conv_rhs => rw [← d.hizShown_alone c, ← h]

/-- The fields of words other than that of FORCE_NOW read as the status bit alone leaves them. -/
theorem Dev.get_toHiz {g : Fld} (h : g.addr ≠ (ppmuForceNow c).addr) : (d.toHiz c).get g = (d.put (peHiz c) 1).get g := by
  rw [Dev.toHiz_eq, (Dev.keepsRegs_syncForce_off (d.wantForce_hizShown c)).get (by simpa using h), Dev.get_hizShown]

theorem Dev.keepsRegs_toHiz : d.KeepsRegs (d.toHiz c) [(peHiz c).addr, (ppmuForceNow c).addr] := by
  have hregs : d.KeepsRegs (d.hizShown c) [(peHiz c).addr, (ppmuForceNow c).addr] :=
    Dev.keepsRegs_put _ _ (by simp) (Dev.keepsRegs_of_regs (Dev.regs_keepStop _ c) (.ite (d.keepsRegs_refl _) fun _ _ => rfl))
  exact hregs.trans ((Dev.keepsRegs_syncForce_off (d.wantForce_hizShown c)).mono (by simp))

theorem Dev.is_toHiz : (d.toHiz c).is (peHiz c) = true := by
  rw [Dev.is, d.get_toHiz c (by simp [peHiz, ppmuForceNow]), ← Dev.get_hizShown]; exact d.is_hizShown c

end

/-! ## The conversion of a level (R61) -/

section
variable (d : Dev) (c k : Nat)

/-- A conversion writes the corrected half of the DAC's word, the hold bit and the clip mark. -/
theorem Dev.keepsRegs_reconvert :
    d.KeepsRegs (d.reconvert c k) [(calClipped c).addr, (peIdeal c k).addr, (peHold c).addr] := by
  have hclip : d.KeepsRegs (d.noteClip c k (d.workCode c k)) [(calClipped c).addr, (peIdeal c k).addr, (peHold c).addr] :=
    .ite (Dev.keepsRegs_put _ _ (by simp) (d.keepsRegs_refl _)) (d.keepsRegs_refl _)
  exact Dev.keepsRegs_put _ _ (by simp) (Dev.keepsRegs_put (peCorr c k) _ (by simp [peCorr, peIdeal]) hclip)

/-- The ideal half of a level word is left by every conversion of the channel. -/
theorem Dev.get_reconvert_ideal {j : Nat} (hc : c < 256) : (d.reconvert c k).get (peIdeal c j) = d.get (peIdeal c j) := by
  have hclip : (d.noteClip c k (d.workCode c k)).get (peIdeal c j) = d.get (peIdeal c j) := by
    unfold Dev.noteClip
    dsimp only
    split
    · exact d.get_put_addr _ _ _ (by simp only [calClipped, peIdeal]; omega)
    · rfl
  refine (Dev.get_put_addr _ (peHold c) (peIdeal c j) _ (by simp only [peHold, peIdeal]; omega)).trans ?_
  exact (Dev.get_put_bits _ (peCorr c k) (peIdeal c j) _ (by simp [peCorr]) (.inl (by simp [peCorr, peIdeal]))).trans hclip

end

/-! ## The load of level codes (R56, R57) -/

/-- The registers that a load of level codes of a channel may write: its clip mark, its status, its faults and their count, FORCE_NOW
and its level words. -/
def levelRegs (c : Nat) : List Nat :=
  [(calClipped c).addr, (peHiz c).addr, (peFault c).addr, (peCntRej c).addr, (ppmuForceNow c).addr] ++
    (List.range 11).map fun k => (peIdeal c k).addr

theorem mem_levelRegs {c k : Nat} (hk : k < 11) : (peIdeal c k).addr ∈ levelRegs c :=
  List.mem_append_right _ (List.mem_map_of_mem (List.mem_range.2 hk))

/-- A rejection sets LEVEL, counts, reports, and takes the outputs to high impedance. -/
theorem Dev.keepsRegs_levelReject (d : Dev) (c : Nat) :
    d.KeepsRegs (d.levelReject c) [(peFault c).addr, (peCntRej c).addr, (peHiz c).addr, (ppmuForceNow c).addr] := by
  have hcount := Dev.keepsRegs_bump (peCntRej c) (by simp)
    (Dev.keepsRegs_put (l := [(peFault c).addr, (peCntRej c).addr, (peHiz c).addr, (ppmuForceNow c).addr]) (peFault c)
      (d.get (peFault c) ||| 4) (by simp) (d.keepsRegs_refl _))
  exact (hcount.trans (Dev.keepsRegs_report _ _ _ _ _ _ _ _)).trans ((Dev.keepsRegs_toHiz _ c).mono (by simp))

theorem Dev.get_levelReject (d : Dev) (c : Nat) : (d.levelReject c).get (peFault c) = d.get (peFault c) ||| 4 ∧
    (d.levelReject c).get (peCntRej c) = min (d.get (peCntRej c) + 1) (2 ^ (peCntRej c).w - 1) := by
  have hlast (e : Dev) {src chk syn det scope : Nat} {level : Bool} {g : Fld} (h1 : g.addr ≠ (peHiz c).addr)
      (h2 : g.addr ≠ (ppmuForceNow c).addr) : ((e.report src chk syn det scope level).toHiz c).get g = e.get g :=
    ((Dev.keepsRegs_toHiz _ c).get (by simp [h1, h2])).trans ((e.keepsRegs_report _ _ _ _ _ _ []).get (by simp))
  constructor
  · refine (hlast _ (by simp [peFault, peHiz]) (by simp [peFault, ppmuForceNow])).trans ?_
    refine (Dev.get_put_addr _ (peCntRej c) (peFault c) _ (by simp [peFault, peCntRej])).trans ?_
    rw [Dev.get_put _ _ _ (by simp [peFault]), Nat.mod_eq_of_lt (Nat.or_lt_two_pow (d.get_lt (peFault c)) (by simp [peFault]))]
  · refine (hlast _ (by simp [peCntRej, peHiz]) (by simp [peCntRej, ppmuForceNow])).trans ?_
    rw [Dev.get_bump _ _ (by simp [peCntRej]), Dev.get_put_addr _ _ _ _ (by simp [peFault, peCntRej])]

/-- The DACs to which a list of codes brings a new code: those of its pairs that hold, where the code differs (R56, R57). -/
def Dev.loadDacs (d : Dev) (c : Nat) (codes : List (Nat × Nat)) : List Nat :=
  let v := d.loadCode c codes
  ((codes.map fun p => p.1).dedup.filter fun k =>
    !((!pairDriveOk (v 0) (v 1) && (k == 0 || k == 1)) || (!pairClampOk (v 8) (v 9) && (k == 8 || k == 9)))).filter
    fun k => v k != d.get (peIdeal c k)

/-- One code comes into force on a DAC. -/
def Dev.loadDac (d : Dev) (c k v : Nat) : Dev := (d.put (peIdeal c k) v).reconvert c k

/-- The channel with the codes that load in force, and the time of the load noted. -/
def Dev.loaded (d : Dev) (c : Nat) (codes : List (Nat × Nat)) : Dev :=
  let e := d.forEach (d.loadDacs c codes) fun e k => e.loadDac c k (d.loadCode c codes k)
  if (d.loadDacs c codes).isEmpty then e else e.setChan c { e.chan c with loadAt := e.mclk }

/-- A list of codes breaks the drive pair or the clamp pair. -/
def Dev.pairBroken (d : Dev) (c : Nat) (codes : List (Nat × Nat)) : Bool :=
  let v := d.loadCode c codes
  !pairDriveOk (v 0) (v 1) || !pairClampOk (v 8) (v 9)

/-- A load is the codes that come into force, and a rejection where a pair would break. -/
theorem Dev.loadLevels_eq (d : Dev) (c : Nat) {codes : List (Nat × Nat)} (h : codes.isEmpty = false) :
    d.loadLevels c codes = if d.pairBroken c codes then (d.loaded c codes).levelReject c else d.loaded c codes := by
  unfold Dev.loadLevels
  rw [if_neg (by simp [h])]
  rfl

theorem Dev.keepsRegs_loadDac (d : Dev) (c k v : Nat) :
    d.KeepsRegs (d.loadDac c k v) [(calClipped c).addr, (peIdeal c k).addr, (peHold c).addr] :=
  (Dev.keepsRegs_put _ _ (by simp) (d.keepsRegs_refl _)).trans (Dev.keepsRegs_reconvert _ c k)

theorem Dev.keepsRegs_loaded (d : Dev) (c : Nat) {codes : List (Nat × Nat)} (h : ∀ p ∈ codes, p.1 < 11) :
    d.KeepsRegs (d.loaded c codes) (levelRegs c) := by
  have hlt : ∀ k ∈ d.loadDacs c codes, k < 11 := by
    intro k hk
    obtain ⟨p, hp, rfl⟩ := List.mem_map.1 (List.mem_dedup.1 (List.mem_of_mem_filter (List.mem_of_mem_filter hk)))
    exact h p hp
  have hdacs := Dev.keepsRegs_forEach (l := levelRegs c) (g := fun e k => e.loadDac c k (d.loadCode c codes k))
    (fun e k hk => (e.keepsRegs_loadDac c k _).mono
      (List.cons_subset.2 ⟨by simp [levelRegs], List.cons_subset.2 ⟨mem_levelRegs (hlt k hk), by simp [levelRegs, peHold, peHiz]⟩⟩)) d
  exact .ite hdacs (Dev.keepsRegs_of_regs rfl hdacs)

theorem Dev.keepsRegs_loadLevels (d : Dev) (c : Nat) {codes : List (Nat × Nat)} (h : ∀ p ∈ codes, p.1 < 11) :
    d.KeepsRegs (d.loadLevels c codes) (levelRegs c) := by
  cases hcodes : codes.isEmpty
  · rw [d.loadLevels_eq c hcodes]
    exact .ite ((d.keepsRegs_loaded c h).trans ((Dev.keepsRegs_levelReject _ c).mono (by simp [levelRegs]))) (d.keepsRegs_loaded c h)
  · rw [Dev.loadLevels, if_pos hcodes]
    exact d.keepsRegs_refl _

/-! ## The load of one code -/

/-- A list of one code gives its DAC that code and leaves every other at the code in force. -/
theorem Dev.loadCode_single (d : Dev) (c k v j : Nat) :
    d.loadCode c [(k, v)] j = if k = j then v else d.get (peIdeal c j) := by
  by_cases h : k = j <;> simp [Dev.loadCode, h]

section
variable {d : Dev} {c k v : Nat}

/-- One code that is of no pair loads, while both pairs in force hold. -/
theorem Dev.loadLevels_free (h0 : k ≠ 0) (h1 : k ≠ 1) (h8 : k ≠ 8) (h9 : k ≠ 9)
    (hD : pairDriveOk (d.get (peIdeal c 0)) (d.get (peIdeal c 1)) = true)
    (hC : pairClampOk (d.get (peIdeal c 8)) (d.get (peIdeal c 9)) = true) :
    d.loadLevels c [(k, v)] = if v = d.get (peIdeal c k) then d else
      (d.loadDac c k v).setChan c { (d.loadDac c k v).chan c with loadAt := (d.loadDac c k v).mclk } := by
  have hbroken : d.pairBroken c [(k, v)] = false := by simp [Dev.pairBroken, Dev.loadCode_single, h0, h1, h8, h9, hD, hC]
  have hdacs : d.loadDacs c [(k, v)] = if v = d.get (peIdeal c k) then [] else [k] := by
    by_cases hv : v = d.get (peIdeal c k) <;> simp [Dev.loadDacs, Dev.loadCode_single, h0, h1, h8, h9, hD, hC, hv]
  rw [Dev.loadLevels_eq _ _ rfl, hbroken, Dev.loaded, hdacs]
  by_cases hv : v = d.get (peIdeal c k) <;> simp [hv, Dev.forEach, Dev.loadCode_single]

/-- Then that code is in force on its DAC, and no other register changes but the clip mark, the hold bit and the DAC's word. -/
theorem Dev.loadLevels_free_effect (h0 : k ≠ 0) (h1 : k ≠ 1) (h8 : k ≠ 8) (h9 : k ≠ 9)
    (hD : pairDriveOk (d.get (peIdeal c 0)) (d.get (peIdeal c 1)) = true)
    (hC : pairClampOk (d.get (peIdeal c 8)) (d.get (peIdeal c 9)) = true) (hv : v < 2 ^ 16) (hc : c < 256) :
    (d.loadLevels c [(k, v)]).get (peIdeal c k) = v ∧
    d.KeepsRegs (d.loadLevels c [(k, v)]) [(calClipped c).addr, (peIdeal c k).addr, (peHold c).addr] := by
  rw [Dev.loadLevels_free h0 h1 h8 h9 hD hC]
  split
  next hsame => exact ⟨hsame.symm, d.keepsRegs_refl _⟩
  · refine ⟨?_, Dev.keepsRegs_of_regs rfl (d.keepsRegs_loadDac c k v)⟩
    rw [Dev.get_setChan, Dev.loadDac, Dev.get_reconvert_ideal _ _ _ hc, Dev.get_put _ _ _ (by simp [peIdeal])]
    exact Nat.mod_eq_of_lt hv

/-- A VIH code that breaks the drive pair loads nothing and is rejected, while the clamp pair in force holds. -/
theorem Dev.loadLevels_vih_rejected (hD : pairDriveOk v (d.get (peIdeal c 1)) = false)
    (hC : pairClampOk (d.get (peIdeal c 8)) (d.get (peIdeal c 9)) = true) :
    d.loadLevels c [(0, v)] = d.levelReject c := by
  have hbroken : d.pairBroken c [(0, v)] = true := by simp [Dev.pairBroken, Dev.loadCode_single, hD]
  have hdacs : d.loadDacs c [(0, v)] = [] := by simp [Dev.loadDacs, Dev.loadCode_single, hD, hC]
  rw [Dev.loadLevels_eq _ _ rfl, hbroken, Dev.loaded, hdacs]
  rfl

end

end Sys2Proof.Machine
end

section
/-!
PROOFS. The commands on the levels and the outputs of a channel (R56 to R60, R64, R65, R69, R72 to R74, R77, R81, R157).
-/

namespace Sys2Proof.Machine

/-! ## A level code is written (R65) -/

theorem lvlCodeAt_peLvlCodeAddr {c k : Nat} (hc : c < 256) (hk : k < 11) : lvlCodeAt (peLvlCodeAddr c k) = some (c, k) := by
  unfold lvlCodeAt peLvlCodeAddr
  dsimp only
  rw [if_pos (by omega)]
  congr 2 <;> omega

/-- A code that is written while its channel is idle is stored, and loads where its class says so (R6, R65). -/
theorem Dev.levelCodeWrite_idle {d : Dev} {c k : Nat} (v : Nat) (hc : c < 256) (hk : k < 11) (haw : d.awake = true)
    (hrun : d.running (ownerAt (peLvlCodeAddr c k)) = false) (hload : d.loadsOnWrite c k = true) :
    d.levelCodeWrite c k v = (d.storeReg (peLvlCodeAddr c k) (v % 65536)).loadLevels c [(k, v % 65536)] := by
  have hat := lvlCodeAt_peLvlCodeAddr hc hk
  have hstored : (d.storeReg (peLvlCodeAddr c k) (v % 65536)).loadsOnWrite c k = true := by
    have hupd := d.eget_storeReg_ne (peLvlCodeAddr c k) (v % 65536) none (g := peLvlUpd c) (by simp only [peLvlUpd, peLvlCodeAddr]; omega)
    have hwf := (d.keepsRegs_storeReg (peLvlCodeAddr c k) (v % 65536) none).is (g := ppmuWfRun c)
      (by simp only [ppmuWfRun, peLvlCodeAddr, List.mem_singleton]; omega)
    rw [Dev.loadsOnWrite, hupd, hwf]
    exact hload
  simp [Dev.levelCodeWrite, haw, Dev.liveWrite, hrun, Dev.applyLive, hat, Dev.forEach, Dev.writtenCodes, hstored]

/-! ## Locked registers of a channel (R10) -/

/-- A locked register of a channel that is idle takes the value, and its effect follows. -/
theorem Dev.lockedWrite_idle {d : Dev} {a : Nat} (req : Requester) (v : Nat) (eff : Dev → Nat → Nat → Dev) (haw : d.awake = true)
    (hrun : d.running (ownerAt a) = false) : d.lockedWrite req a v eff = eff (d.storeReg a v) (d.edgeWord a).toNat v := by
  simp [Dev.lockedWrite, hrun, haw]

/-- A change of update classes loads codes of the channel's DACs, or none (R69). -/
theorem Dev.keepsRegs_lvlUpdEffect (d : Dev) (c old new : Nat) : d.KeepsRegs (d.lvlUpdEffect c old new) (levelRegs c) := by
  refine d.keepsRegs_loadLevels c fun p hp => ?_
  obtain ⟨k, hk, hkp⟩ := List.mem_filterMap.1 hp
  have hp1 : p.1 = k := by
    split at hkp
    · cases hkp
    · split at hkp <;> cases hkp <;> rfl
  exact hp1 ▸ List.mem_range.1 hk

/-! ## The end of a deglitcher hold (R58, R60) -/

theorem Dev.dac_setDac (d : Dev) (c k j : Nat) (x : Dac) : (d.setDac c k x).dac c j = if k = j then x else d.dac c j := by
  have hdac : (d.setDac c k x).dac c j = Tab.get Dac.init (Tab.set Dac.init (d.chan c).dacs k x) j :=
    congrArg (fun y : Chan => Tab.get Dac.init y.dacs j) (Dev.chan_setChan_same d c _)
  rw [hdac, Tab.get_set]; rfl

theorem Dev.deglitchRelease_holding {d : Dev} {c k : Nat} (h : (d.dac c k).holding = true) :
    d.deglitchRelease c k = (d.advanceTo (d.dac c k).holdEnd).setDac c k
      { out := d.get (peCorr c k), holding := false, holdEnd := (d.dac c k).holdEnd } := by
  rw [Dev.deglitchRelease, if_pos h]; rfl

/-! ## PE_CTRL (R50, R73, R77) -/

/-- LOAD_COMPL reads 0 unless the load is connected (R50). -/
def Dev.loadSeen (d : Dev) (c : Nat) : Dev := if d.loadOn c then d else d.put (peLoadCompl c) 0

theorem Dev.keepsRegs_loadSeen (d : Dev) (c : Nat) : d.KeepsRegs (d.loadSeen c) [(peHiz c).addr] :=
  .ite (d.keepsRegs_refl _) (Dev.keepsRegs_put _ _ (by simp [peLoadCompl, peHiz]) (d.keepsRegs_refl _))

/-- The other fields of the status word stay. -/
theorem Dev.is_loadSeen (d : Dev) (c : Nat) {g : Fld} (h : g.lo + g.w ≤ 3) : (d.loadSeen c).is g = d.is g := by
  unfold Dev.loadSeen
  split
  · rfl
  · exact d.is_put_ne _ _ _ (.inr ⟨by simp [peLoadCompl], .inl h⟩)

/-- With CH_EN clear the outputs fall to high impedance. -/
theorem Dev.peCtrlEffect_off (d : Dev) (c : Nat) {new : Nat} (h : new.testBit 5 = false) :
    d.peCtrlEffect c new = ((d.loadSeen c).put (peLoadCompl c) 0).toHiz c := by
  simp [Dev.peCtrlEffect, h, Dev.loadSeen]

/-- With CH_EN set a channel that is neither parked nor quiesced waits for no step (R77). -/
theorem Dev.peCtrlEffect_on (d : Dev) (c : Nat) {new : Nat} (h : new.testBit 5 = true) (hp : d.is (peParked c) = false)
    (hq : d.quiesced (sectorOf c) = false) :
    d.peCtrlEffect c new = (d.loadSeen c).setChan c { (d.loadSeen c).chan c with waitStep := false } := by
  have hp' : (d.loadSeen c).is (peParked c) = false := (d.is_loadSeen c (by simp [peParked])).trans hp
  have hq' : (d.loadSeen c).quiesced (sectorOf c) = false := by
    rw [Dev.quiesced, (d.keepsRegs_loadSeen c).get (by simp [pwrQuiesced, peHiz]; omega), ← Dev.quiesced, hq]
  rw [Dev.peCtrlEffect, ← Dev.loadSeen]
  simp [h, hp', hq']

/-! ## PE_FAULT (R81) -/

/-- The bits that a mask names go, the others stay. -/
theorem testBit_sub_and (n m j : Nat) : (n - (n &&& m)).testBit j = (n.testBit j && !m.testBit j) := by
  have hbit (n m : Nat) : (n &&& m) % 2 = n % 2 * (m % 2) := by
    have h := Nat.and_mod_two_pow (a := n) (b := m) (n := 1)
    rw [pow_one] at h
    rw [h]
    rcases Nat.mod_two_eq_zero_or_one n with hn | hn <;> rcases Nat.mod_two_eq_zero_or_one m with hm | hm <;> simp [hn, hm]
  have hle : (n &&& m) ≤ n := Nat.and_le_left
  have h := hbit n m
  induction j generalizing n m with
  | zero =>
    simp only [Nat.testBit_zero]
    rcases Nat.mod_two_eq_zero_or_one m with hm | hm <;> rw [hm] at h ⊢ <;> simp <;> omega
  | succ j ih =>
    have hdiv : (n - (n &&& m)) / 2 = n / 2 - (n / 2 &&& m / 2) := by
      have : n % 2 * (m % 2) ≤ n % 2 := by
        rcases Nat.mod_two_eq_zero_or_one m with hm | hm <;> rw [hm] <;> omega
      rw [← Nat.and_div_two]
      omega
    rw [Nat.testBit_succ, hdiv, ih _ _ Nat.and_le_left (hbit _ _), Nat.testBit_succ, Nat.testBit_succ]

/-- The named faults go; with LEVEL its count goes too; the channel may note a wait. -/
theorem Dev.peFaultClear_effect (d : Dev) (c v : Nat) :
    (d.peFaultClear c v).get (peFault c) = d.get (peFault c) - (d.get (peFault c) &&& v % 16) ∧
    (v.testBit 2 = true → (d.peFaultClear c v).get (peCntRej c) = 0) ∧
    d.KeepsRegs (d.peFaultClear c v) [(peFault c).addr, (peCntRej c).addr] ∧
    { d.peFaultClear c v with regs := d.regs, chans := d.chans } = d := by
  have hne : (peCntRej c).addr ≠ (peFault c).addr := by simp [peCntRej, peFault]
  have hput : (d.put (peFault c) (d.get (peFault c) - (d.get (peFault c) &&& v % 16))).get (peFault c) =
      d.get (peFault c) - (d.get (peFault c) &&& v % 16) := by
    rw [Dev.get_put _ _ _ (by simp [peFault])]
    exact Nat.mod_eq_of_lt ((Nat.sub_le _ _).trans_lt (d.get_lt _))
  unfold Dev.peFaultClear
  dsimp only
  generalize d.get (peFault c) - (d.get (peFault c) &&& v % 16) = new at hput ⊢
  refine ⟨?_, fun hv => ?_, ?_, ?_⟩
  · split <;> split <;> simp [hput, Dev.get_put_addr _ _ _ _ hne]
  · rw [if_pos hv]
    split <;> simp [Dev.get_put _ (peCntRej c) 0 (by simp [peCntRej])]
  · have hfault := Dev.keepsRegs_put (l := [(peFault c).addr, (peCntRej c).addr]) (peFault c) new (by simp) (d.keepsRegs_refl _)
    have hrej := Dev.KeepsRegs.ite (p := v.testBit 2 = true) (Dev.keepsRegs_put (peCntRej c) 0 (by simp) hfault) hfault
    exact .ite (Dev.keepsRegs_of_regs rfl hrej) hrej
  · split <;> split <;> rfl

/-! ## HIZ_EXIT (R74) -/

theorem Dev.noteFv_alone (d : Dev) (c : Nat) : { d.noteFv c with runs := d.runs } = d := by
  unfold Dev.noteFv
  split <;> rfl

theorem Dev.wfOn_put (d : Dev) (c : Nat) {g : Fld} (v : Nat) (h : g.addr ≠ (ppmuWfEn c).addr) : (d.put g v).wfOn c = d.wfOn c := by
  have hget : (d.put g v).eget (ppmuWfEn c) = d.eget (ppmuWfEn c) := by
    unfold Dev.eget
    rw [d.get_put_addr g (ppmuWfEn c) v h]
    rfl
  unfold Dev.wfOn Dev.eis
  rw [hget]
  rfl

/-- FORCE_NOW shows the force mode in effect, and the RUN of the site notes a channel that forces in FV (R95, R459). -/
def Dev.forceShown (d : Dev) (c : Nat) : Dev :=
  if d.wantForce c = 1 then (d.put (ppmuForceNow c) (d.wantForce c)).noteFv c else d.put (ppmuForceNow c) (d.wantForce c)

theorem Dev.forceShown_alone (d : Dev) (c : Nat) :
    { d.forceShown c with runs := d.runs } = d.put (ppmuForceNow c) (d.wantForce c) := by
  unfold Dev.forceShown
  split
  · exact Dev.noteFv_alone _ c
  · rfl

section
variable {d : Dev} {c : Nat} (h : d.wfOn c = false)
include h

/-- With no waveform asked for, one that plays stops and none starts. -/
theorem Dev.syncForce_no_wf :
    d.syncForce c = if (d.forceShown c).is (ppmuWfRun c) then (d.forceShown c).wfStop c else d.forceShown c := by
  have hwf : (d.forceShown c).wfOn c = false :=
    (congrArg (fun e => Dev.wfOn e c) (d.forceShown_alone c)).trans ((d.wfOn_put c _ (by simp [ppmuForceNow, ppmuWfEn])).trans h)
  change (if (d.forceShown c).is (ppmuWfRun c) then
    (if d.wantForce c = 0 ∨ (d.forceShown c).wfOn c = false then (d.forceShown c).wfStop c else d.forceShown c)
    else if (d.forceShown c).wfOn c && decide (d.wantForce c ≠ 0) && decide (d.get (ppmuForceNow c) = 0) then
      (d.forceShown c).wfStart c else d.forceShown c) = _
  simp [hwf]

theorem Dev.keepsRegs_syncForce_no_wf : d.KeepsRegs (d.syncForce c) [(ppmuForceNow c).addr] := by
  have hshown : d.KeepsRegs (d.forceShown c) [(ppmuForceNow c).addr] :=
    Dev.keepsRegs_of_regs (congrArg Dev.regs (d.forceShown_alone c) :) (Dev.keepsRegs_put _ _ (by simp) (d.keepsRegs_refl _))
  rw [Dev.syncForce_no_wf h]
  exact .ite (Dev.keepsRegs_of_regs rfl (Dev.keepsRegs_put (ppmuWfRun c) 0 (by simp [ppmuForceNow, ppmuWfRun]) hshown)) hshown

theorem Dev.wfRefused_syncForce_no_wf : ((d.syncForce c).chan c).wfRefused = (d.chan c).wfRefused := by
  have hshown : (d.forceShown c).chan c = d.chan c := (congrArg (fun e => Dev.chan e c) (d.forceShown_alone c) :)
  rw [Dev.syncForce_no_wf h, ← hshown]
  split
  · unfold Dev.wfStop
    rw [Dev.chan_setChan_same]
    rfl
  · rfl

end

/-- A channel that may leave high impedance, with no waveform asked for and none refused, does so when its codes have stood for 2 µs. -/
theorem Dev.hizExit_leaves {d : Dev} {c : Nat} (hc : c < 256) (haw : d.awake = true) (hmay : d.mayExit c = true)
    (hwf : d.wfOn c = false) (href : (d.chan c).wfRefused = false) :
    ((d.hizExit c).wfSettle c).is (peHiz c) = false ∧ ((d.hizExit c).wfSettle c).mclk = max d.mclk ((d.chan c).loadAt + 3000) := by
  have hexit : d.hizExit c = ((d.advanceTo ((d.chan c).loadAt + us 2)).put (peHiz c) 0).syncForce c := by simp [Dev.hizExit, haw, hmay]
  have hoff : ((d.advanceTo ((d.chan c).loadAt + us 2)).put (peHiz c) 0).wfOn c = false :=
    (Dev.wfOn_put _ c _ (by simp [peHiz, ppmuWfEn])).trans hwf
  have hsettle : (d.hizExit c).wfSettle c = d.hizExit c :=
    if_pos (by rw [hexit, Dev.wfRefused_syncForce_no_wf hoff]; exact (Bool.not_eq_true' _).mpr href)
  rw [hsettle, hexit]
  constructor
  · rw [(Dev.keepsRegs_syncForce_no_wf hoff).is (by simp [peHiz, ppmuForceNow])]
    exact Dev.is_put_zero _ _ (by simp [peHiz])
  · exact ((Dev.chanOnly_syncForce _ hc).mclk).trans (d.mclk_advanceTo _)

/-! ## The statement -/

/-- Settles O22: a code of no pair loads its DAC alone, a VIH code that breaks its pair is rejected, and each other command is one branch
of its function. -/
theorem levelsLoadAndChannelsLeaveHighImpedance : Obligations.LevelsLoadAndChannelsLeaveHighImpedance := by
  refine ⟨⟨?_, ?_, ?_, ?_⟩, ?_, ?_, ?_, ?_, ?_⟩
  · intro s c k v haw hrun hload h0 h1 h8 h9 hD hC
    refine .of_onDevIdle (fun d => d.levelCodeWrite c k v.toNat) rfl (Dev.levelCodeWrite_idle _ c.2 k.2 haw hrun hload) ?_
    have hstore := s.dev.keepsRegs_storeReg (peLvlCodeAddr c k) (v.toNat % 65536) none
    have hideal (j : Nat) : (s.dev.storeReg (peLvlCodeAddr c k) (v.toNat % 65536)).get (peIdeal c j) = s.dev.get (peIdeal c j) :=
      hstore.get (by simp only [peIdeal, peLvlCodeAddr, List.mem_singleton]; omega)
    obtain ⟨hown, hkeep⟩ := Dev.loadLevels_free_effect (d := s.dev.storeReg (peLvlCodeAddr c k) (v.toNat % 65536)) (c := c) (k := k)
      (v := v.toNat % 65536) (by omega) (by omega) (by omega) (by omega) (by rwa [hideal, hideal]) (by rwa [hideal, hideal])
      (Nat.mod_lt _ (by decide)) c.2
    refine ⟨?_, hown, fun j hj hne => ?_, ?_⟩
    · rw [hkeep _ (by simp [peLvlCodeAddr, calClipped, peIdeal, peHold]; omega), Dev.word_storeReg]
      exact ofNat_toNat_mod v 16
    · rw [hkeep.get (by simp [calClipped, peIdeal, peHold]; omega), hideal]
    · rw [hkeep.get (by simp [peFault, calClipped, peIdeal, peHold]; omega)]
      exact hstore.get (by simp [peFault, peLvlCodeAddr]; omega)
  · intro s c v haw hrun hload hD hC
    have hstore := s.dev.keepsRegs_storeReg (peLvlCodeAddr c 0) (v.toNat % 65536) none
    have hkeeps {g : Fld} (hg : g.addr ≠ peLvlCodeAddr c 0) := hstore.get (g := g) (by simp [hg])
    have hideal (j : Nat) : (s.dev.storeReg (peLvlCodeAddr c 0) (v.toNat % 65536)).get (peIdeal c j) = s.dev.get (peIdeal c j) :=
      hkeeps (by simp only [peIdeal, peLvlCodeAddr]; omega)
    refine .of_onDevIdle (fun d => d.levelCodeWrite c 0 v.toNat) rfl ((Dev.levelCodeWrite_idle _ c.2 (by decide) haw hrun hload).trans
      (Dev.loadLevels_vih_rejected (by rwa [hideal]) (by rwa [hideal, hideal]))) ?_
    obtain ⟨hfault, hrej⟩ := Dev.get_levelReject (s.dev.storeReg (peLvlCodeAddr c 0) (v.toNat % 65536)) c
    refine ⟨fun j hj => ?_, ?_, ?_⟩
    · rw [(Dev.keepsRegs_levelReject _ c).get (by simp [peIdeal, peFault, peCntRej, peHiz, ppmuForceNow]; omega), hideal]
    · rw [hfault, hkeeps (by simp [peFault, peLvlCodeAddr])]
    · rw [hrej, hkeeps (by simp [peCntRej, peLvlCodeAddr])]
  · intro s req c v haw hrun
    refine .of_onDev (fun d => d.lvlUpdWrite req c v.toNat) rfl (Dev.lockedWrite_idle _ _ _ haw hrun) ?_
    rw [Dev.keepsRegs_lvlUpdEffect _ _ _ _ _ ?_, Dev.word_storeReg]
    · exact ofNat_toNat_mod v 11
    · rw [levelRegs, List.mem_append, List.mem_map]
      rintro (h | ⟨k, hk, h⟩)
      · simp [calClipped, peHiz, peFault, peCntRej, ppmuForceNow] at h; omega
      · simp only [peIdeal] at h; omega
  · intro s c k hhold
    refine .of_onDev (fun d => d.deglitchRelease c k) rfl (Dev.deglitchRelease_holding hhold) ?_
    refine ⟨?_, ?_, fun j hj => ?_, s.dev.mclk_advanceTo _, ?_⟩
    · rw [Dev.dac_setDac, if_pos rfl]
    · rw [Dev.dac_setDac, if_pos rfl]
    · rw [Dev.dac_setDac, if_neg (Ne.symm hj)]; rfl
    · exact Dev.keepsRegs_put _ _ (by simp) (s.dev.keepsRegs_refl _)
  · intro s req c v haw hrun hoff
    have hbit : (v.toNat % 64).testBit 5 = false := by rw [← hoff]; exact Nat.testBit_mod_two_pow v.toNat 6 5
    refine .of_onDevIdle (fun d => d.peCtrlWrite req c v.toNat) rfl
      ((Dev.lockedWrite_idle _ _ _ haw hrun).trans (Dev.peCtrlEffect_off _ _ hbit)) ⟨?_, Dev.is_toHiz _ _⟩
    have hseen : (s.dev.storeReg (peCtrlAddr c) (v.toNat % 64)).KeepsRegs
        (((s.dev.storeReg (peCtrlAddr c) (v.toNat % 64)).loadSeen c).put (peLoadCompl c) 0) [(peHiz c).addr] :=
      Dev.keepsRegs_put _ _ (by simp [peLoadCompl, peHiz]) (Dev.keepsRegs_loadSeen _ c)
    rw [Dev.keepsRegs_toHiz _ _ _ (by simp [peCtrlAddr, peHiz, ppmuForceNow]), hseen _ (by simp [peCtrlAddr, peHiz]), Dev.word_storeReg]
    exact ofNat_toNat_mod v 6
  · intro s req c v haw hrun hon hp hq
    have hbit : (v.toNat % 64).testBit 5 = true := by rw [← hon]; exact Nat.testBit_mod_two_pow v.toNat 6 5
    have hstore := s.dev.keepsRegs_storeReg (peCtrlAddr c) (v.toNat % 64) none
    refine .of_onDevIdle (fun d => d.peCtrlWrite req c v.toNat) rfl ((Dev.lockedWrite_idle _ _ _ haw hrun).trans
      (Dev.peCtrlEffect_on _ _ hbit ((hstore.is (by simp [peParked, peCtrlAddr])).trans hp) ?_)) ⟨?_, ?_, ?_⟩
    · rw [Dev.quiesced, hstore.get (by simp [pwrQuiesced, peCtrlAddr]; omega)]; exact hq
    · rw [Dev.word_setChan, Dev.keepsRegs_loadSeen _ _ _ (by simp [peCtrlAddr, peHiz]), Dev.word_storeReg]
      exact ofNat_toNat_mod v 6
    · rw [Dev.chan_setChan_same]
    · rw [Dev.is_setChan, Dev.is_loadSeen _ _ (by simp [peHiz]), hstore.is (by simp [peHiz, peCtrlAddr])]
  · intro s c v haw
    obtain ⟨hfault, hrej, hkeep, halone⟩ := s.dev.peFaultClear_effect c v.toNat
    refine .of_onDev (fun d => d.faultClearWrite (0x1000008 + 0x1000 * c) v.toNat fun d => d.peFaultClear c v.toNat) rfl (if_pos haw)
      ⟨fun b hb => ?_, hrej, hkeep, halone⟩
    rw [hfault, testBit_sub_and]
    have := Nat.testBit_mod_two_pow v.toNat 4 b
    simp_all
  · intro s c haw
    exact .of_onDev (fun d => d.orHold (0x1000E0C + 0x1000 * c) 1 fun d => d.put (peTimCnt c) 0) rfl (if_pos haw)
      ⟨s.dev.get_put _ 0 (by simp [peTimCnt]), Dev.keepsRegs_put _ _ (by simp) (s.dev.keepsRegs_refl _), rfl⟩
  · intro s c haw hmay hwf href
    exact .of_onDev (fun d => (d.hizExit c).wfSettle c) rfl rfl (Dev.hizExit_leaves c.2 haw hmay hwf href)

end Sys2Proof.Machine
end

section
/-!
PROOFS. Takeovers: the claim of the bus, the resolution of the mirror slots, TAKEN and the park wires (R537 to R542, R549).
-/

namespace Sys2Proof.Machine

/-! ## Messages -/

/-- A reliable message that arrives with nothing left to acknowledge is taken and acts (R528). -/
theorem Dev.merRecv_took {d : Dev} {ack : Nat} (f : Dev → Dev) (hup : d.merUp = true) (hun : d.twin.unacked = []) :
    d.merRecv ack true f = f d.merTook := by
  simp [Dev.merRecv, hup, Dev.merAck, hun, Dev.merTook]

/-- The twin has said that it is TAKEN. -/
def Dev.takenNoted (d : Dev) : Dev := { d with twin := { d.twin with taken := true } }

/-- A reliable message without payload is one message, sent while the link is UP. -/
theorem Dev.sendRel_nil (d : Dev) (kind : Nat) : d.sendRel kind [] = if d.merUp then d.sendOne kind [] else d := rfl

/-- A message that is sent is the newest of what has been sent. -/
theorem Dev.out_sendOne (d : Dev) (kind : Nat) (bs : List Byte) : ∃ f, (d.sendOne kind bs).out = .twin kind f :: d.out := by
  unfold Dev.sendOne
  exact ⟨_, rfl⟩

theorem Dev.mclk_sendOne (d : Dev) (kind : Nat) (bs : List Byte) : (d.sendOne kind bs).mclk = d.mclk := (rfl)

/-- A message changes no register, no power state, no time and no deadline of the takeover. -/
theorem Dev.sendRel_nil_keeps (d : Dev) (kind : Nat) :
    (d.sendRel kind []).regs = d.regs ∧ (d.sendRel kind []).pwr = d.pwr ∧ (d.sendRel kind []).twin.take = d.twin.take ∧
    (d.sendRel kind []).twin.delayAt = d.twin.delayAt ∧ (d.sendRel kind []).twin.lossAt = d.twin.lossAt ∧
    (d.sendRel kind []).mclk = d.mclk := by
  rw [Dev.sendRel_nil]
  split
  · exact ⟨rfl, rfl, rfl, rfl, rfl, d.mclk_sendOne kind []⟩
  · exact ⟨rfl, rfl, rfl, rfl, rfl, rfl⟩

/-! ## The fields of the twin's status word -/

/-- A field of the twin's status word reads as before when another of them is written and an event is raised. -/
theorem Dev.get_put_event_ne (d : Dev) {f g : Fld} (v src code pay : Nat) (hg : g.addr = 0x50004) (hf : f.lo + f.w ≤ 32)
    (h : g.lo + g.w ≤ f.lo ∨ f.lo + f.w ≤ g.lo) : ((d.put f v).event src code pay).get g = d.get g :=
  (Dev.get_event _ _ _ _ _ (by omega)).trans (d.get_put_bits f g v hf h)

/-- A field of the twin's status word reads what was written before an event. -/
theorem Dev.get_put_event (d : Dev) {f : Fld} {v : Nat} (src code pay : Nat) (hf : f.addr = 0x50004) (h32 : f.lo + f.w ≤ 32)
    (hv : v < 2 ^ f.w) : ((d.put f v).event src code pay).get f = v :=
  (Dev.get_event _ _ _ _ _ (by omega)).trans ((d.get_put f v h32).trans (Nat.mod_eq_of_lt hv))

/-! ## A takeover begins (R538, R539) -/

theorem Dev.takeBegin_mclk (d : Dev) (trig : Nat) : (d.takeBegin trig).mclk = d.mclk :=
  ((Dev.event_mclk _ _ _ _).trans ((Dev.put_mclk _ _ _).trans (Dev.put_mclk _ _ _)) :)

theorem Dev.takeBegin_effect (d : Dev) (trig : Nat) : d.takeBegun (d.takeBegin trig) := by
  have hpark : ((d.put twinParkOut 1).put twinState 2).get twinParkOut = 1 :=
    (Dev.get_put_bits _ _ _ _ (by decide) (by decide)).trans (d.get_put _ _ (by decide))
  refine ⟨?_, ?_, rfl, rfl, rfl, rfl, ?_⟩
  · exact (Dev.get_event _ _ _ _ _ (by decide)).trans hpark
  · exact Dev.get_put_event _ _ _ _ rfl (by decide) (by decide)
  · exact Dev.keepsRegsEv_event _ _ _ (Dev.keepsRegsEv_put _ _ (by simp) (Dev.keepsRegsEv_put _ _ (by decide) (d.keepsRegsEv_refl _)))

theorem Dev.get_of_regs {d e : Dev} (h : e.regs = d.regs) (f : Fld) : e.get f = d.get f := by
  rw [Dev.get, Dev.word, h, Dev.get, Dev.word]

/-- A lawful trigger of a paired package whose PARK_IN is low begins a takeover, whatever else has changed but its registers. -/
theorem Dev.takeTrigger_lawful {d e : Dev} (trig : Nat) (hregs : e.regs = d.regs) (hp : d.paired = true) (hin : e.pwr.parkIn = false) :
    e.takeTrigger trig = e.takeBegin trig ∧ d.takeBegun (e.takeBegin trig) := by
  have hpaired : e.paired = true := by rw [Dev.paired, Dev.get_of_regs hregs]; exact hp
  obtain ⟨hout, hstate, htake, hend, htaken, hclaim, hkeep⟩ := e.takeBegin_effect trig
  refine ⟨by simp [Dev.takeTrigger, hpaired, hin], hout, hstate, htake, hend, htaken, hclaim, fun a ha hb => ?_⟩
  rw [hkeep a ha hb, Dev.word, hregs, Dev.word]

/-- The time without a host has ended. -/
def Dev.lossNoted (d : Dev) (a : Nat) : Dev := ({ d with twin := { d.twin with lossAt := none } } : Dev).advanceTo a

theorem Dev.regs_lossNoted (d : Dev) (a : Nat) : (d.lossNoted a).regs = d.regs := rfl
theorem Dev.mclk_lossNoted (d : Dev) (a : Nat) : (d.lossNoted a).mclk = max d.mclk a := Dev.mclk_advanceTo _ a
theorem Dev.wantsPair_lossNoted (d : Dev) (a : Nat) : (d.lossNoted a).wantsPair = d.wantsPair := by
  simp only [Dev.wantsPair, Dev.is, Dev.get_of_regs (d.regs_lossNoted a)]

/-- The host has been lost: the takeover request goes out while the package wants its pair (R538). -/
theorem Dev.hostLossExpiry_due {d : Dev} {a : Nat} (h : d.twin.lossAt = some a) :
    d.hostLossExpiry = if (d.lossNoted a).wantsPair then (d.lossNoted a).sendRel mTakeReq [] else d.lossNoted a := by
  rw [Dev.hostLossExpiry, h]
  rfl

theorem Dev.hostLossExpiry_effect (d : Dev) (a : Nat) :
    let t := if (d.lossNoted a).wantsPair then (d.lossNoted a).sendRel mTakeReq [] else d.lossNoted a
    t.twin.lossAt = none ∧ t.mclk = max d.mclk a ∧ d.KeepsRegs t [] ∧
    (d.wantsPair = true → d.merUp = true → ∃ f, t.out = .twin mTakeReq f :: d.out) ∧ (d.wantsPair = false → t.out = d.out) := by
  have hwants : (d.lossNoted a).wantsPair = d.wantsPair := d.wantsPair_lossNoted a
  have hup : (d.lossNoted a).merUp = d.merUp := by rw [Dev.merUp, Dev.get_of_regs (d.regs_lossNoted a), Dev.merUp]
  have hkeep (e : Dev) (h : e.regs = (d.lossNoted a).regs) : d.KeepsRegs e [] := by
    intro b _
    rw [Dev.word, h, d.regs_lossNoted a, Dev.word]
  dsimp only
  split
  next hw =>
    obtain ⟨hregs, -, -, -, hloss, hmclk⟩ := (d.lossNoted a).sendRel_nil_keeps mTakeReq
    refine ⟨hloss, hmclk.trans (d.mclk_lossNoted a), hkeep _ hregs, fun _ hlink => ?_, fun hn => ?_⟩
    · rw [Dev.sendRel_nil, if_pos (hup.trans hlink)]
      exact (d.lossNoted a).out_sendOne mTakeReq []
    · rw [hwants, hn] at hw
      cases hw
  next hw => exact ⟨rfl, d.mclk_lossNoted a, hkeep _ rfl, fun hn => absurd (hwants.trans hn) hw, fun _ => rfl⟩

/-- Role B's delay ends (R538). -/
theorem Dev.takeDelayExpiry_due {d : Dev} {a : Nat} (h : d.twin.delayAt = some a) :
    d.takeDelayExpiry = (({ d with twin := { d.twin with delayAt := none } } : Dev).advanceTo a).takeTrigger 1 := by
  rw [Dev.takeDelayExpiry, h]

/-! ## The mirror slots (R534, R539) -/

/-- The state of a mirror slot is one byte. -/
theorem Dev.mirState_byte (d : Dev) (k : Nat) : d.mirState k = (d.byte (mirAddr k + 8)).toNat := rfl

theorem Dev.byte_st_one (d : Dev) (a v : Nat) : (d.st a 1 v).byte a = BitVec.ofNat 8 v := by
  rw [Dev.st, Dev.byte_stBytes, if_pos (Nat.le_refl a), Nat.sub_self]
  rfl

/-- A slot that changes its state shows it, and every other slot keeps its own. -/
theorem Dev.mirState_mirTo (d : Dev) (k j : Nat) {st : Nat} (h : st < 256) :
    (d.mirTo k st).mirState j = if j = k then st else d.mirState j := by
  have htime : (d.mirTo k st).byte (mirAddr j + 8) = (d.st (mirAddr k + 8) 1 st).byte (mirAddr j + 8) :=
    Dev.byte_st_outside _ _ (by simp only [mirAddr]; omega)
  rw [Dev.mirState_byte, htime]
  split
  next hj =>
    subst hj
    rw [Dev.byte_st_one, BitVec.toNat_ofNat, Nat.mod_eq_of_lt h]
  next hj => rw [Dev.byte_st_outside _ _ (by simp only [mirAddr]; omega), Dev.mirState_byte]

/-- What the state of a slot becomes when a takeover resolves it (R539). -/
def mirResolved (n : Nat) : Nat := if n = 1 ∨ n = 2 then 4 else if n = 3 then 5 else n

theorem mirResolved_idem (n : Nat) : mirResolved (mirResolved n) = mirResolved n := by
  unfold mirResolved
  grind

theorem mirResolved_other {n : Nat} (h1 : n ≠ 1) (h2 : n ≠ 2) (h3 : n ≠ 3) : mirResolved n = n := by
  simp [mirResolved, h1, h2, h3]

/-- The close entries of an unfinished touchdown leave every slot's state. -/
theorem Dev.mirState_stEntries (d : Dev) (k j : Nat) (m : Nat) (ent : Nat → Nat) :
    (d.forEach (maskList 64 m) fun e s => e.st (mirAddr k + 128 + 32 * s) 32 (ent s)).mirState j = d.mirState j := by
  refine Dev.forEach_keeps (fun e => e.mirState j) (fun e s hs => ?_) d
  have hs64 : s < 64 := List.mem_range.1 (List.mem_filter.1 hs).1
  exact congrArg BitVec.toNat (Dev.byte_st_outside _ _ (by simp only [mirAddr]; omega))

/-- A slot that resolves shows it, and every other slot keeps its state. -/
theorem Dev.mirState_mirResolve (d : Dev) (k j : Nat) :
    (d.mirResolve k).mirState j = if j = k then mirResolved (d.mirState k) else d.mirState j := by
  unfold Dev.mirResolve
  split
  next h =>
    rw [Dev.mirState_mirTo _ _ _ (by decide), h, Dev.mirState_stEntries]
    rfl
  next h => rw [Dev.mirState_mirTo _ _ _ (by decide), h]; rfl
  next h => rw [Dev.mirState_mirTo _ _ _ (by decide), h]; rfl
  next h1 h2 h3 =>
    rw [mirResolved_other h1 h2 h3]
    split
    next hj => rw [hj]
    · rfl

/-- When the slots of a list have resolved, each shows it, and every other slot keeps its state. -/
theorem Dev.mirState_resolveAll (l : List Nat) (d : Dev) (j : Nat) :
    (d.forEach l fun d k => d.mirResolve k).mirState j = if j ∈ l then mirResolved (d.mirState j) else d.mirState j := by
  unfold Dev.forEach
  induction l generalizing d with
  | nil => rfl
  | cons k l ih =>
    rw [List.foldl_cons, ih, Dev.mirState_mirResolve]
    by_cases hk : j = k
    · subst hk
      simp [mirResolved_idem]
    · simp [hk]

/-- The device with its SRAM left out of account. -/
def Dev.sansSram (d : Dev) : Dev := { d with sram := [] }

theorem Dev.sansSram_mclk (d : Dev) : d.sansSram.mclk = d.mclk := (rfl)
theorem Dev.sansSram_twin (d : Dev) : d.sansSram.twin = d.twin := (rfl)
theorem Dev.sansSram_st (d : Dev) (a n v : Nat) : (d.st a n v).sansSram = d.sansSram := rfl

theorem Dev.sansSram_mirTo (d : Dev) (k st : Nat) : (d.mirTo k st).sansSram = d.sansSram := rfl

/-- The resolution of a slot stays within the SRAM. -/
theorem Dev.sansSram_mirResolve (d : Dev) (k : Nat) : (d.mirResolve k).sansSram = d.sansSram := by
  unfold Dev.mirResolve
  split
  · rw [Dev.sansSram_mirTo]
    exact Dev.forEach_keeps Dev.sansSram (fun e s _ => e.sansSram_st _ _ _) d
  · exact d.sansSram_mirTo k 4
  · exact d.sansSram_mirTo k 5
  · rfl

/-! ## A takeover resolves (R539) -/

/-- With no RUN on its way to the twin, none completes alone. -/
theorem Dev.closeAlone_nil {d : Dev} (held : Bool) (h : d.twin.closing = []) : d.closeAlone held = d := by
  simp [Dev.closeAlone, h]

/-- Every slot resolves. -/
def Dev.slotsResolved (d : Dev) : Dev := d.forEach (List.range 64) fun e k => e.mirResolve k

theorem Dev.sansSram_slotsResolved (d : Dev) : d.slotsResolved.sansSram = d.sansSram :=
  Dev.forEach_keeps Dev.sansSram (fun e k _ => e.sansSram_mirResolve k) d

theorem Dev.mirState_slotsResolved (d : Dev) {k : Nat} (hk : k < 64) : d.slotsResolved.mirState k = mirResolved (d.mirState k) :=
  (Dev.mirState_resolveAll _ d k).trans (if_pos (List.mem_range.2 hk))

/-- The package shows SURVIVOR, with the count of its slots. -/
def Dev.survivor (d : Dev) : Dev :=
  let d := { d with twin := { d.twin with take := .none } }
  (d.put twinState 3).event srcMer 0x0A06 ((d.mirIn 4).length + 2 ^ 8 * (d.mirIn 5).length)

theorem Dev.takeResolve_eq (d : Dev) : d.takeResolve = (d.slotsResolved.survivor.closeAlone false).idleRestart := by
  rw [Dev.takeResolve, ← Dev.slotsResolved, ← Dev.survivor]

theorem Dev.survivor_twin (d : Dev) : d.survivor.twin = { d.twin with take := .none } := Dev.event_twin _ _ _ _
theorem Dev.survivor_sram (d : Dev) : d.survivor.sram = d.sram := Dev.event_sram _ _ _ _
theorem Dev.survivor_mclk (d : Dev) : d.survivor.mclk = d.mclk := Dev.event_mclk _ _ _ _
theorem Dev.survivor_state (d : Dev) : d.survivor.get twinState = 3 := Dev.get_put_event _ _ _ _ rfl (by decide) (by decide)

theorem Dev.mirState_of_sram {d e : Dev} (h : e.sram = d.sram) (k : Nat) : e.mirState k = d.mirState k := by
  rw [Dev.mirState_byte, Dev.byte, h, Dev.mirState_byte, Dev.byte]

/-- Steps 4 and 5 of a takeover with no RUN on its way: every slot resolves, and the package is SURVIVOR. -/
theorem Dev.takeResolve_effect {d e : Dev} (hsram : e.sram = d.sram) (h : e.twin.closing = []) :
    (e.takeResolve.get twinState = 3 ∧ e.takeResolve.twin.take = .none ∧
      ∀ k, k < 64 → e.takeResolve.mirState k = mirResolved (d.mirState k)) ∧ e.takeResolve.mclk = e.mclk := by
  have htwin : e.slotsResolved.twin = e.twin := by rw [← Dev.sansSram_twin, e.sansSram_slotsResolved, Dev.sansSram_twin]
  have hmclk : e.slotsResolved.mclk = e.mclk := by rw [← Dev.sansSram_mclk, e.sansSram_slotsResolved, Dev.sansSram_mclk]
  have hstate (k : Nat) (hk : k < 64) : e.slotsResolved.mirState k = mirResolved (d.mirState k) := by
    rw [e.mirState_slotsResolved hk, Dev.mirState_of_sram hsram]
  rw [Dev.takeResolve_eq]
  generalize e.slotsResolved = r at *
  rw [Dev.closeAlone_nil _ (by rw [Dev.survivor_twin, htwin]; exact h)]
  have hpow := r.survivor.onlyPower_idleRestart
  obtain ⟨_, _, _, _, _, _, hrest⟩ := hpow.1
  refine ⟨⟨?_, ?_, fun k hk => ?_⟩, ?_⟩
  · rw [hpow.get _ (by decide), Dev.survivor_state]
  · rw [hrest]
    exact congrArg TwinSt.take r.survivor_twin
  · rw [← hstate k hk]
    exact Dev.mirState_of_sram (by rw [hrest]; exact r.survivor_sram) k
  · rw [hrest]
    exact r.survivor_mclk.trans hmclk

/-! ## A stuck bus is passed over (R539) -/

/-- The bus is given up, and held; the event is sent. -/
def Dev.busPassed (d : Dev) : Dev := ((d.advanceTo d.twin.takeEnd).dropClaim.put twinTpHeld 1).event srcMer 0x0A09 0

theorem Dev.mclk_dropClaim (d : Dev) : d.dropClaim.mclk = d.mclk := rfl

theorem Dev.mclk_busPassed (d : Dev) : d.busPassed.mclk = max d.mclk d.twin.takeEnd := by
  rw [Dev.busPassed, Dev.event_mclk, Dev.put_mclk, Dev.mclk_dropClaim, Dev.mclk_advanceTo]

theorem Dev.busPassed_effect (d : Dev) :
    d.busPassed.get twinTpHeld = 1 ∧ d.busPassed.merUp = d.merUp ∧ d.busPassed.tp.claim = false ∧ d.busPassed.twin = d.twin ∧
    d.KeepsRegsEv d.busPassed [twinTpHeld.addr] := by
  have hregs : (d.advanceTo d.twin.takeEnd).dropClaim.regs = d.regs := rfl
  refine ⟨Dev.get_put_event _ _ _ _ rfl (by decide) (by decide), ?_, congrArg TpSt.claim (Dev.event_tp _ _ _ _),
    Dev.event_twin _ _ _ _, ?_⟩
  · rw [Dev.merUp, Dev.busPassed, Dev.get_put_event_ne _ _ _ _ _ rfl (by decide) (by decide), Dev.get_of_regs hregs, Dev.merUp]
  · refine Dev.keepsRegsEv_event _ _ _ (Dev.keepsRegsEv_put _ _ (by simp) fun a _ _ => ?_)
    rw [Dev.word, hregs, Dev.word]

/-- While the link is UP and TAKEN has not come, the takeover waits for it. -/
theorem Dev.takeWait_waits {d : Dev} (hup : d.merUp = true) (ht : d.twin.taken = false) :
    d.takeWait = { d with twin := { d.twin with take := .wait, takeEnd := d.mclk + 1500000 } } := by
  rw [Dev.takeWait, if_pos (by simp [hup, ht])]
  rfl

/-! ## The park wires (R75, R540, R541) -/

/-- The package shows TAKEN; it owes its partner word of that. -/
def Dev.takenShown (d : Dev) : Dev :=
  let d := (d.put twinState 4).event srcMer 0x0A08 0
  { d with twin := { d.twin with take := .none, delayAt := none, owesTaken := true } }

/-- The package shows TAKEN, and owes nothing more once the word is sent. -/
def Dev.takenTold (d : Dev) : Dev := { d.takenShown with twin := { d.takenShown.twin with owesTaken := false } }

/-- With no RUN open and none on its way, a package that becomes TAKEN sends word at once. -/
theorem Dev.becomeTaken_alone {d : Dev} (hruns : d.runs = []) (hclosing : d.twin.closing = []) :
    d.becomeTaken = d.takenTold.sendRel mTaken [] := by
  have hr : d.takenShown.runs = [] := (Dev.event_runs _ _ _ _).trans hruns
  have hc : d.takenShown.twin.closing = [] := (congrArg TwinSt.closing (Dev.event_twin _ _ _ _)).trans hclosing
  have heq : { d.takenShown with runs := d.takenShown.runs.map fun r => { r with twinHeld := true } } = d.takenShown := by
    rw [hr, List.map_nil, ← hr]
  have hbecome : d.becomeTaken =
      ((Dev.endRuns { d.takenShown with runs := d.takenShown.runs.map fun r => { r with twinHeld := true } } (2 ^ 64 - 1) true).1.closeAlone
        true).takenDue := rfl
  have hend : (d.takenShown.endRuns (2 ^ 64 - 1) true).1 = d.takenShown := by simp [Dev.endRuns, hr]
  have howes : d.takenShown.twin.owesTaken = true := rfl
  rw [hbecome, heq, hend, Dev.closeAlone_nil _ hc, Dev.takenDue]
  simp [howes, hr, hc, Dev.takenTold]

/-- A package without RUNs becomes TAKEN: beside its state no field of a register changes but by the event, and its partner is sent
word. -/
theorem Dev.becomeTaken_effect {d : Dev} (hruns : d.runs = []) (hclosing : d.twin.closing = []) :
    d.becomeTaken.get twinState = 4 ∧ d.becomeTaken.twin.take = .none ∧ d.becomeTaken.twin.delayAt = none ∧
    (d.merUp = true → ∃ f, Output.twin mTaken f ∈ d.becomeTaken.out) ∧ d.KeepsRegsEv d.becomeTaken [twinState.addr] ∧
    d.becomeTaken.pwr = d.pwr ∧
    ∀ g : Fld, g.addr = 0x50004 → 9 ≤ g.lo → d.becomeTaken.get g = d.get g := by
  obtain ⟨hregs, hpwr, htake, hdelay, -, -⟩ := d.takenTold.sendRel_nil_keeps mTaken
  have hput : d.takenTold.regs = ((d.put twinState 4).event srcMer 0x0A08 0).regs := rfl
  rw [Dev.becomeTaken_alone hruns hclosing]
  refine ⟨?_, htake, hdelay, fun hup => ?_, ?_, ?_, fun g hg h9 => ?_⟩
  · rw [Dev.get_of_regs hregs, Dev.get_of_regs hput]
    exact Dev.get_put_event _ _ _ _ rfl (by decide) (by decide)
  · have hlink : d.takenTold.merUp = true := by
      rw [Dev.merUp, Dev.get_of_regs hput, Dev.get_put_event_ne _ _ _ _ _ rfl (by decide) (by decide)]
      exact hup
    obtain ⟨f, hf⟩ := d.takenTold.out_sendOne mTaken []
    exact ⟨f, by rw [Dev.sendRel_nil, if_pos hlink, hf]; exact .head _⟩
  · intro a ha hb
    rw [Dev.word, hregs, hput]
    exact Dev.keepsRegsEv_event _ _ _ (Dev.keepsRegsEv_put _ _ (by simp) (d.keepsRegsEv_refl _)) a ha hb
  · exact hpwr.trans (Dev.event_pwr (d.put twinState 4) _ _ _)
  · rw [Dev.get_of_regs hregs, Dev.get_of_regs hput]
    exact Dev.get_put_event_ne _ _ _ _ _ hg (by decide) (.inr h9)

/-- A die notes what it is in use for. -/
def Dev.useNote (d : Dev) (e : Nat) : Dev := d.setDie e { d.die e with inUse := (d.die e).inUse || d.dieInUse e }

/-- Each die notes what it is in use for. -/
@[irreducible] def Dev.useNoted (d : Dev) : Dev := d.forEach [0, 1, 2, 3] Dev.useNote

/-- The device with its dies left out of account. -/
def Dev.sansDies (d : Dev) : Dev := { d with dies := [] }

theorem Dev.sansDies_useNoted (d : Dev) : d.useNoted.sansDies = d.sansDies := by
  unfold Dev.useNoted
  exact Dev.forEach_keeps (f := Dev.useNote) Dev.sansDies (fun _ _ _ => rfl) d

/-- The pin PARK_IN and its status bit are high. -/
def Dev.parkInHigh (d : Dev) : Dev := ({ d with pwr := { d.pwr with parkIn := true } }).put twinParkIn 1

/-- PARK_IN as it is first seen. -/
def Dev.parkInShown (d : Dev) : Dev := d.useNoted.parkInHigh

theorem Dev.parkInAssert_eq {d : Dev} (h : d.pwr.parkIn = false) :
    d.parkInAssert = if d.parkInShown.get twinState = 2 then
        if d.parkInShown.is twinRole then (d.parkInShown.put twinParkOut 0).dropClaim.becomeTaken else d.parkInShown
      else if d.parkInShown.get twinState = 4 then d.parkInShown
      else d.parkInShown.becomeTaken := by
  have hnoted : (d.forEach [0, 1, 2, 3] fun d e => d.setDie e { d.die e with inUse := (d.die e).inUse || d.dieInUse e }) = d.useNoted := by
    unfold Dev.useNoted Dev.useNote; rfl
  have hoff : ¬d.pwr.parkIn = true := by simp [h]
  have hhigh : ({ d.useNoted with pwr := { d.useNoted.pwr with parkIn := true } } : Dev).put twinParkIn 1 = d.parkInShown := by
    rw [Dev.parkInShown, Dev.parkInHigh]
  rw [Dev.parkInAssert, if_neg hoff]
  simp only [hnoted, hhigh]

theorem Dev.put_withDies (d : Dev) (f : Fld) (v : Nat) (ds) : ({ d with dies := ds } : Dev).put f v = { d.put f v with dies := ds } := rfl

theorem Dev.parkInHigh_dies (d : Dev) (ds : _) : ({ d with dies := ds } : Dev).parkInHigh = { d.parkInHigh with dies := ds } :=
  Dev.put_withDies { d with pwr := { d.pwr with parkIn := true } } twinParkIn 1 ds

/-- Beside the dies, PARK_IN as it is first seen changes the pin's state and its status bit. -/
theorem Dev.parkInShown_eq (d : Dev) : d.parkInShown = { d.parkInHigh with dies := d.useNoted.dies } := by
  have h := d.sansDies_useNoted
  rw [Dev.parkInShown]
  generalize d.useNoted = e at *
  have he : e = { d with dies := e.dies } := (congrArg (fun t : Dev => { t with dies := e.dies }) h :)
  rw [he, Dev.parkInHigh_dies]

/-- The pin's state beside a write of a field. -/
theorem Dev.put_withParkIn (d : Dev) (f : Fld) (v : Nat) (ds) :
    let t : Dev := { ({ d with pwr := { d.pwr with parkIn := true } } : Dev).put f v with dies := ds }
    t.regs = (d.put f v).regs ∧ t.pwr.parkIn = true ∧ t.runs = d.runs ∧ t.twin = d.twin := ⟨rfl, rfl, rfl, rfl⟩

theorem Dev.parkInShown_effect (d : Dev) : d.parkInShown.regs = (d.put twinParkIn 1).regs ∧ d.parkInShown.pwr.parkIn = true ∧
    d.parkInShown.runs = d.runs ∧ d.parkInShown.twin = d.twin := by
  rw [Dev.parkInShown_eq, Dev.parkInHigh]
  exact d.put_withParkIn twinParkIn 1 _

theorem Dev.get_parkInShown (d : Dev) {f : Fld} (h : f.lo + f.w ≤ 9 ∨ 10 ≤ f.lo) : d.parkInShown.get f = d.get f := by
  rw [Dev.get_of_regs d.parkInShown_effect.1, d.get_put_bits twinParkIn f 1 (by decide) h]

theorem Dev.get_parkInShown_same (d : Dev) : d.parkInShown.get twinParkIn = 1 := by
  rw [Dev.get_of_regs d.parkInShown_effect.1, d.get_put _ _ (by decide)]
  rfl

theorem Dev.put_dropClaim_rest (d : Dev) (f : Fld) (v : Nat) :
    (d.put f v).dropClaim.pwr = d.pwr ∧ (d.put f v).dropClaim.runs = d.runs ∧ (d.put f v).dropClaim.twin = d.twin := ⟨rfl, rfl, rfl⟩

theorem Dev.keepsRegsEv_parkInShown (d : Dev) : d.KeepsRegsEv d.parkInShown [twinState.addr] := by
  intro a ha hb
  rw [Dev.word, d.parkInShown_effect.1]
  exact Dev.keepsRegsEv_put (l := [twinState.addr]) twinParkIn 1 (by decide) (d.keepsRegsEv_refl _) a ha hb

/-- The device that becomes TAKEN by PARK_IN: role B gives up its own takeover, with PARK_OUT and its claim of the bus (R541). -/
def Dev.parkYielded (d : Dev) : Dev :=
  if d.get twinState = 2 then (d.parkInShown.put twinParkOut 0).dropClaim else d.parkInShown

/-- PARK_IN makes a package TAKEN that neither is it already nor, as role A, takes over itself. -/
theorem Dev.parkInAssert_taken {d : Dev} (hin : d.pwr.parkIn = false) (h4 : d.get twinState ≠ 4)
    (h2 : d.get twinState = 2 → d.get twinRole = 1) : d.parkInAssert = d.parkYielded.becomeTaken := by
  have hstate : d.parkInShown.get twinState = d.get twinState := d.get_parkInShown (by decide)
  have hrole : d.parkInShown.get twinRole = d.get twinRole := d.get_parkInShown (by decide)
  rw [Dev.parkInAssert_eq hin, Dev.parkYielded, Dev.is, hstate, hrole, if_neg h4]
  split
  next h => rw [if_pos (by simp [h2 h])]
  next h => rfl

theorem Dev.parkYielded_effect (d : Dev) :
    d.parkYielded.pwr.parkIn = true ∧ d.parkYielded.runs = d.runs ∧ d.parkYielded.twin = d.twin ∧ d.parkYielded.get twinParkIn = 1 ∧
    d.parkYielded.get twinParkOut = (if d.get twinState = 2 then 0 else d.get twinParkOut) ∧ d.parkYielded.merUp = d.merUp ∧
    d.KeepsRegsEv d.parkYielded [twinState.addr] := by
  obtain ⟨-, hpwr, hruns, htwin⟩ := d.parkInShown_effect
  have hlink : d.parkInShown.get twinLink = d.get twinLink := d.get_parkInShown (by decide)
  unfold Dev.parkYielded
  split
  next h =>
    have hregs : (d.parkInShown.put twinParkOut 0).dropClaim.regs = (d.parkInShown.put twinParkOut 0).regs := rfl
    have hput {f : Fld} (hf : f.lo + f.w ≤ 10) : (d.parkInShown.put twinParkOut 0).dropClaim.get f = d.parkInShown.get f := by
      rw [Dev.get_of_regs hregs, Dev.get_put_bits _ _ _ _ (by decide) (.inl hf)]
    obtain ⟨hp, hr, ht⟩ := d.parkInShown.put_dropClaim_rest twinParkOut 0
    refine ⟨hp ▸ hpwr, hr.trans hruns, ht.trans htwin, ?_, ?_, ?_, fun a ha hb => ?_⟩
    · rw [hput (by decide), Dev.get_parkInShown_same]
    · rw [Dev.get_of_regs hregs, Dev.get_put _ _ _ (by decide)]
      rfl
    · rw [Dev.merUp, hput (by decide), hlink, Dev.merUp]
    · rw [Dev.word, hregs]
      exact Dev.keepsRegsEv_put _ _ (by decide) d.keepsRegsEv_parkInShown a ha hb
  next h =>
    refine ⟨hpwr, hruns, htwin, d.get_parkInShown_same, d.get_parkInShown (by decide), ?_, d.keepsRegsEv_parkInShown⟩
    rw [Dev.merUp, hlink, Dev.merUp]

/-- PARK_IN makes a package TAKEN that has no RUN. -/
theorem Dev.parkInAssert_effect {d : Dev} (hin : d.pwr.parkIn = false) (hruns : d.runs = []) (hclosing : d.twin.closing = [])
    (h4 : d.get twinState ≠ 4) (h2 : d.get twinState = 2 → d.get twinRole = 1) :
    d.parkInAssert.pwr.parkIn = true ∧ d.parkInAssert.get twinParkIn = 1 ∧ d.parkInAssert.get twinState = 4 ∧
    d.parkInAssert.twin.take = .none ∧ d.parkInAssert.twin.delayAt = none ∧
    d.parkInAssert.get twinParkOut = (if d.get twinState = 2 then 0 else d.get twinParkOut) ∧
    (d.merUp = true → ∃ f, Output.twin mTaken f ∈ d.parkInAssert.out) ∧ d.KeepsRegsEv d.parkInAssert [twinState.addr] := by
  obtain ⟨hpwr, hyruns, hytwin, hpin, hpout, hlink, hkeep⟩ := d.parkYielded_effect
  obtain ⟨hstate, htake, hdelay, htold, htaken, hsame, hflds⟩ :=
    Dev.becomeTaken_effect (hyruns.trans hruns) (by rw [hytwin]; exact hclosing)
  rw [Dev.parkInAssert_taken hin h4 h2]
  exact ⟨by rw [hsame]; exact hpwr, (hflds _ rfl (by decide)).trans hpin, hstate, htake, hdelay, (hflds _ rfl (by decide)).trans hpout,
    fun hup => htold (hlink.trans hup), fun a ha hb => (htaken a ha hb).trans (hkeep a ha hb)⟩

/-- A role A package that takes over itself only notes PARK_IN (R541). -/
theorem Dev.parkInAssert_roleA {d : Dev} (hin : d.pwr.parkIn = false) (h2 : d.get twinState = 2) (h0 : d.get twinRole = 0) :
    d.parkInAssert = d.parkInShown := by
  have hstate : d.parkInShown.get twinState = 2 := (d.get_parkInShown (by decide)).trans h2
  have hrole : d.parkInShown.get twinRole = 0 := (d.get_parkInShown (by decide)).trans h0
  simp [Dev.parkInAssert_eq hin, hstate, Dev.is, hrole]

/-- PARK_IN and its status bit are low again. -/
def Dev.parkInLow (d : Dev) : Dev := ({ d with pwr := { d.pwr with parkIn := false } } : Dev).put twinParkIn 0

theorem Dev.get_parkInLow (d : Dev) {f : Fld} (h : f.lo + f.w ≤ 9 ∨ 10 ≤ f.lo) : d.parkInLow.get f = d.get f :=
  (Dev.get_put_bits { d with pwr := { d.pwr with parkIn := false } } twinParkIn f 0 (by decide) h :)

/-- A package that leaves TAKEN is paired again if it wants its pair, and owes its partner no more word (R540). -/
def Dev.takenLeft (d : Dev) : Dev :=
  ({ d with twin := { d.twin with owesTaken := false } } : Dev).put twinState (if d.wantsPair then 1 else 0)

theorem Dev.parkInLow_effect (d : Dev) :
    d.parkInLow.get twinParkIn = 0 ∧ d.KeepsRegs d.parkInLow [twinState.addr] ∧ d.parkInLow.pwr.parkIn = false ∧
    { d.parkInLow with regs := d.regs, pwr := d.pwr, twin := d.twin } = d :=
  ⟨(Dev.get_put { d with pwr := { d.pwr with parkIn := false } } twinParkIn 0 (by decide) :),
    Dev.keepsRegs_put _ _ (by decide) (Dev.keepsRegs_of_regs rfl (d.keepsRegs_refl _)), rfl, rfl⟩

theorem Dev.takenLeft_effect (d : Dev) :
    d.takenLeft.get twinState = (if d.wantsPair = true then 1 else 0) ∧ (∀ f : Fld, 9 ≤ f.lo → d.takenLeft.get f = d.get f) ∧
    d.KeepsRegs d.takenLeft [twinState.addr] ∧ d.takenLeft.pwr = d.pwr ∧
    { d.takenLeft with regs := d.regs, pwr := d.pwr, twin := d.twin } = d := by
  refine ⟨?_, fun f hf => ?_, ?_, rfl, rfl⟩
  · rw [Dev.takenLeft, Dev.get_put _ _ _ (by decide)]
    split <;> rfl
  · exact (Dev.get_put_bits { d with twin := { d.twin with owesTaken := false } } twinState f _ (by decide) (.inr hf) :)
  · exact Dev.keepsRegs_put _ _ (by decide) (Dev.keepsRegs_of_regs rfl (d.keepsRegs_refl _))

theorem Dev.parkInRelease_eq (d : Dev) :
    d.parkInRelease = if d.get twinState = 4 ∧ d.merUp = true then d.parkInLow.takenLeft else d.parkInLow := by
  have hup : d.parkInLow.merUp = d.merUp := by rw [Dev.merUp, d.get_parkInLow (by decide), Dev.merUp]
  have hlow : d.parkInLow.pwr.parkIn = false := rfl
  have hrel : d.parkInRelease = d.parkInLow.leaveTaken := by rw [Dev.parkInRelease, Dev.parkInLow]
  rw [hrel, Dev.leaveTaken, d.get_parkInLow (by decide), hup, hlow]
  simp only [true_and, Dev.takenLeft]

/-- The release of PARK_IN lets a TAKEN package go while the link is UP. -/
theorem Dev.parkInRelease_effect (d : Dev) :
    d.parkInRelease.pwr.parkIn = false ∧ d.parkInRelease.get twinParkIn = 0 ∧
    d.parkInRelease.get twinState =
      (if d.get twinState = 4 ∧ d.merUp = true then (if d.wantsPair = true then 1 else 0) else d.get twinState) ∧
    d.KeepsRegs d.parkInRelease [twinState.addr] ∧ { d.parkInRelease with regs := d.regs, pwr := d.pwr, twin := d.twin } = d := by
  have hwants : d.parkInLow.wantsPair = d.wantsPair := by
    simp only [Dev.wantsPair, Dev.is]
    rw [d.get_parkInLow (by decide), d.get_parkInLow (by decide), d.get_parkInLow (by decide)]
  obtain ⟨hpin, hkeep, hpwr, hrest⟩ := d.parkInLow_effect
  rw [Dev.parkInRelease_eq]
  split
  next h =>
    obtain ⟨hstate, hflds, hkeeps, hlpwr, hlrest⟩ := d.parkInLow.takenLeft_effect
    refine ⟨by rw [hlpwr, hpwr], (hflds _ (by decide)).trans hpin, by rw [hstate, hwants], hkeep.trans hkeeps, ?_⟩
    exact (congrArg (fun t : Dev => { t with regs := d.regs, pwr := d.pwr, twin := d.twin }) hlrest :).trans hrest
  next h => exact ⟨hpwr, hpin, d.get_parkInLow (by decide), hkeep, hrest⟩

/-! ## RELEASE (R542) -/

/-- Registers alone change when fields are written. -/
theorem Dev.puts_alone (d : Dev) (f g h : Fld) (u v w : Nat) : { ((d.put f u).put g v).put h w with regs := d.regs } = d := rfl

/-- PARK_OUT is released, the package is SOLO, and it owns the Transit bus no more. -/
theorem Dev.released_effect (d : Dev) :
    let t := ((d.put twinParkOut 0).put twinState 0).put tpOwner 0
    t.get twinParkOut = 0 ∧ t.get twinState = 0 ∧ t.get tpOwner = 0 ∧ d.KeepsRegs t [twinState.addr, tpOwner.addr] ∧
    { t with regs := d.regs } = d := by
  refine ⟨?_, ?_, Dev.get_put _ _ _ (by decide), ?_, d.puts_alone _ _ _ _ _ _⟩
  · rw [Dev.get_put_addr _ _ _ _ (by decide), Dev.get_put_bits _ _ _ _ (by decide) (by decide), Dev.get_put _ _ _ (by decide)]
    rfl
  · rw [Dev.get_put_addr _ _ _ _ (by decide), Dev.get_put _ _ _ (by decide)]
    rfl
  · exact Dev.keepsRegs_put _ _ (by decide)
      (Dev.keepsRegs_put _ _ (by decide) (Dev.keepsRegs_put _ _ (by decide) (d.keepsRegs_refl _)))

/-! ## Takeovers -/

/-- Settles O58: a takeover's parts one after the other; a package that becomes TAKEN without RUNs sends word at once. -/
theorem takeoversRunInOrder : Obligations.TakeoversRunInOrder := by
  unfold Obligations.TakeoversRunInOrder
  refine ⟨fun s hp hin => ⟨?_, ?_, ?_⟩, ?_, ?_, ?_, ?_, ?_, ?_, ?_, ?_, ?_⟩
  · obtain ⟨heq, hbegun⟩ := Dev.takeTrigger_lawful 2 rfl hp hin
    exact .of_onDevIdle (fun d => d.takeTrigger 2) rfl heq ⟨hbegun, s.dev.takeBegin_mclk 2⟩
  · intro ack hup hun hauto
    obtain ⟨heq, hbegun⟩ := Dev.takeTrigger_lawful (e := s.dev.merTook) 0 rfl hp hin
    have htook : s.dev.merTook.is twinAuto = true := by rw [Dev.is, Dev.get_of_regs (rfl : s.dev.merTook.regs = s.dev.regs)]; exact hauto
    exact .of_onDevIdle (fun d => d.merRecv ack.toNat true fun d => if d.is twinAuto then d.takeTrigger 0 else d) rfl
      ((Dev.merRecv_took _ hup hun).trans ((if_pos htook).trans heq)) ⟨hbegun, Dev.takeBegin_mclk _ 0⟩
  · intro a ha
    obtain ⟨heq, hbegun⟩ := Dev.takeTrigger_lawful (d := s.dev)
      (e := ({ s.dev with twin := { s.dev.twin with delayAt := none } } : Dev).advanceTo a) 1 rfl hp hin
    exact .of_onDevIdle (fun d => d.takeDelayExpiry) rfl ((Dev.takeDelayExpiry_due ha).trans heq)
      ⟨hbegun, (Dev.takeBegin_mclk _ 1).trans (Dev.mclk_advanceTo _ a), rfl⟩
  · intro s hp
    exact .of_onDevIdle (fun d => d.takeTrigger 2) rfl (if_neg (by simp [hp])) rfl
  · intro s a ha
    exact .of_onDev (fun d => d.hostLossExpiry) rfl (Dev.hostLossExpiry_due ha) (Dev.hostLossExpiry_effect s.dev a)
  · intro s hb ht hup
    obtain ⟨hheld, hlink, hclaim, htwin, hkeep⟩ := s.dev.busPassed_effect
    refine .of_onDevIdle (fun d => d.tpStuck) rfl
      ((if_pos hb).trans (Dev.takeWait_waits (d := s.dev.busPassed) (hlink.trans hup) (by rw [htwin]; exact ht)))
      ⟨s.dev.mclk_busPassed, hheld, hclaim, rfl, rfl, hkeep⟩
  · intro s ack hb hup hun
    have hrecv : s.dev.merTook.takenRecv = s.dev.merTook.takenNoted := by
      simp [Dev.takenRecv, Dev.takenNoted, Dev.merTook, hb]
    exact .of_onDevIdle (fun d => d.merRecv ack.toNat true fun d => d.takenRecv) rfl ((Dev.merRecv_took _ hup hun).trans hrecv)
      ⟨rfl, rfl⟩
  · intro s hw hc
    have hnow := Dev.takeResolve_effect (d := s.dev) (e := s.dev.advanceTo s.dev.twin.takeEnd) rfl hc
    refine ⟨.of_onDevIdle (fun d => d.takeWaitExpiry) rfl (if_pos hw) ⟨hnow.1, hnow.2.trans (Dev.mclk_advanceTo _ _)⟩,
      fun ack hup hun => ?_⟩
    have hrecv : s.dev.merTook.takenRecv = s.dev.merTook.takenNoted.takeResolve := by
      simp [Dev.takenRecv, Dev.takenNoted, Dev.merTook, hw]
    have hdone := Dev.takeResolve_effect (d := s.dev) (e := s.dev.merTook.takenNoted) rfl hc
    exact .of_onDevIdle (fun d => d.merRecv ack.toNat true fun d => d.takenRecv) rfl ((Dev.merRecv_took _ hup hun).trans hrecv) hdone.1
  · intro s hin hruns hclosing h4 h2
    exact .of_onDevIdle (fun d => d.parkInAssert) rfl rfl (Dev.parkInAssert_effect hin hruns hclosing h4 h2)
  · intro s hin h2 h0
    obtain ⟨-, hpwr, -, htwin⟩ := s.dev.parkInShown_effect
    exact .of_onDevIdle (fun d => d.parkInAssert) rfl (Dev.parkInAssert_roleA hin h2 h0)
      ⟨hpwr, s.dev.get_parkInShown_same, (s.dev.get_parkInShown (by decide)).trans h2, htwin⟩
  · intro s
    exact .of_onDev (fun d => d.parkInRelease) rfl rfl s.dev.parkInRelease_effect
  · intro s
    refine ⟨fun h3 => ?_, fun h3 => .of_onDev (fun d => d.twinRelease) rfl (if_neg h3) rfl⟩
    exact .of_onDev (fun d => d.twinRelease) rfl (if_pos h3) s.dev.released_effect

end Sys2Proof.Machine
end

section
/-!
PROOFS. Sectors and edge dies in service: what a quiesce, a resume, the park and the release of an edge die write and leave alone
(R75, R76, R77, R584, R587).
-/

namespace Sys2Proof.Machine

/-! ## Which sectors and dies are out of service -/

/-- What the core die keeps out of service: the quiesced sectors and the dies it has ordered to park (R584, R587). -/
def Dev.service (d : Dev) : Nat × (Nat → Bool) := (d.get pwrQuiesced, fun e => (d.die e).parkOrd)

theorem Dev.service_ext {d e : Dev} (hq : e.get pwrQuiesced = d.get pwrQuiesced) (hdies : e.dies = d.dies) : e.service = d.service := by
  unfold Dev.service Dev.die
  rw [hq, hdies]

theorem Dev.service_put (d : Dev) {f : Fld} (v : Nat) (h : f.addr ≠ 0x70004 ∨ f.lo + f.w ≤ 16) :
    (d.put f v).service = d.service := by
  refine Dev.service_ext (d.get_put_ne f pwrQuiesced v ?_) (d.put_dies f v)
  rcases h with h | h
  · exact .inl h
  · exact .inr ⟨by omega, .inr h⟩

theorem Dev.service_onlyHost {d e : Dev} (h : d.OnlyHost e) : e.service = d.service := by
  obtain ⟨⟨_, _, _, he⟩, hw⟩ := h
  exact Dev.service_ext (by rw [Dev.get, hw _ (by decide), Dev.get]) (by rw [he])

theorem Dev.service_setDie (d : Dev) (e : Nat) {x : Die} (h : x.parkOrd = (d.die e).parkOrd) : (d.setDie e x).service = d.service := by
  refine Prod.ext rfl (funext fun i => ?_)
  change ((d.setDie e x).die i).parkOrd = (d.die i).parkOrd
  rw [Dev.die_setDie_ite]
  split
  next hi => rw [h, hi]
  · rfl

theorem Dev.service_bump (d : Dev) {f : Fld} (h : f.addr ≠ 0x70004) : (d.bump f).service = d.service := d.service_put _ (.inl h)

theorem Dev.service_stateTo (d : Dev) (st cause : Nat) : (d.stateTo st cause).service = d.service :=
  (Dev.service_onlyHost (Dev.onlyHost_event _ _ _ _)).trans (d.service_put _ (.inr (by decide)))

theorem Dev.service_pllStop (d : Dev) {p : Nat} (h : p < 3) : (d.pllStop p).service = d.service := by
  unfold Dev.pllStop
  rw [Dev.service_put, Dev.service_put, Dev.service_put, Dev.service_put]
  · rfl
  all_goals
    left
    simp only [pllState, pllLockBit, pllRamp, pllFnow]
    omega

/-- No entry to a lower power state takes a sector into or out of service, or orders a die to park. -/
theorem Dev.service_enterP2 (d : Dev) (cause : Nat) : (d.enterP2 cause).service = d.service := by
  unfold Dev.enterP2
  dsimp only
  rw [Dev.service_pllStop _ (by decide), Dev.service_pllStop _ (by decide)]
  split
  · exact ((Dev.service_bump _ (by decide)).trans (Dev.service_put _ _ (by decide))).trans (d.service_stateTo 2 cause)
  · exact d.service_stateTo 2 cause

theorem Dev.service_enterP3 (d : Dev) (cause : Nat) : (d.enterP3 cause).service = d.service := by
  unfold Dev.enterP3
  dsimp only
  rw [Dev.service_put _ _ (.inr (by decide))]
  refine (Dev.forEach_keeps Dev.service (fun d i _ => ?_) _).trans
    ((Dev.service_bump (f := pwrP3s) _ (by decide)).trans (d.service_stateTo 3 cause))
  exact d.service_setDie i rfl

theorem Dev.service_powerIdle (d : Dev) : d.powerIdle.service = d.service := by
  have hto {p : Prop} [Decidable p] {d e : Dev} (h : e.service = d.service) : (if p then e else d).service = d.service := by
    split
    · exact h
    · rfl
  unfold Dev.powerIdle
  dsimp only
  split
  · rfl
  · rw [hto (Dev.service_enterP3 _ 1), hto (Dev.service_enterP2 _ 1), hto (d.service_stateTo 1 0)]

/-- The completion of a command, and what follows the end of the last work, takes nothing into or out of service. -/
theorem Dev.service_done (d : Dev) (w : Work) (status : Nat) : (d.done w status).service = d.service :=
  (Dev.service_powerIdle _).trans (Dev.service_onlyHost (d.onlyHost_complete w status 0 0))

/-! ## Sectors (R584, R587) -/

/-- A sector that leaves service takes its channels to high impedance. -/
theorem Dev.service_sectorHiz (d : Dev) {k : Nat} :
    (d.forEach (sectorChans k) fun d c => (d.setChan c { d.chan c with waitStep := true }).toHiz c).service = d.service := by
  refine Dev.forEach_keeps Dev.service (fun d c _ => Dev.service_ext ?_ ?_) d
  · exact (Dev.keepsRegs_toHiz _ c).get (by simp [pwrQuiesced, peHiz, ppmuForceNow]; omega)
  · exact (congrArg Dev.dies (Dev.toHiz_alone (d.setChan c { d.chan c with waitStep := true }) c) :)

/-- The named sectors are quiesced; no die is ordered to park. -/
theorem Dev.service_quiesceSectors (d : Dev) {mask dies : Nat} (hm : mask < 2 ^ 16) :
    (d.quiesceSectors mask dies).service = (d.get pwrQuiesced ||| mask, d.service.2) := by
  have hput : (d.put pwrQuiesced (d.get pwrQuiesced ||| mask)).service = (d.get pwrQuiesced ||| mask, d.service.2) := by
    have hlt : d.get pwrQuiesced ||| mask < 2 ^ 16 := Nat.or_lt_two_pow (d.get_lt pwrQuiesced) hm
    refine Prod.ext ?_ rfl
    exact (d.get_put _ _ (by decide)).trans (Nat.mod_eq_of_lt hlt)
  rw [← hput]
  unfold Dev.quiesceSectors
  dsimp only
  split
  · exact Dev.forEach_keeps Dev.service (fun d k _ => d.service_sectorHiz) _
  · exact (Dev.service_onlyHost (Dev.onlyHost_event _ _ _ _)).trans (Dev.forEach_keeps Dev.service (fun d k _ => d.service_sectorHiz) _)

/-- A quiesce that asks for no park, by whether one of its sectors is busy. -/
theorem Dev.sectorQuiesce_unparked {d : Dev} {q x : Nat} {w : Work} (h : d.descOf q opSectorQuiesce = some (x, w))
    (hpark : dField x 10 0 1 = 0) :
    d.sectorQuiesce q =
      if (maskList 16 (dField x 8 0 16)).any d.sectorBusy then d.done w stLocked
      else
        let e := d.quiesceSectors (dField x 8 0 16) 0
        (if dField x 8 0 16 &&& d.get pwrQuiesced == dField x 8 0 16 then e.event srcPwr 0x0C02 0 else e).done w stOk := by
  rw [Dev.sectorQuiesce, Dev.onDesc_of_descOf _ h]
  simp [hpark, listMask]

/-- The core die's park order of a die ends. -/
def Dev.orderEnded (d : Dev) (e : Nat) : Dev := d.setDie e { d.die e with parkOrd := false }

/-- When the orders of the listed dies have ended, no other die's has. -/
theorem Dev.parkOrd_orderEnded (l : List Nat) (d : Dev) (i : Nat) :
    ((d.forEach l Dev.orderEnded).die i).parkOrd = if i ∈ l then false else (d.die i).parkOrd := by
  unfold Dev.forEach
  induction l generalizing d with
  | nil => rfl
  | cons e l ih =>
    rw [List.foldl_cons, ih, Dev.orderEnded, Dev.die_setDie_ite]
    by_cases hi : i = e
    · subst hi
      simp
    · simp [hi]

/-- The dies that a resume releases: asked for, with all four sectors named, and held by nothing else (R587). -/
def Dev.resumed (d : Dev) (x : Nat) : List Nat :=
  (if dField x 10 0 1 = 1 then wholeDies (dField x 8 0 16) else []).filter fun e =>
    !(d.pwr.parkIn || (d.die e).parkRail || (d.die e).parkP3)

theorem Dev.mem_resumed (d : Dev) (x : Nat) {e : Nat} (he : e < 4) :
    e ∈ d.resumed x ↔ dField x 10 0 1 = 1 ∧ bitsOf (dField x 8 0 16) (4 * e) 4 = 15 ∧ d.pwr.parkIn = false ∧
      (d.die e).parkRail = false ∧ (d.die e).parkP3 = false := by
  have hmem : e ∈ [0, 1, 2, 3] := by simp; omega
  unfold Dev.resumed
  rw [List.mem_filter]
  split
  next h => simp only [wholeDies, List.mem_filter, hmem, h]; simp [and_assoc]
  next h => simp [h]

/-- The named sectors are in service again, and the park orders of the dies that the resume releases have ended. -/
def Dev.backInService (d : Dev) (x : Nat) : Dev :=
  (d.put pwrQuiesced (d.get pwrQuiesced - (dField x 8 0 16 &&& d.get pwrQuiesced))).forEach (d.resumed x) Dev.orderEnded

theorem Dev.backInService_effect (d : Dev) (x : Nat) :
    (d.backInService x).get pwrQuiesced = d.get pwrQuiesced - (dField x 8 0 16 &&& d.get pwrQuiesced) ∧
    ∀ e, ((d.backInService x).die e).parkOrd = if e ∈ d.resumed x then false else (d.die e).parkOrd := by
  refine ⟨?_, fun e => Dev.parkOrd_orderEnded _ _ e⟩
  refine (Dev.forEach_keeps (f := Dev.orderEnded) (fun t => t.get pwrQuiesced) (fun _ _ _ => rfl) _).trans ?_
  rw [Dev.get_put _ _ _ (by decide)]
  exact Nat.mod_eq_of_lt ((Nat.sub_le _ _).trans_lt (d.get_lt pwrQuiesced))

/-- A resume takes the named sectors back into service, and ends the park orders of the dies it releases. -/
theorem Dev.sectorResume_effect {d : Dev} {q x : Nat} {w : Work} (h : d.descOf q opSectorResume = some (x, w)) :
    (d.sectorResume q).get pwrQuiesced = d.get pwrQuiesced - (dField x 8 0 16 &&& d.get pwrQuiesced) ∧
    ∀ e, ((d.sectorResume q).die e).parkOrd = if e ∈ d.resumed x then false else (d.die e).parkOrd := by
  obtain ⟨hq, hord⟩ := d.backInService_effect x
  have hservice : (d.sectorResume q).service = (d.backInService x).service := by
    rw [Dev.sectorResume, Dev.onDesc_of_descOf _ h]
    exact (Dev.service_done _ _ _).trans (Dev.service_onlyHost (Dev.onlyHost_event _ _ _ _))
  exact ⟨(congrArg Prod.fst hservice :).trans hq, fun e => (congrFun (congrArg Prod.snd hservice) e :).trans (hord e)⟩

/-! ## Edge dies (R75, R76, R77) -/

/-- What each round of a loop establishes for its own channel, and no round takes from another, holds at the end of them all. -/
theorem Dev.forEach_establishes {P : Nat → Dev → Prop} {f : Dev → Nat → Dev} (hset : ∀ d c, P c (f d c))
    (hkeep : ∀ d b c, b ≠ c → P c d → P c (f d b)) {l : List Nat} (d : Dev) {c : Nat} (hc : c ∈ l) : P c (d.forEach l f) := by
  have hrest (l : List Nat) (e : Dev) (he : P c e) : P c (e.forEach l f) := by
    refine List.foldlRecOn l f (motive := P c) he fun e he b _ => ?_
    by_cases hb : b = c
    · subst hb
      exact hset e b
    · exact hkeep e b c hb he
  obtain ⟨as, bs, rfl⟩ := List.append_of_mem hc
  rw [Dev.forEach, List.foldl_append, List.foldl_cons]
  exact hrest bs _ (hset _ c)

/-- A channel of a die that parks shows it, and waits for its next step. -/
def Dev.parkMarked (d : Dev) (c : Nat) : Dev :=
  let d := ((d.keepStop c).put (peParked c) 1).put (peLoadCompl c) 0
  d.setChan c { d.chan c with waitStep := true }

/-- A channel of a die parks. -/
def Dev.chanPark (d : Dev) (c : Nat) : Dev := (d.parkMarked c).toHiz c

/-- The status a channel of a parked die shows. -/
def Dev.showsParked (c : Nat) (d : Dev) : Prop := d.is (peParked c) = true ∧ d.is (peHiz c) = true ∧ d.is (peLoadCompl c) = false

theorem Dev.keepsRegs_chanPark (d : Dev) (c : Nat) : d.KeepsRegs (d.chanPark c) [(peHiz c).addr, (ppmuForceNow c).addr] := by
  have hstop : d.KeepsRegs (d.keepStop c) [(peHiz c).addr, (ppmuForceNow c).addr] :=
    Dev.keepsRegs_of_regs (d.regs_keepStop c) (d.keepsRegs_refl _)
  have hput := Dev.keepsRegs_put (peLoadCompl c) 0 (by simp [peLoadCompl, peHiz])
    (Dev.keepsRegs_put (peParked c) 1 (by simp [peParked, peHiz]) hstop)
  exact (Dev.keepsRegs_of_regs rfl hput).trans (Dev.keepsRegs_toHiz _ c)

/-- Two fields and a channel leave the rest of the device alone. -/
theorem Dev.marks_alone (d : Dev) (f g : Fld) (v w c : Nat) (x : Chan) (regs pwr chans) :
    { ((d.put f v).put g w).setChan c x with regs := regs, pwr := pwr, chans := chans } =
      { d with regs := regs, pwr := pwr, chans := chans } := rfl

theorem Dev.parkMarked_alone (d : Dev) (c : Nat) : { d.parkMarked c with regs := d.regs, pwr := d.pwr, chans := d.chans } = d := by
  have hstop : { d.keepStop c with regs := d.regs, pwr := d.pwr, chans := d.chans } = d := by
    unfold Dev.keepStop
    split <;> rfl
  exact (Dev.marks_alone (d.keepStop c) (peParked c) (peLoadCompl c) 1 0 c _ d.regs d.pwr d.chans).trans hstop

theorem Dev.chanPark_alone (d : Dev) (c : Nat) : { d.chanPark c with regs := d.regs, pwr := d.pwr, chans := d.chans } = d :=
  (congrArg (fun t : Dev => { t with regs := d.regs, pwr := d.pwr, chans := d.chans }) ((d.parkMarked c).toHiz_alone c) :).trans
    (d.parkMarked_alone c)

theorem Dev.chanPark_shows (d : Dev) (c : Nat) : (d.chanPark c).showsParked c := by
  have hiz {f : Fld} (ha : f.addr = (peHiz c).addr) (hlo : 1 ≤ f.lo) : (d.chanPark c).is f = (d.parkMarked c).is f := by
    have hget := Dev.get_toHiz (d.parkMarked c) c (g := f) (by rw [ha]; simp [peHiz, ppmuForceNow])
    rw [Dev.is, Dev.chanPark, hget, Dev.get_put_bits _ (peHiz c) f 1 (by simp [peHiz]) (.inr hlo), Dev.is]
  refine ⟨?_, Dev.is_toHiz _ c, ?_⟩
  · rw [hiz (f := peParked c) rfl (by simp [peParked]), Dev.parkMarked, Dev.is_setChan,
      Dev.is_put_ne _ _ _ _ (.inr (by simp [peLoadCompl, peParked]))]
    exact Dev.is_put_one _ _ (by simp [peParked]) rfl
  · rw [hiz (f := peLoadCompl c) rfl (by simp [peLoadCompl]), Dev.parkMarked, Dev.is_setChan]
    exact Dev.is_put_zero _ _ (by simp [peLoadCompl])

/-- The die is marked parked. -/
def Dev.dieParked (d : Dev) (e : Nat) : Dev :=
  (d.setDie e { d.die e with parked := true, inUse := false }).put pwrParked (d.get pwrParked ||| 2 ^ e)

/-- The die is marked parked, and each of its channels is parked. -/
def Dev.dieHalted (d : Dev) (e : Nat) : Dev := (d.dieParked e).forEach (dieChans e) Dev.chanPark

/-- Beside registers, the kept status words and the channels, the die alone changes. -/
theorem Dev.dieHalted_alone (d : Dev) (e : Nat) :
    { d.dieHalted e with regs := d.regs, pwr := d.pwr, chans := d.chans } =
      d.setDie e { d.die e with parked := true, inUse := false } := by
  have h := Dev.forEach_keeps (f := Dev.chanPark) (l := dieChans e)
    (fun t : Dev => { t with regs := d.regs, pwr := d.pwr, chans := d.chans })
    (fun t c _ => (congrArg (fun t : Dev => { t with regs := d.regs, pwr := d.pwr, chans := d.chans }) (t.chanPark_alone c) :))
    (d.dieParked e)
  exact h

theorem Dev.keepsRegs_dieHalted (d : Dev) (e : Nat) {f : Fld} (h : f.addr < 0x1000000) : (d.dieHalted e).get f = (d.dieParked e).get f := by
  refine Dev.forEach_keeps (fun t => t.get f) (fun t c _ => (t.keepsRegs_chanPark c).get ?_) _
  simp only [peHiz, ppmuForceNow, List.mem_cons, List.not_mem_nil, or_false]
  omega

theorem Dev.dieHalted_shows (d : Dev) {e c : Nat} (hc : c ∈ dieChans e) : (d.dieHalted e).showsParked c := by
  refine Dev.forEach_establishes (P := Dev.showsParked) Dev.chanPark_shows (fun d b c hb hd => ?_) _ hc
  have hkeep (f : Fld) (hf : f.addr = (peHiz c).addr) : (d.chanPark b).is f = d.is f := by
    refine (d.keepsRegs_chanPark b).is ?_
    simp only [hf, peHiz, ppmuForceNow, List.mem_cons, List.not_mem_nil, or_false]
    omega
  obtain ⟨hp, hz, hl⟩ := hd
  exact ⟨(hkeep (peParked c) rfl).trans hp, (hkeep (peHiz c) rfl).trans hz, (hkeep (peLoadCompl c) rfl).trans hl⟩

theorem Dev.dieParked_regs (d : Dev) (e : Nat) : (d.dieParked e).regs = (d.put pwrParked (d.get pwrParked ||| 2 ^ e)).regs := by
  unfold Dev.dieParked Dev.put
  rfl

theorem Dev.get_dieHalted (d : Dev) (e : Nat) {f : Fld} (hf : f.addr < 0x1000000) (hp : f.addr ≠ pwrParked.addr) :
    (d.dieHalted e).get f = d.get f := by
  rw [d.keepsRegs_dieHalted e hf, Dev.get_of_regs (d.dieParked_regs e), Dev.get_put_addr _ _ _ _ hp.symm]

theorem Dev.auDisarmCore_idle {d : Dev} {a : Nat} (parked : Bool) (h : d.get (auState a) = 0) : d.auDisarmCore a parked = d := by
  rw [Dev.auDisarmCore]
  exact if_pos h

theorem Dev.tmuCut_idle {d : Dev} {u : Nat} (h : d.get (tmuState u) = 0) : d.tmuCut u = d := if_pos h

/-- What is equal beside registers, power state and channels has the same RUNs, dies and calibration. -/
theorem Dev.rest_of_alone {d e : Dev} {regs pwr chans} (h : { d with regs := regs, pwr := pwr, chans := chans } = e) :
    d.runs = e.runs ∧ d.dies = e.dies ∧ d.cal = e.cal := by
  subst h
  exact ⟨rfl, rfl, rfl⟩

/-- What a park cuts off: the results of RUNs that need the die, its acquisition units and its time measurement units. -/
def Dev.parkStops (d : Dev) (e : Nat) : Dev :=
  let d := d.runs.foldl (fun d r => d.parkResults e r) d
  let d := d.forEach ((List.range 32).filter fun a => d.auDie a == e) fun d a => d.auDisarmCore a true
  d.forEach ((List.range 16).map (· + 16 * e)) fun d u => d.tmuCut u

/-- With no RUN open and no acquisition unit and no time measurement unit at work, a park cuts nothing off. -/
theorem Dev.parkStops_idle {d : Dev} {e : Nat} (he : e < 4) (hruns : d.runs = []) (hau : ∀ a, a < 32 → d.get (auState a) = 0)
    (htmu : ∀ u, u < 64 → d.get (tmuState u) = 0) : d.parkStops e = d := by
  have haus : d.forEach ((List.range 32).filter fun a => d.auDie a == e) (fun d a => d.auDisarmCore a true) = d :=
    Dev.forEach_same fun a ha => Dev.auDisarmCore_idle _ (hau a (List.mem_range.1 (List.mem_filter.1 ha).1))
  have htmus : d.forEach ((List.range 16).map (· + 16 * e)) (fun d u => d.tmuCut u) = d := Dev.forEach_same fun u hu => by
    obtain ⟨i, hi, rfl⟩ := List.mem_map.1 hu
    have hi16 := List.mem_range.1 hi
    exact Dev.tmuCut_idle (htmu _ (by omega))
  rw [Dev.parkStops, hruns]
  dsimp only [List.foldl_nil]
  rw [haus, htmus]

/-- An edge die that is not parked and has a park input parks. -/
theorem Dev.edgePark_eq {d : Dev} {e : Nat} (hparked : (d.die e).parked = false) (hin : d.parkInput e = true) :
    d.edgePark e =
      let t := (d.dieHalted e).parkStops e
      if (d.die e).inUse || d.dieInUse e then t.report (srcDie e) 4 0 0 (t.dieSites e) true else t := by
  have hgo : ¬((d.die e).parked || !d.parkInput e) = true := by simp [hparked, hin]
  rw [Dev.edgePark, if_neg hgo]
  rfl

theorem Dev.eq_withFcu (d : Dev) : ∃ x, d = { d with fcu := x } := ⟨d.fcu, rfl⟩

/-- In an idle device a park stops the channels of the die alone, and its use is reported. -/
theorem Dev.edgePark_idle {d : Dev} {e : Nat} (hparked : (d.die e).parked = false) (hin : d.parkInput e = true) (he : e < 4)
    (hruns : d.runs = []) (hau : ∀ a, a < 32 → d.get (auState a) = 0) (htmu : ∀ u, u < 64 → d.get (tmuState u) = 0) :
    ∃ x, d.edgePark e = { d.dieHalted e with fcu := x } := by
  obtain ⟨hr, -, -⟩ := Dev.rest_of_alone (d.dieHalted_alone e)
  have hstops : (d.dieHalted e).parkStops e = d.dieHalted e := Dev.parkStops_idle he (hr.trans hruns)
    (fun a h => (d.get_dieHalted e (by simp only [auState]; omega) (by simp only [auState, pwrParked]; omega)).trans (hau a h))
    (fun u h => (d.get_dieHalted e (by simp only [tmuState]; omega) (by simp only [tmuState, pwrParked]; omega)).trans (htmu u h))
  rw [Dev.edgePark_eq hparked hin, hstops]
  dsimp only
  split
  · exact Dev.report_eq _ _ _ _ _ _ _
  · exact Dev.eq_withFcu _

theorem Dev.calStop_none {d : Dev} (x : FcuSt) (mask status : Nat) (h : d.cal.runs = []) :
    ({ d with fcu := x } : Dev).calStop mask status = { d with fcu := x } := by
  simp [Dev.calStop, Dev.calHit, h]

/-- With no calibration run open, the park of a die stops none. -/
theorem Dev.edgeParkRow_idle {d : Dev} {e : Nat} (hparked : (d.die e).parked = false) (hin : d.parkInput e = true) (he : e < 4)
    (hruns : d.runs = []) (hcal : d.cal.runs = []) (hau : ∀ a, a < 32 → d.get (auState a) = 0)
    (htmu : ∀ u, u < 64 → d.get (tmuState u) = 0) : ∃ x, d.edgeParkRow e = { d.dieHalted e with fcu := x } := by
  obtain ⟨x, hx⟩ := Dev.edgePark_idle hparked hin he hruns hau htmu
  obtain ⟨-, -, hc⟩ := Dev.rest_of_alone (d.dieHalted_alone e)
  have hgo : ¬((d.die e).parked || !d.parkInput e) = true := by simp [hparked, hin]
  have hnone : (d.dieHalted e).cal.runs = [] := (congrArg CalSt.runs hc).trans hcal
  refine ⟨x, ?_⟩
  rw [Dev.edgeParkRow, if_neg hgo, hx, Dev.calStop_none x _ _ hnone]

theorem Dev.die_of_dies {d e : Dev} (h : e.dies = d.dies) (i : Nat) : e.die i = d.die i := by rw [Dev.die, h, Dev.die]

/-- The dies of a device in which a die parks. -/
theorem Dev.die_dieHalted (d : Dev) (e i : Nat) :
    (d.dieHalted e).die i = if i = e then { d.die e with parked := true, inUse := false } else d.die i := by
  obtain ⟨-, hdies, -⟩ := Dev.rest_of_alone (d.dieHalted_alone e)
  rw [Dev.die_of_dies hdies, Dev.die_setDie_ite]

/-- The bit of a die in PARKED, once it is set. -/
theorem Dev.parkedBit_dieHalted (d : Dev) {e : Nat} (he : e < 4) : ((d.dieHalted e).get pwrParked).testBit e = true := by
  rw [d.keepsRegs_dieHalted e (by decide), Dev.get_of_regs (d.dieParked_regs e), Dev.get_put _ _ _ (by decide), pwrParked,
    Nat.testBit_mod_two_pow]
  simp [he]

/-- The collector is none of what else the device reads. -/
theorem Dev.withFcu_reads (d : Dev) (x : FcuSt) :
    (∀ f, ({ d with fcu := x } : Dev).get f = d.get f) ∧ (∀ f, ({ d with fcu := x } : Dev).is f = d.is f) ∧
    ∀ i, ({ d with fcu := x } : Dev).die i = d.die i := ⟨fun _ => rfl, fun _ => rfl, fun _ => rfl⟩

/-- A channel of a die that leaves its park; HIZ stays (R77). -/
def Dev.chanUnpark (d : Dev) (c : Nat) : Dev := if d.is (peParked c) then (d.keepStop c).put (peParked c) 0 else d

theorem Dev.chanUnpark_alone (d : Dev) (c : Nat) : { d.chanUnpark c with regs := d.regs, pwr := d.pwr } = d := by
  unfold Dev.chanUnpark
  split
  · exact (congrArg (fun t : Dev => { t with regs := d.regs }) (d.keepStop_alone c) :)
  · rfl

theorem Dev.is_chanUnpark (d : Dev) (c : Nat) : (d.chanUnpark c).is (peParked c) = false := by
  unfold Dev.chanUnpark
  split
  · exact Dev.is_put_zero _ _ (by simp [peParked])
  next h => simpa using h

theorem Dev.get_chanUnpark (d : Dev) (c : Nat) {f : Fld} (h : f.addr ≠ (peParked c).addr ∨ f.lo + f.w ≤ 1) :
    (d.chanUnpark c).get f = d.get f := by
  unfold Dev.chanUnpark
  split
  · rw [Dev.get_put_ne _ _ _ _ ?_, Dev.get_of_regs (d.regs_keepStop c)]
    rcases h with h | h
    · exact .inl h.symm
    · exact .inr ⟨by simp [peParked], .inl h⟩
  · rfl

/-- The die is marked free. -/
def Dev.dieFreed (d : Dev) (e : Nat) : Dev :=
  (d.setDie e { d.die e with parked := false, inUse := false }).put pwrParked (d.get pwrParked - (d.get pwrParked &&& 2 ^ e))

/-- The die is marked free, and so is each of its channels. -/
def Dev.dieReleased (d : Dev) (e : Nat) : Dev := (d.dieFreed e).forEach (dieChans e) Dev.chanUnpark

theorem Dev.edgeUnpark_eq {d : Dev} {e : Nat} (hparked : (d.die e).parked = true) (hin : d.parkInput e = false) :
    d.edgeUnpark e = (d.dieReleased e).condEnd (srcDie e) 4 := by
  have hgo : ¬(!(d.die e).parked || d.parkInput e) = true := by simp [hparked, hin]
  rw [Dev.edgeUnpark, if_neg hgo]
  rfl

theorem Dev.dieFreed_regs (d : Dev) (e : Nat) :
    (d.dieFreed e).regs = (d.put pwrParked (d.get pwrParked - (d.get pwrParked &&& 2 ^ e))).regs := by
  unfold Dev.dieFreed Dev.put
  rfl

/-- Beside registers and the kept status words, the die alone changes. -/
theorem Dev.dieReleased_alone (d : Dev) (e : Nat) :
    { d.dieReleased e with regs := d.regs, pwr := d.pwr } = d.setDie e { d.die e with parked := false, inUse := false } := by
  have h := Dev.forEach_keeps (f := Dev.chanUnpark) (l := dieChans e) (fun t : Dev => { t with regs := d.regs, pwr := d.pwr })
    (fun t c _ => (congrArg (fun t : Dev => { t with regs := d.regs, pwr := d.pwr }) (t.chanUnpark_alone c) :)) (d.dieFreed e)
  exact h

theorem Dev.get_dieReleased (d : Dev) (e : Nat) {f : Fld} (h : (∀ c, f.addr ≠ (peParked c).addr) ∨ f.lo + f.w ≤ 1) :
    (d.dieReleased e).get f = (d.dieFreed e).get f :=
  Dev.forEach_keeps (fun t => t.get f) (fun t c _ => t.get_chanUnpark c (h.imp_left fun ha => ha c)) _

theorem Dev.dieReleased_shows (d : Dev) {e c : Nat} (hc : c ∈ dieChans e) : (d.dieReleased e).is (peParked c) = false := by
  refine Dev.forEach_establishes (P := fun c d => d.is (peParked c) = false) Dev.is_chanUnpark (fun d b c hb hd => ?_) _ hc
  rw [Dev.is, d.get_chanUnpark b (.inl (by simp only [peParked]; omega)), ← Dev.is]
  exact hd

/-- A die whose last park input has ended is free, and so are its channels; HIZ stays. -/
theorem Dev.edgeUnpark_effect {d : Dev} {e : Nat} (hparked : (d.die e).parked = true) (hin : d.parkInput e = false) :
    ((d.edgeUnpark e).die e).parked = false ∧ ((d.edgeUnpark e).get pwrParked).testBit e = false ∧
    (∀ c, c ∈ dieChans e → (d.edgeUnpark e).is (peParked c) = false ∧ (d.edgeUnpark e).is (peHiz c) = d.is (peHiz c)) ∧
    (∀ i, i ≠ e → (d.edgeUnpark e).die i = d.die i) ∧
    { d.edgeUnpark e with regs := d.regs, dies := d.dies, fcu := d.fcu, pwr := d.pwr } = d := by
  obtain ⟨hget, his, hdie⟩ := (d.dieReleased e).withFcu_reads ((d.dieReleased e).condEnd (srcDie e) 4).fcu
  have hdies : (d.dieReleased e).dies = (d.setDie e { d.die e with parked := false, inUse := false }).dies := by
    rw [← d.dieReleased_alone e]
  rw [Dev.edgeUnpark_eq hparked hin]
  refine ⟨?_, ?_, fun c hc => ⟨(his _).trans (d.dieReleased_shows hc), ?_⟩, fun i hi => ?_, ?_⟩
  · exact congrArg Die.parked ((hdie e).trans ((Dev.die_of_dies hdies e).trans (d.die_setDie_same e _)))
  · refine (congrArg (Nat.testBit · e) ((hget pwrParked).trans (d.get_dieReleased e (.inl fun c => ?_)))).trans ?_
    · simp only [pwrParked, peParked]
      omega
    · rw [Dev.get_of_regs (d.dieFreed_regs e), Dev.get_put _ _ _ (by decide), pwrParked, Nat.testBit_mod_two_pow, testBit_sub_and]
      simp
  · refine (his _).trans ?_
    rw [Dev.is, d.get_dieReleased e (.inr (by simp [peHiz])), Dev.get_of_regs (d.dieFreed_regs e),
      Dev.get_put_addr _ _ _ _ (by simp only [pwrParked, peHiz]; omega), Dev.is]
  · refine (hdie i).trans ((Dev.die_of_dies hdies i).trans ?_)
    rw [Dev.die_setDie_ite, if_neg hi]
  · exact (congrArg (fun t : Dev => { t with dies := d.dies, fcu := d.fcu }) (d.dieReleased_alone e) :)

/-! ## Service -/

/-- Settles O13: by what the loops over the sectors' and the die's channels keep, and what they set. -/
theorem sectorsAndEdgeDiesLeaveAndReenterService : Obligations.SectorsAndEdgeDiesLeaveAndReenterService := by
  unfold Obligations.SectorsAndEdgeDiesLeaveAndReenterService
  refine ⟨⟨fun s q x w hd hpark hidle => ?_, fun s q x w k hd hpark hk hm hbusy => ?_, fun s q x w hd => ?_⟩,
    fun s e hparked hin hruns hcal hau htmu => ?_, fun s e hparked hin => ?_⟩
  · have hfree : (maskList 16 (dField x 8 0 16)).any s.dev.sectorBusy = false := by
      rw [List.any_eq_false]
      intro k hk
      obtain ⟨hk16, hbit⟩ := List.mem_filter.1 hk
      simp [hidle k (List.mem_range.1 hk16) hbit]
    have hservice : (s.dev.sectorQuiesce q).service = (s.dev.get pwrQuiesced ||| dField x 8 0 16, s.dev.service.2) := by
      rw [Dev.sectorQuiesce_unparked hd hpark, hfree, if_neg Bool.false_ne_true]
      refine (Dev.service_done _ w stOk).trans ?_
      split
      · exact (Dev.service_onlyHost (Dev.onlyHost_event _ _ _ _)).trans (Dev.service_quiesceSectors _ (bitsOf_lt _ _ _))
      · exact Dev.service_quiesceSectors _ (bitsOf_lt _ _ _)
    exact .of_onDev (fun d => d.sectorQuiesce q) rfl rfl
      ⟨(congrArg Prod.fst hservice :), fun e _ => (congrFun (congrArg Prod.snd hservice) e :)⟩
  · have hone : (maskList 16 (dField x 8 0 16)).any s.dev.sectorBusy = true :=
      List.any_eq_true.2 ⟨k, List.mem_filter.2 ⟨List.mem_range.2 hk, hm⟩, hbusy⟩
    exact .of_onDev (fun d => d.sectorQuiesce q) rfl ((Dev.sectorQuiesce_unparked hd hpark).trans (if_pos hone)) rfl
  · obtain ⟨hq, hord⟩ := Dev.sectorResume_effect hd
    refine .of_onDev (fun d => d.sectorResume q) rfl rfl ⟨fun k hk => ?_, fun e he => ?_⟩
    · rw [hq, Nat.and_comm, testBit_sub_and]
    · rw [hord e]
      simp only [s.dev.mem_resumed x he]
  · obtain ⟨x, hx⟩ := Dev.edgeParkRow_idle hparked hin e.2 hruns hcal hau htmu
    obtain ⟨hget, his, hdie⟩ := (s.dev.dieHalted e).withFcu_reads x
    refine .of_onDevIdle (fun d => d.edgeParkRow e) rfl hx ⟨?_, ?_, fun c hc => ?_, fun i hi => ?_⟩
    · rw [hdie, Dev.die_dieHalted, if_pos rfl]
    · rw [hget]
      exact s.dev.parkedBit_dieHalted e.2
    · rw [his, his, his]
      exact s.dev.dieHalted_shows hc
    · rw [hdie, Dev.die_dieHalted, if_neg hi]
  · exact .of_onDev (fun d => d.edgeUnpark e) rfl rfl (Dev.edgeUnpark_effect hparked hin)

end Sys2Proof.Machine
end

section
/-!
PROOFS. What the registers hold at reset, from the tables of the register blocks (R54, R87, R89, R120, R155, R263, R409, R480).
-/

namespace Sys2Proof.Machine

/-! ## A register at reset -/

/-- At reset a register holds what its row gives. -/
theorem Dev.word_init {a : Nat} {r : RegInfo} (h : regInfo a = some r) : Dev.init.word a = BitVec.ofNat 32 r.reset := by
  change regReset a = _
  rw [regReset, h]

/-- A field of a register whose row gives 0 reads 0 at reset. -/
theorem Dev.get_init_zero {f : Fld} {r : RegInfo} (h : regInfo f.addr = some r) (h0 : r.reset = 0) : Dev.init.get f = 0 := by
  rw [Dev.get, Dev.word_init h, h0]
  simp [bitsOf]

/-! ## Registers that every index of a block repeats -/

theorem regInfo_pe {a c o : Nat} (ha : a = 0x1000000 + 0x1000 * c + o) (hc : c < 256) (ho : o < 0x1000 ∧ o % 4 = 0) :
    regInfo a = regPe c o := by
  simp only [regInfo]
  repeat rw [if_neg (by omega)]
  rw [if_pos (by omega)]
  congr 1 <;> omega

theorem regInfo_ts {q i : Nat} (hq : q < 16) (hi : i < 64) : regInfo (0x800000 + 0x80000 * q + 0x2000 * i) = regTs q 0 := by
  simp only [regInfo]
  repeat rw [if_neg (by omega)]
  rw [if_pos (by omega)]
  congr 1 <;> omega

theorem regInfo_dse {a e o : Nat} (ha : a = 0x400000 + 0x1000 * e + o) (he : e < 16) (ho : o < 0x1000 ∧ o % 4 = 0) :
    regInfo a = regDse e o := by
  simp only [regInfo]
  repeat rw [if_neg (by omega)]
  rw [if_pos (by omega)]
  congr 1 <;> omega

/-- The level registers of a channel hold the reset code as set and as corrected (R54). -/
theorem regPe_level (c : Nat) {k : Nat} (hk : k < 11) :
    regPe c (0x80 + 4 * k) = regRow .ro 0xFFFFFFFF (levelReset k + 0x10000 * levelReset k) := by
  have hidx : (0x80 + 4 * k - 0x80) / 4 = k := by omega
  unfold regPe
  rw [if_neg (by omega), if_neg (by omega), if_pos (by omega), hidx]

theorem Dev.ideal_init {c k : Nat} (hc : c < 256) (hk : k < 11) : Dev.init.get (peIdeal c k) = levelReset k := by
  have hlt : levelReset k < 2 ^ 16 := by
    unfold levelReset
    split <;> decide
  have hword : Dev.init.word (peIdeal c k).addr = BitVec.ofNat 32 (levelReset k + 0x10000 * levelReset k) :=
    Dev.word_init ((regInfo_pe (by simp only [peIdeal]; omega) hc (by omega)).trans (regPe_level c hk))
  rw [Dev.get, hword]
  simp only [bitsOf, peIdeal, BitVec.toNat_ofNat]
  omega

theorem Dev.seqState_init {q : Nat} (hq : q < 16) : Dev.init.get (seqState q) = 0 := by
  have hidx : (0x100004 + 0x10000 * q - 0x100000) / 0x10000 = q ∧ (0x100004 + 0x10000 * q) % 0x10000 = 4 := by omega
  have hrow : regInfo (seqState q).addr = regSeq q 4 := by
    dsimp only [seqState]
    rw [regInfo_seq (by omega) (by omega), hidx.1, hidx.2]
  exact Dev.get_init_zero hrow rfl

theorem Dev.auState_init {a : Nat} (ha : a < 32) : Dev.init.get (auState a) = 0 := by
  have hidx : (0x200004 + 0x1000 * a - 0x200000) / 0x1000 = a ∧ (0x200004 + 0x1000 * a) % 0x1000 = 4 := by omega
  have hrow : regInfo (auState a).addr = regAu a 4 := by
    dsimp only [auState]
    rw [regInfo_au (by omega) (by omega), hidx.1, hidx.2]
  exact Dev.get_init_zero hrow rfl

theorem Dev.dseState_init {e : Nat} (he : e < 16) : Dev.init.get (dseState e) = 0 :=
  Dev.get_init_zero (regInfo_dse (o := 4) (by simp only [dseState]; omega) he (by decide)) rfl

/-! ## The reset state -/

/-- Settles O5: row by row of the register tables. -/
theorem resetLeavesTheStatedValues : Obligations.ResetLeavesTheStatedValues := by
  unfold Obligations.ResetLeavesTheStatedValues
  refine ⟨fun c hc => ?_, fun q i hq hi => ?_, rfl, rfl, rfl, rfl, rfl, rfl, rfl, rfl, rfl, rfl, rfl, rfl,
    fun q hq => Dev.seqState_init hq, fun e he => Dev.dseState_init he, fun a ha => Dev.auState_init ha⟩
  · have hrow {a : Nat} (o : Nat) (ha : a = 0x1000000 + 0x1000 * c + o) (ho : o < 0x1000 ∧ o % 4 = 0) := regInfo_pe ha hc ho
    refine ⟨?_, ?_, ?_, ?_, fun k hk => ?_, Dev.ideal_init hc (by decide), Dev.ideal_init hc (by decide), Dev.ideal_init hc (by decide),
      Dev.ideal_init hc (by decide)⟩
    · have hword : Dev.init.word (peHiz c).addr = 1 := Dev.word_init (hrow 4 (by simp only [peHiz]; omega) (by decide))
      exact (congrArg (fun v : Word => bitsOf v.toNat 0 1) hword :)
    · exact Dev.word_init (hrow 0x10 (by omega) (by decide))
    · exact Dev.word_init (hrow 0x14 (by omega) (by decide))
    · exact Dev.word_init (hrow 0x614 (by omega) (by decide))
    · refine (Dev.ideal_init hc (by omega)).trans ?_
      interval_cases k <;> rfl
  · exact Dev.word_init (regInfo_ts hq hi)

end Sys2Proof.Machine
end

section
/-!
PROOFS. The force mode, waveform play and PPMU_CTRL of a channel, and the commands of the parametric supervision (R96, R97, R101, R103,
R104, R108, R120).
-/

namespace Sys2Proof.Machine

/-! ## Play stops (R108) -/

/-- A waveform that plays stops. -/
def Dev.playStopped (d : Dev) (c : Nat) : Dev := if d.is (ppmuWfRun c) then d.wfStop c else d

/-- With no force mode in effect, or no waveform asked for, FORCE_NOW follows and play does not go on. -/
theorem Dev.syncForce_stops {d : Dev} {c : Nat} (h : d.wantForce c = 0 ∨ d.wfOn c = false) :
    d.syncForce c = (d.forceShown c).playStopped c := by
  rcases h with h | h
  · rw [Dev.syncForce_off h, Dev.playStopped, Dev.forceShown, h]; rfl
  · exact Dev.syncForce_no_wf h

section
variable (d : Dev) (c : Nat)

theorem Dev.chan_wfStop : (d.wfStop c).chan c = { d.chan c with wfLeft := 0, wfReq := none, wfLate := none } :=
  Dev.chan_setChan_same _ c _

theorem Dev.is_wfRun_wfStop : (d.wfStop c).is (ppmuWfRun c) = false := d.is_put_zero (ppmuWfRun c) (by simp [ppmuWfRun])

theorem Dev.is_wfRun_playStopped : (d.playStopped c).is (ppmuWfRun c) = false := by
  unfold Dev.playStopped
  split
  · exact d.is_wfRun_wfStop c
  next h => exact Bool.eq_false_of_not_eq_true h

/-- Every field but WF_RUN is left. -/
theorem Dev.get_playStopped {g : Fld} (h : (ppmuWfRun c).addr ≠ g.addr ∨ g.lo + g.w ≤ 4 ∨ 5 ≤ g.lo) :
    (d.playStopped c).get g = d.get g := by
  unfold Dev.playStopped
  split
  · exact d.get_put_ne (ppmuWfRun c) g 0 (h.imp_right fun h => ⟨by simp [ppmuWfRun], h⟩)
  · rfl

/-- Of the channel only the plays to come are dropped. -/
theorem Dev.chan_playStopped :
    ∃ left req late, (d.playStopped c).chan c = { d.chan c with wfLeft := left, wfReq := req, wfLate := late } := by
  unfold Dev.playStopped
  split
  · exact ⟨_, _, _, d.chan_wfStop c⟩
  · exact ⟨_, _, _, rfl⟩

theorem Dev.chan_forceShown : (d.forceShown c).chan c = d.chan c := (congrArg (fun e => Dev.chan e c) (d.forceShown_alone c) :)

theorem Dev.get_forceShown (g : Fld) : (d.forceShown c).get g = (d.put (ppmuForceNow c) (d.wantForce c)).get g :=
  (congrArg (fun e => Dev.get e g) (d.forceShown_alone c) :)

end

/-- With no segment refused, a command leaves a step's results to the step (R114). -/
theorem Dev.wfSettle_not_refused {d : Dev} {c : Nat} (h : (d.chan c).wfRefused = false) : d.wfSettle c = d := if_pos (by simp [h])

/-! ## FORCE_NOW follows (R95) -/

section
variable {d : Dev} {c : Nat} (h : d.wantForce c = 0 ∨ d.wfOn c = false)
include h

theorem Dev.forceNow_syncForce : (d.syncForce c).get (ppmuForceNow c) = d.wantForce c % 4 := by
  rw [Dev.syncForce_stops h, Dev.get_playStopped _ _ (by simp [ppmuForceNow]), Dev.get_forceShown]
  exact d.get_put _ _ (by simp [ppmuForceNow])

theorem Dev.is_wfRun_syncForce : (d.syncForce c).is (ppmuWfRun c) = false := by
  rw [Dev.syncForce_stops h]; exact Dev.is_wfRun_playStopped _ c

/-- The status bits COMPL and WAIT are left. -/
theorem Dev.get_syncForce {g : Fld} (hg : 2 ≤ g.lo ∧ g.lo + g.w ≤ 4) : (d.syncForce c).get g = d.get g := by
  rw [Dev.syncForce_stops h, Dev.get_playStopped _ _ (.inr (.inl hg.2)), Dev.get_forceShown]
  exact d.get_put_bits _ _ _ (by simp [ppmuForceNow]) (.inr (by simpa [ppmuForceNow] using hg.1))

theorem Dev.chan_syncForce :
    ∃ left req late, (d.syncForce c).chan c = { d.chan c with wfLeft := left, wfReq := req, wfLate := late } := by
  rw [Dev.syncForce_stops h, ← d.chan_forceShown c]
  exact Dev.chan_playStopped _ c

end

/-! ## A conversion leaves the channel but its DACs (R61) -/

/-- The note of a clip is a register. -/
theorem Dev.noteClip_eq (d : Dev) (c k ideal : Nat) : ∃ regs, d.noteClip c k ideal = { d with regs := regs } := by
  unfold Dev.noteClip
  dsimp only
  split
  · exact ⟨_, d.put_eq (calClipped c) 1⟩
  · exact ⟨d.regs, rfl⟩

theorem Dev.convertTo_eq (d : Dev) (c k new : Nat) :
    ∃ regs chans, d.convertTo c k new = { d with regs := regs, chans := chans } := ⟨_, _, rfl⟩

theorem Dev.reconvert_eq (d : Dev) (c k : Nat) : ∃ regs chans, d.reconvert c k = { d with regs := regs, chans := chans } := by
  obtain ⟨_, hclip⟩ := d.noteClip_eq c k (d.workCode c k)
  unfold Dev.reconvert
  dsimp only
  rw [hclip]
  exact Dev.convertTo_eq _ c k _

theorem Dev.chan_convertTo (d : Dev) (c k new : Nat) : ∃ dacs, (d.convertTo c k new).chan c = { d.chan c with dacs := dacs } :=
  ⟨_, Dev.chan_setChan_same _ c _⟩

theorem Dev.chan_reconvert (d : Dev) (c k : Nat) : ∃ dacs, (d.reconvert c k).chan c = { d.chan c with dacs := dacs } := by
  obtain ⟨_, hclip⟩ := d.noteClip_eq c k (d.workCode c k)
  unfold Dev.reconvert
  dsimp only
  rw [hclip]
  exact Dev.chan_convertTo _ c k _

/-! ## PPMU_COMPL, PPMU_OPEN_LOOP and PPMU_FAULT_CLEAR (R101, R103, R104) -/

/-- Faults join those that PPMU_FAULT holds. -/
theorem Dev.get_ppmuFault_or (d : Dev) (c : Nat) {b : Nat} (hb : b < 8) :
    (d.put (ppmuFaultF c) (d.get (ppmuFaultF c) ||| b)).get (ppmuFaultF c) = d.get (ppmuFaultF c) ||| b := by
  rw [Dev.get_put _ _ _ (by simp [ppmuFaultF])]
  exact Nat.mod_eq_of_lt (Nat.or_lt_two_pow (d.get_lt (ppmuFaultF c)) (by simpa [ppmuFaultF] using hb))

/-- Compliance while a mode forces: the status, the fault and the event. -/
theorem Dev.ppmuComplRow_forcing {d : Dev} {c : Nat} (hf : d.get (ppmuForceNow c) ≠ 0) (haw : d.awake = true) :
    d.ppmuComplRow c = ((d.put (ppmuCompl c) 1).put (ppmuFaultF c) (d.get (ppmuFaultF c) ||| 1)).event (srcChan c) 0x0202
      (d.chanStep c % 65536) := if_neg (by simp [hf, haw])

theorem Dev.ppmuComplRow_effect {d : Dev} {c : Nat} (hf : d.get (ppmuForceNow c) ≠ 0) (haw : d.awake = true) :
    (d.ppmuComplRow c).get (ppmuCompl c) = 1 ∧ (d.ppmuComplRow c).get (ppmuFaultF c) = d.get (ppmuFaultF c) ||| 1 ∧
    d.KeepsRegsEv (d.ppmuComplRow c) [(ppmuCompl c).addr, (ppmuFaultF c).addr] ∧
    { d.ppmuComplRow c with regs := d.regs, host := d.host, out := d.out } = d := by
  have hold : (d.put (ppmuCompl c) 1).get (ppmuFaultF c) = d.get (ppmuFaultF c) :=
    d.get_put_addr _ _ _ (by simp [ppmuCompl, ppmuFaultF])
  rw [Dev.ppmuComplRow_forcing hf haw, ← hold]
  refine ⟨?_, ?_, ?_, ?_⟩
  · rw [Dev.get_event _ _ _ _ _ (by simp [ppmuCompl]; omega), Dev.get_put_addr _ _ _ _ (by simp [ppmuCompl, ppmuFaultF])]
    exact d.get_put _ 1 (by simp [ppmuCompl])
  · rw [Dev.get_event _ _ _ _ _ (by simp [ppmuFaultF]; omega)]
    exact Dev.get_ppmuFault_or _ c (by decide)
  · exact Dev.keepsRegsEv_event _ _ _
      (Dev.keepsRegsEv_put _ _ (by simp) (Dev.keepsRegsEv_put _ _ (by simp) (d.keepsRegsEv_refl _)))
  · obtain ⟨⟨_, _, _, hev⟩, -⟩ := ((d.put (ppmuCompl c) 1).put (ppmuFaultF c)
      ((d.put (ppmuCompl c) 1).get (ppmuFaultF c) ||| 1)).onlyHost_event (srcChan c) 0x0202 (d.chanStep c % 65536)
    rw [hev]
    rfl

/-- The device that notes an open loop on a channel before the force mode follows: the fault and its report stand, and the channel is
held. -/
def Dev.openLoopHeld (d : Dev) (c : Nat) : Dev :=
  let f := d.put (ppmuFaultF c) (d.get (ppmuFaultF c) ||| 2)
  let e := f.report (srcChan c) 3 0 c (f.chanScope c) false
  e.setChan c { e.chan c with olHold := true, olWait := false, olAt := some e.mclk }

theorem Dev.keepsRegs_openLoopHeld (d : Dev) (c : Nat) :
    (d.put (ppmuFaultF c) (d.get (ppmuFaultF c) ||| 2)).KeepsRegs (d.openLoopHeld c) [] :=
  Dev.keepsRegs_report _ _ _ _ _ _ _ _

theorem Dev.olHold_openLoopHeld (d : Dev) (c : Nat) : ((d.openLoopHeld c).chan c).olHold = true := by
  unfold Dev.openLoopHeld
  dsimp only
  rw [Dev.chan_setChan_same]

theorem Dev.ppmuOpenLoop_effect {d : Dev} {c : Nat} (hf : d.get (ppmuForceNow c) = 1) (haw : d.awake = true) :
    (d.ppmuOpenLoop c).get (ppmuForceNow c) = 0 ∧ (d.ppmuOpenLoop c).get (ppmuFaultF c) = d.get (ppmuFaultF c) ||| 2 ∧
    ((d.ppmuOpenLoop c).chan c).olHold = true ∧
    d.KeepsRegs (d.ppmuOpenLoop c) [(ppmuForceNow c).addr, (ppmuFaultF c).addr] := by
  have heq : d.ppmuOpenLoop c = (d.openLoopHeld c).syncForce c := if_neg (by simp [hf, haw])
  have hoff : (d.openLoopHeld c).wantForce c = 0 := by simp [Dev.wantForce, d.olHold_openLoopHeld c]
  have hsync := Dev.keepsRegs_syncForce_off hoff
  rw [heq]
  refine ⟨?_, ?_, ?_, ?_⟩
  · rw [Dev.forceNow_syncForce (.inl hoff), hoff]
  · rw [hsync.get (by simp [ppmuFaultF, ppmuForceNow]), (d.keepsRegs_openLoopHeld c).get (by simp)]
    exact d.get_ppmuFault_or c (by decide)
  · obtain ⟨_, _, _, hchan⟩ := Dev.chan_syncForce (c := c) (.inl hoff)
    rw [hchan]
    exact d.olHold_openLoopHeld c
  · exact ((Dev.keepsRegs_put _ _ (by simp) (d.keepsRegs_refl _)).trans
      ((d.keepsRegs_openLoopHeld c).mono (by simp))).trans (hsync.mono (by simp))

/-- The registers of the edge dies have no part in what runs a channel. -/
theorem Dev.running_chan_put (d : Dev) (c : Nat) {f : Fld} (v : Nat) (hf : 0x1000000 ≤ f.addr ∧ f.addr < 0x1400000) :
    (d.put f v).running (.chan c) = d.running (.chan c) := by
  have hget {g : Fld} (hg : g.addr < 0x1000000 ∨ 0x1400000 ≤ g.addr) : (d.put f v).get g = d.get g :=
    d.get_put_addr f g v (by omega)
  have hquiet : (d.put f v).quiesced (sectorOf c) = d.quiesced (sectorOf c) := by
    rw [Dev.quiesced, hget (by decide), Dev.quiesced]
  have hseq : (d.put f v).chanSeq c = d.chanSeq c := by
    unfold Dev.chanSeq Dev.quadOwner
    refine List.find?_congr fun s hs => ?_
    have hlt := List.mem_range.1 hs
    rw [Dev.seqQuads, Dev.get2, hget (by simp only [seqQuadsLo]; omega), hget (by simp only [seqQuadsHi]; omega), Dev.seqQuads, Dev.get2]
  have hsite : (d.put f v).siteOf = d.siteOf := by
    funext k
    rw [Dev.siteOf, Dev.is, hget (by simp only [siteMapValid]; omega), hget (by simp only [siteMapSite]; omega), Dev.siteOf, Dev.is]
  unfold Dev.running
  dsimp only
  rw [hquiet, hseq]
  congr 1
  split
  next s hs =>
    have hlt := List.mem_range.1 (List.mem_of_find?_eq_some hs)
    rw [Dev.seqRunning, Dev.seqBusy, hget (by simp only [seqState]; omega), Dev.seqRunning, Dev.seqBusy]
    rfl
  next => rw [Dev.sectorRunning, Dev.sectorSites, Dev.sitesOfChans, hsite, Dev.sectorRunning, Dev.sectorSites, Dev.sitesOfChans]; rfl

/-- While the owner runs the named faults go, and the return from an open loop waits (R103). -/
theorem Dev.ppmuFaultClear_running {d : Dev} {c : Nat} (v : Nat) (hc : c < 256) (hrun : d.running (.chan c) = true) :
    d.ppmuFaultClear c v =
      let e := d.put (ppmuFaultF c) (d.get (ppmuFaultF c) - (d.get (ppmuFaultF c) &&& v % 8))
      if v.testBit 1 && (d.chan c).olHold then e.setChan c { d.chan c with olWait := true } else e := by
  unfold Dev.ppmuFaultClear
  dsimp only
  rw [Dev.running_chan_put d c _ (by simp only [ppmuFaultF]; omega), if_pos hrun]
  rfl

theorem Dev.ppmuFaultClear_effect {d : Dev} {c : Nat} (v : Nat) (hc : c < 256) (hrun : d.running (.chan c) = true) :
    (d.ppmuFaultClear c v).get (ppmuFaultF c) = d.get (ppmuFaultF c) - (d.get (ppmuFaultF c) &&& v % 8) ∧
    (v.testBit 1 = true → (d.chan c).olHold = true →
      ((d.ppmuFaultClear c v).chan c).olWait = true ∧ ((d.ppmuFaultClear c v).chan c).olHold = true) ∧
    d.KeepsRegs (d.ppmuFaultClear c v) [(ppmuFaultF c).addr] ∧
    { d.ppmuFaultClear c v with regs := d.regs, chans := d.chans } = d := by
  have hput : (d.put (ppmuFaultF c) (d.get (ppmuFaultF c) - (d.get (ppmuFaultF c) &&& v % 8))).get (ppmuFaultF c) =
      d.get (ppmuFaultF c) - (d.get (ppmuFaultF c) &&& v % 8) := by
    rw [Dev.get_put _ _ _ (by simp [ppmuFaultF])]
    exact Nat.mod_eq_of_lt ((Nat.sub_le _ _).trans_lt (d.get_lt _))
  rw [Dev.ppmuFaultClear_running v hc hrun]
  dsimp only
  generalize d.get (ppmuFaultF c) - (d.get (ppmuFaultF c) &&& v % 8) = new at hput ⊢
  have hkeep : d.KeepsRegs (d.put (ppmuFaultF c) new) [(ppmuFaultF c).addr] := Dev.keepsRegs_put _ _ (by simp) (d.keepsRegs_refl _)
  by_cases h : (v.testBit 1 && (d.chan c).olHold) = true
  · rw [if_pos h]
    refine ⟨hput, fun _ hhold => ?_, hkeep, rfl⟩
    rw [Dev.chan_setChan_same]
    exact ⟨rfl, hhold⟩
  · rw [if_neg h]
    exact ⟨hput, fun hv hhold => absurd (by simp [hv, hhold]) h, hkeep, rfl⟩

/-! ## PPMU_RECONNECT (R97) -/

theorem Dev.wfOn_setChan (d : Dev) (c : Nat) {x : Chan} (h : x.ppmuUse = (d.chan c).ppmuUse) : (d.setChan c x).wfOn c = d.wfOn c := by
  unfold Dev.wfOn
  rw [Dev.chan_setChan_same, h]
  rfl

/-- A channel that nothing else holds forces again in its mode when its time has come, and no waveform plays. -/
theorem Dev.ppmuReconnect_returns {d : Dev} {c at_ : Nat} (hc : c < 256) (hat : (d.chan c).reconAt = some at_) (hwf : d.wfOn c = false)
    (href : (d.chan c).wfRefused = false) (hhiz : d.is (peHiz c) = false) (hol : (d.chan c).olHold = false)
    (hpat : (d.chan c).patStep = false) :
    ((d.ppmuReconnect c).chan c).reconAt = none ∧ (d.ppmuReconnect c).get (ppmuForceNow c) = d.forceMode c % 4 ∧
    (d.ppmuReconnect c).mclk = max d.mclk at_ := by
  have heq : d.ppmuReconnect c =
      ((((d.advanceTo at_).setChan c { d.chan c with reconAt := none }).syncForce c).wfSettle c) := by
    rw [Dev.ppmuReconnect, hat]
  have hoff : ((d.advanceTo at_).setChan c { d.chan c with reconAt := none }).wfOn c = false :=
    (Dev.wfOn_setChan (d.advanceTo at_) c (x := { d.chan c with reconAt := none }) rfl).trans hwf
  have hwant : ((d.advanceTo at_).setChan c { d.chan c with reconAt := none }).wantForce c = d.forceMode c := by
    simp only [Dev.wantForce, Dev.forceMode, Dev.chan_setChan_same, Dev.is_setChan, Dev.is_advanceTo, hhiz, hol, hpat]
    rfl
  obtain ⟨_, _, _, hchan⟩ := Dev.chan_syncForce (c := c) (.inr hoff)
  rw [Dev.chan_setChan_same] at hchan
  rw [heq, Dev.wfSettle_not_refused (by rw [hchan]; exact href)]
  refine ⟨by rw [hchan], ?_, ?_⟩
  · rw [Dev.forceNow_syncForce (.inr hoff), hwant]
  · exact (Dev.chanOnly_syncForce _ hc).mclk.trans (d.mclk_advanceTo at_)

/-! ## PPMU_CTRL_WRITE (R108, R120) -/

/-- An edge die holds a register as it has just been written. -/
theorem Dev.eget_storeReg_same (d : Dev) {a e : Nat} (v : Nat) (desc : Option Nat) {g : Fld} (hg : g.addr = a) (he : edgeOf a = some e) :
    (d.storeReg a v desc).eget g = (d.storeReg a v desc).get g := by
  have hold : Tab.get (fun _ => none) (d.storeReg a v desc).edgeOld g.addr = none := by
    unfold Dev.storeReg Dev.edgeTake
    dsimp only
    rw [he, hg]
    dsimp only [Dev.setDie]
    rw [Tab.get_set_same, Dev.word_setWord, if_pos rfl]
  rw [Dev.eget, hold]

theorem ppmuCtrlStored_lt (old v : Nat) : ppmuCtrlStored old v < 2 ^ 11 := by
  unfold ppmuCtrlStored bitsOf
  dsimp only
  split <;> split <;> omega

/-- WF_EN is stored as it is written. -/
theorem testBit_ppmuCtrlStored (old v : Nat) : (ppmuCtrlStored old v).testBit 6 = v.testBit 6 := by
  have hbits : ppmuCtrlStored old v / 2 ^ 6 % 2 = v / 2 ^ 6 % 2 := by
    unfold ppmuCtrlStored bitsOf
    dsimp only
    split <;> split <;> omega
  rw [Nat.testBit_eq_decide_div_mod_eq, hbits, Nat.testBit_eq_decide_div_mod_eq]

/-- A write that leaves WF_EN clear, on a channel that no step uses, plays no waveform: the force mode follows and DAC 10 converts. -/
theorem Dev.ppmuCtrlEffect_no_wf {d : Dev} {c new : Nat} (old : Nat) (hwf : d.wfOn c = false) (href : (d.chan c).wfRefused = false)
    (hnew : new.testBit 6 = false) : d.ppmuCtrlEffect c old new = ((d.put (ppmuCompl c) 0).syncForce c).reconvert c 10 := by
  have hoff : (d.put (ppmuCompl c) 0).wfOn c = false := (d.wfOn_put c 0 (by simp [ppmuCompl, ppmuWfEn])).trans hwf
  obtain ⟨_, _, _, hsync⟩ := Dev.chan_syncForce (c := c) (.inr hoff)
  obtain ⟨_, hconv⟩ := ((d.put (ppmuCompl c) 0).syncForce c).chan_reconvert c 10
  unfold Dev.ppmuCtrlEffect
  dsimp only
  rw [hnew, Bool.false_and, Bool.false_and, Bool.false_and, if_neg (by decide),
    Dev.wfSettle_not_refused (by rw [hconv, hsync]; exact href)]

/-- Then the register keeps its word, and COMPL and WF_RUN read 0. -/
theorem Dev.ppmuCtrlEffect_reads {d : Dev} {c new : Nat} (old : Nat) (hwf : d.wfOn c = false) (href : (d.chan c).wfRefused = false)
    (hnew : new.testBit 6 = false) :
    (d.ppmuCtrlEffect c old new).word (0x1000600 + 0x1000 * c) = d.word (0x1000600 + 0x1000 * c) ∧
    (d.ppmuCtrlEffect c old new).is (ppmuCompl c) = false ∧ (d.ppmuCtrlEffect c old new).is (ppmuWfRun c) = false := by
  have hoff : (d.put (ppmuCompl c) 0).wfOn c = false := (d.wfOn_put c 0 (by simp [ppmuCompl, ppmuWfEn])).trans hwf
  have hconv := ((d.put (ppmuCompl c) 0).syncForce c).keepsRegs_reconvert c 10
  rw [Dev.ppmuCtrlEffect_no_wf old hwf href hnew]
  refine ⟨?_, ?_, ?_⟩
  · rw [hconv _ (by simp [calClipped, peIdeal, peHold]; omega), Dev.keepsRegs_syncForce_no_wf hoff _ (by simp [ppmuForceNow])]
    exact d.word_put_ne _ _ (by simp [ppmuCompl])
  · rw [hconv.is (by simp [ppmuCompl, calClipped, peIdeal, peHold]; omega), Dev.is, Dev.get_syncForce (.inr hoff) (by simp [ppmuCompl])]
    exact d.is_put_zero _ (by simp [ppmuCompl])
  · rw [hconv.is (by simp [ppmuWfRun, calClipped, peIdeal, peHold]; omega)]
    exact Dev.is_wfRun_syncForce (.inr hoff)

/-- A channel's PPMU_CTRL lies on its die, and its word there is the written one. -/
theorem Dev.wfOn_storeReg_ppmuCtrl (d : Dev) {c v : Nat} (hc : c < 256) (huse : (d.chan c).ppmuUse = none) (hv : v < 2 ^ 32)
    (h : v.testBit 6 = false) : (d.storeReg (0x1000600 + 0x1000 * c) v).wfOn c = false := by
  have hchan : ((d.storeReg (0x1000600 + 0x1000 * c) v).chan c).ppmuUse = none := by rw [Dev.chan, Dev.chans_storeReg]; exact huse
  have hget : (d.storeReg (0x1000600 + 0x1000 * c) v).eget (ppmuWfEn c) = 0 := by
    rw [d.eget_storeReg_same (a := 0x1000600 + 0x1000 * c) v none rfl (if_pos (by omega)), Dev.get, ppmuWfEn, Dev.word_storeReg,
      BitVec.toNat_ofNat, Nat.mod_eq_of_lt hv]
    rw [Nat.testBit_eq_decide_div_mod_eq, decide_eq_false_iff_not, Nat.mod_two_not_eq_one] at h
    exact h
  rw [Dev.wfOn, hchan]
  dsimp only
  rw [Dev.eis, hget]
  rfl

theorem Dev.ppmuCtrlWrite_idle {d : Dev} {c v : Nat} (req : Requester) (hc : c < 256) (haw : d.awake = true)
    (hrun : d.running (ownerAt (0x1000600 + 0x1000 * c)) = false) (huse : (d.chan c).ppmuUse = none)
    (href : (d.chan c).wfRefused = false) (hv : v.testBit 6 = false) :
    (d.ppmuCtrlWrite req c v).word (0x1000600 + 0x1000 * c) =
      BitVec.ofNat 32 (ppmuCtrlStored (d.word (0x1000600 + 0x1000 * c)).toNat v) ∧
    (d.ppmuCtrlWrite req c v).is (ppmuCompl c) = false ∧ (d.ppmuCtrlWrite req c v).is (ppmuWfRun c) = false := by
  have heq : d.ppmuCtrlWrite req c v = _ := Dev.lockedWrite_idle req (ppmuCtrlStored (d.word (0x1000600 + 0x1000 * c)).toNat v)
    (fun d old new => d.ppmuCtrlEffect c old new) haw hrun
  have hnew := (testBit_ppmuCtrlStored (d.word (0x1000600 + 0x1000 * c)).toNat v).trans hv
  have hlt := ppmuCtrlStored_lt (d.word (0x1000600 + 0x1000 * c)).toNat v
  rw [heq]
  generalize ppmuCtrlStored (d.word (0x1000600 + 0x1000 * c)).toNat v = new at hnew hlt ⊢
  have hchan : (d.storeReg (0x1000600 + 0x1000 * c) new).chan c = d.chan c := by rw [Dev.chan, Dev.chans_storeReg]; rfl
  obtain ⟨hword, hrest⟩ := Dev.ppmuCtrlEffect_reads (d.edgeWord (0x1000600 + 0x1000 * c)).toNat
    (d.wfOn_storeReg_ppmuCtrl hc huse (by omega) hnew) (by rw [hchan]; exact href) hnew
  exact ⟨hword.trans (d.word_storeReg _ _ _), hrest⟩

/-! ## The statement -/

/-- Settles O24: each command is one branch of its function; where no mode is in effect or no waveform is asked for, the force mode
follows and play stops. -/
theorem parametricSupervisionSetsAndClears : Obligations.ParametricSupervisionSetsAndClears := by
  refine ⟨?_, ?_, ?_, ?_, ?_⟩
  · intro s c hf haw
    exact .of_onDev (fun d => d.ppmuComplRow c) rfl rfl (Dev.ppmuComplRow_effect hf haw)
  · intro s c hf haw
    exact .of_onDev (fun d => d.ppmuOpenLoop c) rfl rfl (Dev.ppmuOpenLoop_effect hf haw)
  · intro s c v haw hrun
    obtain ⟨hfault, hwait, hkeep, halone⟩ := Dev.ppmuFaultClear_effect v.toNat c.2 hrun
    refine .of_onDev (fun d => d.faultClearWrite (0x1000608 + 0x1000 * c) v.toNat fun d => d.ppmuFaultClear c v.toNat) rfl (if_pos haw)
      ⟨fun b hb => ?_, hwait, hkeep, halone⟩
    have hmask : (v.toNat % 8).testBit b = v.toNat.testBit b := by
      rw [Nat.testBit_mod_two_pow v.toNat 3 b, decide_eq_true hb, Bool.true_and]
    rw [hfault, testBit_sub_and, hmask]
  · intro s c at_ hat hwf href hhiz hol hpat
    exact .of_onDevIdle (fun d => d.ppmuReconnect c) rfl rfl (Dev.ppmuReconnect_returns c.2 hat hwf href hhiz hol hpat)
  · intro s req c v haw hrun huse href hv
    exact .of_onDevIdle (fun d => d.ppmuCtrlWrite req c v.toNat) rfl rfl (Dev.ppmuCtrlWrite_idle req c.2 haw hrun huse href hv)

end Sys2Proof.Machine
end

section
/-!
PROOFS. The segments of a waveform and their jumps, and the samples of a PPMU step (R99, R100, R109, R112 to R114, R116).
-/

namespace Sys2Proof.Machine

/-! ## A jump request (R112, R113) -/

theorem Dev.wfJump_playing {d : Dev} {c t : Nat} (h : d.is (ppmuWfRun c) = true) :
    d.wfJump c t = if d.mclk + 8 * d.wfDiv c < (d.chan c).wfEnd then d.setChan c { d.chan c with wfReq := some t }
      else d.setChan c { d.chan c with wfLate := some t } := if_neg (by simp [h])

/-- The request goes into the part that its time gives; the other part and every other channel stay. -/
theorem Dev.wfJump_effect {d : Dev} {c t : Nat} (h : d.is (ppmuWfRun c) = true) :
    (d.mclk + 8 * d.wfDiv c < (d.chan c).wfEnd →
      ((d.wfJump c t).chan c).wfReq = some t ∧ ((d.wfJump c t).chan c).wfLate = (d.chan c).wfLate) ∧
    ((d.chan c).wfEnd ≤ d.mclk + 8 * d.wfDiv c →
      ((d.wfJump c t).chan c).wfLate = some t ∧ ((d.wfJump c t).chan c).wfReq = (d.chan c).wfReq) ∧
    (∀ i, i ≠ c → (d.wfJump c t).chan i = d.chan i) ∧ { d.wfJump c t with chans := d.chans } = d := by
  rw [Dev.wfJump_playing h]
  by_cases hin : d.mclk + 8 * d.wfDiv c < (d.chan c).wfEnd
  · rw [if_pos hin, Dev.chan_setChan_same]
    exact ⟨fun _ => ⟨rfl, rfl⟩, fun hlate => absurd hin (by omega), fun i hi => by rw [Dev.chan_setChan, if_neg (Ne.symm hi)], rfl⟩
  · rw [if_neg hin, Dev.chan_setChan_same]
    exact ⟨fun h => absurd h hin, fun _ => ⟨rfl, rfl⟩, fun i hi => by rw [Dev.chan_setChan, if_neg (Ne.symm hi)], rfl⟩

/-! ## A sample reaches DAC 10 (R110) -/

/-- It changes registers and channels alone, and of its channel the DACs and the settings of the step. -/
theorem Dev.wfPut_eq (d : Dev) (c code : Nat) : ∃ regs chans, d.wfPut c code = { d with regs := regs, chans := chans } := by
  unfold Dev.wfPut
  dsimp only
  split
  next u _ => exact Dev.reconvert_eq (d.setChan c { d.chan c with ppmuUse := some { u with code := code } }) c 10
  next => exact Dev.reconvert_eq (d.put (peIdeal c 10) code) c 10

theorem Dev.chan_wfPut (d : Dev) (c code : Nat) :
    ∃ dacs use, (d.wfPut c code).chan c = { d.chan c with dacs := dacs, ppmuUse := use } := by
  unfold Dev.wfPut
  dsimp only
  split
  next u _ =>
    obtain ⟨_, hconv⟩ := (d.setChan c { d.chan c with ppmuUse := some { u with code := code } }).chan_reconvert c 10
    rw [hconv, Dev.chan_setChan_same]
    exact ⟨_, _, rfl⟩
  next =>
    obtain ⟨_, hconv⟩ := (d.put (peIdeal c 10) code).chan_reconvert c 10
    rw [hconv]
    exact ⟨_, _, rfl⟩

theorem Dev.keepsRegs_wfPut (d : Dev) (c code : Nat) :
    d.KeepsRegs (d.wfPut c code) [(calClipped c).addr, (peIdeal c 10).addr, (peHold c).addr] := by
  unfold Dev.wfPut
  refine Dev.KeepsRegs.trans ?_ (Dev.keepsRegs_reconvert _ c 10)
  split
  · exact d.keepsRegs_refl _
  · exact Dev.keepsRegs_put _ _ (by simp) (d.keepsRegs_refl _)

/-- The PPMU's status word stays. -/
theorem Dev.word_wfPut_status (d : Dev) (c code : Nat) :
    (d.wfPut c code).word (0x1000604 + 0x1000 * c) = d.word (0x1000604 + 0x1000 * c) :=
  d.keepsRegs_wfPut c code _ (by simp only [calClipped, peIdeal, peHold, List.mem_cons, List.not_mem_nil, or_false]; omega)

/-- The segment table and the waveform memory stay. -/
theorem Dev.eget_wfPut (d : Dev) {c : Nat} (code : Nat) (hc : c < 256) {g : Fld} (hg : 0x1100000 ≤ g.addr) :
    (d.wfPut c code).eget g = d.eget g := by
  have hget : (d.wfPut c code).get g = d.get g := (d.keepsRegs_wfPut c code).get (by
    simp only [calClipped, peIdeal, peHold, List.mem_cons, List.not_mem_nil, or_false]; omega)
  have hold : (d.wfPut c code).edgeOld = d.edgeOld := by
    obtain ⟨_, _, h⟩ := d.wfPut_eq c code
    rw [h]
  rw [Dev.eget, hold, hget, Dev.eget]

/-! ## A trigger event leaves the channels (R282) -/

/-- The channels and the words of the edge dies are the same. -/
def Dev.SameChannels (d e : Dev) : Prop := e.chans = d.chans ∧ ∀ a, 0x1000000 ≤ a → e.word a = d.word a

theorem Dev.SameChannels.refl (d : Dev) : d.SameChannels d := ⟨rfl, fun _ _ => rfl⟩

theorem Dev.SameChannels.trans {d e f : Dev} (h : d.SameChannels e) (k : e.SameChannels f) : d.SameChannels f :=
  ⟨k.1.trans h.1, fun a ha => (k.2 a ha).trans (h.2 a ha)⟩

theorem Dev.SameChannels.ite {d e f : Dev} {p : Prop} [Decidable p] (h : d.SameChannels e) (k : d.SameChannels f) :
    d.SameChannels (if p then e else f) := by
  split
  · exact h
  · exact k

theorem Dev.sameChannels_auMissed (d : Dev) {a : Nat} (ha : a < 32) : d.SameChannels (d.auMissed a) := by
  have hcount (x : Au) : d.SameChannels ((d.setAu a x).bump (auCntMiss a)) :=
    ⟨rfl, fun b hb => Dev.word_bump_ne _ _ (by simp only [auCntMiss]; omega)⟩
  have hevent (e : Dev) (src code pay : Nat) : e.SameChannels (e.event src code pay) :=
    ⟨e.event_chans src code pay, fun b hb => e.word_event src code pay b (by omega)⟩
  unfold Dev.auMissed
  exact .ite (hcount _) ((hcount _).trans (hevent _ _ _ _))

theorem Dev.sameChannels_auEvent (d : Dev) {a : Nat} (ha : a < 32) (tick : Nat) : d.SameChannels (d.auEvent a tick) := by
  unfold Dev.auEvent
  exact .ite (.ite (.refl d) ⟨rfl, fun _ _ => rfl⟩) (.ite (d.sameChannels_auMissed ha) (.refl d))

theorem Dev.sameChannels_auEvents (d : Dev) (kind idx : Nat) (rise : Option Bool) (tick : Nat) :
    d.SameChannels (d.auEvents kind idx rise tick) := by
  unfold Dev.auEvents Dev.forEach
  refine List.foldlRecOn (motive := d.SameChannels) _ _ (.refl d) fun e he a ha => he.trans ?_
  exact .ite (e.sameChannels_auEvent (List.mem_range.1 ha) tick) (.refl e)

/-! ## A play of a segment begins (R109) -/

/-- The device as a play of segment `seg` is shown, before its first sample; `left` plays follow. -/
def Dev.playShown (d : Dev) (c seg left : Nat) : Dev :=
  let e := (d.put (ppmuWfRun c) 1).put (ppmuWfSeg c) seg
  e.setChan c { e.chan c with wfLeft := left, wfEnd := e.mclk + e.eget (pedSegLength (dieOf c) seg) * e.wfDiv c }

theorem Dev.chan_playShown (d : Dev) (c seg left : Nat) :
    ∃ stop, (d.playShown c seg left).chan c = { d.chan c with wfLeft := left, wfEnd := stop } := by
  have hregs : ((d.put (ppmuWfRun c) 1).put (ppmuWfSeg c) seg).chan c = d.chan c := rfl
  unfold Dev.playShown
  dsimp only
  rw [Dev.chan_setChan_same, hregs]
  exact ⟨_, rfl⟩

/-- The device with the first sample of the play on DAC 10. -/
def Dev.playBegun (d : Dev) (c seg left : Nat) : Dev :=
  (d.playShown c seg left).wfPut c
    ((d.playShown c seg left).wfSample (dieOf c) ((d.playShown c seg left).eget (pedSegStart (dieOf c) seg)))

theorem Dev.wfPlay_good {d : Dev} {c seg : Nat} (left : Nat) (h : d.segBad (dieOf c) seg = false) :
    d.wfPlay c seg left = if (d.playBegun c seg left).eis (pedSegTrig (dieOf c) seg) then
      (d.playBegun c seg left).auEvents 8 c none (4096 * (d.playBegun c seg left).mclk) else d.playBegun c seg left := by
  unfold Dev.wfPlay
  dsimp only
  rw [if_neg (by simp [h])]
  rfl

theorem Dev.sameChannels_wfPlay {d : Dev} {c seg : Nat} (left : Nat) (h : d.segBad (dieOf c) seg = false) :
    (d.playBegun c seg left).SameChannels (d.wfPlay c seg left) := by
  rw [Dev.wfPlay_good left h]
  exact .ite (Dev.sameChannels_auEvents _ _ _ _ _) (.refl _)

/-- A play of a segment that R114 admits: WF_RUN and WF_SEG show it, and of the channel the count and the end of the play change. -/
theorem Dev.wfPlay_effect {d : Dev} {c seg : Nat} (left : Nat) (h : d.segBad (dieOf c) seg = false) :
    (d.wfPlay c seg left).is (ppmuWfRun c) = true ∧ (d.wfPlay c seg left).get (ppmuWfSeg c) = seg % 2 ^ 8 ∧
    ∃ stop dacs use, (d.wfPlay c seg left).chan c = { d.chan c with wfLeft := left, wfEnd := stop, dacs := dacs, ppmuUse := use } := by
  obtain ⟨hchans, hword⟩ := Dev.sameChannels_wfPlay left h
  have hget {g : Fld} (hg : g.addr = 0x1000604 + 0x1000 * c) :
      (d.wfPlay c seg left).get g = ((d.put (ppmuWfRun c) 1).put (ppmuWfSeg c) seg).get g := by
    rw [Dev.get, hword _ (by omega), Dev.playBegun, hg, Dev.word_wfPut_status, ← hg]
    rfl
  have hchan : (d.wfPlay c seg left).chan c = (d.playBegun c seg left).chan c := by rw [Dev.chan, hchans, Dev.chan]
  refine ⟨?_, ?_, ?_⟩
  · rw [Dev.is, hget rfl, Dev.get_put_bits _ _ _ _ (by simp [ppmuWfSeg]) (by simp [ppmuWfSeg, ppmuWfRun])]
    exact d.is_put_one _ (by simp [ppmuWfRun]) rfl
  · rw [hget rfl]
    exact Dev.get_put _ _ _ (by simp [ppmuWfSeg])
  · obtain ⟨stop, hshown⟩ := d.chan_playShown c seg left
    obtain ⟨dacs, use, hput⟩ := Dev.chan_wfPut (d.playShown c seg left) c
      ((d.playShown c seg left).wfSample (dieOf c) ((d.playShown c seg left).eget (pedSegStart (dieOf c) seg)))
    refine ⟨stop, dacs, use, ?_⟩
    rw [hchan, Dev.playBegun, hput, hshown]

/-! ## The last sample of a play has played (R109, R112, R113) -/

/-- The device when the last sample of a play has played in full. -/
def Dev.playOut (d : Dev) (c : Nat) : Dev :=
  let e := d.advanceTo (d.chan c).wfEnd
  e.wfPut c (e.wfSample (dieOf c)
    (e.eget (pedSegStart (dieOf c) (d.get (ppmuWfSeg c))) + e.eget (pedSegLength (dieOf c) (d.get (ppmuWfSeg c))) - 1))

/-- Then the request that came too late for the play stands for the next one. -/
def Dev.playEnded (d : Dev) (c : Nat) : Dev :=
  (d.playOut c).setChan c { (d.playOut c).chan c with wfReq := ((d.playOut c).chan c).wfLate, wfLate := none }

theorem Dev.chan_playOut (d : Dev) (c : Nat) : ∃ dacs use, (d.playOut c).chan c = { d.chan c with dacs := dacs, ppmuUse := use } :=
  Dev.chan_wfPut (d.advanceTo (d.chan c).wfEnd) c _

theorem Dev.chan_playEnded (d : Dev) (c : Nat) : ∃ dacs use, (d.playEnded c).chan c =
    { d.chan c with wfReq := (d.chan c).wfLate, wfLate := none, dacs := dacs, ppmuUse := use } := by
  obtain ⟨dacs, use, hout⟩ := d.chan_playOut c
  refine ⟨dacs, use, ?_⟩
  rw [Dev.playEnded, Dev.chan_setChan_same, hout]

section
variable (d : Dev) {c : Nat} (hc : c < 256)
include hc

theorem Dev.mclk_playEnded : (d.playEnded c).mclk = max d.mclk (d.chan c).wfEnd := by
  rw [Dev.playEnded, Dev.setChan_mclk, Dev.playOut, (Dev.chanOnly_wfPut _ hc _).mclk, Dev.mclk_advanceTo]

theorem Dev.eget_playEnded {g : Fld} (hg : 0x1100000 ≤ g.addr) : (d.playEnded c).eget g = d.eget g := by
  have hout : (d.playOut c).eget g = d.eget g := Dev.eget_wfPut (d.advanceTo (d.chan c).wfEnd) _ hc hg
  rw [← hout]
  rfl

theorem Dev.segBad_playEnded (i : Nat) : (d.playEnded c).segBad (dieOf c) i = d.segBad (dieOf c) i := by
  rw [Dev.segBad, d.eget_playEnded hc (by simp only [pedSegLength]; omega), d.eget_playEnded hc (by simp only [pedSegStart]; omega),
    Dev.segBad]

end

section
variable {d : Dev} {c : Nat} (hrun : d.is (ppmuWfRun c) = true) (hreq : (d.chan c).wfReq = none)
include hrun hreq

/-- With no jump requested a segment is played as often as its count says, and then its successor or none. -/
theorem Dev.wfSegmentEnd_eq :
    d.wfSegmentEnd c = (if 0 < (d.chan c).wfLeft then (d.playEnded c).wfPlay c (d.get (ppmuWfSeg c)) ((d.chan c).wfLeft - 1)
      else if (d.playEnded c).eis (pedSegEnd (dieOf c) (d.get (ppmuWfSeg c))) then (d.playEnded c).wfStop c
      else (d.playEnded c).wfEnter c ((d.playEnded c).eget (pedSegNext (dieOf c) (d.get (ppmuWfSeg c))))).wfSettle c := by
  have hfold : d.wfSegmentEnd c = (match ((d.playOut c).chan c).wfReq with
      | some t => (d.playEnded c).wfEnter c t
      | none =>
        if 0 < ((d.playOut c).chan c).wfLeft then (d.playEnded c).wfPlay c (d.get (ppmuWfSeg c)) (((d.playOut c).chan c).wfLeft - 1)
        else if (d.playEnded c).eis (pedSegEnd (dieOf c) (d.get (ppmuWfSeg c))) then (d.playEnded c).wfStop c
        else (d.playEnded c).wfEnter c ((d.playEnded c).eget (pedSegNext (dieOf c) (d.get (ppmuWfSeg c))))).wfSettle c :=
    if_neg (by simp [hrun])
  obtain ⟨_, _, hout⟩ := d.chan_playOut c
  rw [hfold, hout]
  dsimp only
  rw [hreq]

/-- A segment that has no play left and no successor ends the waveform. -/
theorem Dev.wfSegmentEnd_last (hc : c < 256) (href : (d.chan c).wfRefused = false) (hleft : (d.chan c).wfLeft = 0)
    (hend : d.eis (pedSegEnd (dieOf c) (d.get (ppmuWfSeg c))) = true) :
    (d.wfSegmentEnd c).is (ppmuWfRun c) = false ∧ (d.wfSegmentEnd c).mclk = max d.mclk (d.chan c).wfEnd := by
  obtain ⟨_, _, hchan⟩ := d.chan_playEnded c
  have hlast : (d.playEnded c).eis (pedSegEnd (dieOf c) (d.get (ppmuWfSeg c))) = true := by
    rw [Dev.eis, d.eget_playEnded hc (by simp only [pedSegEnd]; omega), ← Dev.eis, hend]
  have hstop : d.wfSegmentEnd c = (d.playEnded c).wfStop c := by
    rw [Dev.wfSegmentEnd_eq hrun hreq, if_neg (by omega), if_pos hlast]
    exact Dev.wfSettle_not_refused (by rw [Dev.chan_wfStop, hchan]; exact href)
  rw [hstop]
  exact ⟨Dev.is_wfRun_wfStop _ c, (Dev.chanOnly_wfStop _ hc).mclk.trans (d.mclk_playEnded hc)⟩

/-- A segment with plays left is played again, one fewer after it, and the late request comes into its own. -/
theorem Dev.wfSegmentEnd_again (hc : c < 256) (href : (d.chan c).wfRefused = false) (hleft : 0 < (d.chan c).wfLeft)
    (hgood : d.segBad (dieOf c) (d.get (ppmuWfSeg c)) = false) :
    (d.wfSegmentEnd c).is (ppmuWfRun c) = true ∧ (d.wfSegmentEnd c).get (ppmuWfSeg c) = d.get (ppmuWfSeg c) ∧
    ((d.wfSegmentEnd c).chan c).wfLeft = (d.chan c).wfLeft - 1 ∧ ((d.wfSegmentEnd c).chan c).wfReq = (d.chan c).wfLate := by
  obtain ⟨_, _, hchan⟩ := d.chan_playEnded c
  obtain ⟨hplays, hseg, _, _, _, hplay⟩ := Dev.wfPlay_effect ((d.chan c).wfLeft - 1) ((d.segBad_playEnded hc _).trans hgood)
  rw [hchan] at hplay
  have hagain : d.wfSegmentEnd c = (d.playEnded c).wfPlay c (d.get (ppmuWfSeg c)) ((d.chan c).wfLeft - 1) := by
    rw [Dev.wfSegmentEnd_eq hrun hreq, if_pos hleft]
    exact Dev.wfSettle_not_refused (by rw [hplay]; exact href)
  rw [hagain]
  exact ⟨hplays, hseg.trans (Nat.mod_eq_of_lt (d.get_lt (ppmuWfSeg c))), by rw [hplay], by rw [hplay]⟩

end

/-! ## The results of a RUN's step -/

/-- A RUN with the result of one channel changed. -/
def OpenRun.resChanged (r : OpenRun) (c : Nat) (f : Res → Res) : OpenRun :=
  { r with res := r.res.map fun y => if y.unit = c then f y else y }

theorem Dev.mapRes_of_runById {d : Dev} {id : Nat} {r : OpenRun} (h : d.runById id = some r) (c : Nat) (f : Res → Res) :
    d.mapRes id c f = d.setRun (r.resChanged c f) := by
  rw [Dev.mapRes, h]
  rfl

theorem OpenRun.unit_of_chanRes {r : OpenRun} {c : Nat} {y : Res} (h : r.chanRes c = some y) : y.unit = c := by
  simpa using List.find?_some h

/-- A change that keeps the channel of a result is found in its place. -/
theorem OpenRun.chanRes_resChanged {r : OpenRun} {c : Nat} {y : Res} {f : Res → Res} (h : r.chanRes c = some y)
    (hf : ∀ z : Res, z.unit = c → (f z).unit = c) : (r.resChanged c f).chanRes c = some (f y) := by
  have hsame : ((fun z : Res => z.unit == c) ∘ fun z => if z.unit = c then f z else z) = fun z => z.unit == c := by
    funext z
    by_cases hz : z.unit = c <;> simp [hz, hf]
  unfold OpenRun.chanRes OpenRun.resChanged at *
  dsimp only
  rw [List.find?_map, hsame, h, Option.map_some, if_pos (OpenRun.unit_of_chanRes h)]

/-- The RUN of a touchdown is found as it has been set. -/
theorem Dev.findRun_setRun {d : Dev} {td : Nat} {r r' : OpenRun} (h : d.findRun td = some r) (hid : r'.id = r.id) (htd : r'.td = td) :
    (d.setRun r').findRun td = some r' := by
  unfold Dev.findRun Dev.setRun at *
  dsimp only
  generalize d.runs = l at h ⊢
  induction l with
  | nil => cases h
  | cons x xs ih =>
    rw [List.map_cons]
    by_cases hx : x.id = r'.id
    · rw [if_pos hx, List.find?_cons_of_pos (by simp [htd])]
    · have hne : x.td ≠ td := by
        intro heq
        rw [List.find?_cons_of_pos (by simp [heq])] at h
        cases h
        exact hx hid.symm
      rw [if_neg hx, List.find?_cons_of_neg (by simp [hne])]
      exact ih (by rwa [List.find?_cons_of_neg (by simp [hne])] at h)

/-! ## A sample of a reading (R99) -/

/-- A reading that asks for more samples takes one in its moment. -/
structure Dev.TakesMore (d : Dev) (r : OpenRun) (st : StepData) (c : Nat) (y : Res) : Prop where
  run : d.runById r.id = some r
  res : r.chanRes c = some y
  begun : y.begun = true
  settled : y.settled = true
  open_ : y.fin = none
  driven : d.is (peParked c) = false
  more : y.samples.length + 1 < (st.ppmuUse r.td c).samples

/-- The result with the sample in its reading. -/
def Dev.sampled (d : Dev) (c code : Nat) (y : Res) : Res :=
  { y with samples := code :: y.samples, compl := (if y.samples.isEmpty then false else y.compl) || d.is (ppmuCompl c) }

theorem Dev.TakesMore.ppmuTake {d : Dev} {r : OpenRun} {st : StepData} {c : Nat} {y : Res} (h : d.TakesMore r st c y) (code : Nat) :
    let e := (d.advanceTo (y.t0 + us (y.samples.length + 1))).put (ppmuResult c) code
    d.ppmuTake r st c code = e.setRun (r.resChanged c fun _ => e.sampled c code y) := by
  obtain ⟨hrun, hres, hbegun, hset, hopen, hdriven, hmore⟩ := h
  unfold Dev.ppmuTake
  rw [hres]
  dsimp only
  rw [if_neg (by simp [hbegun, hset, hopen, hdriven]; omega), if_pos (by rw [List.length_cons]; omega)]
  exact Dev.mapRes_of_runById (d := (d.advanceTo (y.t0 + us (y.samples.length + 1))).put (ppmuResult c) code) hrun c _

/-- The sample is shown, time goes on to its moment, and it joins the reading of its channel. -/
theorem Dev.TakesMore.effect {d : Dev} {r : OpenRun} {st : StepData} {c td code : Nat} {y : Res} (h : d.TakesMore r st c y)
    (hfind : d.findRun td = some r) (hcode : code < 2 ^ 18) :
    (d.ppmuTake r st c code).get (ppmuResult c) = code ∧
    (d.ppmuTake r st c code).mclk = max d.mclk (y.t0 + 1500 * (y.samples.length + 1)) ∧
    ∃ r' compl, (d.ppmuTake r st c code).findRun td = some r' ∧
      r'.chanRes c = some { y with samples := code :: y.samples, compl := compl } := by
  have htd : r.td = td := by simpa using List.find?_some hfind
  rw [h.ppmuTake code]
  refine ⟨?_, d.mclk_advanceTo _, _, _, Dev.findRun_setRun hfind rfl htd,
    OpenRun.chanRes_resChanged h.res fun _ _ => (OpenRun.unit_of_chanRes h.res : y.unit = c)⟩
  rw [Dev.get_setRun, Dev.get_put _ _ _ (by simp [ppmuResult])]
  exact Nat.mod_eq_of_lt hcode

/-! ## PPMU_SAMPLE (R99, R100) -/

section
variable {d : Dev} {td c code : Nat} (hdriven : d.is (peParked c) = false) (haw : d.awake = true)
include hdriven haw

/-- Outside a step a sample only shows. -/
theorem Dev.ppmuSample_no_run (hfind : d.findRun td = none) : d.ppmuSample td c code = d.put (ppmuResult c) code := by
  unfold Dev.ppmuSample
  rw [if_neg (by simp [hdriven, haw]), hfind]

theorem Dev.ppmuSample_step {r : OpenRun} {st : StepData} {y : Res} (hfind : d.findRun td = some r) (hphase : r.phase = .running)
    (hstep : r.step? = some st) (hkind : st.kind = kPpmu) (hres : r.chanRes c = some y) :
    d.ppmuSample td c code = d.ppmuTake r st c code := by
  unfold Dev.ppmuSample
  rw [if_neg (by simp [hdriven, haw]), hfind]
  dsimp only
  rw [hphase, hstep]
  exact if_pos ⟨hkind, by rw [hres]; rfl⟩

end

/-! ## PPMU_SETTLE_EXPIRY (R99) -/

/-- A result whose settle time has ended: its reading begins then. -/
def Res.settledAt (t : Nat) (y : Res) : Res := { y with settled := true, t0 := t }

section
variable {d : Dev} {td c code : Nat} {r : OpenRun} {st : StepData} {y : Res} (hfind : d.findRun td = some r)
  (hid : d.runById r.id = some r) (hphase : r.phase = .running) (hstep : r.step? = some st) (hkind : st.kind = kPpmu)
  (hres : r.chanRes c = some y) (hbegun : y.begun = true) (hset : y.settled = false) (hopen : y.fin = none)
include hfind hid hphase hstep hkind hres hbegun hset hopen

/-- The settle time of one channel's result ends: the result is settled and the channel takes its first sample. -/
theorem Dev.ppmuSettle_one {t : Nat} (ht : y.t0 + us (st.ppmuUse td c).settle = t) :
    d.ppmuSettle td y.site [(c, code)] =
      ((d.advanceTo t).setRun (r.resChanged c (Res.settledAt t))).ppmuTake (r.resChanged c (Res.settledAt t)) st c code := by
  have hmap : (d.advanceTo t).mapRes r.id c (fun z => { z with settled := true, t0 := t }) =
      (d.advanceTo t).setRun (r.resChanged c (Res.settledAt t)) := Dev.mapRes_of_runById (d := d.advanceTo t) hid c _
  have hnow : ((d.advanceTo t).setRun (r.resChanged c (Res.settledAt t))).runById r.id = some (r.resChanged c (Res.settledAt t)) :=
    Dev.runById_setRun (d := d.advanceTo t) (r' := r.resChanged c (Res.settledAt t)) hid
  have hdue : (y.site == y.site && y.begun && !y.settled && y.fin.isNone) = true := by simp [hbegun, hset, hopen]
  unfold Dev.ppmuSettle
  rw [hfind]
  dsimp only
  rw [hphase, hstep]
  dsimp only
  rw [if_neg (by simp [hkind]), List.filter_cons_of_pos (by rw [hres]; exact hdue)]
  simp only [List.filter_nil, List.map_cons, List.map_nil, List.foldl_cons, List.foldl_nil, Nat.zero_max, hres, ht, hmap, hnow]

/-- A channel whose settle time ends and that reads more than one sample takes its first. -/
theorem Dev.ppmuSettle_takes (hdriven : d.is (peParked c) = false) (hempty : y.samples = [])
    (hmore : 2 ≤ (st.ppmuUse r.td c).samples) (hcode : code < 2 ^ 18) :
    (d.ppmuSettle td y.site [(c, code)]).get (ppmuResult c) = code ∧
    ∃ r' compl, (d.ppmuSettle td y.site [(c, code)]).findRun td = some r' ∧
      r'.chanRes c = some { y with
        settled := true, t0 := y.t0 + 1500 * (st.ppmuUse td c).settle, samples := [code], compl := compl } := by
  have htd : r.td = td := by simpa using List.find?_some hfind
  rw [Dev.ppmuSettle_one hfind hid hphase hstep hkind hres hbegun hset hopen rfl]
  generalize ht : y.t0 + us (st.ppmuUse td c).settle = t
  have htakes : ((d.advanceTo t).setRun (r.resChanged c (Res.settledAt t))).TakesMore (r.resChanged c (Res.settledAt t)) st c
      (Res.settledAt t y) :=
    { run := Dev.runById_setRun (d := d.advanceTo t) (r' := r.resChanged c (Res.settledAt t)) hid
      res := OpenRun.chanRes_resChanged hres fun _ hz => hz
      begun := hbegun
      settled := rfl
      open_ := hopen
      driven := hdriven
      more := by
        have hlen : (Res.settledAt t y).samples.length = 0 := congrArg List.length hempty
        rw [hlen]
        exact hmore }
  obtain ⟨hshown, -, r', compl, hfound, hread⟩ := htakes.effect (code := code)
    (Dev.findRun_setRun (d := d.advanceTo t) (r' := r.resChanged c (Res.settledAt t)) hfind rfl htd) hcode
  refine ⟨hshown, r', compl, hfound, hread.trans ?_⟩
  rw [← hempty, show y.t0 + 1500 * (st.ppmuUse td c).settle = t from ht]
  rfl

end

/-! ## The statement -/

/-- Settles O25: a request is one field of its channel, a play ends in one branch of its function, and a sample short of its reading's
last changes one result of its RUN. -/
theorem waveformSegmentsAndParametricSamples : Obligations.WaveformSegmentsAndParametricSamples := by
  refine ⟨⟨?_, ?_, ?_⟩, ?_, ?_, ?_, ?_⟩
  · intro s c v haw hrun
    obtain ⟨hin, hlate, hothers, halone⟩ := Dev.wfJump_effect (t := v.toNat % 256) hrun
    exact .of_onDev (fun d => d.orHold (0x1000624 + 0x1000 * c) v.toNat fun d => d.wfJump c (v.toNat % 256)) rfl (if_pos haw)
      ⟨hin, hlate, hothers, halone⟩
  · intro s c hrun href hreq hleft hend
    exact .of_onDevIdle (fun d => d.wfSegmentEnd c) rfl rfl (Dev.wfSegmentEnd_last hrun hreq c.2 href hleft hend)
  · intro s c hrun href hreq hleft hgood
    exact .of_onDevIdle (fun d => d.wfSegmentEnd c) rfl rfl (Dev.wfSegmentEnd_again hrun hreq c.2 href hleft hgood)
  · intro s td c code hdriven haw hfind
    refine .of_onDev (fun d => d.ppmuSample td.toNat c code.toNat) rfl (Dev.ppmuSample_no_run hdriven haw hfind)
      ⟨?_, Dev.keepsRegs_put _ _ (by simp) (s.dev.keepsRegs_refl _), rfl⟩
    exact (s.dev.get_put _ _ (by simp [ppmuResult])).trans (Nat.mod_eq_of_lt code.isLt)
  · intro s td c code r st y hdriven haw hfind hid hphase hstep hkind hres hbegun hset hopen hmore
    have htakes : s.dev.TakesMore r st c y := ⟨hid, hres, hbegun, hset, hopen, hdriven, hmore⟩
    obtain ⟨hshown, htime, r', compl, hfound, hread⟩ := htakes.effect hfind code.isLt
    exact .of_onDev (fun d => d.ppmuSample td.toNat c code.toNat) rfl (Dev.ppmuSample_step hdriven haw hfind hphase hstep hkind hres)
      ⟨hshown, htime, r', _, hfound, hread, rfl, hopen⟩
  · intro s td site c code r st y hdriven hfind hid hphase hstep hkind hres hsite hbegun hset hopen hempty hmore
    obtain ⟨hshown, r', compl, hfound, hread⟩ :=
      Dev.ppmuSettle_takes hfind hid hphase hstep hkind hres hbegun hset hopen hdriven hempty hmore code.isLt
    rw [hsite] at hshown hfound
    exact .of_onDev (fun d => d.ppmuSettle td.toNat site [(c.val, code.toNat)]) rfl rfl
      ⟨hshown, r', _, hfound, hread, rfl, rfl, rfl⟩
  · intro s td at_ hat hopen
    refine .of_onDev (fun d => d.budgetAdmit td.toNat) rfl rfl ?_
    rw [Dev.budgetAdmit, hat]
    exact if_pos hopen

end Sys2Proof.Machine
end

section
/-!
PROOFS. What the operations of the other units leave of the sequencers: time, their state, and every word of the sequencer and timing-set
blocks (R57 to R61, R93 to R114, R137 to R141, R230 to R236, R245, R276, R281, R456).
-/

namespace Sys2Proof.Machine

/-! ## Changes off the sequencers -/

/-- A word of the sequencer block or of the timing-set block (R591). -/
def SeqWord (a : Nat) : Prop := (0x100000 ≤ a ∧ a < 0x200000) ∨ (0x800000 ≤ a ∧ a < 0x1000000)

/-- From `d` to `d'`: no time passes, every sequencer stays, and so does every word of the sequencer and timing-set blocks. -/
structure Dev.OffSeq (d d' : Dev) : Prop where
  mclk : d'.mclk = d.mclk
  seq : ∀ i, d'.seq i = d.seq i
  word : ∀ a, SeqWord a → d'.word a = d.word a

theorem Dev.OffSeq.refl (d : Dev) : d.OffSeq d := ⟨rfl, fun _ => rfl, fun _ _ => rfl⟩

theorem Dev.OffSeq.trans {d e f : Dev} (h : d.OffSeq e) (k : e.OffSeq f) : d.OffSeq f :=
  ⟨k.mclk.trans h.mclk, fun i => (k.seq i).trans (h.seq i), fun a ha => (k.word a ha).trans (h.word a ha)⟩

theorem Dev.OffSeq.ite {d e f : Dev} {p : Prop} [Decidable p] (h : d.OffSeq e) (k : d.OffSeq f) : d.OffSeq (if p then e else f) := by
  split
  · exact h
  · exact k

/-- What each change of a list leaves, all of them leave. -/
theorem Dev.OffSeq.foldl {β : Type} {l : List β} {f : Dev → β → Dev} (h : ∀ d, ∀ i ∈ l, Dev.OffSeq d (f d i)) (d : Dev) :
    d.OffSeq (l.foldl f d) :=
  List.foldlRecOn l f (.refl d) fun d' hd i hi => hd.trans (h d' i hi)

theorem Dev.OffSeq.forEach {l : List Nat} {f : Dev → Nat → Dev} (h : ∀ d, ∀ i ∈ l, Dev.OffSeq d (f d i)) (d : Dev) :
    d.OffSeq (d.forEach l f) := .foldl h d

/-- A change of other units than the registers and the sequencers. -/
theorem Dev.offSeq_of_same {d d' : Dev} (hm : d'.mclk = d.mclk) (hs : d'.seqs = d.seqs) (hr : d'.regs = d.regs) : d.OffSeq d' :=
  ⟨hm, fun _ => by rw [Dev.seq, hs, Dev.seq], fun _ _ => by rw [Dev.word, hr, Dev.word]⟩

theorem Dev.offSeq_put (d : Dev) (f : Fld) (v : Nat) (h : ¬ SeqWord f.addr) : d.OffSeq (d.put f v) :=
  ⟨rfl, fun _ => rfl, fun _ ha => d.word_put_ne f v fun e => h (e ▸ ha)⟩

/-- The registers of the edge dies and of the ledger. -/
theorem Dev.offSeq_put_high (d : Dev) (f : Fld) (v : Nat) (h : 0x1000000 ≤ f.addr) : d.OffSeq (d.put f v) :=
  d.offSeq_put f v (by simp only [SeqWord]; omega)

theorem Dev.offSeq_event (d : Dev) (src code pay : Nat) : d.OffSeq (d.event src code pay) where
  mclk := d.event_mclk src code pay
  seq i := by rw [Dev.seq, d.event_seqs, Dev.seq]
  word a ha := d.word_event src code pay a (by simp only [SeqWord] at ha; omega)

theorem Dev.offSeq_setChan (d : Dev) (c : Nat) (x : Chan) : d.OffSeq (d.setChan c x) := Dev.offSeq_of_same rfl rfl rfl
theorem Dev.offSeq_setAu (d : Dev) (a : Nat) (x : Au) : d.OffSeq (d.setAu a x) := Dev.offSeq_of_same rfl rfl rfl
theorem Dev.offSeq_setDie (d : Dev) (e : Nat) (x : Die) : d.OffSeq (d.setDie e x) := Dev.offSeq_of_same rfl rfl rfl
theorem Dev.offSeq_setStrm (d : Dev) (s : Nat) (x : Strm) : d.OffSeq (d.setStrm s x) := Dev.offSeq_of_same rfl rfl rfl
theorem Dev.offSeq_setRun (d : Dev) (r : OpenRun) : d.OffSeq (d.setRun r) := Dev.offSeq_of_same rfl rfl rfl
theorem Dev.offSeq_led (d : Dev) (x : LedSt) : d.OffSeq { d with led := x } := Dev.offSeq_of_same rfl rfl rfl
theorem Dev.offSeq_st (d : Dev) (a n v : Nat) : d.OffSeq (d.st a n v) := Dev.offSeq_of_same rfl rfl rfl
theorem Dev.offSeq_emit (d : Dev) (o : Output) : d.OffSeq (d.emit o) := Dev.offSeq_of_same rfl rfl rfl
theorem Dev.offSeq_raise (d : Dev) (r : Report) : d.OffSeq (d.raise r) := Dev.offSeq_of_same rfl rfl rfl

/-! ## Checks and reports (R456, R474 to R477) -/

theorem Dev.offSeq_report (d : Dev) (src chk syn det scope : Nat) (level : Bool) :
    d.OffSeq (d.report src chk syn det scope level) := by
  obtain ⟨_, h⟩ := d.report_eq src chk syn det scope level
  rw [h]
  exact Dev.offSeq_of_same rfl rfl rfl

theorem Dev.offSeq_injUse (d : Dev) : d.OffSeq d.injUse := by
  have hleft : d.OffSeq (d.put fcuInjLeft (d.get fcuInjLeft - 1)) := d.offSeq_put _ _ (by simp [SeqWord, fcuInjLeft])
  unfold Dev.injUse
  exact .ite ((hleft.trans (Dev.offSeq_put _ fcuInjBusy _ (by simp [SeqWord, fcuInjBusy]))).trans
    (Dev.offSeq_put _ fcuInjBusyS _ (by simp [SeqWord, fcuInjBusyS]))) hleft

theorem Dev.offSeq_checkOnce (d : Dev) (src chk det scope : Nat) : d.OffSeq (d.checkOnce src chk det scope) := by
  unfold Dev.checkOnce
  split
  · split
    · exact d.offSeq_injUse.trans (Dev.offSeq_raise _ _)
    · exact .refl d
  · exact .refl d

theorem Dev.offSeq_checkTimes (d : Dev) (src chk det scope n : Nat) : d.OffSeq (d.checkTimes src chk det scope n) := by
  induction n generalizing d with
  | zero => exact .refl d
  | succ n ih =>
    unfold Dev.checkTimes
    exact .ite ((d.offSeq_checkOnce _ _ _ _).trans (ih _)) (.refl d)

theorem Dev.offSeq_checkReal (d : Dev) (src chk syn det scope : Nat) : d.OffSeq (d.checkReal src chk syn det scope) := by
  have hreal : d.OffSeq (if injSyndrome src chk != some syn then d.injUse.put fcuInjReal 1 else d.injUse) :=
    .ite (d.offSeq_injUse.trans (Dev.offSeq_put _ _ _ (by simp [SeqWord, fcuInjReal]))) d.offSeq_injUse
  unfold Dev.checkReal
  refine .ite ?_ (d.offSeq_report _ _ _ _ _ _)
  dsimp only
  split
  · exact hreal.trans (Dev.offSeq_raise _ _)
  · exact hreal

/-! ## Events at the AUs (R277, R281 to R283) -/

theorem Dev.offSeq_putAu (d : Dev) (f : Fld) (v : Nat) (h : 0x200000 ≤ f.addr ∧ f.addr < 0x800000) : d.OffSeq (d.put f v) :=
  d.offSeq_put f v (by simp only [SeqWord]; omega)

theorem Dev.offSeq_auMissed (d : Dev) {a : Nat} (ha : a < 32) : d.OffSeq (d.auMissed a) := by
  have hcount (x : Au) : d.OffSeq ((d.setAu a x).bump (auCntMiss a)) :=
    (d.offSeq_setAu a x).trans (Dev.offSeq_putAu _ _ _ (by simp only [auCntMiss]; omega))
  unfold Dev.auMissed
  exact .ite (hcount _) ((hcount _).trans (Dev.offSeq_event _ _ _ _))

theorem Dev.offSeq_auEvent (d : Dev) {a : Nat} (ha : a < 32) (tick : Nat) : d.OffSeq (d.auEvent a tick) := by
  unfold Dev.auEvent
  exact .ite (.ite (.refl d) (d.offSeq_setAu a _)) (.ite (d.offSeq_auMissed ha) (.refl d))

theorem Dev.offSeq_auEvents (d : Dev) (kind idx : Nat) (rise : Option Bool) (tick : Nat) :
    d.OffSeq (d.auEvents kind idx rise tick) := by
  unfold Dev.auEvents
  exact .forEach (fun d a ha => .ite (d.offSeq_auEvent (List.mem_range.1 ha) tick) (.refl d)) d

/-! ## Levels, waveforms and the force mode of a channel (R57 to R61, R95 to R114) -/

theorem Dev.offSeq_wfStop (d : Dev) (c : Nat) : d.OffSeq (d.wfStop c) :=
  (d.offSeq_put_high (ppmuWfRun c) 0 (by simp only [ppmuWfRun]; omega)).trans (Dev.offSeq_setChan _ c _)

theorem Dev.offSeq_wfRange (d : Dev) (c seg : Nat) : d.OffSeq (d.wfRange c seg) :=
  ((((d.offSeq_wfStop c).trans (Dev.offSeq_put_high _ (ppmuWfEn c) _ (by simp only [ppmuWfEn]; omega))).trans
    (Dev.offSeq_put_high _ (ppmuFaultF c) _ (by simp only [ppmuFaultF]; omega))).trans (Dev.offSeq_setChan _ c _)).trans
    (Dev.offSeq_event _ _ _ _)

theorem Dev.offSeq_noteFv (d : Dev) (c : Nat) : d.OffSeq (d.noteFv c) := by
  unfold Dev.noteFv
  split <;> exact Dev.offSeq_of_same rfl rfl rfl

theorem Dev.offSeq_keepStop (d : Dev) (c : Nat) : d.OffSeq (d.keepStop c) := by
  unfold Dev.keepStop
  exact .ite (.refl d) (Dev.offSeq_of_same rfl rfl rfl)

/-- A channel's clip mark lies in the calibration block: below 512 channels, short of the sequencers. -/
theorem Dev.offSeq_reconvert (d : Dev) {c : Nat} (k : Nat) (hc : c < 512) : d.OffSeq (d.reconvert c k) := by
  have hclip : d.OffSeq (d.noteClip c k (d.workCode c k)) :=
    .ite (d.offSeq_put _ _ (by simp only [SeqWord, calClipped]; omega)) (.refl d)
  exact (hclip.trans (Dev.offSeq_put_high _ (peCorr c k) _ (by simp only [peCorr]; omega))).trans
    ((Dev.offSeq_setChan _ c _).trans (Dev.offSeq_put_high _ (peHold c) _ (by simp only [peHold]; omega)))

section
variable (d : Dev) {c : Nat} (hc : c < 256)
include hc

theorem Dev.offSeq_wfPut (code : Nat) : d.OffSeq (d.wfPut c code) := by
  unfold Dev.wfPut
  dsimp only
  refine Dev.OffSeq.trans ?_ (Dev.offSeq_reconvert _ 10 (by omega))
  split
  · exact d.offSeq_setChan c _
  · exact d.offSeq_put_high _ _ (by simp only [peIdeal]; omega)

theorem Dev.offSeq_wfPlay (seg left : Nat) : d.OffSeq (d.wfPlay c seg left) := by
  have hshow (x : Chan) (code : Nat) : d.OffSeq ((((d.put (ppmuWfRun c) 1).put (ppmuWfSeg c) seg).setChan c x).wfPut c code) :=
    (((d.offSeq_put_high _ _ (by simp only [ppmuWfRun]; omega)).trans
      (Dev.offSeq_put_high _ (ppmuWfSeg c) _ (by simp only [ppmuWfSeg]; omega))).trans (Dev.offSeq_setChan _ c x)).trans
      (Dev.offSeq_wfPut _ hc code)
  unfold Dev.wfPlay
  exact .ite (d.offSeq_wfRange c seg) (.ite ((hshow _ _).trans (Dev.offSeq_auEvents _ _ _ _ _)) (hshow _ _))

theorem Dev.offSeq_syncForce : d.OffSeq (d.syncForce c) := by
  have hput := d.offSeq_put_high (ppmuForceNow c) (d.wantForce c) (by simp only [ppmuForceNow]; omega)
  unfold Dev.syncForce
  refine Dev.OffSeq.trans (hput.trans (.ite (p := d.wantForce c = 1) (Dev.offSeq_noteFv _ c) (.refl _))) (.ite ?_ ?_)
  · exact .ite (Dev.offSeq_wfStop _ c) (.refl _)
  · exact .ite ((Dev.offSeq_wfStop _ c).trans (Dev.offSeq_wfPlay _ hc _ _)) (.refl _)

theorem Dev.offSeq_toHiz : d.OffSeq (d.toHiz c) := by
  have hfall : d.OffSeq (if d.is (peHiz c) then d else d.setChan c { d.chan c with hizAt := some d.mclk }) :=
    .ite (.refl d) (d.offSeq_setChan c _)
  exact ((hfall.trans (Dev.offSeq_keepStop _ c)).trans (Dev.offSeq_put_high _ _ _ (by simp only [peHiz]; omega))).trans
    (Dev.offSeq_syncForce _ hc)

theorem Dev.offSeq_levelReject : d.OffSeq (d.levelReject c) :=
  (((d.offSeq_put_high (peFault c) _ (by simp only [peFault]; omega)).trans
    (Dev.offSeq_put_high _ (peCntRej c) _ (by simp only [peCntRej]; omega))).trans (Dev.offSeq_report _ _ _ _ _ _ _)).trans
    (Dev.offSeq_toHiz _ hc)

theorem Dev.offSeq_loadLevels (codes : List (Nat × Nat)) : d.OffSeq (d.loadLevels c codes) := by
  have hload (ks : List Nat) (v : Nat → Nat) : d.OffSeq (d.forEach ks fun d k => (d.put (peIdeal c k) (v k)).reconvert c k) :=
    .forEach (fun d k _ => (d.offSeq_put_high _ _ (by simp only [peIdeal]; omega)).trans
      (Dev.offSeq_reconvert _ k (by omega))) d
  unfold Dev.loadLevels
  refine .ite (.refl d) ?_
  have hnoted (ks : List Nat) (v : Nat → Nat) {p : Bool} (x : Chan) :=
    (hload ks v).trans (.ite (p := p = true) (.refl _) (Dev.offSeq_setChan _ c x))
  exact .ite ((hnoted _ _ _).trans (Dev.offSeq_levelReject _ hc)) (hnoted _ _ _)

theorem Dev.offSeq_ppmuReturn : d.OffSeq (d.ppmuReturn c) := by
  unfold Dev.ppmuReturn
  exact (((Dev.OffSeq.ite (d.offSeq_wfStop c) (.refl d)).trans (Dev.offSeq_setChan _ c _)).trans
    (Dev.offSeq_syncForce _ hc)).trans
    ((Dev.offSeq_put_high _ (ppmuCompl c) 0 (by simp only [ppmuCompl]; omega)).trans (Dev.offSeq_reconvert _ 10 (by omega)))

end

theorem Dev.lt_of_mem_seqChans {d : Dev} {s c : Nat} (h : c ∈ d.seqChans s) : c < 256 :=
  List.mem_range.1 (List.mem_filter.1 h).1

/-- A level-set strobe of a sequencer acts on its channels (R67). -/
theorem Dev.offSeq_strobe (d : Dev) (s k : Nat) : d.OffSeq (d.strobe s k) := by
  unfold Dev.strobe
  exact .forEach (fun d c hc => (d.offSeq_loadLevels (Dev.lt_of_mem_seqChans hc) _).trans
    (Dev.offSeq_put_high _ _ _ (by simp only [peLset]; omega))) d

/-! ## Arming of an AU (R276, R280, R291) -/

/-- The channels of a source lie short of 512: at most 8 from any first channel. -/
theorem Dev.lt_of_mem_auChans {d : Dev} {a c : Nat} (h : c ∈ d.auChans a) : c < 512 := by
  have hfirst : d.get (auFirst a) < 2 ^ 8 := d.get_lt (auFirst a)
  have hnch : d.get (auNch a) < 2 ^ 2 := d.get_lt (auNch a)
  have hslots : d.auSlots a ≤ 8 := by
    unfold Dev.auSlots
    split
    · decide
    · exact Nat.pow_le_pow_right (by decide : 0 < 2) (by omega : d.get (auNch a) ≤ 3)
  unfold Dev.auChans at h
  split at h
  · cases h
  · obtain ⟨i, hi, rfl⟩ := List.mem_map.1 h
    have := List.mem_range.1 hi
    omega

theorem Dev.offSeq_sweepLoad (d : Dev) (a k : Nat) : d.OffSeq (d.sweepLoad a k) := by
  unfold Dev.sweepLoad
  exact .forEach (fun d c hc => ((d.offSeq_setChan c _).trans (Dev.offSeq_reconvert _ 3 (Dev.lt_of_mem_auChans hc))).trans
    (Dev.offSeq_reconvert _ 4 (Dev.lt_of_mem_auChans hc))) d

theorem Dev.offSeq_auToReady (d : Dev) {a : Nat} (ha : a < 32) : d.OffSeq (d.auToReady a) := by
  have hstate (v : Nat) : d.OffSeq (d.put (auState a) v) := d.offSeq_putAu _ v (by simp only [auState]; omega)
  unfold Dev.auToReady
  exact .ite (hstate 4) ((hstate 1).trans (Dev.offSeq_setAu _ a _))

theorem Dev.offSeq_auArmCore (d : Dev) {a : Nat} (ha : a < 32) (run : Option Nat) (step : Nat) (one : Bool) (wait : Option Nat) :
    d.OffSeq (d.auArmCore a run step one wait) := by
  have hau (d : Dev) (f : Nat → Fld) (v : Nat) (hf : 0x200000 ≤ (f a).addr ∧ (f a).addr < 0x800000) : d.OffSeq (d.put (f a) v) :=
    d.offSeq_putAu _ v hf
  have hclear (d : Dev) : d.OffSeq ((((d.put (auArmErr a) 0).put (auCntMiss a) 0).put (auCntGap a) 0).put (auPass a) 0) :=
    (((hau _ auArmErr 0 (by simp only [auArmErr]; omega)).trans (hau _ auCntMiss 0 (by simp only [auCntMiss]; omega))).trans
      (hau _ auCntGap 0 (by simp only [auCntGap]; omega))).trans (hau _ auPass 0 (by simp only [auPass]; omega))
  have harm (v : Nat) (x : Au) := ((Dev.OffSeq.ite (p := one = true) (hau d auRecRd v (by simp only [auRecRd]; omega)) (.refl d)).trans
    (hclear _)).trans (Dev.offSeq_setAu _ a x)
  unfold Dev.auArmCore
  refine .ite (.refl d) ?_
  split
  · exact (hau d auArmErr 1 (by simp only [auArmErr]; omega)).trans (Dev.offSeq_event _ _ _ _)
  · refine .ite ?_ ((harm _ _).trans (Dev.offSeq_auToReady _ ha))
    exact (((harm _ _).trans (Dev.offSeq_sweepLoad _ a 0)).trans (hau _ auState 5 (by simp only [auState]; omega))).trans
      (Dev.offSeq_setAu _ a _)

/-! ## Drivers, evidence and ledger (R137 to R141, R230 to R236, R245) -/

theorem Dev.offSeq_drivePin (d : Dev) (s t c sym step vec tick period : Nat) : d.OffSeq (d.drivePin s t c sym step vec tick period) := by
  have hnote (d : Dev) (conflicts ranges : Nat) : d.OffSeq (d.noteConflict c step conflicts ranges) := by
    have hcnt (v : Nat) : d.OffSeq (d.put (peTimCnt c) v) := d.offSeq_put_high _ v (by simp only [peTimCnt]; omega)
    unfold Dev.noteConflict
    exact .ite (.refl d) (.ite (hcnt _) (((hcnt _).trans (Dev.offSeq_setChan _ c _)).trans (Dev.offSeq_event _ _ _ _)))
  unfold Dev.drivePin
  exact (d.offSeq_setChan c _).trans (hnote _ _ _)

theorem Dev.offSeq_crcClear (d : Dev) (pins : List (Nat × Nat)) : d.OffSeq (d.crcClear pins) := by
  unfold Dev.crcClear
  exact .forEach (fun d e _ => .ite (.refl d) (d.offSeq_setDie e _)) d

theorem Dev.offSeq_flogLost (d : Dev) (s : Nat) : d.OffSeq (d.flogLost s) := by
  have hdrop : d.OffSeq (d.bump (flogDrop s)) := d.offSeq_put_high _ _ (by simp only [flogDrop]; omega)
  unfold Dev.flogLost
  dsimp only
  split
  · exact hdrop.trans (Dev.offSeq_setRun _ _)
  · exact hdrop

theorem Dev.offSeq_flogPush (d : Dev) (c s entry : Nat) : d.OffSeq (d.flogPush c s entry) := by
  have hgrow (d : Dev) (n : Nat) : d.OffSeq (d.flogGrow s n) := by
    unfold Dev.flogGrow
    dsimp only
    split
    · exact d.offSeq_led _
    · exact .refl d
  have hspace (x : LedSt) (n : Nat) := (d.offSeq_led x).trans (hgrow _ n)
  unfold Dev.flogPush
  refine .ite (d.offSeq_flogLost s) ?_
  dsimp only
  split
  · exact ((hspace _ _).trans (Dev.offSeq_st _ _ _ _)).trans (Dev.offSeq_put_high _ _ _ (by simp only [flogCount]; omega))
  · exact (hspace _ _).trans (Dev.offSeq_flogLost _ s)

theorem Dev.offSeq_put2_high (d : Dev) (lo hi : Fld) (v : Nat) (h : 0x1000000 ≤ lo.addr ∧ 0x1000000 ≤ hi.addr) :
    d.OffSeq (d.put2 lo hi v) :=
  (d.offSeq_put_high lo _ h.1).trans (Dev.offSeq_put_high _ hi _ h.2)

theorem Dev.offSeq_countFails (d : Dev) (s : Nat) (cs : List Nat) (line : Nat) (strm : Bool) (vec tb step : Nat) :
    d.OffSeq (d.countFails s cs line strm vec tb step) := by
  have hfirst (d : Dev) (c0 : Nat) : d.OffSeq
      ((((((d.put2 (ffLineLo s) (ffLineHi s) (line % 2 ^ 40)).put2 (ffVecLo s) (ffVecHi s) (vec % 2 ^ 64)).put2 (ffTbLo s)
        (ffTbHi s) tb).put (ffCh s) c0).putB (ffStrm s) strm).put (ffValid s) 1) :=
    (((((d.offSeq_put2_high _ _ _ (by simp only [ffLineLo, ffLineHi]; omega)).trans
      (Dev.offSeq_put2_high _ _ _ _ (by simp only [ffVecLo, ffVecHi]; omega))).trans
      (Dev.offSeq_put2_high _ _ _ _ (by simp only [ffTbLo, ffTbHi]; omega))).trans
      (Dev.offSeq_put_high _ _ _ (by simp only [ffCh]; omega))).trans
      (Dev.offSeq_put_high _ (ffStrm s) _ (by simp only [ffStrm]; omega))).trans
      (Dev.offSeq_put_high _ _ _ (by simp only [ffValid]; omega))
  cases cs with
  | nil => exact .refl d
  | cons c0 cs =>
    exact ((d.offSeq_put2_high _ _ _ (by simp only [fcntLo, fcntHi]; omega)).trans (.ite (.refl _) (hfirst _ c0))).trans
      (.foldl (fun d c _ => d.offSeq_flogPush c s _) _)

theorem Dev.offSeq_writeEnt (d : Dev) (id : Nat) (e : Ent) : d.OffSeq (d.writeEnt id e) := by
  unfold Dev.writeEnt
  split
  · exact .refl d
  · exact (((d.offSeq_st _ _ _).trans (Dev.offSeq_put_high _ _ _ (by simp only [ledWr]; omega))).trans
      (Dev.offSeq_led _ _)).trans (Dev.offSeq_setRun _ _)

theorem Dev.offSeq_ppmuSiteDone (d : Dev) (st : StepData) (s : Nat) : d.OffSeq (d.ppmuSiteDone st s) := by
  have hheld : d.OffSeq (d.forEach [0, 1, 2, 3] fun d e => d.put (pedHeld e) (d.get (pedHeld e) - d.siteClaim st s e)) :=
    .forEach (fun d e _ => d.offSeq_put_high _ _ (by simp only [pedHeld]; omega)) d
  have hback (d : Dev) : d.OffSeq (d.forEach (d.stepChans st s) fun d c => d.ppmuReturn c) :=
    .forEach (fun d _ hc => d.offSeq_ppmuReturn (Dev.lt_of_mem_siteChans (List.mem_filter.1 hc).1)) d
  exact (hheld.trans (hback _)).trans (Dev.offSeq_of_same rfl rfl rfl)

theorem Dev.offSeq_flushSite (d : Dev) (id s : Nat) : d.OffSeq (d.flushSite id s) := by
  have hwrite (due : List Res) (es : Res → List Ent) :
      d.OffSeq (due.foldl (fun d x => (es x).foldl (fun d e => d.writeEnt id e) d) d) :=
    .foldl (fun d _ _ => .foldl (fun d e _ => d.offSeq_writeEnt id e) d) d
  unfold Dev.flushSite
  split
  · exact .refl d
  · split
    · exact .refl d
    · refine .ite (Dev.OffSeq.trans ?_ (Dev.offSeq_ppmuSiteDone _ _ s)) ?_
      all_goals
        split
        · exact (hwrite _ _).trans (Dev.offSeq_setRun _ _)
        · exact hwrite _ _

theorem Dev.offSeq_putReading (d : Dev) (id s j : Nat) (x : Reading) : d.OffSeq (d.putReading id s j x) := by
  unfold Dev.putReading
  split
  · exact .refl d
  · split
    · exact .refl d
    · exact (d.offSeq_setRun _).trans (Dev.offSeq_flushSite _ id s)

end Sys2Proof.Machine
end

section
/-!
PROOFS. What a vector of a sequencer shows: its period, its markers, its counts and its line; what the look-ahead and the first play of
a line leave of them (R124, R125, R145, R161, R169, R172, R173, R184, R186 to R188).
-/

namespace Sys2Proof.Machine

/-! ## A sequencer's state, replaced -/

theorem Dev.OffSeq.get {d e : Dev} (h : d.OffSeq e) {f : Fld} (hf : SeqWord f.addr) : e.get f = d.get f := by
  rw [Dev.get, h.word _ hf, Dev.get]

/-- A sequencer's state replaced after a change off the sequencers. -/
theorem Dev.OffSeq.setSeq {d e : Dev} (h : d.OffSeq e) (s : Nat) (y : Seq) : (d.setSeq s y).OffSeq (e.setSeq s y) where
  mclk := h.mclk
  seq i := by rw [Dev.seq_setSeq, Dev.seq_setSeq, h.seq]
  word a ha := h.word a ha

/-- The markers of a vector: the sequencer's note of them, and what they set off at the AUs and at TRIG_OUT (R184, R185). -/
theorem Dev.offSeq_setMarkers (d : Dev) (s m : Nat) (pos : Rat) :
    (d.setSeq s { d.seq s with mark := m }).OffSeq (d.setMarkers s m pos) := by
  have hrise (d : Dev) (l : List Nat) : d.OffSeq (d.forEach l fun d b => d.auEvents 6 (s + 16 * b) none pos.ceil.toNat) :=
    .forEach (fun d b _ => d.offSeq_auEvents _ _ _ _) d
  unfold Dev.setMarkers
  dsimp only
  split
  next h =>
    subst h
    refine ⟨rfl, fun i => ?_, fun _ _ => rfl⟩
    rw [Dev.seq_setSeq]
    split
    next hi => rw [hi]
    next => rfl
  next => exact .ite (hrise _ _) ((hrise _ _).trans (Dev.offSeq_emit _ _))

/-- Markers that fall set off nothing but the level of TRIG_OUT. -/
theorem Dev.regs_setMarkers_zero (d : Dev) (s : Nat) (pos : Rat) : (d.setMarkers s 0 pos).regs = d.regs := by
  unfold Dev.setMarkers
  simp only [Nat.zero_testBit, Bool.false_and, List.filter_false]
  split
  · rfl
  · split <;> rfl

/-- One vector at the pins: the sequencer's tick moves on by the period of the timing set, its vector number by one; queue and markers
stay (R124, R137). -/
theorem Dev.offSeq_issue (d : Dev) (s t : Nat) (pins : List (Nat × Nat)) (play : Bool) :
    ∃ y : Seq, (d.setSeq s y).OffSeq (d.issue s t pins play) ∧ y.tick = (d.seq s).tick + d.tsPeriod s t ∧
      y.serial = (d.seq s).serial + 1 ∧ y.queue = (d.seq s).queue ∧ y.mark = (d.seq s).mark := by
  have hpin (f : Dev → Nat × Nat → Dev) (hf : ∀ d p, Dev.OffSeq d (f d p)) :
      d.OffSeq (pins.foldl f d) := .foldl (fun d p _ => hf d p) d
  have hchk (d : Dev) (src sec sc : Nat) :
      d.OffSeq (((d.checkOnce src 0 sec sc).checkOnce src 1 sec sc).checkOnce src 2 sec sc) :=
    ((d.offSeq_checkOnce _ _ _ _).trans (Dev.offSeq_checkOnce _ _ _ _ _)).trans (Dev.offSeq_checkOnce _ _ _ _ _)
  have hset (e : Dev) (he : d.OffSeq e) (playPos pos : Rat) (edgeEnd : Int) : ∃ y : Seq,
      (d.setSeq s y).OffSeq (e.setSeq s
        { e.seq s with playPos := playPos, tsi := t, tick := (d.seq s).tick + d.tsPeriod s t, pos := pos, serial := (d.seq s).serial + 1,
                       edgeEnd := edgeEnd }) ∧
      y.tick = (d.seq s).tick + d.tsPeriod s t ∧ y.serial = (d.seq s).serial + 1 ∧ y.queue = (d.seq s).queue ∧
      y.mark = (d.seq s).mark :=
    ⟨_, he.setSeq s _, rfl, rfl, (congrArg Seq.queue (he.seq s) :), (congrArg Seq.mark (he.seq s) :)⟩
  unfold Dev.issue
  refine hset _ (((hpin _ fun d p => ?_).trans (.forEach (fun d e _ => ?_) _)).trans (Dev.offSeq_checkTimes _ _ _ _ _ _)) _ _ _
  · exact .ite (d.offSeq_setChan _ _) (d.offSeq_drivePin _ _ _ _ _ _ _ _)
  · exact .ite (hchk _ _ _ _) (.refl d)

/-! ## Changes that leave what a play shows -/

/-- The fields by which a sequencer shows its plays. -/
def playFields (q : Nat) : List Fld := [seqState q, seqLine q, seqCntVec q, seqCntVecHi q]

/-- From `d` to `d'`: no time passes; sequencer `q` keeps its tick, vector number and markers, what it shows of its plays, and the
periods of its timing sets. -/
structure Dev.KeepsPlay (q : Nat) (d d' : Dev) : Prop where
  mclk : d'.mclk = d.mclk
  tick : (d'.seq q).tick = (d.seq q).tick
  serial : (d'.seq q).serial = (d.seq q).serial
  mark : (d'.seq q).mark = (d.seq q).mark
  field : ∀ f ∈ playFields q, d'.get f = d.get f
  period : ∀ t < 64, d'.tsPeriod q t = d.tsPeriod q t

section
variable {q : Nat}

theorem Dev.KeepsPlay.refl (d : Dev) : d.KeepsPlay q d := ⟨rfl, rfl, rfl, rfl, fun _ _ => rfl, fun _ _ => rfl⟩

theorem Dev.KeepsPlay.trans {d e f : Dev} (h : d.KeepsPlay q e) (k : e.KeepsPlay q f) : d.KeepsPlay q f where
  mclk := k.mclk.trans h.mclk
  tick := k.tick.trans h.tick
  serial := k.serial.trans h.serial
  mark := k.mark.trans h.mark
  field g hg := (k.field g hg).trans (h.field g hg)
  period t ht := (k.period t ht).trans (h.period t ht)

theorem Dev.KeepsPlay.ite {d e f : Dev} {p : Prop} [Decidable p] (h : d.KeepsPlay q e) (k : d.KeepsPlay q f) :
    d.KeepsPlay q (if p then e else f) := by
  split
  · exact h
  · exact k

/-- The sequencer's state replaced by one of the same tick, vector number and markers. -/
theorem Dev.keepsPlay_setSeq (d : Dev) (y : Seq) (ht : y.tick = (d.seq q).tick) (hs : y.serial = (d.seq q).serial)
    (hm : y.mark = (d.seq q).mark) : d.KeepsPlay q (d.setSeq q y) :=
  ⟨rfl, by simpa using ht, by simpa using hs, by simpa using hm, fun _ _ => rfl, fun _ _ => rfl⟩

/-- A word of sequencer `q` outside those that show its plays. -/
theorem Dev.keepsPlay_setWord (d : Dev) (a : Nat) (v : Word) (h : a < 0x800000) (hf : ∀ f ∈ playFields q, a ≠ f.addr) :
    d.KeepsPlay q (d.setWord a v) :=
  ⟨rfl, rfl, rfl, rfl, fun f hmem => by rw [Dev.get, d.word_setWord_ne v (hf f hmem), Dev.get],
    fun t _ => by rw [Dev.tsPeriod, d.word_setWord_ne v (by simp only [tsBase]; omega), Dev.tsPeriod]⟩

/-- A field beside those that show the plays. -/
theorem Dev.keepsPlay_put (d : Dev) (f : Fld) (v : Nat) (h : f.addr < 0x800000)
    (hf : ∀ g ∈ playFields q, f.addr ≠ g.addr ∨ (f.lo + f.w ≤ 32 ∧ (g.lo + g.w ≤ f.lo ∨ f.lo + f.w ≤ g.lo))) :
    d.KeepsPlay q (d.put f v) :=
  ⟨rfl, rfl, rfl, rfl, fun g hg => d.get_put_ne f g v (hf g hg),
    fun t _ => by rw [Dev.tsPeriod, d.word_put_ne f v (by simp only [tsBase]; omega), Dev.tsPeriod]⟩

/-- A field of SEQ_STATUS above STATE. -/
theorem Dev.keepsPlay_putStatus (d : Dev) (f : Fld) (v : Nat) (hq : q < 16) (ha : f.addr = (seqState q).addr) (hlo : 3 ≤ f.lo)
    (hw : f.lo + f.w ≤ 32) : d.KeepsPlay q (d.put f v) := by
  simp only [seqState] at ha
  refine d.keepsPlay_put f v (by omega) fun g hg => ?_
  simp only [playFields, List.mem_cons, List.not_mem_nil, or_false] at hg
  rcases hg with rfl | rfl | rfl | rfl <;> simp only [seqState, seqLine, seqCntVec, seqCntVecHi] <;> omega

theorem Dev.keepsPlay_fetchErr (d : Dev) (cause : Nat) (r : LRef) : d.KeepsPlay q (d.fetchErr q cause r) :=
  d.keepsPlay_setSeq _ rfl rfl rfl

theorem Dev.keepsPlay_enqueue (d : Dev) (l : FLine) : d.KeepsPlay q (d.enqueue q l) := d.keepsPlay_setSeq _ rfl rfl rfl

end

/-- The registers of the streams lie below those of the sequencers. -/
theorem Dev.offSeq_putStrm (d : Dev) (f : Fld) (v : Nat) (h : f.addr < 0x100000) : d.OffSeq (d.put f v) :=
  d.offSeq_put f v (by simp only [SeqWord]; omega)

theorem Dev.offSeq_checkLine (d : Dev) (s : Nat) (r : LRef) : d.OffSeq (d.checkLine s r) := by
  unfold Dev.checkLine
  split
  · exact .forEach (fun d ml _ => (d.offSeq_checkOnce _ _ _ _).trans
      (.ite (Dev.offSeq_checkOnce _ _ _ _ _) (Dev.offSeq_checkReal _ _ _ _ _ _))) d
  · exact .refl d

section
variable {q : Nat} (hq : q < 16)
include hq

theorem seqWord_of_mem_playFields {f : Fld} (h : f ∈ playFields q) : SeqWord f.addr := by
  simp only [playFields, List.mem_cons, List.not_mem_nil, or_false] at h
  rcases h with rfl | rfl | rfl | rfl <;> simp only [SeqWord, seqState, seqLine, seqCntVec, seqCntVecHi] <;> omega

theorem Dev.OffSeq.play {d e : Dev} (h : d.OffSeq e) : d.KeepsPlay q e where
  mclk := h.mclk
  tick := by rw [h.seq]
  serial := by rw [h.seq]
  mark := by rw [h.seq]
  field _ hf := h.get (seqWord_of_mem_playFields hq hf)
  period t ht := by rw [Dev.tsPeriod, h.word _ (by simp only [SeqWord, tsBase]; omega), Dev.tsPeriod]

/-- A word beside the status, line and vector counter of the sequencer. -/
theorem Dev.keepsPlay_putBeside (d : Dev) (f : Fld) (v : Nat) (ha : f.addr < 0x800000)
    (h : f.addr < 0x100000 ∨ 0x100048 + 0x10000 * q ≤ f.addr) : d.KeepsPlay q (d.put f v) := by
  refine d.keepsPlay_put f v ha fun g hg => .inl ?_
  simp only [playFields, List.mem_cons, List.not_mem_nil, or_false] at hg
  rcases hg with rfl | rfl | rfl | rfl <;> simp only [seqState, seqLine, seqCntVec, seqCntVecHi] <;> omega

/-! ## The look-ahead (R169, R170, R189, R190, R205, R210) -/

theorem Dev.offSeq_streamFetched (d : Dev) (n : Nat) : d.OffSeq (d.streamFetched q n) := by
  unfold Dev.streamFetched
  dsimp only
  split
  · exact (((d.offSeq_setStrm q _).trans (Dev.offSeq_putStrm _ (strmPosLo q) _ (by simp only [strmPosLo]; omega))).trans
      (Dev.offSeq_putStrm _ (strmPosHi q) _ (by simp only [strmPosHi]; omega))).trans
      (Dev.offSeq_putStrm _ (strmReady q) _ (by simp only [strmReady]; omega))
  · exact .refl d

theorem Dev.offSeq_streamPast (d : Dev) (n : Nat) : d.OffSeq (d.streamPast q n) := by
  have hslot (x : Strm) (v : Nat) : d.OffSeq ((d.setStrm q x).put (strmReady q) v) :=
    (d.offSeq_setStrm q x).trans (Dev.offSeq_putStrm _ _ _ (by simp only [strmReady]; omega))
  unfold Dev.streamPast
  dsimp only
  split
  · exact .ite (hslot _ _) (.refl d)
  · exact .refl d

theorem Dev.keepsPlay_setStacks (d : Dev) (loops : List LoopLvl) (calls : List CallLvl) : d.KeepsPlay q (d.setStacks q loops calls) :=
  ((d.keepsPlay_setSeq { d.seq q with loops := loops, calls := calls } rfl rfl rfl).trans
    (Dev.keepsPlay_putStatus _ (seqLdepth q) _ hq rfl (by simp [seqLdepth]) (by simp [seqLdepth]))).trans
    (Dev.keepsPlay_putStatus _ (seqCdepth q) _ hq rfl (by simp [seqCdepth]) (by simp [seqCdepth]))

theorem Dev.keepsPlay_follow (d : Dev) (r : LRef) (k : Decision) : d.KeepsPlay q (d.follow q r k) := by
  cases k with
  | err c => exact d.keepsPlay_fetchErr c r
  | halt => exact d.keepsPlay_setSeq _ rfl rfl rfl
  | hold w => exact d.keepsPlay_setSeq _ rfl rfl rfl
  | go n loops calls => exact (d.keepsPlay_setStacks hq loops calls).trans (Dev.keepsPlay_setSeq _ _ rfl rfl rfl)

theorem Dev.keepsPlay_fetchLine (d : Dev) : d.KeepsPlay q (d.fetchLine q) := by
  have hstop (d : Dev) (w : FetchStop) : d.KeepsPlay q (d.setSeq q { d.seq q with stop := w }) := d.keepsPlay_setSeq _ rfl rfl rfl
  have hread (r : LRef) : d.KeepsPlay q (if r.strm then (d.checkLine q r).streamFetched q r.n else d.checkLine q r) :=
    (Dev.OffSeq.ite ((d.offSeq_checkLine q r).trans (Dev.offSeq_streamFetched hq _ _)) (d.offSeq_checkLine q r)).play hq
  have hpast (d : Dev) (p : Bool) (n : Nat) : d.KeepsPlay q (if p then d.streamPast q n else d) :=
    (Dev.OffSeq.ite (d.offSeq_streamPast hq n) (.refl d)).play hq
  have hjump (d : Dev) : d.KeepsPlay q (((d.setSeq q { d.seq q with jReq := none }).put (seqJpend q) 0).setStacks q [] []) := by
    refine Dev.KeepsPlay.trans (.trans ?_ (Dev.keepsPlay_putStatus _ (seqJpend q) 0 hq rfl (by simp [seqJpend]) (by simp [seqJpend])))
      (Dev.keepsPlay_setStacks hq _ _ _)
    exact d.keepsPlay_setSeq _ rfl rfl rfl
  have htarget (d : Dev) (l : FLine) (n : LRef) : d.KeepsPlay q
      (((d.enqueue q l).put (seqJcommit q) 1).setSeq q { ((d.enqueue q l).put (seqJcommit q) 1).seq q with next := n }) :=
    ((d.keepsPlay_enqueue l).trans
      (Dev.keepsPlay_putStatus _ (seqJcommit q) 1 hq rfl (by simp [seqJcommit]) (by simp [seqJcommit]))).trans
      (Dev.keepsPlay_setSeq _ _ rfl rfl rfl)
  unfold Dev.fetchLine
  refine .ite (d.keepsPlay_fetchErr _ _) (.ite (hstop d _) (.ite (hstop d _) (.ite (hstop d _) ?_)))
  split
  next => exact hstop d _
  next l _ =>
    have hat := hread (d.seq q).next
    dsimp only
    generalize (if (d.seq q).next.strm then (d.checkLine q (d.seq q).next).streamFetched q (d.seq q).next.n
      else d.checkLine q (d.seq q).next) = e at hat ⊢
    split
    next t _ =>
      have hgo := (hat.trans (hpast e (d.seq q).next.strm (d.seq q).next.n)).trans (hjump _)
      refine .ite (hgo.trans (Dev.keepsPlay_fetchErr _ _ _)) ?_
      split
      next => exact hgo.trans (Dev.keepsPlay_fetchErr _ _ _)
      next l' _ =>
        have hline (n : Nat) := hgo.trans ((Dev.offSeq_checkLine _ q ⟨false, n⟩).play hq)
        exact .ite ((hline _).trans (Dev.keepsPlay_fetchErr _ _ _)) ((hline _).trans (htarget _ _ _))
    next =>
      have hfollow (k : Decision) := ((hat.trans (Dev.keepsPlay_enqueue e l)).trans
        (Dev.keepsPlay_follow hq _ (d.seq q).next k)).trans (hpast _ ((d.seq q).next.strm && k.passes (d.seq q).next) (d.seq q).next.n)
      split
      next => exact hat.trans (Dev.keepsPlay_fetchErr _ _ _)
      next => exact .ite (hat.trans (hstop _ _)) hat
      next => exact .ite ((hfollow _).trans (Dev.keepsPlay_setSeq _ _ rfl rfl rfl)) (hfollow _)

/-- The look-ahead leaves what the sequencer shows of its plays (R169). -/
theorem Dev.keepsPlay_lookAhead (d : Dev) : d.KeepsPlay q (d.lookAhead q) := by
  have hfill (n : Nat) (d : Dev) : d.KeepsPlay q (d.fillAhead q n) := by
    induction n generalizing d with
    | zero => exact .refl d
    | succ n ih => exact .ite ((d.keepsPlay_fetchLine hq).trans (ih _)) (.refl d)
  exact hfill 9 d

/-! ## The first play of a line (R67, R186 to R188) -/

theorem Dev.keepsPlay_stamp (d : Dev) (line tag : Nat) : d.KeepsPlay q (d.stamp q line tag) := by
  have hrec (d : Dev) (a : Nat) (v : Word) (ha : 0x101000 + 0x10000 * q ≤ a ∧ a < 0x102000 + 0x10000 * q) :
      d.KeepsPlay q (d.setWord a v) := by
    refine d.keepsPlay_setWord a v (by omega) fun f hf => ?_
    simp only [playFields, List.mem_cons, List.not_mem_nil, or_false] at hf
    rcases hf with rfl | rfl | rfl | rfl <;> simp only [seqState, seqLine, seqCntVec, seqCntVecHi] <;> omega
  have hw : d.get (seqStampWr q) < 2 ^ 8 := d.get_lt (seqStampWr q)
  unfold Dev.stamp
  refine .ite (d.keepsPlay_putBeside hq _ _ (by simp only [seqCntSdrop]; omega) (by simp only [seqCntSdrop]; omega)) ?_
  exact ((((hrec _ _ _ (by omega)).trans (hrec _ _ _ (by omega))).trans (hrec _ _ _ (by omega))).trans (hrec _ _ _ (by omega))).trans
    (Dev.keepsPlay_putBeside hq _ _ _ (by simp only [seqStampWr]; omega) (by simp only [seqStampWr]; omega))

theorem Dev.keepsPlay_firstPlay (d : Dev) (l : FLine) : d.KeepsPlay q (d.firstPlay q l) := by
  have hstrobe : d.KeepsPlay q (match cwStrobe l.cw with
      | some k => d.strobe q k
      | none => d) := by
    split
    · exact (d.offSeq_strobe q _).play hq
    · exact .refl d
  have hstamp (d : Dev) (p r : Prop) [Decidable p] [Decidable r] (line tag tag' : Nat) :
      d.KeepsPlay q (if p then d.stamp q line tag else if r then d.stamp q line tag' else d) :=
    .ite (d.keepsPlay_stamp hq _ _) (.ite (d.keepsPlay_stamp hq _ _) (.refl d))
  have hcapt (d : Dev) (p : Prop) [Decidable p] (m : Nat) :
      d.KeepsPlay q (if p then d.forEach (maskList 32 m) fun d a => d.auArmCore a none 0xFFFF false none else d) :=
    .ite ((Dev.OffSeq.forEach (fun d a ha => d.offSeq_auArmCore (List.mem_range.1 (List.mem_filter.1 ha).1) _ _ _ _) d).play hq) (.refl d)
  have hbefore := (hstrobe.trans (hstamp _ (cwOp l.cw = oStamp) (cwSe l.cw = true) (if l.ref.strm then 0x1FFFFFF else l.ref.n % 2 ^ 25)
    (cwOperand l.cw % 2 ^ 24 + 2 ^ 24) 0)).trans (hcapt _ (cwOp l.cw = oCapt) (cwOperand l.cw))
  unfold Dev.firstPlay
  refine .ite ?_ hbefore
  exact ((hbefore.trans ((Dev.OffSeq.ite (.refl _) (Dev.offSeq_emit _ _)).play hq)).trans
    (Dev.keepsPlay_putStatus _ (seqSeg q) _ hq rfl (by simp [seqSeg]) (by simp [seqSeg]))).trans
    (Dev.keepsPlay_putStatus _ (seqJcommit q) _ hq rfl (by simp [seqJcommit]) (by simp [seqJcommit]))

theorem Dev.keepsPlay_countPlay (d : Dev) (l : FLine) (fails : List (Nat × Nat)) (vec : Nat) (pos : Rat) :
    d.KeepsPlay q (d.countPlay q l fails vec pos) :=
  (d.keepsPlay_setSeq { d.seq q with failSeen := (d.seq q).failSeen ||| listMask (fails.map fun p => p.1).dedup } rfl rfl rfl).trans
    ((Dev.OffSeq.forEach (fun d _ _ => d.offSeq_countFails _ _ _ _ _ _ _) _).play hq)

end

end Sys2Proof.Machine
end

section
/-!
PROOFS. What a sequencer does at a vector boundary: a fill, the play of a line and the way to a halt (R124, R142, R145, R146, R161, R169,
R172, R173, R184, R196).
-/

namespace Sys2Proof.Machine

/-! ## Two words that count together -/

theorem Dev.get2_of_get {d e : Dev} {lo hi : Fld} (hl : e.get lo = d.get lo) (hh : e.get hi = d.get hi) : e.get2 lo hi = d.get2 lo hi := by
  rw [Dev.get2, hl, hh, Dev.get2]

/-- A 64-bit value reads back from its two words. -/
theorem Dev.get2_put2 (d : Dev) {lo hi : Fld} {v : Nat} (hl : lo.lo = 0 ∧ lo.w = 32) (hh : hi.lo = 0 ∧ hi.w = 32)
    (ha : lo.addr ≠ hi.addr) (hv : v < 2 ^ 64) : (d.put2 lo hi v).get2 lo hi = v := by
  have hlow : (d.put2 lo hi v).get lo = v % 2 ^ 32 := by
    rw [Dev.put2, Dev.get_put_addr _ _ _ _ ha.symm, Dev.get_put _ _ _ (by omega), hl.2]; simp
  have hhigh : (d.put2 lo hi v).get hi = v / 2 ^ 32 := by
    rw [Dev.put2, Dev.get_put _ _ _ (by omega), hh.2, hl.2]
    exact Nat.mod_eq_of_lt (by omega)
  rw [Dev.get2, hlow, hhigh, hl.2]
  omega

/-! ## The play of a line (R124, R161, R173) -/

/-- From `d` to `t` sequencer `q` has played line `l` once, and no time has passed: it has counted the vector in 64 bits and shows the
line, its tick has moved on by the period of the line's timing set, and its markers are those of the line. -/
structure Dev.Played (q : Nat) (l : FLine) (d t : Dev) : Prop where
  mclk : t.mclk = d.mclk
  vec : t.get2 (seqCntVec q) (seqCntVecHi q) = (d.get2 (seqCntVec q) (seqCntVecHi q) + 1) % 2 ^ 64
  line : t.get (seqLine q) = if l.ref.strm then 0x1FFFFFF else l.ref.n % 2 ^ 25
  state : t.get (seqState q) = d.get (seqState q)
  tick : (t.seq q).tick = (d.seq q).tick + d.tsPeriod q (cwTsi l.cw)
  serial : (t.seq q).serial = (d.seq q).serial + 1
  mark : (t.seq q).mark = cwMark l.cw

theorem cwTsi_lt (w : Nat) : cwTsi w < 64 := Nat.mod_lt _ (by decide)

section
variable {q : Nat}

theorem Dev.KeepsPlay.vec {d e : Dev} (h : d.KeepsPlay q e) :
    e.get2 (seqCntVec q) (seqCntVecHi q) = d.get2 (seqCntVec q) (seqCntVecHi q) :=
  Dev.get2_of_get (h.field _ (by simp [playFields])) (h.field _ (by simp [playFields]))

theorem Dev.KeepsPlay.line {d e : Dev} (h : d.KeepsPlay q e) : e.get (seqLine q) = d.get (seqLine q) :=
  h.field _ (by simp [playFields])

theorem Dev.KeepsPlay.state {d e : Dev} (h : d.KeepsPlay q e) : e.get (seqState q) = d.get (seqState q) :=
  h.field _ (by simp [playFields])

theorem Dev.KeepsPlay.played {d e t : Dev} {l : FLine} (h : d.KeepsPlay q e) (k : e.Played q l t) : d.Played q l t where
  mclk := k.mclk.trans h.mclk
  vec := by rw [k.vec, h.vec]
  line := k.line
  state := k.state.trans h.state
  tick := by rw [k.tick, h.tick, h.period _ (cwTsi_lt _)]
  serial := by rw [k.serial, h.serial]
  mark := k.mark

theorem Dev.Played.keeps {d e t : Dev} {l : FLine} (h : d.Played q l e) (k : e.KeepsPlay q t) : d.Played q l t where
  mclk := k.mclk.trans h.mclk
  vec := k.vec.trans h.vec
  line := k.line.trans h.line
  state := k.state.trans h.state
  tick := k.tick.trans h.tick
  serial := k.serial.trans h.serial
  mark := k.mark.trans h.mark

end

/-- The device when a line's vector number and line number stand, before its play reaches the pins. -/
def Dev.lineShown (d : Dev) (q : Nat) (l : FLine) : Dev :=
  (d.put2 (seqCntVec q) (seqCntVecHi q) ((d.get2 (seqCntVec q) (seqCntVecHi q) + 1) % 2 ^ 64)).put (seqLine q)
    (if l.ref.strm then 0x1FFFFFF else l.ref.n % 2 ^ 25)

theorem Dev.lineShown_vec (d : Dev) (q : Nat) (l : FLine) : (d.lineShown q l).get2 (seqCntVec q) (seqCntVecHi q) =
    (d.get2 (seqCntVec q) (seqCntVecHi q) + 1) % 2 ^ 64 := by
  unfold Dev.lineShown
  rw [Dev.get2_of_get (Dev.get_put_addr _ _ _ _ (by simp [seqLine, seqCntVec])) (Dev.get_put_addr _ _ _ _ (by simp [seqLine, seqCntVecHi]))]
  exact d.get2_put2 ⟨rfl, rfl⟩ ⟨rfl, rfl⟩ (by simp [seqCntVec, seqCntVecHi]) (Nat.mod_lt _ (by decide))

theorem Dev.lineShown_line (d : Dev) (q : Nat) (l : FLine) :
    (d.lineShown q l).get (seqLine q) = if l.ref.strm then 0x1FFFFFF else l.ref.n % 2 ^ 25 := by
  rw [Dev.lineShown, Dev.get_put _ _ _ (by simp [seqLine])]
  refine Nat.mod_eq_of_lt ?_
  split
  · simp [seqLine]
  · exact Nat.mod_lt _ (by decide)

theorem Dev.lineShown_state (d : Dev) (q : Nat) (l : FLine) : (d.lineShown q l).get (seqState q) = d.get (seqState q) := by
  rw [Dev.lineShown, Dev.put2, Dev.get_put_addr _ _ _ _ (by simp [seqLine, seqState]),
    Dev.get_put_addr _ _ _ _ (by simp [seqCntVecHi, seqState]), Dev.get_put_addr _ _ _ _ (by simp [seqCntVec, seqState])]

/-- The device as a line's vector reaches the pins: its first play has done what it does besides its symbols, and CE stands. -/
def Dev.lineReady (d : Dev) (q : Nat) (l : FLine) : Dev :=
  let e := if l.fresh then (d.lineShown q l).firstPlay q l else d.lineShown q l
  (e.setSeq q { e.seq q with ce := cwCe l.cw }).nextFree

/-- One play of a line is one vector at the pins, with the line's markers, of the device made ready for it. -/
theorem Dev.playLine_eq (d : Dev) (q : Nat) (l : FLine) (obs : List Strobe) : ∃ pins pos,
    (d.playLine q l obs).1 = (((d.lineReady q l).issue q (cwTsi l.cw) pins true).setMarkers q (cwMark l.cw) pos).crcClear pins := by
  unfold Dev.playLine Dev.lineReady Dev.lineShown
  dsimp only
  exact ⟨_, _, rfl⟩

section
variable {q : Nat} (hq : q < 16)
include hq

theorem Dev.tsPeriod_lineShown (d : Dev) (l : FLine) (t : Nat) : (d.lineShown q l).tsPeriod q t = d.tsPeriod q t := by
  have hword (d : Dev) (f : Fld) (v : Nat) (h : f.addr < 0x800000) : (d.put f v).word (tsBase q t) = d.word (tsBase q t) :=
    d.word_put_ne f v (by simp only [tsBase]; omega)
  unfold Dev.tsPeriod Dev.lineShown Dev.put2
  rw [hword _ _ _ (by simp only [seqLine]; omega), hword _ _ _ (by simp only [seqCntVecHi]; omega),
    hword _ _ _ (by simp only [seqCntVec]; omega)]

/-- One vector at the pins with its markers: the tick moves on by the period, the vector number by one, and no time passes. -/
theorem Dev.issue_marked (d : Dev) (t m : Nat) (pins : List (Nat × Nat)) (pos : Rat) :
    let e := ((d.issue q t pins true).setMarkers q m pos).crcClear pins
    e.mclk = d.mclk ∧ (∀ f ∈ playFields q, e.get f = d.get f) ∧ (e.seq q).tick = (d.seq q).tick + d.tsPeriod q t ∧
      (e.seq q).serial = (d.seq q).serial + 1 ∧ (e.seq q).mark = m := by
  obtain ⟨y, hissue, htick, hserial, -, -⟩ := d.offSeq_issue q t pins true
  have hmark := (Dev.offSeq_setMarkers (d.issue q t pins true) q m pos).trans (Dev.offSeq_crcClear _ pins)
  have hy : (d.issue q t pins true).seq q = y := by rw [hissue.seq, Dev.seq_setSeq_same]
  have hseq := hmark.seq q
  rw [Dev.seq_setSeq_same, hy] at hseq
  refine ⟨hmark.mclk.trans hissue.mclk, fun f hf => ?_, ?_, ?_, ?_⟩
  · exact (hmark.get (seqWord_of_mem_playFields hq hf)).trans (hissue.get (seqWord_of_mem_playFields hq hf))
  · rw [hseq, ← htick]
  · rw [hseq, ← hserial]
  · rw [hseq]

theorem Dev.keepsPlay_lineReady (d : Dev) (l : FLine) : (d.lineShown q l).KeepsPlay q (d.lineReady q l) := by
  have hce (e : Dev) : e.KeepsPlay q (e.setSeq q { e.seq q with ce := cwCe l.cw }).nextFree := by
    refine Dev.KeepsPlay.trans (e := e.setSeq q { e.seq q with ce := cwCe l.cw }) ?_
      (Dev.OffSeq.play hq ⟨rfl, fun _ => rfl, fun _ _ => rfl⟩)
    exact e.keepsPlay_setSeq _ rfl rfl rfl
  exact (Dev.KeepsPlay.ite (Dev.keepsPlay_firstPlay hq _ l) (.refl _)).trans (hce _)

theorem Dev.played_playLine (d : Dev) (l : FLine) (obs : List Strobe) : d.Played q l (d.playLine q l obs).1 := by
  obtain ⟨pins, pos, hplay⟩ := d.playLine_eq q l obs
  obtain ⟨hmclk, hfield, htick, hserial, hmark⟩ := Dev.issue_marked hq (d.lineReady q l) (cwTsi l.cw) (cwMark l.cw) pins pos
  have hready := d.keepsPlay_lineReady hq l
  rw [hplay]
  refine ⟨hmclk.trans hready.mclk, ?_, ?_, ?_, ?_, ?_, hmark⟩
  · rw [Dev.get2_of_get (hfield _ (by simp [playFields])) (hfield _ (by simp [playFields])), hready.vec, d.lineShown_vec]
  · rw [hfield _ (by simp [playFields]), hready.line, d.lineShown_line]
  · rw [hfield _ (by simp [playFields]), hready.state, d.lineShown_state]
  · rw [htick, hready.tick, hready.period _ (cwTsi_lt _), d.tsPeriod_lineShown hq]
    rfl
  · rw [hserial, hready.serial]
    rfl

end

/-! ## A fill (R145, R172) -/

/-- With no stall, a fill vector is one vector at the pins with the markers low, CE 0 and the fill counted. -/
theorem Dev.fillVector_eq {d : Dev} {q : Nat} (h : (d.seq q).stall = false) : ∃ pins,
    d.fillVector q = (((d.setMarkers q 0 (d.seq q).pos).bump (seqCntFill q)).setSeq q
      { (d.setMarkers q 0 (d.seq q).pos).seq q with ce := false }).issue q (d.seq q).tsi pins false :=
  ⟨_, if_neg (by simp [h])⟩

/-- A fill vector with no stall: it is counted apart, the tick moves on by the period of the timing set in force, the markers fall, and
the queue waits. -/
theorem Dev.fillVector_effect (d : Dev) {q : Nat} (hq : q < 16) (hstall : (d.seq q).stall = false) :
    let t := d.fillVector q
    t.get (seqCntFill q) = min (d.get (seqCntFill q) + 1) (2 ^ (seqCntFill q).w - 1) ∧
      t.get2 (seqCntVec q) (seqCntVecHi q) = d.get2 (seqCntVec q) (seqCntVecHi q) ∧ t.get (seqState q) = d.get (seqState q) ∧
      (t.seq q).tick = (d.seq q).tick + d.tsPeriod q (d.seq q).tsi ∧ (t.seq q).queue = (d.seq q).queue ∧ (t.seq q).mark = 0 ∧
      t.mclk = d.mclk := by
  have hregs := d.regs_setMarkers_zero q (d.seq q).pos
  have hfall := d.offSeq_setMarkers q 0 (d.seq q).pos
  have hget (f : Fld) : (d.setMarkers q 0 (d.seq q).pos).get f = d.get f := by rw [Dev.get, Dev.word, hregs, Dev.get, Dev.word]
  have hperiod (t : Nat) : ((d.setMarkers q 0 (d.seq q).pos).bump (seqCntFill q)).tsPeriod q t = d.tsPeriod q t := by
    rw [Dev.tsPeriod, Dev.word_bump_ne _ _ (by simp only [seqCntFill, tsBase]; omega), Dev.word, hregs, Dev.tsPeriod, Dev.word]
  have hseq : (d.setMarkers q 0 (d.seq q).pos).seq q = { d.seq q with mark := 0 } := by rw [hfall.seq, Dev.seq_setSeq_same]
  obtain ⟨pins, hfill⟩ := d.fillVector_eq hstall
  obtain ⟨y, hissue, htick, -, hqueue, hmark⟩ := Dev.offSeq_issue
    (((d.setMarkers q 0 (d.seq q).pos).bump (seqCntFill q)).setSeq q { (d.setMarkers q 0 (d.seq q).pos).seq q with ce := false })
    q (d.seq q).tsi pins false
  rw [Dev.seq_setSeq_same, hseq] at htick hqueue hmark
  have hy : (d.fillVector q).seq q = y := by rw [hfill, hissue.seq, Dev.seq_setSeq_same]
  have hshow {f : Fld} (hf : SeqWord f.addr) :
      (d.fillVector q).get f = ((d.setMarkers q 0 (d.seq q).pos).bump (seqCntFill q)).get f := by rw [hfill]; exact hissue.get hf
  have hother {f : Fld} (hf : f ∈ playFields q) : (d.fillVector q).get f = d.get f := by
    rw [hshow (seqWord_of_mem_playFields hq hf), Dev.get_bump_ne _ _ _ (.inl ?_), hget]
    simp only [playFields, List.mem_cons, List.not_mem_nil, or_false] at hf
    rcases hf with rfl | rfl | rfl | rfl <;> simp [seqCntFill, seqState, seqLine, seqCntVec, seqCntVecHi]
  refine ⟨?_, Dev.get2_of_get (hother (by simp [playFields])) (hother (by simp [playFields])),
    hother (by simp [playFields]), ?_, ?_, ?_, ?_⟩
  · rw [hshow (by simp only [SeqWord, seqCntFill]; omega), Dev.get_bump _ _ (by simp [seqCntFill]), hget]
  · rw [hy, htick]
    exact congrArg _ (hperiod _)
  · rw [hy, hqueue]
  · rw [hy, hmark]
  · rw [hfill]
    exact hissue.mclk.trans hfall.mclk

/-! ## The way to a halt (R142, R146, R196) -/

/-- A sequencer on its way to its hold state: STATE reads 5, its markers fall, and its counts, its line and its tick stay. -/
theorem Dev.toHalting_effect (d : Dev) {q : Nat} (hq : q < 16) (why : HaltWhy) :
    let t := d.toHalting q why
    t.get (seqState q) = 5 ∧ (t.seq q).why = why ∧ (t.seq q).mark = 0 ∧ t.mclk = d.mclk ∧
      t.get2 (seqCntVec q) (seqCntVecHi q) = d.get2 (seqCntVec q) (seqCntVecHi q) ∧ t.get (seqLine q) = d.get (seqLine q) ∧
      (t.seq q).tick = (d.seq q).tick ∧ (t.seq q).serial = (d.seq q).serial := by
  have hfall := d.offSeq_setMarkers q 0 (d.seq q).pos
  have hseq : (d.setMarkers q 0 (d.seq q).pos).seq q = { d.seq q with mark := 0 } := by rw [hfall.seq, Dev.seq_setSeq_same]
  have hhalt : (d.toHalting q why).get (seqState q) = 5 := Dev.get_put _ (seqState q) 5 (by simp [seqState])
  have hother {f : Fld} (hf : SeqWord f.addr) (h : f.addr ≠ (seqState q).addr) : (d.toHalting q why).get f = d.get f :=
    (Dev.get_put_addr _ (seqState q) f 5 h.symm).trans (hfall.get hf)
  have hkept : ∃ x : Seq, (d.toHalting q why).seq q = x ∧ x.why = why ∧ x.mark = ((d.setMarkers q 0 (d.seq q).pos).seq q).mark ∧
      x.tick = ((d.setMarkers q 0 (d.seq q).pos).seq q).tick ∧ x.serial = ((d.setMarkers q 0 (d.seq q).pos).seq q).serial :=
    ⟨_, Dev.seq_setSeq_same _ q _, rfl, rfl, rfl, rfl⟩
  obtain ⟨x, hx, hwhy, hmark, htick, hserial⟩ := hkept
  rw [hseq] at hmark htick hserial
  dsimp only
  rw [hx]
  refine ⟨hhalt, hwhy, hmark, hfall.mclk, Dev.get2_of_get (hother ?_ ?_) (hother ?_ ?_), hother ?_ ?_, htick, hserial⟩
  all_goals simp only [SeqWord, seqState, seqLine, seqCntVec, seqCntVecHi]; omega

/-! ## A vector boundary (R6, R146, R161) -/

/-- The device at the next vector boundary of a sequencer: time has come to it, and the live writes that wait for it have taken
effect (R6). -/
def Dev.atBoundary (d : Dev) (q : Nat) : Dev := (d.advanceTo (periodOf (d.seq q).pos)).vectorBoundary q

/-- A level code register belongs to one of the 256 channels. -/
theorem lt_of_lvlCodeAt {a : Nat} {p : Nat × Nat} (h : lvlCodeAt a = some p) : p.1 < 256 := by
  unfold lvlCodeAt at h
  dsimp only at h
  split at h
  · cases h
    dsimp only
    omega
  · cases h

/-- Live writes take no time and leave the sequencers' states. -/
theorem Dev.vectorBoundary_keeps (d : Dev) (q : Nat) :
    (d.vectorBoundary q).mclk = d.mclk ∧ ∀ i, (d.vectorBoundary q).seq i = d.seq i := by
  have hstore (ws : List (Nat × Nat)) (d : Dev) : (ws.foldl (fun d w => d.storeReg w.1 w.2) d).mclk = d.mclk ∧
      ∀ i, (ws.foldl (fun d w => d.storeReg w.1 w.2) d).seq i = d.seq i :=
    List.foldlRecOn ws _ (motive := fun e : Dev => e.mclk = d.mclk ∧ ∀ i, e.seq i = d.seq i)
      ⟨rfl, fun _ => rfl⟩ fun (e : Dev) he w _ => by
      obtain ⟨_, _, h⟩ := e.storeReg_eq w.1 w.2 none
      rw [h]
      exact he
  have hload (ws : List (Nat × Nat)) (d : Dev) : d.OffSeq
      (d.forEach (ws.filterMap fun w => (lvlCodeAt w.1).map fun p => p.1).dedup fun d c => d.loadLevels c (d.writtenCodes c ws)) := by
    refine .forEach (fun d c hc => d.offSeq_loadLevels ?_ _) d
    obtain ⟨w, -, hw⟩ := List.mem_filterMap.1 (List.mem_dedup.1 hc)
    obtain ⟨p, hp, rfl⟩ := Option.map_eq_some_iff.1 hw
    exact lt_of_lvlCodeAt hp
  unfold Dev.vectorBoundary Dev.commitHeld
  dsimp only
  split
  · exact ⟨rfl, fun _ => rfl⟩
  · have hw := hstore (d.held.filter fun w => d.boundarySeq (ownerAt w.1) == some q)
      { d with held := d.held.filter fun w => !(d.boundarySeq (ownerAt w.1) == some q) }
    exact ⟨(hload _ _).mclk.trans hw.1, fun i => ((hload _ _).seq i).trans (hw.2 i)⟩

section
variable {d : Dev} {q : Nat} (obs : List Strobe) (hplays : inRange 1 3 (d.get (seqState q)) = true)
include hplays

/-- A halt that was asked for takes effect. -/
theorem Dev.vectorPlay_halt {w : HaltWhy} (hreq : ((d.atBoundary q).seq q).haltReq = some w) :
    d.vectorPlay q obs = ((d.atBoundary q).haltNote q w).toHalting q w := by
  simp only [Dev.atBoundary] at hreq ⊢
  simp [Dev.vectorPlay, hplays, hreq]

section
variable (hreq : ((d.atBoundary q).seq q).haltReq = none) (hrange : ((d.atBoundary q).seq q).stop ≠ .range)
  (hmatch : ((d.atBoundary q).seq q).mtch = none)
include hreq hrange hmatch

/-- While the sequencer fills, it plays a fill vector. -/
theorem Dev.vectorPlay_fill (hfill : ((d.atBoundary q).seq q).pos < ((d.atBoundary q).seq q).fillTo) :
    d.vectorPlay q obs = (d.atBoundary q).fillVector q := by
  simp only [Dev.atBoundary] at hreq hrange hmatch hfill ⊢
  simp [Dev.vectorPlay, hplays, hreq, hrange, hmatch, hfill]

/-- With no fill, no condition and no stall in its way, the front line of the queue plays. -/
theorem Dev.vectorPlay_line {l : FLine} {rest : List FLine} (hfill : ((d.atBoundary q).seq q).fillTo ≤ ((d.atBoundary q).seq q).pos)
    (hline : ((d.atBoundary q).seq q).jline = none) (hstall : ((d.atBoundary q).seq q).stall = false)
    (hqueue : ((d.atBoundary q).seq q).queue = l :: rest) (hsync : cwOp l.cw ≠ oSyncw) :
    d.vectorPlay q obs = (d.atBoundary q).playNext q l rest obs := by
  have hresolve : (d.atBoundary q).resolveJmpc q = d.atBoundary q := by rw [Dev.resolveJmpc, hline]
  simp only [Dev.atBoundary] at hreq hrange hmatch hfill hstall hqueue hresolve ⊢
  simp [Dev.vectorPlay, hplays, hreq, hrange, hmatch, not_lt.2 hfill, hresolve, hqueue, hstall, hsync]

end

end

/-- The front line of the queue, of no MATCH and no fail condition, plays once; a halt line then starts the halt (R161, R169, R196). -/
theorem Dev.playNext_plays (d : Dev) {q : Nat} (hq : q < 16) {l : FLine} (rest : List FLine) (obs : List Strobe)
    (hmatch : cwOp l.cw ≠ oMatch) (hfail : cwFailCond l.cw = false) :
    ∃ e, d.Played q l e ∧ d.playNext q l rest obs = if cwOp l.cw = oHalt then e.toHalting q .line else e := by
  have hahead (keep : List FLine) : d.KeepsPlay q ((d.setSeq q { d.seq q with queue := keep }).lookAhead q) := by
    refine Dev.KeepsPlay.trans ?_ (Dev.keepsPlay_lookAhead hq _)
    exact d.keepsPlay_setSeq _ rfl rfl rfl
  unfold Dev.playNext
  rw [if_neg hmatch]
  dsimp only
  rw [if_neg (by simp [hfail])]
  exact ⟨_, (hahead _).played ((Dev.played_playLine hq _ l obs).keeps (Dev.keepsPlay_countPlay hq _ _ _ _ _)), rfl⟩

/-- Settles O35: a fill is one vector with the markers low; otherwise the front line plays once, and a halt line starts the halt. -/
theorem sequencerPlaysItsNextLine : Obligations.SequencerPlaysItsNextLine := by
  intro s q obs hplays d x hreq hrange hmatch
  refine ⟨fun hfill hstall => ?_, fun l rest hfill hline hstall hqueue hm hsync hfail => ?_⟩
  · exact .of_onDev (fun d => d.vectorPlay q obs) rfl (Dev.vectorPlay_fill obs hplays hreq hrange hmatch hfill)
      (d.fillVector_effect q.isLt hstall)
  · obtain ⟨e, hplayed, hnext⟩ := d.playNext_plays q.isLt rest obs hm hfail
    refine .of_onDev (fun d => d.vectorPlay q obs) rfl
      ((Dev.vectorPlay_line obs hplays hreq hrange hmatch hfill hline hstall hqueue hsync).trans hnext) ?_
    split
    next =>
      obtain ⟨hstate, -, -, hmclk, hvec, hshown, htick, hserial⟩ := e.toHalting_effect q.isLt .line
      exact ⟨hvec.trans hplayed.vec, hshown.trans hplayed.line, htick.trans hplayed.tick, hserial.trans hplayed.serial, hstate,
        fun h => absurd ‹_› h, hmclk.trans hplayed.mclk⟩
    next =>
      exact ⟨hplayed.vec, hplayed.line, hplayed.tick, hplayed.serial, hplayed.state, fun _ => hplayed.mark, hplayed.mclk⟩

end Sys2Proof.Machine
end

section
/-!
PROOFS. The halt of a sequencer, the limit of a stall and the requests to jump (R142, R146, R189, R191, R196, R217, R511).
-/

namespace Sys2Proof.Machine

/-! ## Open and committed requests dropped (R191) -/

theorem Dev.keepsRegsEv_jumpDropped (d : Dev) (q t : Nat) : d.KeepsRegsEv (d.jumpDropped q t) [(seqCntJrej q).addr] :=
  Dev.keepsRegsEv_event _ _ _ (Dev.keepsRegsEv_bump _ (by simp) (d.keepsRegsEv_refl _))

@[simp] theorem Dev.seq_put (d : Dev) (f : Fld) (v i : Nat) : (d.put f v).seq i = d.seq i := rfl

/-- When a sequencer has dropped its requests, none is open or shown, and no time has passed. -/
theorem Dev.dropJumps_effect (d : Dev) (q : Nat) :
    let e := d.dropJumps q
    e.mclk = d.mclk ∧ (e.seq q).jReq = none ∧ e.get (seqJpend q) = 0 ∧ e.get (seqJcommit q) = 0 := by
  have hcount : (d.forEach ((d.seq q).jReq.toList ++ (d.seq q).committed) fun d t => d.jumpDropped q t).mclk = d.mclk :=
    Dev.forEach_keeps Dev.mclk (fun d t _ => (d.bump (seqCntJrej q)).event_mclk _ _ _) d
  unfold Dev.dropJumps
  dsimp only
  generalize (d.forEach ((d.seq q).jReq.toList ++ (d.seq q).committed) fun d t => d.jumpDropped q t) = e at hcount
  refine ⟨by simpa using hcount, by rw [Dev.seq_put, Dev.seq_put, Dev.seq_setSeq_same], ?_,
    Dev.get_put _ (seqJcommit q) 0 (by simp [seqJcommit])⟩
  rw [Dev.get_put_bits _ (seqJcommit q) (seqJpend q) 0 (by simp [seqJcommit]) (by simp [seqJcommit, seqJpend])]
  exact Dev.get_put _ (seqJpend q) 0 (by simp [seqJpend])

/-- SEQ_STATUS is a word of the sequencer block. -/
theorem seqWord_of_status {q a : Nat} (hq : q < 16) (h : a = (seqState q).addr) : SeqWord a := by
  simp only [h, SeqWord, seqState]
  omega

/-! ## The stacks that a sequencer shows (R198) -/

theorem Dev.get_setStacks (d : Dev) (q : Nat) (loops : List LoopLvl) (calls : List CallLvl) {f : Fld}
    (h : f.lo + f.w ≤ 3 ∨ 12 ≤ f.lo) :
    (d.setStacks q loops calls).get f = d.get f := by
  unfold Dev.setStacks
  rw [Dev.get_put_bits _ (seqCdepth q) f _ (by simp [seqCdepth]) (by simp only [seqCdepth]; omega),
    Dev.get_put_bits _ (seqLdepth q) f _ (by simp [seqLdepth]) (by simp only [seqLdepth]; omega)]
  rfl

theorem Dev.seq_setStacks (d : Dev) (q : Nat) (loops : List LoopLvl) (calls : List CallLvl) :
    (d.setStacks q loops calls).seq q = { d.seq q with loops := loops, calls := calls } :=
  d.seq_setSeq_same q _

theorem Dev.mclk_setStacks (d : Dev) (q : Nat) (loops : List LoopLvl) (calls : List CallLvl) :
    (d.setStacks q loops calls).mclk = d.mclk := rfl

/-! ## The hold state (R142, R146, R196) -/

theorem Dev.offSeq_holdState (d : Dev) (q : Nat) : d.OffSeq (d.holdState q) := by
  have hpins (d : Dev) (cs : List Nat) (f : Dev → Nat → Dev) (hf : ∀ d c, Dev.OffSeq d (f d c)) : d.OffSeq (cs.foldl f d) :=
    .foldl (fun d c _ => hf d c) d
  unfold Dev.holdState
  refine Dev.OffSeq.trans (.ite (.refl d) (hpins d _ _ fun d c => ?_)) (.forEach (fun d c _ => d.offSeq_setChan c _) _)
  exact .ite (d.offSeq_setChan c _) (d.offSeq_drivePin _ _ _ _ _ _ _ _)

theorem Dev.offSeq_patResult (d : Dev) (q site : Nat) : d.OffSeq (d.patResult q site) := by
  unfold Dev.patResult
  dsimp only
  split
  · exact .refl d
  · split
    · exact .ite (.refl d) (.ite (d.offSeq_putReading _ _ _ _) ((d.offSeq_setRun _).trans (Dev.offSeq_putReading _ _ _ _ _)))
    · exact .refl d

/-- A halting sequencer at its halt, before its sites' results are formed: requests dropped, the hold state reached, STATE shown, stacks
and queue empty. -/
def Dev.halted (d : Dev) (q : Nat) : Dev :=
  let e := ((((d.advanceTo (periodUp (d.seq q).endPos)).vectorBoundary q).dropJumps q).holdState q).put (seqState q)
    (if (d.seq q).why = .line ∨ (d.seq q).why = .command then 0 else 6)
  let e := e.setStacks q [] []
  e.setSeq q { e.seq q with
    queue := [], stop := .none, err := none, mtch := none, jline := none, haltReq := none, failSeen := 0, endTb := e.tb }

/-- What follows the halt, the state of the stream and the results of the sites, leaves the sequencers (R217). -/
theorem Dev.offSeq_seqHalt {d : Dev} {q : Nat} (hq : q < 16) (h : d.get (seqState q) = 5) : (d.halted q).OffSeq (d.seqHalt q) := by
  have hstrm (p : Bool) : (d.halted q).OffSeq (if p then (d.halted q).put (strmState q) 2 else d.halted q) :=
    .ite (Dev.offSeq_putStrm _ _ _ (by simp only [strmState]; omega)) (.refl _)
  unfold Dev.seqHalt
  rw [if_neg (by simp [h])]
  refine Dev.OffSeq.trans ?_ (.forEach (fun d site _ => d.offSeq_patResult q site) _)
  dsimp only
  split
  next r _ => exact .ite ((hstrm _).trans (Dev.offSeq_setRun _ _)) (hstrm _)
  next => exact hstrm _

/-- A halted sequencer shows IDLE after a halt line or a command and HALTED otherwise; its queue, stacks and requests are empty, and time
has come to the end of its last vector and edges (R142, R196). -/
theorem Dev.halted_effect (d : Dev) {q : Nat} (hq : q < 16) :
    let t := d.halted q
    t.get (seqState q) = (if (d.seq q).why = .line ∨ (d.seq q).why = .command then 0 else 6) ∧
      (t.seq q).queue = [] ∧ (t.seq q).loops = [] ∧ (t.seq q).calls = [] ∧ (t.seq q).jReq = none ∧ (t.seq q).failSeen = 0 ∧
      t.get (seqJpend q) = 0 ∧ t.get (seqJcommit q) = 0 ∧ t.mclk = max d.mclk (periodUp (d.seq q).endPos) := by
  obtain ⟨hmclk, -⟩ := Dev.vectorBoundary_keeps (d.advanceTo (periodUp (d.seq q).endPos)) q
  obtain ⟨hdrop, hreq, hpend, hcommit⟩ := Dev.dropJumps_effect ((d.advanceTo (periodUp (d.seq q).endPos)).vectorBoundary q) q
  have hhold := Dev.offSeq_holdState (((d.advanceTo (periodUp (d.seq q).endPos)).vectorBoundary q).dropJumps q) q
  unfold Dev.halted
  generalize (((d.advanceTo (periodUp (d.seq q).endPos)).vectorBoundary q).dropJumps q).holdState q = e at hhold
  have hother {f : Fld} (h : 12 ≤ f.lo) (ha : f.addr = (seqState q).addr) (v : Nat) :
      ((e.put (seqState q) v).setStacks q [] []).get f =
        (((d.advanceTo (periodUp (d.seq q).endPos)).vectorBoundary q).dropJumps q).get f := by
    rw [Dev.get_setStacks _ _ _ _ (.inr h), Dev.get_put_bits _ _ _ _ (by simp [seqState]) (.inr (by simp only [seqState]; omega)),
      hhold.get (seqWord_of_status hq ha)]
  dsimp only
  simp only [Dev.get_setSeq, Dev.seq_setSeq_same, Dev.seq_setStacks, Dev.seq_put, hhold.seq, Dev.setSeq_mclk, Dev.mclk_setStacks,
    Dev.put_mclk, true_and]
  refine ⟨?_, hreq, ?_, ?_, ?_⟩
  · rw [Dev.get_setStacks _ _ _ _ (by simp [seqState]), Dev.get_put _ _ _ (by simp [seqState])]
    split <;> rfl
  · rw [hother (f := seqJpend q) (by simp [seqJpend]) rfl, hpend]
  · rw [hother (f := seqJcommit q) (by simp [seqJcommit]) rfl, hcommit]
  · rw [hhold.mclk, hdrop, hmclk, d.mclk_advanceTo]

/-! ## Stalls and jump requests (R189, R191, R217) -/

/-- A stall that has lasted its limit asks its playing sequencer for a halt. -/
theorem Dev.stallMaxExpiry_asks {d : Dev} {q at_ : Nat} (hplays : inRange 1 3 (d.get (seqState q)) = true) (hstall : (d.seq q).stall = true)
    (hend : (d.seq q).stallEnd = some at_) (hreq : (d.seq q).haltReq = none) :
    d.stallMaxExpiry q = (d.advanceTo at_).setSeq q { d.seq q with haltReq := some .underrun } := by
  have hwait : d.get (seqState q) ≠ 4 := fun h => by simp [h, inRange] at hplays
  have hseq : (d.advanceTo at_).seq q = d.seq q := rfl
  have hasked : (d.advanceTo at_).haltSeq q .underrun = (d.advanceTo at_).setSeq q { d.seq q with haltReq := some .underrun } := by
    rw [Dev.haltSeq, Dev.get_advanceTo, if_neg hwait, hseq]
    exact if_pos (by simp [hplays, hreq])
  rw [Dev.stallMaxExpiry, hend, ← hasked]
  exact if_pos hstall

/-- A sequencer's state and a register, replaced together, leave the rest. -/
theorem Dev.seqPut_alone (d : Dev) (q : Nat) (x : Seq) (f : Fld) (v : Nat) :
    { (d.setSeq q x).put f v with regs := d.regs, seqs := d.seqs } = d := rfl

/-- Settles O37: the boundary's live writes leave the sequencers, and each command is one branch of its function. -/
theorem sequencersHaltAndTakeJumpRequests : Obligations.SequencersHaltAndTakeJumpRequests := by
  refine ⟨fun s q hhalting => ?_, fun s q obs w hplays hreq => ?_, fun s q at_ hplays hstall hend hreq => ?_,
    fun s q v hawake hplays => ?_, fun s q v hawake hidle => ?_⟩
  · have hoff := Dev.offSeq_seqHalt q.isLt hhalting
    refine .of_onDevIdle (fun d => d.seqHalt q) rfl rfl ?_
    rw [hoff.seq, hoff.mclk, hoff.get (f := seqState q) (seqWord_of_status q.isLt rfl),
      hoff.get (f := seqJpend q) (seqWord_of_status q.isLt rfl),
      hoff.get (f := seqJcommit q) (seqWord_of_status q.isLt rfl)]
    exact s.dev.halted_effect q.isLt
  · have hat : ((s.dev.atBoundary q).seq q).haltReq = some w := by
      rw [← hreq]
      exact congrArg Seq.haltReq ((Dev.vectorBoundary_keeps _ q).2 q)
    obtain ⟨hstate, hwhy, hmark, -⟩ := ((s.dev.atBoundary q).haltNote q w).toHalting_effect q.isLt w
    exact .of_onDev (fun d => d.vectorPlay q obs) rfl (Dev.vectorPlay_halt obs hplays hat) ⟨hstate, hwhy, hmark⟩
  · refine .of_onDev (fun d => d.stallMaxExpiry q) rfl (Dev.stallMaxExpiry_asks hplays hstall hend hreq)
      ⟨by rw [Dev.seq_setSeq_same], s.dev.mclk_advanceTo at_, fun i hi => ?_, fun _ _ => rfl⟩
    rw [Dev.seq_setSeq, if_neg (Ne.symm hi)]
    rfl
  · refine .of_onDev (fun d => d.orHold (0x10002C + 0x10000 * q) v.toNat fun d => d.jumpRequest q (v.toNat % 256)) rfl
      ((Dev.orHold_awake _ _ _ hawake).trans (if_pos hplays))
      ⟨?_, Dev.get_put _ (seqJpend q) 1 (by simp [seqJpend]), fun i hi => ?_, Dev.keepsRegs_put _ _ (by simp) (Dev.keepsRegs_refl _ _),
        Dev.seqPut_alone _ _ _ _ _⟩
    · rw [Dev.seq_put, Dev.seq_setSeq_same, Nat.mod_mod]
    · rw [Dev.seq_put, Dev.seq_setSeq, if_neg (Ne.symm hi)]
  · refine .of_onDev (fun d => d.orHold (0x10002C + 0x10000 * q) v.toNat fun d => d.jumpRequest q (v.toNat % 256)) rfl
      ((Dev.orHold_awake _ _ _ hawake).trans (if_neg (by simp [hidle]))) ⟨?_, Dev.event_seqs _ _ _ _, s.dev.keepsRegsEv_jumpDropped q _⟩
    rw [Dev.jumpDropped, Dev.get_event _ _ _ _ _ (by simp only [seqCntJrej]; omega)]
    exact s.dev.get_bump (seqCntJrej q) (by simp [seqCntJrej])

end Sys2Proof.Machine
end

section
/-!
PROOFS. The load of vector lines, streams and kernels (R163, R165, R199 to R201, R210, R211, R213, R218, R339, R340).
-/

namespace Sys2Proof.Machine

/-! ## What follows a load: its completion and the idle timers (R489, R575) -/

theorem Dev.onlyPower_done (d : Dev) (w : Work) (status : Nat) : d.OnlyPower (d.done w status) :=
  (d.onlyHost_complete w status 0 0).power.trans (Dev.onlyPower_idleRestart _)

theorem Dev.OnlyPower.strm {d e : Dev} (h : d.OnlyPower e) (i : Nat) : e.strm i = d.strm i := by
  obtain ⟨⟨_, _, _, _, _, _, rfl⟩, -⟩ := h
  rfl

/-- The fields of a stream keep their values where nothing but the power state changes. -/
theorem Dev.OnlyPower.getStrm {d e : Dev} (h : d.OnlyPower e) {s : Nat} (hs : s < 16) {f : Fld}
    (hf : 0x18000 + 0x40 * s ≤ f.addr ∧ f.addr < 0x18040 + 0x40 * s) : e.get f = d.get f := h.get f (by omega)

theorem dField_lt (x byte lo w : Nat) : dField x byte lo w < 2 ^ w := Nat.mod_lt _ (Nat.two_pow_pos w)

/-! ## WRITE_VECTORS (R163, R165) -/

section
variable {d : Dev} {q x : Nat} {w : Work} {data : List Byte} (hdesc : d.descOf q opWriteVectors = some (x, w))
include hdesc

theorem Dev.writeVectors_locked (hfirst : dField x 12 0 25 < d.residentLines (dField x 8 0 4))
    (hrun : d.seqRunning (dField x 8 0 4) = true) : d.writeVectors q data true = d.done w stLocked := by
  rw [Dev.writeVectors, Dev.onDesc_of_descOf _ hdesc]
  exact if_pos ⟨hfirst, hrun⟩

theorem Dev.writeVectors_stores (hidle : d.seqRunning (dField x 8 0 4) = false)
    (hfit : dField x 12 0 25 + dField x 16 0 32 ≤ d.residentLines (dField x 8 0 4))
    (hlen : dField x 16 0 32 * d.lineSize (dField x 8 0 4) ≤ data.length) :
    d.writeVectors q data true =
      (d.forEach (List.range (dField x 16 0 32)) fun e k =>
        e.writeLine (d.get (seqVbase (dField x 8 0 4))) (d.lineSize (dField x 8 0 4)) (dField x 12 0 25 + k)
          (d.get (seqVgen (dField x 8 0 4)))
          ((data.drop (k * d.lineSize (dField x 8 0 4))).take (d.lineSize (dField x 8 0 4)))).doneWith w stOk (dField x 16 0 32) 0 := by
  rw [Dev.writeVectors, Dev.onDesc_of_descOf _ hdesc]
  dsimp only
  rw [if_neg (by simp [hidle]), if_neg (not_lt.2 hfit), if_neg (by simpa using hlen)]

end

/-! ## STREAM_ATTACH (R199 to R202) -/

/-- Each slot of a fresh window waits for the first read of its own chunk. -/
theorem get_freshSlots (n i : Nat) : Tab.get (fun _ => Slot.init) (freshSlots n) i =
    if i < n then { chunk := i, st := .reading false, used := false, vgen := 0 } else Slot.init := by
  unfold freshSlots
  induction n with
  | zero => rfl
  | succ n ih =>
    rw [List.range_succ, List.foldl_append, List.foldl_cons, List.foldl_nil, Tab.get_set, ih]
    rcases lt_trichotomy i n with h | rfl | h
    · rw [if_neg (by omega), if_pos h, if_pos (by omega)]
    · rw [if_pos rfl, if_pos (by omega)]
    · rw [if_neg (by omega), if_neg (by omega), if_neg (by omega)]

/-- A stream whose STREAM_ATTACH has begun: its directory, and no chunk read yet. -/
def attachedStrm (x : Nat) (w : Work) (dir : List DirEntry) : Strm :=
  { chunkMb := dField x 9 0 8, slotsN := dField x 10 0 8, stallMax := dField x 12 0 16, dir := dir,
    slots := freshSlots (min (dField x 10 0 8) dir.length), pos := 0, attach := some w, reads := [] }

/-- The registers that a STREAM_ATTACH sets at its beginning (R199, R220). -/
def Dev.attachRegs (d : Dev) (s x : Nat) (dir : List DirEntry) : Dev :=
  let d := ((d.put (strmAttached s) 1).put (strmStallOk s) (dField x 11 0 1)).putB (strmLoopX s) (dir.any fun e => e.loopXing)
  let d := ((d.put (strmState s) 1).put (strmCsizeM1 s) (dField x 9 0 8 - 1)).put (strmNslot s) (dField x 10 0 8)
  let d := (d.put2 (strmPosLo s) (strmPosHi s) 0).put (strmReady s) 0
  let d := ((d.put2 (strmStallLo s) (strmStallHi s) 0).put (strmRetries s) 0).put (strmUnderruns s) 0
  d.put (strmRate s) 0

theorem Dev.strm_attachRegs (d : Dev) (s x : Nat) (dir : List DirEntry) (j : Nat) : (d.attachRegs s x dir).strm j = d.strm j := by
  have hstrms : (d.attachRegs s x dir).strms = d.strms := by simp [Dev.attachRegs]
  rw [Dev.strm, hstrms, Dev.strm]

theorem Dev.host_attachRegs (d : Dev) (s x : Nat) (dir : List DirEntry) : (d.attachRegs s x dir).host = d.host := by
  simp [Dev.attachRegs]


theorem Dev.get_attachRegs (d : Dev) (s x : Nat) (dir : List DirEntry) :
    let t := d.attachRegs s x dir
    t.get (strmAttached s) = 1 ∧ t.get (strmState s) = 1 ∧ t.get (strmNslot s) = dField x 10 0 8 % 2 ^ 6 ∧
      t.get (strmCsizeM1 s) = (dField x 9 0 8 - 1) % 2 ^ 4 ∧ t.get (strmUnderruns s) = 0 := by
  unfold Dev.attachRegs Dev.put2 Dev.putB
  refine ⟨?_, ?_, ?_, ?_, ?_⟩
  all_goals
    simp (disch := (simp only [strmAttached, strmStallOk, strmLoopX, strmState, strmCsizeM1, strmNslot, strmPosLo, strmPosHi, strmReady,
      strmStallLo, strmStallHi, strmRetries, strmUnderruns, strmRate] <;> omega)) only [Dev.get_put, Dev.get_put_ne]
    simp [strmAttached, strmState, strmNslot, strmCsizeM1, strmUnderruns]

/-- A window that still waits for a first chunk completes no STREAM_ATTACH. -/
theorem Dev.attachDone_waits {d : Dev} {s : Nat} (h : (d.strm s).preloaded = false) : d.attachDone s = d := by
  unfold Dev.attachDone
  dsimp only
  split
  · rw [if_neg (by simp [h])]
  · rfl

theorem preloaded_attachedStrm {x : Nat} {w : Work} {dir : List DirEntry} (hn : 0 < dField x 10 0 8) (hdir : 0 < dir.length) :
    (attachedStrm x w dir).preloaded = false := by
  have hslots : 0 < min (dField x 10 0 8) dir.length := by omega
  refine List.all_eq_false.2 ⟨0, List.mem_range.2 hslots, ?_⟩
  simp [Strm.slot, attachedStrm, get_freshSlots, hn, hdir, Slot.settled]

/-- A lawful STREAM_ATTACH with no chunk yet: the stream's registers and its directory stand, and it waits for its window (R200). -/
theorem Dev.streamAttach_begins {d : Dev} {q x : Nat} {w : Work} {dir : List DirEntry} (hdesc : d.descOf q opStreamAttach = some (x, w))
    (hnew : (d.strm (dField x 8 0 4)).attach ≠ some w) (hidle : d.seqRunning (dField x 8 0 4) = false)
    (hfree : d.get (strmAttached (dField x 8 0 4)) = 0) (hpar : attachParams x = true)
    (hroom : dField x 10 0 8 * dField x 9 0 8 * 16384 ≤ d.get (seqVlines (dField x 8 0 4))) (hdir : dir.length = dField x 24 0 32)
    (hok : ∀ e, e ∈ dir → dirOk (slotCapacity (d.lineSize (dField x 8 0 4)) (dField x 9 0 8)) e = true) :
    d.streamAttach q dir [] true =
      (d.setStrm (dField x 8 0 4) (attachedStrm x w dir)).attachRegs (dField x 8 0 4) x dir := by
  have hrange : 0 < dField x 10 0 8 ∧ 0 < dir.length := by
    simp only [attachParams, inRange, Bool.and_eq_true, decide_eq_true_eq] at hpar
    omega
  have hwaits : (((d.setStrm (dField x 8 0 4) (attachedStrm x w dir)).attachRegs (dField x 8 0 4) x dir).strm
      (dField x 8 0 4)).preloaded = false := by
    rw [Dev.strm_attachRegs, Dev.strm_setStrm_same]
    exact preloaded_attachedStrm hrange.1 hrange.2
  rw [Dev.streamAttach, Dev.onDesc_of_descOf _ hdesc]
  dsimp only
  rw [if_neg hnew, if_neg (by simp [hidle]), if_neg (by simp [Dev.is, hfree, hpar, hroom]), if_neg (by simp [hdir]),
    if_neg (by simpa using hok)]
  exact Dev.attachDone_waits hwaits

/-! ## The reads of chunks (R210, R211) -/

theorem Dev.strm_put (d : Dev) (f : Fld) (v j : Nat) : (d.put f v).strm j = d.strm j := rfl

theorem Dev.strm_event (d : Dev) (src code pay j : Nat) : (d.event src code pay).strm j = d.strm j := by
  rw [Dev.strm, Dev.event_strms, Dev.strm]

/-- A slot of a stream's window, replaced. -/
def Dev.setSlot (d : Dev) (s i : Nat) (v : Slot) : Dev :=
  d.setStrm s { d.strm s with slots := Tab.set (fun _ => Slot.init) (d.strm s).slots i v }

theorem Dev.slot_setSlot (d : Dev) (s i : Nat) (v : Slot) : ((d.setSlot s i v).strm s).slot i = v := by
  rw [Dev.setSlot, Dev.strm_setStrm_same]
  exact Tab.get_set_same _ _ _ _

theorem Dev.attach_setSlot (d : Dev) (s i : Nat) (v : Slot) : ((d.setSlot s i v).strm s).attach = (d.strm s).attach := by
  rw [Dev.setSlot, Dev.strm_setStrm_same]

theorem Dev.sansSram_writeLine (d : Dev) (b sz n vgen : Nat) (bs : List Byte) : (d.writeLine b sz n vgen bs).sansSram = d.sansSram := by
  unfold Dev.writeLine
  refine (Dev.forEach_keeps Dev.sansSram (fun e ml _ => e.sansSram_st _ _ _) _).trans ?_
  exact List.foldlRecOn bs.zipIdx _ (motive := fun e : Dev => e.sansSram = d.sansSram) rfl fun e he p _ => he

/-- The lines of a chunk, stored in a slot of the window. -/
def Dev.chunkStored (d : Dev) (s i n : Nat) (data : List Byte) : Dev :=
  d.forEach (List.range n) fun e k =>
    e.writeLine (d.slotBase s i) (d.lineSize s) k (d.get (seqVgen s)) ((data.drop (k * d.lineSize s)).take (d.lineSize s))

/-- A read of `n` bytes, noted: the stream's reads of the last 1 ms and its registers (R212, R220). -/
def Dev.readNoted (d : Dev) (s n : Nat) : Dev :=
  let e := d.setStrm s
    { d.strm s with reads := (d.mclk, n) :: (d.strm s).reads.filter fun p => decide (d.mclk ≤ p.1 + us 1000) }
  (e.put (strmRate s) (e.strmRateNow s)).put (strmReady s) ((e.put (strmRate s) (e.strmRateNow s)).readyAhead s)

/-- A chunk in its slot: its lines stored, the slot ready under the generation in force, and the read noted. -/
def Dev.chunkTaken (d : Dev) (s i n : Nat) (data : List Byte) : Dev :=
  ((d.chunkStored s i n data).setSlot s i { (d.strm s).slot i with st := .ready, used := false, vgen := d.get (seqVgen s) }).readNoted s
    (n * d.lineSize s)

section
variable {d : Dev} {s i : Nat} {data : List Byte} {e : DirEntry} (hdir : (d.strm s).dir[((d.strm s).slot i).chunk]? = some e)
include hdir

/-- The first read of a chunk that fails is tried once more, and counted (R211). -/
theorem Dev.chunkRead_retry (hst : ((d.strm s).slot i).st = .reading false) :
    d.chunkRead s i data false = (d.setSlot s i { (d.strm s).slot i with st := .reading true }).bump (strmRetries s) := by
  unfold Dev.chunkRead
  simp only [hst, hdir]
  rfl

/-- The second read of a chunk that fails breaks the stream, with its event (R211). -/
theorem Dev.chunkRead_breaks (hst : ((d.strm s).slot i).st = .reading true) : ∃ pay, d.chunkRead s i data false =
    ((d.setSlot s i { (d.strm s).slot i with st := .broken }).put (strmState s) 5).event (srcSeq s) 0x0405 pay := by
  unfold Dev.chunkRead
  simp only [hst, hdir]
  exact ⟨_, rfl⟩

/-- A chunk that arrives whole: its lines are stored, its slot is ready, and the stream's rate and window follow (R210, R213). -/
theorem Dev.chunkRead_whole {again : Bool} (hst : ((d.strm s).slot i).st = .reading again)
    (hlen : data.length = e.lines * d.lineSize s) (hcrc : crc32 (data.map fun b => b.toNat) = e.crc.toNat) :
    let t := d.chunkTaken s i e.lines data
    d.chunkRead s i data true =
      if t.get (strmState s) = 1 && (t.strm s).attach.isNone && (t.strm s).preloaded then t.put (strmState s) 2 else t := by
  have htake : data.take (e.lines * d.lineSize s) = data := List.take_of_length_le hlen.le
  have hok : (true && decide (data.length = e.lines * d.lineSize s) && crc32 (data.map fun b => b.toNat) == e.crc.toNat) = true := by
    simp [hlen, hcrc]
  unfold Dev.chunkRead
  simp only [hst, hdir, htake]
  rw [if_pos hok]
  rfl

end

theorem Dev.strm_sansSram {d e : Dev} (h : d.sansSram = e.sansSram) (j : Nat) : d.strm j = e.strm j :=
  (congrArg (fun d : Dev => d.strm j) h :)

theorem Dev.sansSram_chunkStored (d : Dev) (s i n : Nat) (data : List Byte) : (d.chunkStored s i n data).sansSram = d.sansSram :=
  Dev.forEach_keeps Dev.sansSram (fun e _ _ => e.sansSram_writeLine _ _ _ _ _) d

theorem Dev.seq_setSlot (d : Dev) (s i : Nat) (v : Slot) (j : Nat) : (d.setSlot s i v).seq j = d.seq j := rfl

theorem Dev.seq_readNoted (d : Dev) (s n j : Nat) : (d.readNoted s n).seq j = d.seq j := by
  have hseqs : (d.readNoted s n).seqs = d.seqs := by simp [Dev.readNoted]
  rw [Dev.seq, hseqs, Dev.seq]

theorem Dev.strm_readNoted (d : Dev) (s n : Nat) : ∃ reads, (d.readNoted s n).strm s = { d.strm s with reads := reads } :=
  ⟨_, d.strm_setStrm_same s _⟩

/-- The slot of a chunk that is taken is ready; the stream's STREAM_ATTACH and the sequencers stay. -/
theorem Dev.chunkTaken_effect (d : Dev) (s i n : Nat) (data : List Byte) :
    let t := d.chunkTaken s i n data
    (t.strm s).slot i = { (d.strm s).slot i with st := .ready, used := false, vgen := d.get (seqVgen s) } ∧
      (t.strm s).attach = (d.strm s).attach ∧ t.seq s = d.seq s := by
  have hstored := d.sansSram_chunkStored s i n data
  obtain ⟨reads, hreads⟩ := Dev.strm_readNoted ((d.chunkStored s i n data).setSlot s i
    { (d.strm s).slot i with st := .ready, used := false, vgen := d.get (seqVgen s) }) s (n * d.lineSize s)
  unfold Dev.chunkTaken
  dsimp only
  rw [hreads, Dev.seq_readNoted, Dev.seq_setSlot]
  refine ⟨Dev.slot_setSlot _ s i _, ?_, (congrArg (fun d : Dev => d.seq s) hstored :)⟩
  exact (Dev.attach_setSlot _ s i _).trans (congrArg Strm.attach (Dev.strm_sansSram hstored s))

/-- A read that ends while neither a STREAM_ATTACH nor the sequencer waits for it changes the stream, and the idle timers follow. -/
theorem Dev.chunkReadDone_unawaited {d : Dev} {s i : Nat} {data : List Byte} {linkOk : Bool} {t : Dev} (h : d.chunkRead s i data linkOk = t)
    (hattach : (t.strm s).attach = none) (hstop : (t.seq s).stop ≠ .chunk) : d.chunkReadDone s i data linkOk = t.idleRestart := by
  have hdone : t.attachDone s = t := by
    unfold Dev.attachDone
    simp only [hattach]
  have hresume : t.chunkResume s = t := if_neg fun hc => hstop hc.1
  rw [Dev.chunkReadDone, h, hdone, hresume]

section
variable {d : Dev} {s i : Nat} {data : List Byte} {e : DirEntry} (hnone : (d.strm s).attach = none)
  (hstop : (d.seq s).stop ≠ .chunk) (hdir : (d.strm s).dir[((d.strm s).slot i).chunk]? = some e)
include hnone hstop hdir

theorem Dev.chunkReadDone_retry (hs : s < 16) (hst : ((d.strm s).slot i).st = .reading false) :
    let t := d.chunkReadDone s i data false
    ((t.strm s).slot i).st = .reading true ∧ t.get (strmRetries s) = min (d.get (strmRetries s) + 1) 0xFFFF ∧
      t.get (strmState s) = d.get (strmState s) := by
  have hnone' := (d.attach_setSlot s i { (d.strm s).slot i with st := .reading true }).trans hnone
  have hkept := Dev.onlyPower_idleRestart ((d.setSlot s i { (d.strm s).slot i with st := .reading true }).bump (strmRetries s))
  rw [Dev.chunkReadDone_unawaited (Dev.chunkRead_retry hdir hst) hnone' hstop]
  refine ⟨?_, ?_, ?_⟩
  · rw [hkept.strm]
    exact congrArg Slot.st (d.slot_setSlot s i _)
  · rw [hkept.getStrm hs (by simp [strmRetries]), Dev.get_bump _ _ (by simp [strmRetries])]
    rfl
  · rw [hkept.getStrm hs (by simp [strmState]), Dev.get_bump_ne _ _ _ (by simp [strmRetries, strmState])]
    rfl

theorem Dev.chunkReadDone_breaks (hs : s < 16) (hst : ((d.strm s).slot i).st = .reading true) :
    let t := d.chunkReadDone s i data false
    ((t.strm s).slot i).st = .broken ∧ t.get (strmState s) = 5 := by
  obtain ⟨pay, hread⟩ := Dev.chunkRead_breaks (data := data) hdir hst
  have hslot := d.slot_setSlot s i { (d.strm s).slot i with st := .broken }
  have hattach := d.attach_setSlot s i { (d.strm s).slot i with st := .broken }
  have hseq := d.seq_setSlot s i { (d.strm s).slot i with st := .broken } s
  generalize d.setSlot s i { (d.strm s).slot i with st := .broken } = u at hread hslot hattach hseq
  have hev (j : Nat) : ((u.put (strmState s) 5).event (srcSeq s) 0x0405 pay).seq j = u.seq j := by
    rw [Dev.seq, Dev.event_seqs, ← Dev.seq, Dev.seq_put]
  have hkept := ((u.put (strmState s) 5).event (srcSeq s) 0x0405 pay).onlyPower_idleRestart
  rw [Dev.chunkReadDone_unawaited hread (by rw [Dev.strm_event, Dev.strm_put, hattach, hnone]) (by rwa [hev, hseq])]
  refine ⟨?_, ?_⟩
  · rw [hkept.strm, Dev.strm_event, Dev.strm_put, hslot]
  · rw [hkept.getStrm hs (by simp [strmState]), Dev.get_event _ _ _ _ _ (by simp only [strmState]; omega),
      Dev.get_put _ _ _ (by simp [strmState])]
    rfl

/-- A chunk that arrives whole leaves its slot ready, whatever its window still waits for. -/
theorem Dev.chunkReadDone_ready {again : Bool} (hst : ((d.strm s).slot i).st = .reading again)
    (hlen : data.length = e.lines * d.lineSize s) (hcrc : crc32 (data.map fun b => b.toNat) = e.crc.toNat) :
    ((d.chunkReadDone s i data true).strm s).slot i =
      { (d.strm s).slot i with st := .ready, used := false, vgen := d.get (seqVgen s) } := by
  have hwhole : ∃ t, d.chunkRead s i data true = t ∧ t.strm s = (d.chunkTaken s i e.lines data).strm s ∧
      t.seq s = (d.chunkTaken s i e.lines data).seq s := by
    refine ⟨_, Dev.chunkRead_whole hdir hst hlen hcrc, ?_⟩
    generalize d.chunkTaken s i e.lines data = t
    split
    · exact ⟨t.strm_put _ _ s, t.seq_put _ _ s⟩
    · exact ⟨rfl, rfl⟩
  obtain ⟨t, ht, hstrm, hseq⟩ := hwhole
  obtain ⟨hslot, hattach, hkeeps⟩ := d.chunkTaken_effect s i e.lines data
  rw [Dev.chunkReadDone_unawaited ht (by rw [hstrm, hattach, hnone]) (by rwa [hseq, hkeeps]), (Dev.onlyPower_idleRestart t).strm, hstrm,
    hslot]

end

/-! ## STREAM_DETACH (R218) -/

/-- The line checks of a stream's window, set to those of no line (R218, R617). -/
def Dev.windowUnset (d : Dev) (s : Nat) : Dev :=
  let a (i : Nat) : Nat := 64 * (d.get (seqVbase s) + d.get (seqVlines s) - d.windowLines s + i) + 60
  d.forEach (List.range (d.windowLines s)) fun e i => e.st (a i) 4 (putBits (e.ld (a i) 4) 0 22 0x3FFFFF)

theorem Dev.sansSram_windowUnset (d : Dev) (s : Nat) : (d.windowUnset s).sansSram = d.sansSram :=
  Dev.forEach_keeps Dev.sansSram (fun e _ _ => e.sansSram_st _ _ _) d

/-- The device when a stream has left its sequencer: its window is unset, and its directory and registers are cleared. -/
def Dev.detached (d : Dev) (s : Nat) : Dev :=
  (((((d.windowUnset s).setStrm s Strm.init).setWord (0x18000 + 0x40 * s) 0).put2 (strmPosLo s) (strmPosHi s) 0).put (strmReady s) 0)

theorem Dev.streamDetach_detaches {d : Dev} {q x : Nat} {w : Work} (hdesc : d.descOf q opStreamDetach = some (x, w))
    (hidle : d.seqRunning (dField x 8 0 4) = false) (hatt : d.get (strmAttached (dField x 8 0 4)) = 1) :
    d.streamDetach q = (d.detached (dField x 8 0 4)).done w stOk := by
  rw [Dev.streamDetach, Dev.onDesc_of_descOf _ hdesc]
  dsimp only
  rw [if_neg (by simp [hidle]), if_neg (by simp [Dev.is, hatt])]
  rfl

theorem Dev.strm_detached (d : Dev) (s j : Nat) : (d.detached s).strm j = if s = j then Strm.init else d.strm j := by
  rw [← Dev.strm_sansSram (d.sansSram_windowUnset s) j, ← Dev.strm_setStrm]
  simp only [Dev.detached, Dev.strm, Dev.put_strms, Dev.put2_strms, Dev.setWord_strms]

/-- The control and status word of a detached stream reads 0. -/
theorem Dev.get_detached (d : Dev) (s : Nat) {f : Fld} (hf : f.addr = 0x18000 + 0x40 * s) : (d.detached s).get f = 0 := by
  unfold Dev.detached Dev.put2
  rw [Dev.get_put_addr _ _ _ _ (by simp [strmReady, hf]), Dev.get_put_addr _ _ _ _ (by simp [strmPosHi, hf]),
    Dev.get_put_addr _ _ _ _ (by simp [strmPosLo, hf]), Dev.get, hf, Dev.word_setWord]
  simp [bitsOf]

/-! ## LOAD_KERNEL (R339, R340) -/

theorem mem_maskList {n m e : Nat} : e ∈ maskList n m ↔ e < n ∧ m.testBit e = true := by
  simp [maskList]

/-- The engines of a list begin to load an image: each is in LOADING with it; the others and the host interface stay. -/
theorem Dev.loadBegin_all (w : Work) (image : List Byte) (l : List Nat) (d : Dev) (e : Nat) :
    let t := d.forEach l fun d e => d.loadBegin w image e
    t.get (dseState e) = (if e ∈ l then 3 else d.get (dseState e)) ∧
      (t.dse e).load = (if e ∈ l then some { work := w.id, image := image } else (d.dse e).load) ∧ t.host = d.host := by
  have hone (d : Dev) (a : Nat) : (d.loadBegin w image a).get (dseState e) = (if a = e then 3 else d.get (dseState e)) ∧
      ((d.loadBegin w image a).dse e).load = (if a = e then some { work := w.id, image := image } else (d.dse e).load) := by
    have hdse := d.dse_setDse a e { d.dse a with
      load := some { work := w.id, image := image }, wasQ := d.get (dseState a) == 4 || d.get (dseState a) == 5 }
    unfold Dev.loadBegin
    refine ⟨?_, (congrArg Dse.load hdse).trans (apply_ite Dse.load _ _ _)⟩
    split
    next h => rw [h, Dev.get_put _ _ _ (by simp [dseState])]; rfl
    next h => exact Dev.get_put_addr _ _ _ _ (by simpa [dseState] using h)
  unfold Dev.forEach
  induction l generalizing d with
  | nil => simp
  | cons a l ih =>
    obtain ⟨hstate, hload, hhost⟩ := ih (d.loadBegin w image a)
    obtain ⟨hstate1, hload1⟩ := hone d a
    rw [List.foldl_cons]
    refine ⟨?_, ?_, hhost⟩
    · rw [hstate, hstate1]
      by_cases h : e ∈ l <;> simp [h, eq_comm]
    · rw [hload, hload1]
      by_cases h : e ∈ l <;> simp [h, eq_comm]

section
variable {d : Dev} {q x : Nat} {w : Work} {image : List Byte} (hdesc : d.descOf q opLoadKernel = some (x, w))
  (hfree : ∀ e, e < 16 → (dField x 8 0 16).testBit e = true → (d.dse e).load = none)
include hdesc hfree

/-- A LOAD_KERNEL for which no engine waits is judged by its engines and its image. -/
theorem Dev.loadKernel_judged : d.loadKernel q image true =
    if (maskList 16 (dField x 8 0 16)).any d.dseRunning then d.done w stLocked
    else if image.length < dField x 16 0 32 then d.done w stIntegrity
    else if imageOk (dField x 16 0 32) (image.take (dField x 16 0 32)) = false then d.done w stRange
    else if (maskList 16 (dField x 8 0 16)).isEmpty then d.done w stOk
    else d.forEach (maskList 16 (dField x 8 0 16)) fun d e => d.loadBegin w (image.take (dField x 16 0 32)) e := by
  have hload : (maskList 16 (dField x 8 0 16)).any (fun e => (d.dse e).load.isSome) = false := by
    refine List.any_eq_false.2 fun e he => ?_
    obtain ⟨hlt, hbit⟩ := mem_maskList.1 he
    simp [hfree e hlt hbit]
  rw [Dev.loadKernel, Dev.onDesc_of_descOf _ hdesc]
  dsimp only
  rw [if_neg (by simp [hload])]
  simp

end

/-- Settles O42: each command is one branch of its function; what follows it, the completion record and the idle timers, leaves the
streams. -/
theorem vectorsStreamsAndKernelsAreLoaded : Obligations.VectorsStreamsAndKernelsAreLoaded := by
  refine ⟨⟨fun s q data x w hdesc => ⟨fun hidle hfit hlen => ?_, fun hfirst hrun => ?_⟩,
    fun s q dir x w hdesc hnew hidle hfree hpar hroom hdir hok => ?_, fun s q x w hdesc hidle hatt => ?_,
    fun s i k data again e hnone hstop hst hdir => ?_, fun s i k data again e hnone hstop hst hdir hlen hcrc => ?_⟩,
    fun s q image x w hdesc hfree => ⟨fun e he hbit hrun => ?_, fun hidle hlen => ⟨fun hbad => ?_, fun hgood hsome => ?_⟩⟩⟩
  · exact .of_onDev (fun d => d.writeVectors q data true) rfl (Dev.writeVectors_stores hdesc hidle hfit hlen) rfl
  · exact .of_onDev (fun d => d.writeVectors q data true) rfl (Dev.writeVectors_locked hdesc hfirst hrun) rfl
  · refine .of_onDev (fun d => d.streamAttach q dir [] true) rfl
      (Dev.streamAttach_begins hdesc hnew hidle hfree hpar hroom hdir hok) ?_
    obtain ⟨hattached, hstate, hslots, hsize, hunder⟩ :=
      Dev.get_attachRegs (s.dev.setStrm (dField x 8 0 4) (attachedStrm x w dir)) (dField x 8 0 4) x dir
    simp only [attachParams, inRange, Bool.and_eq_true, decide_eq_true_eq] at hpar
    rw [Dev.strm_attachRegs, Dev.strm_setStrm_same, Dev.host_attachRegs]
    exact ⟨hattached, hstate, hslots.trans (Nat.mod_eq_of_lt (by omega)), hsize.trans (Nat.mod_eq_of_lt (by omega)), hunder, rfl, rfl,
      rfl, rfl⟩
  · have hkept := (s.dev.detached (dField x 8 0 4)).onlyPower_done w stOk
    have hs : dField x 8 0 4 < 16 := dField_lt x 8 0 4
    refine .of_onDev (fun d => d.streamDetach q) rfl (Dev.streamDetach_detaches hdesc hidle hatt) ⟨?_, ?_, ?_, fun j hj => ?_⟩
    · rw [hkept.getStrm hs (by simp [strmAttached]), s.dev.get_detached _ rfl]
    · rw [hkept.getStrm hs (by simp [strmState]), s.dev.get_detached _ rfl]
    · rw [hkept.strm, s.dev.strm_detached, if_pos rfl]
    · rw [hkept.strm, s.dev.strm_detached, if_neg (Ne.symm hj)]
  · refine .of_onDev (fun d => d.chunkReadDone i k data false) rfl rfl ⟨fun h => ?_, fun h => ?_⟩
    · exact Dev.chunkReadDone_retry hnone hstop hdir i.isLt (h ▸ hst)
    · exact Dev.chunkReadDone_breaks hnone hstop hdir i.isLt (h ▸ hst)
  · have hready := Dev.chunkReadDone_ready hnone hstop hdir hst hlen hcrc
    refine .of_onDev (fun d => d.chunkReadDone i k data true) rfl rfl ?_
    rw [hready]
    exact ⟨rfl, rfl, rfl, rfl⟩
  · refine .of_onDev (fun d => d.loadKernel q image true) rfl ((Dev.loadKernel_judged hdesc hfree).trans (if_pos ?_)) rfl
    exact List.any_eq_true.2 ⟨e, mem_maskList.2 ⟨he, hbit⟩, hrun⟩
  · refine .of_onDev (fun d => d.loadKernel q image true) rfl ((Dev.loadKernel_judged hdesc hfree).trans ?_) rfl
    rw [if_neg (by simpa [mem_maskList] using hidle), if_neg (not_lt.2 hlen), if_pos hbad]
  · have hany : (maskList 16 (dField x 8 0 16)).isEmpty = false := by
      obtain ⟨e, he⟩ := Nat.exists_testBit_of_ne_zero hsome
      have hlt : e < 16 := by
        by_contra hge
        rw [Nat.testBit_lt_two_pow ((dField_lt x 8 0 16).trans_le (Nat.pow_le_pow_right (by omega) (by omega)))] at he
        cases he
      exact List.isEmpty_eq_false_iff_exists_mem.2 ⟨e, mem_maskList.2 ⟨hlt, he⟩⟩
    have hall (e : Nat) := Dev.loadBegin_all w (image.take (dField x 16 0 32)) (maskList 16 (dField x 8 0 16)) s.dev e
    refine .of_onDev (fun d => d.loadKernel q image true) rfl ((Dev.loadKernel_judged hdesc hfree).trans ?_)
      ⟨fun e he => ?_, fun e he => ?_, (hall 0).2.2⟩
    · rw [if_neg (by simpa [mem_maskList] using hidle), if_neg (not_lt.2 hlen), if_neg (by simp [hgood]), if_neg (by simp [hany])]
    · simpa [mem_maskList, he] using (hall e).1
    · simpa [mem_maskList, he] using (hall e).2.1

end Sys2Proof.Machine
end

section
/-!
PROOFS. How the lines JMPC, MATCH and SYNCW decide the flow of their sequencer (R176, R177, R180 to R182, R192 to R194).
-/

namespace Sys2Proof.Machine

/-! ## What the look-ahead changes of its sequencer (R169, R170, R189, R190) -/

/-- From `x` to `y` a sequencer has fetched: its stacks, its queue, its next line, its stop and its jump request are new, FAILSEEN
may have been cleared, and all else stays. -/
def Seq.Fetched (x y : Seq) : Prop :=
  y = { x with loops := y.loops, calls := y.calls, queue := y.queue, next := y.next, stop := y.stop, err := y.err, jReq := y.jReq,
               failSeen := y.failSeen } ∧
    (y.failSeen = x.failSeen ∨ y.failSeen = 0)

/-- From `d` to `e` sequencer `q` has fetched. Time and the registers are the subject of `Dev.KeepsPlay`. -/
def Dev.Fetches (q : Nat) (d e : Dev) : Prop := (d.seq q).Fetched (e.seq q)

section
variable {q : Nat}

theorem Dev.Fetches.of_seq {d e : Dev} (h : e.seq q = d.seq q) : d.Fetches q e := by
  rw [Dev.Fetches, h]
  exact ⟨rfl, .inl rfl⟩

theorem Dev.Fetches.trans {d e f : Dev} (h : d.Fetches q e) (k : e.Fetches q f) : d.Fetches q f := by
  obtain ⟨hy, hfail⟩ := h
  obtain ⟨kz, kfail⟩ := k
  refine ⟨?_, ?_⟩
  · rw [hy] at kz
    exact kz
  · rcases kfail with k0 | k0
    · rw [k0]; exact hfail
    · exact .inr k0

theorem Dev.Fetches.ite {d e f : Dev} {p : Prop} [Decidable p] (h : d.Fetches q e) (k : d.Fetches q f) :
    d.Fetches q (if p then e else f) := by
  split
  · exact h
  · exact k

theorem Dev.OffSeq.fetches {d e : Dev} (h : d.OffSeq e) : d.Fetches q e := .of_seq (h.seq q)

theorem Dev.fetches_setSeq (d : Dev) {y : Seq} (h : (d.seq q).Fetched y) : d.Fetches q (d.setSeq q y) := by
  rw [Dev.Fetches, Dev.seq_setSeq_same]
  exact h

theorem Dev.fetches_fetchErr (d : Dev) (cause : Nat) (r : LRef) : d.Fetches q (d.fetchErr q cause r) :=
  d.fetches_setSeq ⟨rfl, .inl rfl⟩

theorem Dev.fetches_enqueue (d : Dev) (l : FLine) : d.Fetches q (d.enqueue q l) := d.fetches_setSeq ⟨rfl, .inl rfl⟩

theorem Dev.fetches_setStacks (d : Dev) (loops : List LoopLvl) (calls : List CallLvl) : d.Fetches q (d.setStacks q loops calls) := by
  rw [Dev.Fetches, Dev.seq_setStacks]
  exact ⟨rfl, .inl rfl⟩

theorem Dev.fetches_follow (d : Dev) (r : LRef) (k : Decision) : d.Fetches q (d.follow q r k) := by
  cases k with
  | err c => exact d.fetches_fetchErr c r
  | halt => exact d.fetches_setSeq ⟨rfl, .inl rfl⟩
  | hold w => exact d.fetches_setSeq ⟨rfl, .inl rfl⟩
  | go n loops calls =>
    exact (d.fetches_setStacks loops calls).trans (Dev.fetches_setSeq _ ⟨rfl, .inl rfl⟩)

/-- The fetch of a line passes stream line `n` or none. -/
theorem Dev.fetches_streamPast (hq : q < 16) (d : Dev) (p : Prop) [Decidable p] (n : Nat) :
    d.Fetches q (if p then d.streamPast q n else d) :=
  (Dev.OffSeq.ite (d.offSeq_streamPast hq n) (.refl d)).fetches

theorem Dev.fetches_fetchLine (hq : q < 16) (d : Dev) : d.Fetches q (d.fetchLine q) := by
  have hstop (d : Dev) (w : FetchStop) : d.Fetches q (d.setSeq q { d.seq q with stop := w }) := d.fetches_setSeq ⟨rfl, .inl rfl⟩
  have hjump (d : Dev) : d.Fetches q (((d.setSeq q { d.seq q with jReq := none }).put (seqJpend q) 0).setStacks q [] []) :=
    ((d.fetches_setSeq (y := { d.seq q with jReq := none }) ⟨rfl, .inl rfl⟩).trans (.of_seq (Dev.seq_put _ _ _ _))).trans
      (Dev.fetches_setStacks _ _ _)
  have htarget (d : Dev) (l : FLine) (n : LRef) : d.Fetches q
      (((d.enqueue q l).put (seqJcommit q) 1).setSeq q { ((d.enqueue q l).put (seqJcommit q) 1).seq q with next := n }) :=
    ((d.fetches_enqueue l).trans (.of_seq (Dev.seq_put _ _ _ _))).trans (Dev.fetches_setSeq _ ⟨rfl, .inl rfl⟩)
  unfold Dev.fetchLine
  refine .ite (d.fetches_fetchErr _ _) (.ite (hstop d _) (.ite (hstop d _) (.ite (hstop d _) ?_)))
  split
  next => exact hstop d _
  next l _ =>
    have hread : d.Fetches q (if (d.seq q).next.strm then (d.checkLine q (d.seq q).next).streamFetched q (d.seq q).next.n
        else d.checkLine q (d.seq q).next) :=
      (Dev.OffSeq.ite ((d.offSeq_checkLine q _).trans (Dev.offSeq_streamFetched hq _ _)) (d.offSeq_checkLine q _)).fetches
    dsimp only
    refine hread.trans ?_
    generalize (if (d.seq q).next.strm then (d.checkLine q (d.seq q).next).streamFetched q (d.seq q).next.n
      else d.checkLine q (d.seq q).next) = e
    split
    next t _ =>
      have hgo := (e.fetches_streamPast hq ((d.seq q).next.strm = true) (d.seq q).next.n).trans (hjump _)
      refine .ite (hgo.trans (Dev.fetches_fetchErr _ _ _)) ?_
      split
      next => exact hgo.trans (Dev.fetches_fetchErr _ _ _)
      next l' _ =>
        have hline (n : Nat) := hgo.trans (Dev.offSeq_checkLine _ q ⟨false, n⟩).fetches
        exact .ite ((hline _).trans (Dev.fetches_fetchErr _ _ _)) ((hline _).trans (htarget _ _ _))
    next =>
      have hfollow (k : Decision) := ((e.fetches_enqueue l).trans (Dev.fetches_follow _ (d.seq q).next k)).trans
        (Dev.fetches_streamPast hq _ ((d.seq q).next.strm && k.passes (d.seq q).next) (d.seq q).next.n)
      split
      next => exact e.fetches_fetchErr _ _
      next => exact .ite (hstop _ _) (.of_seq rfl)
      next => exact .ite ((hfollow _).trans (Dev.fetches_setSeq _ ⟨rfl, .inr rfl⟩)) (hfollow _)

theorem Dev.fetches_lookAhead (hq : q < 16) (d : Dev) : d.Fetches q (d.lookAhead q) := by
  have hfill (n : Nat) (d : Dev) : d.Fetches q (d.fillAhead q n) := by
    induction n generalizing d with
    | zero => exact .of_seq rfl
    | succ n ih => exact .ite ((d.fetches_fetchLine hq).trans (ih _)) (.of_seq rfl)
  exact hfill 9 d

end

/-- A sequencer that goes on in RUN: STATE reads 1, no time has passed, and its look-ahead has been brought up. -/
theorem Dev.runsOn_effect (d : Dev) {q : Nat} (hq : q < 16) :
    let t := (d.put (seqState q) 1).lookAhead q
    t.get (seqState q) = 1 ∧ t.mclk = d.mclk ∧ (d.seq q).Fetched (t.seq q) := by
  have hplay := Dev.keepsPlay_lookAhead hq (d.put (seqState q) 1)
  exact ⟨hplay.state.trans (Dev.get_put _ (seqState q) 1 (by simp [seqState])), hplay.mclk,
    Dev.fetches_lookAhead hq (d.put (seqState q) 1)⟩

/-! ## JMPC (R176, R180) -/

theorem Dev.resolveJmpc_eq {d : Dev} {q cw : Nat} {r : LRef} (hline : (d.seq q).jline = some (r, cw)) :
    ∃ e : Dev, d.resolveJmpc q = (e.put (seqState q) 1).lookAhead q ∧ e.mclk = d.mclk ∧ (e.seq q).jline = none ∧
      (e.seq q).pos = (d.seq q).pos ∧ ((cwOperand cw).testBit 31 = true → (e.seq q).failSeen = 0) := by
  have hpopped (p : Prop) [Decidable p] (loops : List LoopLvl) (calls : List CallLvl) :
      (if p then d.setStacks q loops calls else d).mclk = d.mclk ∧
        ((if p then d.setStacks q loops calls else d).seq q).pos = (d.seq q).pos := by
    split
    · exact ⟨d.mclk_setStacks q _ _, by rw [Dev.seq_setStacks]⟩
    · exact ⟨rfl, rfl⟩
  unfold Dev.resolveJmpc
  simp only [hline]
  refine ⟨_, rfl, (hpopped _ _ _).1, ?_, ?_, fun h => ?_⟩
  · rw [Dev.seq_setSeq_same]
  · rw [Dev.seq_setSeq_same]
    exact (hpopped _ _ _).2
  · rw [Dev.seq_setSeq_same]
    exact if_pos h

theorem Dev.jmpcResolve_due {d : Dev} {q cw : Nat} {r : LRef} (hstate : d.get (seqState q) = 2) (hreq : (d.seq q).haltReq = none)
    (hline : (d.seq q).jline = some (r, cw)) :
    d.jmpcResolve q = (d.advanceTo (periodUp ((d.seq q).fillTo - 8 * 4096))).resolveJmpc q :=
  if_pos ⟨hstate, by simp [hline], by simp [hreq]⟩

/-! ## MATCH (R181, R182) -/

theorem Dev.matchEnds_due {d : Dev} {q : Nat} {ok : Bool} (hstate : d.get (seqState q) = 3) (hreq : (d.seq q).haltReq = none)
    (hdue : d.matchDue q = some ok) :
    d.matchEnds q ok = (d.advanceTo (periodOf (d.seq q).pos)).endMatch q (if ok then 0 else d.unmatched q) :=
  if_pos ⟨hstate, by simp [hreq], hdue⟩

/-- A sequencer whose MATCH has ended with the sites `lost` unmatched. -/
def Seq.endedMatch (x : Seq) (lost : Nat) : Seq :=
  { x with
    mtch := none, queue := x.queue.drop 1, next := (match x.queue with
      | l :: _ => l.ref.succ
      | [] => x.next),
    stop := .none, matchOk := lost == 0, matchTo := lost != 0, timedOut := x.timedOut ||| lost, masked := x.masked ||| lost,
    fillTo := x.pos + 8 * 4096 }

theorem Dev.endMatch_eq (d : Dev) (q lost : Nat) :
    d.endMatch q lost = ((d.setSeq q ((d.seq q).endedMatch lost)).put (seqState q) 1).lookAhead q := rfl

/-- A MATCH that ends with the sites `lost` unmatched: they are masked and noted, and the sequencer fills until B + 8 (R181, R182). -/
theorem Dev.endMatch_effect (d : Dev) {q : Nat} (hq : q < 16) (lost : Nat) :
    let t := d.endMatch q lost
    t.get (seqState q) = 1 ∧ t.mclk = d.mclk ∧ (t.seq q).mtch = none ∧ (t.seq q).matchOk = (lost == 0) ∧
      (t.seq q).matchTo = (lost != 0) ∧ (t.seq q).masked = (d.seq q).masked ||| lost ∧ (t.seq q).timedOut = (d.seq q).timedOut ||| lost ∧
      (t.seq q).fillTo = (d.seq q).pos + 8 * 4096 := by
  obtain ⟨hstate, hmclk, hfetched, -⟩ := (d.setSeq q ((d.seq q).endedMatch lost)).runsOn_effect hq
  rw [Dev.seq_setSeq_same] at hfetched
  rw [Dev.endMatch_eq]
  exact ⟨hstate, hmclk, (congrArg Seq.mtch hfetched :), (congrArg Seq.matchOk hfetched :), (congrArg Seq.matchTo hfetched :),
    (congrArg Seq.masked hfetched :), (congrArg Seq.timedOut hfetched :), (congrArg Seq.fillTo hfetched :)⟩

/-! ## SYNCW (R192 to R194) -/

/-- The clock pins of a sequencer, stopped. -/
def Dev.clocksStopped (d : Dev) (q : Nat) : Dev :=
  d.forEach ((d.seqChans q).filter fun c => d.clkMode c != 0) fun d c =>
    d.setChan c { d.chan c with drv := { (d.chan c).drv with clk := false } }

theorem Dev.offSeq_clocksStopped (d : Dev) (q : Nat) : d.OffSeq (d.clocksStopped q) :=
  .forEach (fun d c _ => d.offSeq_setChan c _) d

/-- The device at the end of the play before a SYNCW line: the markers have fallen, STATE reads 4 and the clock pins are stopped. -/
def Dev.syncwStill (d : Dev) (q : Nat) : Dev :=
  (((d.advanceTo (periodUp (d.edgesDone q))).setMarkers q 0 (d.seq q).pos).put (seqState q) 4).clocksStopped q

theorem Dev.syncwStill_effect (d : Dev) {q : Nat} (hq : q < 16) :
    let t := d.syncwStill q
    t.get (seqState q) = 4 ∧ t.seq q = { d.seq q with mark := 0 } ∧ t.mclk = max d.mclk (periodUp (d.edgesDone q)) := by
  have hfall := (d.advanceTo (periodUp (d.edgesDone q))).offSeq_setMarkers q 0 (d.seq q).pos
  have hstop := Dev.offSeq_clocksStopped
    (((d.advanceTo (periodUp (d.edgesDone q))).setMarkers q 0 (d.seq q).pos).put (seqState q) 4) q
  refine ⟨?_, ?_, ?_⟩
  · exact (hstop.get (seqWord_of_status hq rfl)).trans (Dev.get_put _ (seqState q) 4 (by simp [seqState]))
  · rw [Dev.syncwStill, hstop.seq, Dev.seq_put, hfall.seq, Dev.seq_setSeq_same]
    rfl
  · exact hstop.mclk.trans (hfall.mclk.trans (d.mclk_advanceTo _))

/-- The wait of a SYNCW line that nothing keeps from beginning (R192, R194). -/
theorem Dev.syncwBegin_waits {d : Dev} {q : Nat} {l : FLine} {rest : List FLine} (hqueue : (d.seq q).queue = l :: rest)
    (hop : cwOp l.cw = oSyncw) (hgo : l.go = false) (hstate : d.get (seqState q) = 1) (hfill : (d.seq q).fillTo ≤ (d.seq q).pos)
    (hreq : (d.seq q).haltReq = none) (hrange : (d.seq q).stop ≠ .range) :
    d.syncwBegin q = (d.syncwStill q).setSeq q
      { (d.syncwStill q).seq q with
        syncT := none, ce := false,
        syncEnd := if bitsOf (cwOperand l.cw) 8 24 = 0 then none
          else some ((d.syncwStill q).mclk + 1024 * bitsOf (cwOperand l.cw) 8 24) } := by
  unfold Dev.syncwBegin
  simp only [hqueue]
  rw [if_pos ⟨hop, hgo, hstate, hfill, by simp [hreq], hrange⟩]
  rfl

/-- A line that names no twin start waits for its own event alone. -/
theorem Dev.syncwWait_alone {d : Dev} {q : Nat} {l : FLine} {rest : List FLine} (hqueue : ((d.syncwBegin q).seq q).queue = l :: rest)
    (hsrc : cwOperand l.cw % 4 ≠ 1) : d.syncwWait q = d.syncwBegin q := by
  refine if_neg ?_
  simp [Dev.syncwTwin, hqueue, hsrc]

/-- With the master clock as its source, a sequencer starts `gap` master periods on, in its own line (R193). -/
theorem Dev.syncwStart_starts {d : Dev} {q T gap : Nat} {l : FLine} {rest : List FLine} (hstate : d.get (seqState q) = 4)
    (hsync : (d.seq q).syncT = some T) (hgap : (T + 2 ^ 64 - d.tb) % 2 ^ 64 = gap) (hahead : gap < 2 ^ 63)
    (hqueue : (d.seq q).queue = l :: rest) (hclk : d.get (seqClkSrc q) = 0) :
    ∃ tick, d.syncwStart q = ((d.advance gap).setSeq q
      { (d.advance gap).seq q with
        pos := ((d.advance gap).mclk : Rat) * 4096, tick := tick, queue := { l with go := true } :: rest, syncT := none,
        syncEnd := none }).put (seqState q) 1 := by
  have hratio : (d.advance gap).clkRatio q = 1 := by simp [Dev.clkRatio, hclk]
  unfold Dev.syncwStart
  simp only [hsync, hqueue, hgap]
  rw [if_pos hstate, if_pos hahead, if_pos hratio]
  exact ⟨_, rfl⟩

/-- A sequencer that starts by the event of its SYNCW line: TB is the start time, and every other sequencer stays (R193). -/
theorem Dev.syncwStart_effect {d : Dev} {q T gap : Nat} {l : FLine} {rest : List FLine} (hstate : d.get (seqState q) = 4)
    (hsync : (d.seq q).syncT = some T) (hgap : (T + 2 ^ 64 - d.tb) % 2 ^ 64 = gap) (hahead : gap < 2 ^ 63)
    (htime : (d.tb + gap) % 2 ^ 64 = T) (hqueue : (d.seq q).queue = l :: rest) (hclk : d.get (seqClkSrc q) = 0) :
    let t := d.syncwStart q
    t.get (seqState q) = 1 ∧ t.tb = T ∧ (t.seq q).pos = (t.mclk : Rat) * 4096 ∧ (t.seq q).queue = { l with go := true } :: rest ∧
      (t.seq q).syncT = none ∧ (t.seq q).syncEnd = none ∧ (∀ i, i ≠ q → t.seq i = d.seq i) ∧ d.KeepsRegs t [(seqState q).addr] := by
  obtain ⟨tick, hstarts⟩ := Dev.syncwStart_starts hstate hsync hgap hahead hqueue hclk
  dsimp only
  rw [hstarts]
  refine ⟨Dev.get_put _ (seqState q) 1 (by simp [seqState]), htime, ?_, ?_, ?_, ?_, fun i hi => ?_,
    Dev.keepsRegs_put _ _ (by simp) (Dev.keepsRegs_refl _ _)⟩
  · rw [Dev.seq_put, Dev.seq_setSeq_same]
    rfl
  · rw [Dev.seq_put, Dev.seq_setSeq_same]
  · rw [Dev.seq_put, Dev.seq_setSeq_same]
  · rw [Dev.seq_put, Dev.seq_setSeq_same]
  · rw [Dev.seq_put, Dev.seq_setSeq, if_neg (Ne.symm hi)]
    rfl

/-- The unmasked sites of a sequencer follow from its quads, the site map and the sites masked (R160). -/
theorem Dev.unmasked_congr {d e : Dev} {q : Nat} (hq : q < 16) (hget : ∀ f : Fld, f.addr ≠ (seqState q).addr → e.get f = d.get f)
    (hmasked : (e.seq q).masked = (d.seq q).masked) : e.unmasked q = d.unmasked q := by
  have hsite (c : Nat) : e.siteOf c = d.siteOf c := by
    unfold Dev.siteOf Dev.is
    rw [hget _ (by simp only [seqState, siteMapValid]; omega), hget _ (by simp only [seqState, siteMapSite]; omega)]
  have hquads : e.seqQuads q = d.seqQuads q :=
    Dev.get2_of_get (hget _ (by simp [seqState, seqQuadsLo])) (hget _ (by simp [seqState, seqQuadsHi]))
  simp only [Dev.unmasked, Dev.seqSites, Dev.seqChans, Dev.sitesOfChans, hsite, hquads, hmasked]

/-- A halt holds the sites that are unmasked when it begins. -/
theorem Dev.toHalting_haltSites (d : Dev) {q : Nat} (hq : q < 16) (why : HaltWhy) :
    ((d.toHalting q why).seq q).haltSites = d.unmasked q := by
  have hfall := d.offSeq_setMarkers q 0 (d.seq q).pos
  have hheld : ((d.toHalting q why).seq q).haltSites = ((d.setMarkers q 0 (d.seq q).pos).put (seqState q) 5).unmasked q :=
    congrArg Seq.haltSites (Dev.seq_setSeq_same _ q _)
  refine hheld.trans (Dev.unmasked_congr hq (fun f hf => ?_) ?_)
  · rw [Dev.get_put_addr _ _ _ _ (Ne.symm hf), Dev.get, Dev.word, d.regs_setMarkers_zero, Dev.get, Dev.word]
  · rw [Dev.seq_put, hfall.seq, Dev.seq_setSeq_same]

/-- A wait that reaches its time limit with no event halts its sequencer (R194). -/
theorem Dev.syncwTimeout_halts {d : Dev} {q at_ : Nat} (hstate : d.get (seqState q) = 4) (hend : (d.seq q).syncEnd = some at_)
    (hsync : (d.seq q).syncT = none) : ∃ pos, d.syncwTimeout q =
      ((d.advanceTo at_).setSeq q { d.seq q with syncT := none, syncEnd := none, pos := pos }).toHalting q .sync := by
  unfold Dev.syncwTimeout
  simp only [hend, hsync]
  rw [if_pos hstate, Dev.haltSeq, Dev.get_advanceTo, if_pos hstate]
  exact ⟨_, rfl⟩

/-- Settles O36: each command is one branch of its function, and the look-ahead that follows it leaves what the line has decided. -/
theorem matchJmpcAndSyncwLinesDecideTheirFlow : Obligations.MatchJmpcAndSyncwLinesDecideTheirFlow := by
  refine ⟨⟨fun s q r cw hstate hreq hline => ?_, fun s q hstate hreq hdue => ?_, fun s q hstate hreq hdue hlost => ?_⟩,
    fun s q l rest hqueue hop hgo hsrc hstate hfill hreq hrange => ?_,
    fun s q l rest T hstate hsync hahead htb hT hqueue hclk => ?_, fun s q at_ hstate hend hsync => ?_⟩
  · obtain ⟨e, hresolved, hmclk, hjline, hpos, hclear⟩ := Dev.resolveJmpc_eq
      (d := s.dev.advanceTo (periodUp ((s.dev.seq q).fillTo - 8 * 4096))) hline
    obtain ⟨hrun, htime, hfetched, hfail⟩ := e.runsOn_effect q.isLt
    refine .of_onDev (fun d => d.jmpcResolve q) rfl ((Dev.jmpcResolve_due hstate hreq hline).trans hresolved)
      ⟨hrun, (congrArg Seq.jline hfetched :).trans hjline, fun hbit => ?_, (congrArg Seq.pos hfetched :).trans hpos,
        (htime.trans hmclk).trans (s.dev.mclk_advanceTo _)⟩
    rcases hfail with h | h
    · exact h.trans (hclear hbit)
    · exact h
  · obtain ⟨hrun, hmclk, hnone, hok, hto, hmasked, -, hfill⟩ := (s.dev.advanceTo (periodOf (s.dev.seq q).pos)).endMatch_effect q.isLt 0
    exact .of_onDev (fun d => d.matchEnds q true) rfl (Dev.matchEnds_due hstate hreq hdue)
      ⟨hrun, hnone, hok, hto, hmasked.trans (Nat.or_zero _), hfill, hmclk.trans (s.dev.mclk_advanceTo _)⟩
  · obtain ⟨hrun, -, hnone, hok, hto, hmasked, hnoted, hfill⟩ :=
      (s.dev.advanceTo (periodOf (s.dev.seq q).pos)).endMatch_effect q.isLt (s.dev.unmatched q)
    exact .of_onDev (fun d => d.matchEnds q false) rfl (Dev.matchEnds_due hstate hreq hdue)
      ⟨hrun, hnone, hok.trans (by simpa using hlost), hto.trans (by simpa using hlost), hmasked, hnoted, hfill⟩
  · obtain ⟨hwait, hstill, hmclk⟩ := s.dev.syncwStill_effect q.isLt
    have hbegin := Dev.syncwBegin_waits hqueue hop hgo hstate hfill hreq hrange
    have halone : s.dev.syncwWait q = s.dev.syncwBegin q :=
      Dev.syncwWait_alone (rest := rest) (by rw [hbegin, Dev.seq_setSeq_same, hstill]; exact hqueue) hsrc
    refine .of_onDev (fun d => d.syncwWait q) rfl (halone.trans hbegin) ⟨hwait, ?_, ?_, hmclk, ?_⟩
    · rw [Dev.seq_setSeq_same]
    · rw [Dev.seq_setSeq_same, hstill]
    · rw [Dev.seq_setSeq_same]
      rfl
  · exact .of_onDev (fun d => d.syncwStart q) rfl rfl (Dev.syncwStart_effect hstate hsync rfl hahead (by omega) hqueue hclk)
  · obtain ⟨pos, hhalts⟩ := Dev.syncwTimeout_halts hstate hend hsync
    obtain ⟨hhalt, hwhy, -, hmclk, -⟩ := Dev.toHalting_effect
      ((s.dev.advanceTo at_).setSeq q { s.dev.seq q with syncT := none, syncEnd := none, pos := pos }) q.isLt .sync
    refine .of_onDev (fun d => d.syncwTimeout q) rfl hhalts ⟨hhalt, hwhy, hmclk.trans (s.dev.mclk_advanceTo at_), ?_⟩
    rw [Dev.toHalting_haltSites _ q.isLt]
    exact Dev.unmasked_congr q.isLt (fun _ _ => rfl) (by rw [Dev.seq_setSeq_same])

end Sys2Proof.Machine
end

section
/-!
PROOFS. What the host reads back and releases (R248, R498, R505): the three copies to the host and the two read indexes of the ledger.
-/

namespace Sys2Proof.Machine

/-! ## Copies to the host (R498) -/

section
variable {d : Dev} {q x : Nat} {w : Work}

/-- READ_LEDGER of a site's ring, without a release. -/
theorem Dev.readLedger_site (h : d.descOf q opReadLedger = some (x, w)) (hsite : dField x 8 0 8 = 0)
    (hfirst : dField x 10 0 16 < 1920) (hkeep : dField x 14 0 1 = 0) :
    d.readLedger q =
      let i := dField x 9 0 6
      let first := dField x 10 0 16
      let m := written 1920 (d.get (ledWr i)) (Tab.get (fun _ => 0) d.led.wrote i) first (dField x 12 0 16)
      (d.dmaOut (dField x 24 0 64) ((List.range m).flatMap fun k => d.ldBytes (ledEntAddr i ((first + k) % 1920)) 32)).doneWith
        w stOk m ((first + m) % 1920) := by
  have hhdr : (dField x 8 0 8 == 1) = false := by rw [hsite]; rfl
  rw [Dev.readLedger, Dev.onDesc_of_descOf _ h]
  simp only [hhdr, Bool.false_eq_true, if_false]
  rw [if_neg (not_le.2 hfirst), if_pos (.inl hkeep)]

/-- READ_CAPTURE without a release. -/
theorem Dev.readCapture_kept (h : d.descOf q opReadCapture = some (x, w)) (hkeep : dField x 9 0 1 = 0) :
    d.readCapture q =
      let a := dField x 8 0 5
      let first := dField x 10 0 16
      let y := d.au a
      let m := min (written 65536 (d.get (auRecWr a)) (min y.seqNo y.slotsN) first (dField x 12 0 16))
        (dField x 16 0 32 / max 1 y.slotSz)
      (d.dmaOut (dField x 24 0 64) ((List.range m).flatMap fun k =>
        d.ldBytes (d.auAllocAddr a + (first + k) % 65536 % max 1 y.slotsN * y.slotSz) y.slotSz)).doneWith w stOk m (m * y.slotSz) := by
  rw [Dev.readCapture, Dev.onDesc_of_descOf _ h]
  dsimp only
  rw [if_pos (.inl hkeep)]

/-- READ_FAILLOG: an entry with no place in the log has no bytes. -/
theorem Dev.readFaillog_eq (h : d.descOf q opReadFaillog = some (x, w)) :
    d.readFaillog q =
      let i := dField x 8 0 6
      let first := dField x 12 0 32
      let m := min (dField x 16 0 32) (d.get (flogCount i) - first)
      (d.dmaOut (dField x 24 0 64) ((List.range m).flatMap fun k =>
        (((d.flog i).addr i (first + k)).map fun a => d.ldBytes a 16).getD [])).doneWith w stOk m (first + m) := by
  rw [Dev.readFaillog, Dev.onDesc_of_descOf _ h]
  dsimp only
  refine congrArg (fun item => (d.dmaOut _ (List.flatMap item _)).doneWith w stOk _ _) (funext fun k => ?_)
  split
  next a ha => rw [ha]; rfl
  next ha => rw [ha]; rfl

end

/-! ## Releases (R248) -/

/-- A release up to an index that is written goes all the way. -/
theorem releaseTo_written {n rd v wr : Nat} (hrd : rd < n) (hv : v < n) (hle : (v + n - rd) % n ≤ (wr + n - rd) % n) :
    releaseTo n rd v [wr] = v := by
  have hsum : rd + (v + n - rd) = v + n := by omega
  simp only [releaseTo, List.map_cons, List.map_nil, List.foldl_cons, List.foldl_nil, min_eq_left hle]
  rw [Nat.add_mod_mod, hsum, Nat.add_mod_right, Nat.mod_eq_of_lt hv]

/-- A read index that moves: its field reads the new index, and beside the ledger's records no other register changes. -/
theorem Dev.put_led_alone (d : Dev) (led : LedSt) (f : Fld) {v : Nat} (hf : f.lo + f.w ≤ 32) (hv : v < 2 ^ f.w) :
    let t := ({ d with led := led } : Dev).put f v
    t.get f = v ∧ d.KeepsRegs t [f.addr] ∧ { t with regs := d.regs, led := d.led } = d :=
  ⟨(Dev.get_put _ f v hf).trans (Nat.mod_eq_of_lt hv), Dev.keepsRegs_put f v (by simp) (fun _ _ => rfl), rfl⟩

/-- A site's read index, which no open RUN holds back, moves within what is written. -/
theorem Dev.ledRdWrite_moves {d : Dev} {i v : Nat} (hrd : d.get (ledRd i) < 1920) (hv : v % 2048 < 1920)
    (hfree : ∀ r ∈ d.runs, r.sites.testBit i = false)
    (hle : (v % 2048 + 1920 - d.get (ledRd i)) % 1920 ≤ (d.get (ledWr i) + 1920 - d.get (ledRd i)) % 1920) :
    (d.ledRdWrite i v).get (ledRd i) = v % 2048 ∧ d.KeepsRegs (d.ledRdWrite i v) [(ledRd i).addr] ∧
      { d.ledRdWrite i v with regs := d.regs, led := d.led } = d := by
  have hnone : d.runs.filter (fun r => r.sites.testBit i) = [] := List.filter_eq_nil_iff.2 fun r hr => by simp [hfree r hr]
  rw [Dev.ledRdWrite, if_pos (by omega), Dev.ledRelease]
  simp only [hnone, List.map_nil, releaseTo_written hrd hv hle]
  exact d.put_led_alone _ (ledRd i) (by simp [ledRd]) (by simp only [ledRd]; omega)

/-- The read index of the headers moves within what is written while no RUN is open. -/
theorem Dev.hdrRelease_moves {d : Dev} {v : Nat} (hv : v < 4096) (hruns : d.runs = [])
    (hle : (v + 4096 - d.get ledHdrRd) % 4096 ≤ (d.get ledHdrWr + 4096 - d.get ledHdrRd) % 4096) :
    (d.hdrRelease v).get ledHdrRd = v ∧ d.KeepsRegs (d.hdrRelease v) [ledHdrRd.addr] ∧
      { d.hdrRelease v with regs := d.regs, led := d.led } = d := by
  have hto : releaseTo 4096 (d.get ledHdrRd) v (d.get ledHdrWr :: d.runs.map fun r => r.hdr) = v := by
    rw [hruns]
    exact releaseTo_written (d.get_lt ledHdrRd) hv hle
  unfold Dev.hdrRelease
  dsimp only
  rw [hto]
  exact d.put_led_alone _ ledHdrRd (by decide) hv

/-- Settles O43: each read is one branch of its function, and a release within what is written goes all the way. -/
theorem readbackCopiesAndReleases : Obligations.ReadbackCopiesAndReleases := by
  refine ⟨fun s q x w hdesc hsite hfirst hkeep => ?_, fun s q x w hdesc => ?_, fun s q x w hdesc hkeep => ?_,
    fun s i v hrd hv hfree hle => ?_, fun s i v hout => ?_, fun s v hruns hle => ?_⟩
  · exact .of_onDev (fun d => d.readLedger q) rfl (Dev.readLedger_site hdesc hsite hfirst hkeep) rfl
  · exact .of_onDev (fun d => d.readFaillog q) rfl (Dev.readFaillog_eq hdesc) rfl
  · exact .of_onDev (fun d => d.readCapture q) rfl (Dev.readCapture_kept hdesc hkeep) rfl
  · exact .of_onDev (fun d => d.ledRdWrite i v.toNat) rfl rfl (Dev.ledRdWrite_moves hrd hv hfree hle)
  · exact .of_onDev (fun d => d.ledRdWrite i v.toNat) rfl (if_neg (by omega)) rfl
  · exact .of_onDev (fun d => d.hdrRelease (v.toNat % 4096)) rfl rfl
      (Dev.hdrRelease_moves (Nat.mod_lt _ (by decide)) hruns hle)

end Sys2Proof.Machine
end

section
/-!
PROOFS. What the operations of a command leave of the RUNs and of the park orders: whether each RUN is live, aborted or partial, and
which dies the core die has ordered to park (R75, R256).
-/

namespace Sys2Proof.Machine

/-! ## The standing of the RUNs and the park orders -/

/-- Whether a RUN is live, has been aborted, and has been made partial (R256). -/
def OpenRun.standing (r : OpenRun) : Bool × Bool × Bool := (r.live, r.aborted, r.partialE)

/-- The standing of the open RUN of each fetch number, and the dies that are ordered to park. -/
def Dev.standing (d : Dev) : (Nat → Option (Bool × Bool × Bool)) × (Nat → Bool) :=
  (fun id => (d.runById id).map OpenRun.standing, fun e => (d.die e).parkOrd)

/-- From `d` to `d'` no RUN changes its standing, and no die its park order. -/
def Dev.KeepsStanding (d d' : Dev) : Prop := d'.standing = d.standing

theorem Dev.KeepsStanding.refl (d : Dev) : d.KeepsStanding d := Eq.refl _

theorem Dev.KeepsStanding.trans {d e f : Dev} (h : d.KeepsStanding e) (k : e.KeepsStanding f) : d.KeepsStanding f :=
  Eq.trans k h

theorem Dev.KeepsStanding.ite {d e f : Dev} {p : Prop} [Decidable p] (h : d.KeepsStanding e) (k : d.KeepsStanding f) :
    d.KeepsStanding (if p then e else f) := by
  split
  · exact h
  · exact k

/-- What each change of a list keeps, all of them keep. -/
theorem Dev.KeepsStanding.foldl {β : Type} {l : List β} {f : Dev → β → Dev} (h : ∀ d, ∀ i ∈ l, Dev.KeepsStanding d (f d i))
    (d : Dev) : d.KeepsStanding (l.foldl f d) :=
  List.foldlRecOn l f (.refl d) fun d' hd i hi => hd.trans (h d' i hi)

theorem Dev.KeepsStanding.forEach {l : List Nat} {f : Dev → Nat → Dev} (h : ∀ d i, Dev.KeepsStanding d (f d i)) (d : Dev) :
    d.KeepsStanding (d.forEach l f) := .foldl (fun d i _ => h d i) d

/-- A change of other units than the RUNs and the dies. -/
theorem Dev.keepsStanding_of_same {d d' : Dev} (hruns : d'.runs = d.runs) (hdies : d'.dies = d.dies) : d.KeepsStanding d' := by
  unfold Dev.KeepsStanding Dev.standing Dev.runById Dev.die
  rw [hruns, hdies]

theorem Dev.keepsStanding_put (d : Dev) (f : Fld) (v : Nat) : d.KeepsStanding (d.put f v) := Dev.keepsStanding_of_same rfl rfl
theorem Dev.keepsStanding_st (d : Dev) (a n v : Nat) : d.KeepsStanding (d.st a n v) := Dev.keepsStanding_of_same rfl rfl
theorem Dev.keepsStanding_setChan (d : Dev) (c : Nat) (x : Chan) : d.KeepsStanding (d.setChan c x) := Dev.keepsStanding_of_same rfl rfl
theorem Dev.keepsStanding_setAu (d : Dev) (a : Nat) (x : Au) : d.KeepsStanding (d.setAu a x) := Dev.keepsStanding_of_same rfl rfl
theorem Dev.keepsStanding_setTmu (d : Dev) (u : Nat) (x : Tmu) : d.KeepsStanding (d.setTmu u x) := Dev.keepsStanding_of_same rfl rfl
theorem Dev.keepsStanding_setDse (d : Dev) (e : Nat) (x : Dse) : d.KeepsStanding (d.setDse e x) := Dev.keepsStanding_of_same rfl rfl
theorem Dev.keepsStanding_setSeq (d : Dev) (s : Nat) (x : Seq) : d.KeepsStanding (d.setSeq s x) := Dev.keepsStanding_of_same rfl rfl
theorem Dev.keepsStanding_emit (d : Dev) (o : Output) : d.KeepsStanding (d.emit o) := Dev.keepsStanding_of_same rfl rfl

theorem Dev.OnlyHost.keepsStanding {d e : Dev} (h : d.OnlyHost e) : d.KeepsStanding e := by
  obtain ⟨⟨_, _, _, he⟩, -⟩ := h
  rw [he]
  exact Dev.keepsStanding_of_same rfl rfl

theorem Dev.keepsStanding_event (d : Dev) (src code pay : Nat) : d.KeepsStanding (d.event src code pay) :=
  (d.onlyHost_event src code pay).keepsStanding

/-- A completion, and the entry to a lower power state that may follow it, order no die to park. -/
theorem Dev.keepsStanding_doneWith (d : Dev) (w : Work) (status r r64 : Nat) : d.KeepsStanding (d.doneWith w status r r64) := by
  have hord : (d.doneWith w status r r64).service = (d.complete w status r r64).service := Dev.service_powerIdle _
  obtain ⟨⟨_, _, _, _, _, _, hpow⟩, -⟩ := (d.complete w status r r64).onlyPower_idleRestart
  have hruns : (d.doneWith w status r r64).runs = (d.complete w status r r64).runs := (congrArg Dev.runs hpow :)
  refine (d.onlyHost_complete w status r r64).keepsStanding.trans (Prod.ext ?_ (congrArg Prod.snd hord :))
  unfold Dev.standing Dev.runById
  rw [hruns]

/-! ## RUNs replaced by what they become -/

/-- A RUN takes a new record; every other is found as before. -/
theorem Dev.runById_setRun_ne (d : Dev) {r : OpenRun} {id : Nat} (h : id ≠ r.id) : (d.setRun r).runById id = d.runById id := by
  have hsame : ((fun x : OpenRun => x.id == id) ∘ fun x => if x.id = r.id then r else x) = fun x => x.id == id := by
    funext x
    by_cases hx : x.id = r.id <;> simp [hx]
  have hfound {y : OpenRun} (hy : d.runs.find? (fun x => x.id == id) = some y) : y.id ≠ r.id := by
    have hid : y.id = id := by simpa using List.find?_some hy
    exact fun e => h (hid.symm.trans e)
  unfold Dev.runById Dev.setRun
  dsimp only
  rw [List.find?_map, hsame]
  cases hy : d.runs.find? fun x => x.id == id with
  | none => rfl
  | some y => exact congrArg some (if_neg (hfound hy))

theorem Dev.id_of_runById {d : Dev} {id : Nat} {r : OpenRun} (h : d.runById id = some r) : r.id = id := by
  simpa using List.find?_some h

/-- A RUN that is found under its number keeps it, and its standing. -/
theorem Dev.keepsStanding_setRun {d : Dev} {id : Nat} {r r' : OpenRun} (h : d.runById id = some r) (hid : r'.id = r.id)
    (hst : r'.standing = r.standing) : d.KeepsStanding (d.setRun r') := by
  obtain rfl := Dev.id_of_runById h
  refine Prod.ext (funext fun i => ?_) rfl
  change ((d.setRun r').runById i).map OpenRun.standing = (d.runById i).map OpenRun.standing
  by_cases hi : i = r'.id
  · subst hi
    rw [Dev.runById_setRun (hid ▸ h), hid, h, Option.map_some, Option.map_some, hst]
  · rw [d.runById_setRun_ne hi]

/-- The same where the record was read before other changes that keep its standing. -/
theorem Dev.KeepsStanding.setRun {d e : Dev} (k : d.KeepsStanding e) {id : Nat} {r r' : OpenRun} (h : d.runById id = some r)
    (hid : r'.id = r.id) (hst : r'.standing = r.standing) : d.KeepsStanding (e.setRun r') := by
  have hsame : (e.runById id).map OpenRun.standing = (d.runById id).map OpenRun.standing := congrFun (congrArg Prod.fst k) id
  rw [h] at hsame
  obtain ⟨y, hy, hys⟩ := Option.map_eq_some_iff.1 hsame
  exact k.trans (Dev.keepsStanding_setRun hy (hid.trans ((Dev.id_of_runById h).trans (Dev.id_of_runById hy).symm)) (hst.trans hys.symm))

/-- Every RUN keeps its number and its standing. -/
theorem Dev.keepsStanding_mapRuns (d : Dev) {f : OpenRun → OpenRun} (hid : ∀ r, (f r).id = r.id)
    (hst : ∀ r, (f r).standing = r.standing) : d.KeepsStanding { d with runs := d.runs.map f } := by
  refine Prod.ext (funext fun i => ?_) rfl
  change ((d.runs.map f).find? fun r => r.id == i).map OpenRun.standing = (d.runs.find? fun r => r.id == i).map OpenRun.standing
  rw [List.find?_map, Option.map_map]
  simp only [Function.comp_def, hid, hst]

theorem Dev.keepsStanding_modRun (d : Dev) (id : Nat) {f : OpenRun → OpenRun} (hid : ∀ r, (f r).id = r.id)
    (hst : ∀ r, (f r).standing = r.standing) : d.KeepsStanding (d.modRun id f) :=
  d.keepsStanding_mapRuns (fun r => by split <;> simp [hid]) (fun r => by split <;> simp [hst])

/-! ## Channels (R57 to R61, R72, R93 to R114, R281) -/

section
variable (d : Dev) (c : Nat)

theorem Dev.keepsStanding_reconvert (k : Nat) : d.KeepsStanding (d.reconvert c k) := by
  have hclip : d.KeepsStanding (d.noteClip c k (d.workCode c k)) := .ite (d.keepsStanding_put _ _) (.refl d)
  exact (hclip.trans (Dev.keepsStanding_put _ (peCorr c k) _)).trans
    ((Dev.keepsStanding_setChan _ c _).trans (Dev.keepsStanding_put _ (peHold c) _))

theorem Dev.keepsStanding_wfStop : d.KeepsStanding (d.wfStop c) := (d.keepsStanding_put _ _).trans (Dev.keepsStanding_setChan _ c _)

theorem Dev.keepsStanding_wfRange (seg : Nat) : d.KeepsStanding (d.wfRange c seg) :=
  (((d.keepsStanding_wfStop c).trans (Dev.keepsStanding_put _ _ _)).trans
    ((Dev.keepsStanding_put _ _ _).trans (Dev.keepsStanding_setChan _ c _))).trans (Dev.keepsStanding_event _ _ _ _)

theorem Dev.keepsStanding_auEvent (a tick : Nat) : d.KeepsStanding (d.auEvent a tick) := by
  have hmissed : d.KeepsStanding (d.auMissed a) := by
    unfold Dev.auMissed
    have hcount (x : Au) : d.KeepsStanding ((d.setAu a x).bump (auCntMiss a)) :=
      (d.keepsStanding_setAu a x).trans (Dev.keepsStanding_put _ _ _)
    exact .ite (hcount _) ((hcount _).trans (Dev.keepsStanding_event _ _ _ _))
  unfold Dev.auEvent
  exact .ite (.ite (.refl d) (d.keepsStanding_setAu a _)) (.ite hmissed (.refl d))

theorem Dev.keepsStanding_auEvents (kind idx : Nat) (rise : Option Bool) (tick : Nat) :
    d.KeepsStanding (d.auEvents kind idx rise tick) := by
  unfold Dev.auEvents
  exact .forEach (fun d a => .ite (d.keepsStanding_auEvent a tick) (.refl d)) d

theorem Dev.keepsStanding_wfPut (code : Nat) : d.KeepsStanding (d.wfPut c code) := by
  unfold Dev.wfPut
  dsimp only
  refine Dev.KeepsStanding.trans ?_ (Dev.keepsStanding_reconvert _ c 10)
  split
  · exact d.keepsStanding_setChan c _
  · exact d.keepsStanding_put _ _

theorem Dev.keepsStanding_wfPlay (seg left : Nat) : d.KeepsStanding (d.wfPlay c seg left) := by
  have hshow (x : Chan) (code : Nat) : d.KeepsStanding ((((d.put (ppmuWfRun c) 1).put (ppmuWfSeg c) seg).setChan c x).wfPut c code) :=
    (((d.keepsStanding_put _ _).trans (Dev.keepsStanding_put _ _ _)).trans (Dev.keepsStanding_setChan _ c x)).trans
      (Dev.keepsStanding_wfPut _ c code)
  unfold Dev.wfPlay
  exact .ite (d.keepsStanding_wfRange c seg) (.ite ((hshow _ _).trans (Dev.keepsStanding_auEvents _ _ _ _ _)) (hshow _ _))

theorem Dev.keepsStanding_noteFv : d.KeepsStanding (d.noteFv c) := by
  unfold Dev.noteFv
  split
  · exact d.keepsStanding_mapRuns (fun r => by split <;> rfl) (fun r => by split <;> rfl)
  · exact .refl d

/-- The force mode in effect follows, and a waveform stops or starts. -/
theorem Dev.keepsStanding_syncForce : d.KeepsStanding (d.syncForce c) := by
  have hput := d.keepsStanding_put (ppmuForceNow c) (d.wantForce c)
  unfold Dev.syncForce
  refine Dev.KeepsStanding.trans (hput.trans (.ite (p := d.wantForce c = 1) (Dev.keepsStanding_noteFv _ c) (.refl _))) (.ite ?_ ?_)
  · exact .ite (Dev.keepsStanding_wfStop _ c) (.refl _)
  · exact .ite ((Dev.keepsStanding_wfStop _ c).trans (Dev.keepsStanding_wfPlay _ c _ _)) (.refl _)

theorem Dev.keepsStanding_ppmuReturn : d.KeepsStanding (d.ppmuReturn c) := by
  unfold Dev.ppmuReturn
  exact (((Dev.KeepsStanding.ite (d.keepsStanding_wfStop c) (.refl d)).trans (Dev.keepsStanding_setChan _ c _)).trans
    (Dev.keepsStanding_syncForce _ c)).trans ((Dev.keepsStanding_put _ _ _).trans (Dev.keepsStanding_reconvert _ c 10))

theorem Dev.keepsStanding_toHiz : d.KeepsStanding (d.toHiz c) := by
  obtain ⟨hruns, hdies, -⟩ := Dev.rest_of_alone (d.toHiz_alone c)
  exact Dev.keepsStanding_of_same hruns hdies

end

/-! ## Results into the ledger (R241 to R246) -/

section
variable (d : Dev) (id s : Nat)

theorem Dev.keepsStanding_ledCount : d.KeepsStanding (d.ledCount s) := Dev.keepsStanding_of_same rfl rfl

theorem Dev.keepsStanding_writeEnt (e : Ent) : d.KeepsStanding (d.writeEnt id e) := by
  unfold Dev.writeEnt
  split
  · exact .refl d
  next r hr =>
    exact (((d.keepsStanding_st _ 32 _).trans (Dev.keepsStanding_put _ _ _)).trans (Dev.keepsStanding_ledCount _ _)).setRun hr rfl rfl

theorem Dev.keepsStanding_ppmuSiteDone (st : StepData) : d.KeepsStanding (d.ppmuSiteDone st s) := by
  have hheld : d.KeepsStanding (d.forEach [0, 1, 2, 3] fun d e => d.put (pedHeld e) (d.get (pedHeld e) - d.siteClaim st s e)) :=
    .forEach (fun d e => d.keepsStanding_put _ _) d
  have hback (d : Dev) : d.KeepsStanding (d.forEach (d.stepChans st s) fun d c => d.ppmuReturn c) :=
    .forEach (fun d c => d.keepsStanding_ppmuReturn c) d
  exact (hheld.trans (hback _)).trans (Dev.keepsStanding_of_same rfl rfl)

theorem Dev.keepsStanding_flushSite : d.KeepsStanding (d.flushSite id s) := by
  have hwrite (due : List Res) (es : Res → List Ent) :
      d.KeepsStanding (due.foldl (fun d x => (es x).foldl (fun d e => d.writeEnt id e) d) d) :=
    .foldl (fun d _ _ => .foldl (fun d e _ => d.keepsStanding_writeEnt id e) d) d
  unfold Dev.flushSite
  split
  · exact .refl d
  · split
    · exact .refl d
    · refine .ite (Dev.KeepsStanding.trans ?_ (Dev.keepsStanding_ppmuSiteDone _ s _)) ?_
      all_goals
        split
        next r hr => exact (hwrite _ _).trans (Dev.keepsStanding_setRun (r := r) hr rfl rfl)
        · exact hwrite _ _

theorem Dev.keepsStanding_putReading (j : Nat) (x : Reading) : d.KeepsStanding (d.putReading id s j x) := by
  unfold Dev.putReading
  split
  · exact .refl d
  next r hr =>
    split
    · exact .refl d
    · refine Dev.KeepsStanding.trans ?_ (Dev.keepsStanding_flushSite _ id s)
      exact Dev.keepsStanding_setRun hr rfl rfl

theorem Dev.keepsStanding_cutRes (p : Res → Bool) (code flags : Nat) : d.KeepsStanding (d.cutRes id s p code flags) := by
  unfold Dev.cutRes
  split
  · exact .refl d
  next r hr =>
    split
    · exact .refl d
    · refine Dev.KeepsStanding.trans ?_ (Dev.keepsStanding_flushSite _ id s)
      exact Dev.keepsStanding_setRun hr rfl rfl

/-- Every open result of a list of sites takes INCOMPLETE. -/
theorem Dev.keepsStanding_cutSites (l : List Nat) (code flags : Nat) :
    d.KeepsStanding (d.forEach l fun d s => d.cutRes id s (fun _ => true) code flags) :=
  .forEach (fun d s => d.keepsStanding_cutRes id s _ code flags) d

end

end Sys2Proof.Machine
end

section
/-!
PROOFS. What the units that a command stops leave of the RUNs and of the park orders: acquisition, DSP and time measurement, the
sequencers, the calibration and the sectors (R256, R272, R303, R328, R338, R447, R584).
-/

namespace Sys2Proof.Machine

/-! ## Acquisition units (R269 to R274, R278) -/

section
variable (d : Dev) (a : Nat)

theorem Dev.keepsStanding_sweepReturn : d.KeepsStanding (d.sweepReturn a) := by
  unfold Dev.sweepReturn
  exact .forEach (fun d c => ((d.keepsStanding_setChan c _).trans (Dev.keepsStanding_reconvert _ c 3)).trans
    (Dev.keepsStanding_reconvert _ c 4)) d

theorem Dev.keepsStanding_auUnfill : d.KeepsStanding (d.auUnfill a) := by
  unfold Dev.auUnfill Dev.auToReady
  exact .ite (.ite (d.keepsStanding_put _ _) ((d.keepsStanding_put _ _).trans (Dev.keepsStanding_setAu _ a _))) (.refl d)

theorem Dev.keepsStanding_auMeasSet (k : Nat) (v : Option Int) : d.KeepsStanding (d.auMeasSet a k v) :=
  (d.keepsStanding_put _ _).trans (Dev.keepsStanding_put _ _ _)

theorem Dev.keepsStanding_auDrainOut (n : Nat) : d.KeepsStanding (d.auDrainOut a n) := by
  induction n generalizing d with
  | zero => exact .refl d
  | succ n ih =>
    unfold Dev.auDrainOut
    dsimp only
    split
    · exact .refl d
    · exact .ite ((((d.keepsStanding_emit _).trans (Dev.keepsStanding_put _ _ _)).trans (Dev.keepsStanding_setAu _ a _)).trans (ih _))
        (.refl d)

/-- A record is written to the allocation and to the ring, and its measurements go to the RUN's step. -/
theorem Dev.keepsStanding_auFinalise (ss : List (List Nat)) (pre extra : Nat) : d.KeepsStanding (d.auFinalise a ss pre extra) := by
  unfold Dev.auFinalise
  extract_lets x _ _ _ _ _ _ _ d1 d2 _ _ _ _ _ _ _ _ _ _ _ _ _ d3 d4 _ _ d5 d6 d7 d8 _ d9
  have hmeas : d.KeepsStanding d2 := Dev.KeepsStanding.trans (e := d1) (Dev.keepsStanding_of_same rfl rfl)
    (.forEach (fun d k => .ite (d.keepsStanding_auMeasSet a k _) (.refl d)) d1)
  have hstored : d2.KeepsStanding d4 :=
    Dev.KeepsStanding.trans (e := d3) (Dev.keepsStanding_st _ _ _ _) (.ite (.refl d3) (Dev.keepsStanding_st _ _ _ _))
  have hdrained : d4.KeepsStanding d6 := Dev.KeepsStanding.trans (e := d5)
    (.ite ((d4.keepsStanding_setAu a _).trans (Dev.keepsStanding_auDrainOut _ a _)) (.refl d4))
    (.ite ((d5.keepsStanding_put _ _).trans (Dev.keepsStanding_event _ _ _ _)) (.refl d5))
  have hcounted : d6.KeepsStanding d9 := Dev.KeepsStanding.trans (e := d7) (d6.keepsStanding_put _ _)
    (Dev.KeepsStanding.trans (e := d8) (.ite (d7.keepsStanding_event _ _ _) (.refl d7)) (d8.keepsStanding_setAu a _))
  refine (hmeas.trans (hstored.trans (hdrained.trans hcounted))).trans ?_
  split
  · exact .refl d9
  · refine .forEach (fun d k => ?_) d9
    split
    · split
      · exact d.keepsStanding_putReading _ _ _ _
      · exact .refl d
    · exact .refl d

/-- A disarm cuts the result of the unit, writes what is left of its record, and takes the unit to IDLE. -/
theorem Dev.keepsStanding_auDisarmCore (parked : Bool) : d.KeepsStanding (d.auDisarmCore a parked) := by
  unfold Dev.auDisarmCore
  extract_lets st x fl d1 _ d2 _ _ d3 d4 _
  have hcut : d.KeepsStanding d1 := by
    dsimp only [d1]
    split
    · exact d.keepsStanding_cutRes _ _ _ _ _
    · exact .refl d
  have hfree (e : Dev) : e.KeepsStanding e.nextFree := Dev.keepsStanding_of_same rfl rfl
  have hrecord : d2.KeepsStanding d3 :=
    .ite (.ite ((hfree d2).trans (Dev.keepsStanding_auFinalise _ a _ _ _)) (.ite (d2.keepsStanding_auFinalise a _ _ _) (.refl d2)))
      (.ite ((hfree d2).trans (Dev.keepsStanding_auFinalise _ a _ _ _)) (.refl d2))
  have hback : d3.KeepsStanding d4 := .ite (d3.keepsStanding_sweepReturn a) (.refl d3)
  refine .ite (.refl d) ((hcut.trans ((d1.keepsStanding_setAu a _).trans (hrecord.trans hback))).trans ?_)
  exact ((d4.keepsStanding_put _ _).trans (Dev.keepsStanding_put _ _ _)).trans (Dev.keepsStanding_setAu _ a _)

end

/-! ## DSP jobs (R328, R338) -/

section
variable (d : Dev) (e : Nat)

theorem Dev.keepsStanding_freeAus (vs : List View) : d.KeepsStanding (d.freeAus vs) := by
  unfold Dev.freeAus
  refine .foldl (fun d v _ => .ite ?_ (.refl d)) d
  refine Dev.KeepsStanding.trans (.ite ?_ (d.keepsStanding_setAu _ _)) (Dev.keepsStanding_auUnfill _ v.au)
  split
  · exact (d.keepsStanding_put _ _).trans (Dev.keepsStanding_setAu _ _ _)
  · exact d.keepsStanding_setAu _ _

theorem Dev.keepsStanding_jobStart (j : Job) (keep : Bool) : d.KeepsStanding (d.jobStart e j keep) := by
  have hblock (j : Job) (vs : List View) : d.KeepsStanding (d.writeBlock e j vs) := by
    unfold Dev.writeBlock
    exact .foldl (fun d p _ => d.keepsStanding_st _ _ _) d
  have hhold (d : Dev) (vs : List View) : d.KeepsStanding (d.holdAus vs) := by
    unfold Dev.holdAus
    exact .foldl (fun d v _ => .ite (d.keepsStanding_setAu _ _) (.refl d)) d
  unfold Dev.jobStart
  extract_lets vs j' d1 d2 d3 d4
  have hready : d.KeepsStanding d3 :=
    ((hblock j' vs).trans (.ite (.refl d1) (hhold d1 vs) : d1.KeepsStanding d2)).trans (d2.keepsStanding_setDse e _)
  have hstate : d3.KeepsStanding d4 := .ite (.refl d3) (d3.keepsStanding_put _ _)
  exact (hready.trans hstate).trans (d4.keepsStanding_put _ _)

theorem Dev.keepsStanding_jobResults (j : Job) (how : JobEnd) : d.KeepsStanding (d.jobResults e j how).1 := by
  unfold Dev.jobResults
  split
  · exact .refl d
  · refine .foldl (fun d i _ => ?_) d
    split
    · exact .refl d
    · split
      · exact .ite (d.keepsStanding_cutRes _ _ _ _ _) (d.keepsStanding_putReading _ _ _ _)
      · exact .refl d

theorem Dev.keepsStanding_jobEnd (how : JobEnd) : d.KeepsStanding (d.jobEnd e how) := by
  unfold Dev.jobEnd
  extract_lets x d1
  split
  · exact .refl d
  next j _ =>
    extract_lets d2 d3 p d4 again d5 _ d6 d7
    have hcount : d.KeepsStanding d1 := (d.keepsStanding_put _ _).trans (Dev.keepsStanding_put _ _ _)
    have hfault : d1.KeepsStanding d2 := by
      dsimp only [d2]
      split
      · exact (((d1.keepsStanding_put _ _).trans (Dev.keepsStanding_put _ _ _)).trans (Dev.keepsStanding_put _ _ _)).trans
          (Dev.keepsStanding_event _ _ _ _)
      · exact .refl d1
    have hdone : d2.KeepsStanding d3 := .ite (d2.keepsStanding_event _ _ _) (.refl d2)
    have hresults : d.KeepsStanding d4 := (hcount.trans hfault).trans (hdone.trans (d3.keepsStanding_jobResults e j how))
    have hcut : d4.KeepsStanding d5 := by
      refine .ite ?_ (.refl d4)
      split
      · exact d4.keepsStanding_cutRes _ _ _ _ _
      · exact .refl d4
    have hfreed : d5.KeepsStanding d7 :=
      ((d5.keepsStanding_setDse e _).trans (Dev.keepsStanding_freeAus _ j.views)).trans (d6.keepsStanding_put _ _)
    refine hresults.trans (.ite (d4.keepsStanding_jobStart e j true) ((hcut.trans hfreed).trans ?_))
    exact .ite (d7.keepsStanding_put _ _) (.refl d7)

theorem Dev.keepsStanding_jobsCut (id : Nat) (p : Job → Bool) : d.KeepsStanding (d.jobsCut id p) := by
  unfold Dev.jobsCut
  extract_lets hit d1
  refine Dev.KeepsStanding.trans (e := d1) (Dev.keepsStanding_of_same rfl rfl) (.forEach (fun d e => ?_) d1)
  extract_lets _ d2
  refine Dev.KeepsStanding.trans (e := d2) (d.keepsStanding_setDse e _) ?_
  split
  · exact .ite (d2.keepsStanding_jobEnd e .cut) (.refl d2)
  · exact .refl d2

end

/-! ## Time measurement units (R303, R309, R310) -/

section
variable (d : Dev) (u : Nat)

theorem Dev.keepsStanding_tmuReg (lo hi : Fld) (v : Int) (valid unref : Bool) : d.KeepsStanding (d.tmuReg lo hi v valid unref) :=
  (d.keepsStanding_put _ _).trans (Dev.keepsStanding_put _ _ _)

theorem Dev.keepsStanding_tmuResults (why : TmuEnd) (stats : List Int) (unref : Bool) :
    d.KeepsStanding (d.tmuResults u why stats unref) := by
  unfold Dev.tmuResults
  extract_lets x
  split
  · split
    · exact d.keepsStanding_cutRes _ _ _ _ _
    · split
      · exact .refl d
      · split
        · exact .refl d
        · exact .foldl (fun d y _ => d.keepsStanding_putReading _ _ _ _) d
  · exact .refl d

theorem Dev.keepsStanding_tmuArmCore (run : Option Nat) (step : Nat) : d.KeepsStanding (d.tmuArmCore u run step) := by
  unfold Dev.tmuArmCore
  exact .ite (.refl d) ((((d.keepsStanding_put _ _).trans (Dev.keepsStanding_put _ _ _)).trans
    ((Dev.keepsStanding_put _ _ _).trans (Dev.keepsStanding_put _ _ _))).trans (Dev.keepsStanding_setTmu _ u _))

theorem Dev.keepsStanding_tmuFinish (why : TmuEnd) : d.KeepsStanding (d.tmuFinish u why) := by
  unfold Dev.tmuFinish
  extract_lets x n unref stats d1 d2 d3 d4
  have hstats : d.KeepsStanding d2 := (d.keepsStanding_put _ _).trans (.forEach (fun d k => d.keepsStanding_tmuReg _ _ _ _ _) d1)
  have hresults : d2.KeepsStanding d4 :=
    (d2.keepsStanding_tmuResults u why stats unref).trans (.ite (d3.keepsStanding_event _ _ _) (.refl d3))
  exact (hstats.trans hresults).trans (.ite (d4.keepsStanding_tmuArmCore u _ _) (d4.keepsStanding_setTmu u _))

theorem Dev.keepsStanding_tmuCut : d.KeepsStanding (d.tmuCut u) := .ite (.refl d) (d.keepsStanding_tmuFinish u .cut)

end

/-! ## Sequencers (R142, R146, R184) -/

section
variable (d : Dev) (q : Nat)

theorem Dev.keepsStanding_setMarkers (m : Nat) (pos : Rat) : d.KeepsStanding (d.setMarkers q m pos) := by
  unfold Dev.setMarkers
  extract_lets x d1 up d2 r
  have hup : d.KeepsStanding d2 := (d.keepsStanding_setSeq q _).trans (.forEach (fun d b => d.keepsStanding_auEvents _ _ _ _) d1)
  exact .ite (.refl d) (hup.trans (.ite (.refl d2) (d2.keepsStanding_emit _)))

theorem Dev.keepsStanding_haltSeq (why : HaltWhy) : d.KeepsStanding (d.haltSeq q why) := by
  have hhalt (d : Dev) : d.KeepsStanding (d.toHalting q why) :=
    ((d.keepsStanding_setMarkers q 0 _).trans (Dev.keepsStanding_put _ _ _)).trans (Dev.keepsStanding_setSeq _ q _)
  unfold Dev.haltSeq
  exact .ite ((d.keepsStanding_setSeq q _).trans (hhalt _)) (.ite (d.keepsStanding_setSeq q _) (.refl d))

end

/-! ## Calibration runs (R438 to R440, R447) -/

section
variable (d : Dev)

theorem Dev.keepsStanding_cal (x : CalSt) : d.KeepsStanding { d with cal := x } := Dev.keepsStanding_of_same rfl rfl

theorem Dev.keepsStanding_applyCal (k : Nat) : d.KeepsStanding (d.applyCal k).1 := by
  unfold Dev.applyCal
  extract_lets _ _ _ _ _ _ d1 d2
  have hforce : d.KeepsStanding d2 := (d.keepsStanding_cal _).trans (d1.keepsStanding_put _ _)
  split
  · exact hforce
  · exact hforce.trans (.foldl (fun d p _ => d.keepsStanding_reconvert p.1 p.2) d2)

theorem Dev.keepsStanding_recompute (k : Nat) : d.KeepsStanding (d.recompute k) := by
  unfold Dev.recompute
  split
  · exact .ite ((d.keepsStanding_cal _).trans (Dev.keepsStanding_put _ _ _)) (.refl d)
  · exact .refl d

theorem Dev.keepsStanding_calFinish (r : CalRun) : d.KeepsStanding (d.calFinish r) := by
  have hsector (d : Dev) (k : Nat) :
      d.KeepsStanding (((d.recompute k).applyIdle k).forEach (sectorChans k) fun d c => d.put (peStale c) 0) :=
    ((d.keepsStanding_recompute k).trans (.ite (Dev.keepsStanding_applyCal _ k) (.refl _))).trans
      (.forEach (fun d c => d.keepsStanding_put _ _) _)
  exact ((d.keepsStanding_cal _).trans (.forEach hsector _)).trans
    ((Dev.keepsStanding_put _ _ _).trans (Dev.keepsStanding_doneWith _ _ _ _ _))

/-- A calibration run that a command stops. -/
theorem Dev.keepsStanding_calStop (mask status : Nat) : d.KeepsStanding (d.calStop mask status) := by
  refine .foldl (fun d r _ => .ite (.refl d) ?_) d
  exact .ite (d.keepsStanding_calFinish _) (d.keepsStanding_cal _)

end

/-! ## Sectors (R584, R586) -/

theorem Dev.keepsStanding_quiesceDue (d : Dev) : d.KeepsStanding d.quiesceDue := by
  have hsectors (d : Dev) (mask dies : Nat) : d.KeepsStanding (d.quiesceSectors mask dies) := by
    have hhiz (d : Dev) (ks : List Nat) : d.KeepsStanding (d.forEach ks fun d k => d.forEach (sectorChans k) fun d c =>
        (d.setChan c { d.chan c with waitStep := true }).toHiz c) :=
      .forEach (fun d k => .forEach (fun d c => (d.keepsStanding_setChan c _).trans (Dev.keepsStanding_toHiz _ c)) d) d
    unfold Dev.quiesceSectors
    exact .ite ((d.keepsStanding_put _ _).trans (hhiz _ _))
      (((d.keepsStanding_put _ _).trans (hhiz _ _)).trans (Dev.keepsStanding_event _ _ _ _))
  unfold Dev.quiesceDue
  exact .ite (.refl d) (Dev.KeepsStanding.trans (e := { d with pwr := _ }) (Dev.keepsStanding_of_same rfl rfl) (hsectors _ _ _))

end Sys2Proof.Machine
end

section
/-!
PROOFS. The commands STOP, ABORT and PARK: each RUN that they touch ends, and keeps the end it has had (R256, R508 to R512).
-/

namespace Sys2Proof.Machine

/-! ## The work in flight is cut off (R256) -/

section
variable (d : Dev) (id : Nat)

theorem Dev.keepsStanding_inFlight (td : Nat) : d.KeepsStanding (d.inFlight id td) := (d.onlyHost_eventPair _ _ _ _ _).keepsStanding

theorem Dev.keepsStanding_noteSettle : d.KeepsStanding (d.noteSettle id) := by
  unfold Dev.noteSettle
  split
  · exact .refl d
  next r hr => exact Dev.keepsStanding_setRun hr rfl rfl

theorem Dev.keepsStanding_cutPattern (st : StepData) (k : Nat) : d.KeepsStanding (d.cutPattern id st k) := by
  unfold Dev.cutPattern
  extract_lets open_ d1
  have hresults : d.KeepsStanding d1 := by
    refine .foldl (fun d y _ => .ite (.refl d) ?_) d
    split
    · exact .refl d
    next r hr =>
      refine Dev.KeepsStanding.trans ?_ (Dev.keepsStanding_cutRes _ id _ _ _ _)
      exact Dev.keepsStanding_setRun hr rfl rfl
  exact hresults.trans (.forEach (fun d s => d.keepsStanding_haltSeq s .command) d1)

theorem Dev.keepsStanding_countWaiting : d.KeepsStanding d.countWaiting := by
  unfold Dev.countWaiting
  exact Dev.KeepsStanding.trans (.forEach (fun d e => d.keepsStanding_put _ _) d)
    (.foldl (fun d w _ => .forEach (fun d c => d.keepsStanding_put _ _) d) _)

theorem Dev.keepsStanding_cutPpmu : d.KeepsStanding (d.cutPpmu id) := by
  unfold Dev.cutPpmu
  extract_lets waits d1 d2 d3 ss
  have hbegun : d.KeepsStanding d1 := d.keepsStanding_modRun id (fun _ => rfl) (fun _ => rfl)
  have hwaits : d1.KeepsStanding d2 := .forEach (fun d c => d.keepsStanding_put _ _) d1
  exact ((hbegun.trans hwaits).trans (d2.keepsStanding_jobsCut id _)).trans
    ((d3.keepsStanding_cutSites id ss _ _).trans (Dev.keepsStanding_countWaiting _))

theorem Dev.keepsStanding_cutAll : d.KeepsStanding (d.cutAll id) := by
  unfold Dev.cutAll
  split
  · exact .refl d
  · exact d.keepsStanding_cutSites id _ _ _

theorem Dev.keepsStanding_cutWork (r : OpenRun) : d.KeepsStanding (d.cutWork r) := by
  unfold Dev.cutWork
  extract_lets id d1
  refine (d.keepsStanding_noteSettle id : d.KeepsStanding d1).trans (.ite ?_ (.ite ?_ (.refl d1)))
  · exact (d1.keepsStanding_cutAll id).trans (.forEach (fun d c => d.keepsStanding_ppmuReturn c) _)
  · split
    · exact .refl d1
    · refine .ite (d1.keepsStanding_cutPattern id _ _) (.ite (d1.keepsStanding_cutPpmu id) (.ite ?_ (.ite ?_ ?_)))
      · exact Dev.KeepsStanding.trans (.forEach (fun d u => d.keepsStanding_tmuCut u) d1) (Dev.keepsStanding_cutAll _ id)
      · exact Dev.KeepsStanding.trans (.forEach (fun d a => d.keepsStanding_auDisarmCore a false) d1) (Dev.keepsStanding_cutAll _ id)
      · exact (d1.keepsStanding_jobsCut id _).trans (Dev.keepsStanding_cutAll _ id)

theorem Dev.keepsStanding_maskSites : d.KeepsStanding (d.maskSites id) := by
  have hsite (d : Dev) (st : StepData) (s : Nat) : d.KeepsStanding (d.maskSite id st s) := by
    unfold Dev.maskSite
    split
    · exact .refl d
    next r hr =>
      extract_lets fins contact stop hit d1
      have hmask : d.KeepsStanding d1 := .ite (Dev.keepsStanding_setRun hr rfl rfl) (.refl d)
      refine hmask.trans ?_
      clear_value d1 hit
      split
      · exact d1.keepsStanding_st _ _ _
      · exact .refl d1
  unfold Dev.maskSites
  split
  · exact .refl d
  · split
    · exact .refl d
    · exact .forEach (fun d s => hsite d _ s) d

end

/-! ## One RUN ends (R36, R256) -/

/-- From `d` to `d'` no other RUN changes its standing and no die its park order, and the RUN itself keeps how it has ended. -/
structure Dev.KeepsEnd (id : Nat) (d d' : Dev) : Prop where
  other : ∀ j, j ≠ id → d'.standing.1 j = d.standing.1 j
  ord : d'.standing.2 = d.standing.2
  ending : (d'.standing.1 id).map Prod.snd = (d.standing.1 id).map Prod.snd

theorem Dev.KeepsEnd.trans {id : Nat} {d e f : Dev} (h : d.KeepsEnd id e) (k : e.KeepsEnd id f) : d.KeepsEnd id f :=
  ⟨fun j hj => (k.other j hj).trans (h.other j hj), k.ord.trans h.ord, k.ending.trans h.ending⟩

theorem Dev.KeepsStanding.keepsEnd {d e : Dev} (h : d.KeepsStanding e) (id : Nat) : d.KeepsEnd id e := by
  unfold Dev.KeepsStanding at h
  exact ⟨fun _ _ => by rw [h], by rw [h], by rw [h]⟩

theorem Dev.standing_of_runById {d : Dev} {id : Nat} {r : OpenRun} (h : d.runById id = some r) :
    d.standing.1 id = some r.standing := congrArg (Option.map OpenRun.standing) h

/-- A RUN that takes a new record: no other changes its standing, and no die its park order. -/
theorem Dev.standing_setRun {d : Dev} {r r' : OpenRun} (h : d.runById r.id = some r) (hid : r'.id = r.id) :
    (∀ j, j ≠ r.id → (d.setRun r').standing.1 j = d.standing.1 j) ∧ (d.setRun r').standing.2 = d.standing.2 ∧
      (d.setRun r').standing.1 r.id = some r'.standing := by
  refine ⟨fun j hj => ?_, rfl, ?_⟩
  · exact congrArg (Option.map OpenRun.standing) (d.runById_setRun_ne (hid ▸ hj))
  · rw [← hid] at h ⊢
    exact Dev.standing_of_runById (Dev.runById_setRun h)

/-- A RUN keeps how it has ended when its close guard begins (R36). -/
theorem Dev.keepsEnd_toGuard (d : Dev) (id : Nat) : d.KeepsEnd id (d.toGuard id) := by
  have hnote : (d.noteSettle id).standing = d.standing := d.keepsStanding_noteSettle id
  unfold Dev.toGuard
  split
  · exact (Dev.KeepsStanding.refl d).keepsEnd id
  next r hr =>
    extract_lets gap end_
    have hrest (e : Dev) : e.KeepsStanding e.ledSync.quiesceDue :=
      ((e.keepsStanding_put _ _).trans (Dev.keepsStanding_put _ _ _)).trans (Dev.keepsStanding_quiesceDue _)
    refine Dev.KeepsEnd.trans ?_ ((hrest _).keepsEnd id)
    obtain rfl := Dev.id_of_runById hr
    have hst : d.standing.1 r.id = some r.standing := by rw [← hnote]; exact Dev.standing_of_runById hr
    obtain ⟨r0, hr0, hsame⟩ := Option.map_eq_some_iff.1 hst
    have hid := Dev.id_of_runById hr0
    obtain ⟨hother, hord, hself⟩ := Dev.standing_setRun (hid ▸ hr0)
      (r' := { r with phase := .guard, guardEnd := end_, res := [], reloading := false, pllWait := [] }) hid.symm
    rw [hid] at hother hself
    exact ⟨hother, hord, by rw [hself, hst]; rfl⟩

/-- How a live RUN has ended once it ends again: an abort also marks a RUN that has ended before (R256). -/
def OpenRun.endMark (r : OpenRun) (abort : Bool) : Bool × Bool :=
  if r.aborted || r.partialE then (r.aborted || abort, r.partialE) else (abort, !abort)

theorem OpenRun.standing_advanceProgress (r : OpenRun) : r.advanceProgress.id = r.id ∧ r.advanceProgress.standing = r.standing := by
  unfold OpenRun.advanceProgress
  dsimp only
  split
  all_goals exact ⟨rfl, rfl⟩

/-- A live RUN that ends takes its mark, and keeps it while its work is cut off and its close guard begins. -/
theorem Dev.endRun_marks {d : Dev} {id : Nat} {r : OpenRun} (hr : d.runById id = some r) (hlive : r.live = true) (abort : Bool) :
    ∃ e r', d.KeepsStanding e ∧ e.runById id = some r ∧ r'.id = r.id ∧ (r'.aborted, r'.partialE) = r.endMark abort ∧
      (e.setRun r').KeepsEnd id (d.endRun id abort) := by
  unfold Dev.endRun
  split
  next hnone => exact absurd (hr.symm.trans hnone) (Option.some_ne_none r)
  next r' hr' =>
    obtain rfl : r' = r := Option.some.inj (hr'.symm.trans hr)
    extract_lets d1 d2 d3 open_ d4
    rw [if_neg (by simp [hlive])]
    unfold OpenRun.endMark
    split
    · exact ⟨d, { r' with aborted := r'.aborted || abort }, .refl d, hr, rfl, rfl, (Dev.KeepsStanding.refl _).keepsEnd id⟩
    · have hfound : d1.runById id = some r' := by
        obtain ⟨⟨_, _, _, h⟩, -⟩ : d.OnlyHost d1 := d.onlyHost_eventPair _ _ _ _ _
        rw [h]
        exact hr
      have hcut : d2.KeepsStanding d3 := .ite (.refl d2) (d2.keepsStanding_cutWork r')
      have hmask : d3.KeepsStanding d4 := .ite ((d3.keepsStanding_maskSites id).trans
        (Dev.keepsStanding_modRun _ id (fun r => r.standing_advanceProgress.1) fun r => r.standing_advanceProgress.2)) (.refl d3)
      have hclear := d4.keepsStanding_modRun id (f := fun r => { r with res := [] }) (fun _ => rfl) fun _ => rfl
      refine ⟨d1, _, d.keepsStanding_inFlight id _, hfound, ?_, ?_, (hcut.keepsEnd id).trans ?_⟩
      · rfl
      · rfl
      · split
        · exact ((hmask.trans hclear).keepsEnd id).trans (Dev.keepsEnd_toGuard _ id)
        · exact (Dev.KeepsStanding.refl d3).keepsEnd id

/-- An end changes no other RUN's standing and no park order; a RUN past its close guard keeps how it has ended, a live one takes its
mark. -/
theorem Dev.endRun_effect {d : Dev} {id : Nat} {r : OpenRun} (hr : d.runById id = some r) (abort : Bool) :
    (∀ j, j ≠ id → (d.endRun id abort).standing.1 j = d.standing.1 j) ∧ (d.endRun id abort).standing.2 = d.standing.2 ∧
      ((d.endRun id abort).standing.1 id).map Prod.snd = some (if r.live then r.endMark abort else (r.aborted, r.partialE)) := by
  cases hlive : r.live
  · have hsame : d.endRun id abort = d := by
      rw [Dev.endRun, hr]
      exact if_pos (by simp [hlive])
    rw [hsame, Dev.standing_of_runById hr]
    exact ⟨fun _ _ => rfl, rfl, rfl⟩
  · obtain ⟨e, r', hkeep, hre, hid, hmark, hend⟩ := Dev.endRun_marks hr hlive abort
    obtain rfl := Dev.id_of_runById hr
    obtain ⟨hother, hord, hself⟩ := Dev.standing_setRun hre hid
    unfold Dev.KeepsStanding at hkeep
    refine ⟨fun j hj => (hend.other j hj).trans ((hother j hj).trans (by rw [hkeep])), hend.ord.trans (hord.trans (by rw [hkeep])), ?_⟩
    rw [hend.ending, hself, if_pos rfl, ← hmark]
    rfl

theorem Dev.endRun_of_none {d : Dev} {id : Nat} (h : d.runById id = none) (abort : Bool) : d.endRun id abort = d := by
  rw [Dev.endRun, h]

/-- The end of a RUN leaves every other, and the park orders. -/
theorem Dev.endRun_others (d : Dev) (id : Nat) (abort : Bool) :
    (∀ j, j ≠ id → (d.endRun id abort).standing.1 j = d.standing.1 j) ∧ (d.endRun id abort).standing.2 = d.standing.2 := by
  cases hr : d.runById id with
  | none =>
    rw [Dev.endRun_of_none hr]
    exact ⟨fun _ _ => rfl, rfl⟩
  | some r =>
    obtain ⟨hother, hord, -⟩ := Dev.endRun_effect hr abort
    exact ⟨hother, hord⟩

/-! ## Every RUN of a list ends -/

/-- A RUN is live and has not ended. -/
def Dev.untouched (d : Dev) (id : Nat) : Prop := d.standing.1 id = some (true, false, false)

/-- A RUN has ended, aborted or partial. -/
def Dev.endedAs (d : Dev) (id : Nat) (abort : Bool) : Prop := (d.standing.1 id).map Prod.snd = some (abort, !abort)

/-- A RUN that ends for the first time ends so, and one that has ended so ends no other way. -/
theorem Dev.endRun_ends {d : Dev} {id : Nat} {abort : Bool} (h : d.untouched id ∨ d.endedAs id abort) :
    (d.endRun id abort).endedAs id abort := by
  cases hr : d.runById id with
  | none => simp [Dev.untouched, Dev.endedAs, Dev.standing, hr] at h
  | some r =>
    obtain ⟨-, -, hself⟩ := Dev.endRun_effect hr abort
    refine hself.trans (congrArg some ?_)
    simp only [Dev.untouched, Dev.endedAs, Dev.standing_of_runById hr, OpenRun.standing, Option.map_some, Option.some.injEq,
      Prod.mk.injEq] at h
    rcases h with ⟨hlive, haborted, hpartial⟩ | ⟨haborted, hpartial⟩
    · simp [hlive, OpenRun.endMark, haborted, hpartial]
    · simp [OpenRun.endMark, haborted, hpartial]

theorem Dev.endRun_keeps_ended {d : Dev} {id : Nat} {abort : Bool} (h : d.endedAs id abort) (i : Nat) :
    (d.endRun i abort).endedAs id abort := by
  by_cases hi : id = i
  · subst hi
    exact Dev.endRun_ends (.inr h)
  · unfold Dev.endedAs
    rw [(d.endRun_others i abort).1 id hi]
    exact h

/-- Every untouched RUN of a list has ended when all of the list have. -/
theorem Dev.endRun_all {l : List Nat} {id : Nat} (hid : id ∈ l) (abort : Bool) (d : Dev) (h : d.untouched id) :
    (l.foldl (fun d i => d.endRun i abort) d).endedAs id abort := by
  induction l generalizing d with
  | nil => cases hid
  | cons i l ih =>
    rw [List.foldl_cons]
    by_cases hi : id = i
    · subst hi
      exact List.foldlRecOn l _ (motive := fun d : Dev => d.endedAs id abort) (Dev.endRun_ends (.inl h))
        fun d hd i _ => Dev.endRun_keeps_ended hd i
    · refine ih ((List.mem_cons.1 hid).resolve_left hi) _ ?_
      unfold Dev.untouched
      rw [(d.endRun_others i abort).1 id hi]
      exact h

/-- The RUNs that hold a site of a mask end; no die's park order changes. -/
theorem Dev.endRuns_effect (d : Dev) (sites : Nat) (abort : Bool) :
    (d.endRuns sites abort).1.standing.2 = d.standing.2 ∧
    ∀ r ∈ d.runs, d.untouched r.id → r.live = true → r.sites &&& sites ≠ 0 → (d.endRuns sites abort).1.endedAs r.id abort := by
  refine ⟨?_, fun r hr huntouched hlive hsites => Dev.endRun_all ?_ abort d huntouched⟩
  · exact Dev.forEach_keeps (fun d => d.standing.2) (fun d i _ => (d.endRun_others i abort).2) d
  · exact List.mem_map_of_mem (List.mem_filter.2 ⟨hr, by simp [hlive, hsites]⟩)

/-! ## PARK orders its dies (R75, R510) -/

/-- The device when the dies in the scope of a command have been ordered to park. -/
def Dev.parkOrdered (d : Dev) (w : BitVec 28) : Dev := d.forEach (d.cmdDies w) fun d e => d.orderPark e

theorem Dev.runs_parkOrdered (d : Dev) (w : BitVec 28) : (d.parkOrdered w).runs = d.runs :=
  Dev.forEach_keeps (f := Dev.orderPark) Dev.runs (fun _ _ _ => rfl) d

/-- The scope of a command is read from registers, which no park order writes. -/
theorem Dev.cmdSites_parkOrdered (d : Dev) (w v : BitVec 28) : (d.parkOrdered w).cmdSites v = d.cmdSites v := by
  have hregs : (d.parkOrdered w).regs = d.regs := Dev.forEach_keeps (f := Dev.orderPark) Dev.regs (fun _ _ _ => rfl) d
  have hget (f : Fld) : (d.parkOrdered w).get f = d.get f := Dev.get_of_regs hregs f
  have hsite (c : Nat) : (d.parkOrdered w).siteOf c = d.siteOf c := by
    rw [Dev.siteOf, Dev.is, hget, hget, Dev.siteOf, Dev.is]
  have hsites (cs : List Nat) : (d.parkOrdered w).sitesOfChans cs = d.sitesOfChans cs := by
    simp only [Dev.sitesOfChans, hsite]
  simp only [Dev.cmdSites, Dev.seqSites, Dev.dieSites, Dev.sectorSites, Dev.seqChans, Dev.seqQuads, Dev.get2, hsites, hget]

theorem Dev.parkOrd_parkOrdered (d : Dev) {w : BitVec 28} {e : Nat} (he : e ∈ d.cmdDies w) :
    ((d.parkOrdered w).die e).parkOrd = true := by
  refine Dev.forEach_establishes (P := fun e d => (d.die e).parkOrd = true) (fun d e => ?_) (fun d b e hb h => ?_) d he
  · rw [Dev.orderPark, Dev.die_setDie_same]
  · rw [Dev.orderPark, Dev.die_setDie_ite, if_neg (Ne.symm hb)]
    exact h

/-! ## COMMAND (R508 to R512) -/

/-- An event moves the tail of the event queue, or counts a drop (R518). -/
theorem Dev.keepsRegs_event (d : Dev) (src code pay : Nat) : d.KeepsRegs (d.event src code pay) [eqTail.addr, eqDrop.addr] := by
  have hring (d : Dev) (ring : Nat) : (d.ringMessage ring).regs = d.regs := by
    unfold Dev.ringMessage
    dsimp only
    repeat' split
    all_goals rfl
  have hwrite (d : Dev) (e : EvRec) : d.KeepsRegs (d.eqWrite e) [eqTail.addr, eqDrop.addr] := by
    unfold Dev.eqWrite
    refine Dev.keepsRegs_of_regs (hring _ _) (.ite ?_ ?_)
    · exact Dev.keepsRegs_put eqPhase _ (by decide) (Dev.keepsRegs_put eqTail _ (by decide) fun _ _ => rfl)
    · exact Dev.keepsRegs_put eqTail _ (by decide) fun _ _ => rfl
  have hdrop (d : Dev) : d.KeepsRegs (d.evDrop 1) [eqTail.addr, eqDrop.addr] :=
    Dev.keepsRegs_put eqDrop _ (by decide) fun _ _ => rfl
  have hput (d : Dev) (e : EvRec) : d.KeepsRegs (d.evPut e) [eqTail.addr, eqDrop.addr] := by
    unfold Dev.evPut
    exact .ite (.ite (fun _ _ => rfl) (hdrop d)) (.ite (hwrite d e) (hdrop d))
  exact fun a ha => hput (d.nextEv src code pay).1 _ a ha

theorem cmdValue_lt {cmd : Nat} (h : cmd < 16) (w : BitVec 28) : cmdValue cmd w < 2 ^ 32 := by
  have := w.isLt
  unfold cmdValue
  omega

/-- A command that R509 refuses is counted and shown in an event alone. -/
theorem Dev.command_refused (d : Dev) (cmd : Nat) {w : BitVec 28} (h : cmdRefused w = true) :
    let t := d.command cmd w
    t.get hostCmdRef = min (d.get hostCmdRef + 1) 0xFFFF ∧ t.get hostCmdLast = d.get hostCmdLast ∧ d.KeepsRegsEv t [] ∧
      { t with regs := d.regs, host := d.host, out := d.out } = d := by
  have ht : d.command cmd w = (d.bump hostCmdRef).event srcHost 0x0005 (cmdValue cmd w) := if_pos h
  have hshown := (d.bump hostCmdRef).keepsRegs_event srcHost 0x0005 (cmdValue cmd w)
  have hhost : d.OnlyHost ((d.bump hostCmdRef).event srcHost 0x0005 (cmdValue cmd w)) :=
    (d.onlyHost_put hostCmdRef _ (by decide)).trans (Dev.onlyHost_event _ _ _ _)
  rw [ht]
  refine ⟨?_, ?_, Dev.keepsRegsEv_onlyHost hhost (d.keepsRegsEv_refl _), ?_⟩
  · rw [hshown.get (by decide), Dev.get_bump _ _ (by decide)]
    rfl
  · rw [hshown.get (by decide), Dev.get_bump_ne _ _ _ (.inl (by decide))]
  · obtain ⟨⟨_, _, _, he⟩, -⟩ := hhost
    rw [he]

/-- The device when a command has given its park orders: PARK alone gives any. -/
def Dev.ordered (d : Dev) (cmd : Nat) (w : BitVec 28) : Dev := if cmd = 3 then d.parkOrdered w else d

theorem Dev.ordered_keeps (d : Dev) (cmd : Nat) (w : BitVec 28) :
    (d.ordered cmd w).runs = d.runs ∧ (d.ordered cmd w).cmdSites w = d.cmdSites w := by
  unfold Dev.ordered
  split
  · exact ⟨d.runs_parkOrdered w, d.cmdSites_parkOrdered w w⟩
  · exact ⟨rfl, rfl⟩

/-- A command shows in CMD_LAST; past its park orders and the ends of its RUNs, it changes no standing and no order. -/
theorem Dev.command_shown {d : Dev} {cmd : Nat} {w : BitVec 28} (h : cmdRefused w = false) (hcmd : cmd < 16) :
    (d.command cmd w).get hostCmdLast = cmdValue cmd w ∧
      ((d.ordered cmd w).endRuns (d.cmdSites w) (cmd != 1)).1.KeepsStanding (d.command cmd w) := by
  have hsites := (d.ordered_keeps cmd w).2
  unfold Dev.command
  rw [if_neg (by simp [h])]
  extract_lets tb d1 r hit d2
  have hr : (d.ordered cmd w).endRuns (d.cmdSites w) (cmd != 1) = r := by rw [← hsites]; rfl
  have hcal : r.1.KeepsStanding d2 := .ite (.refl r.1) (r.1.keepsStanding_calStop _ _)
  rw [hr]
  refine ⟨?_, hcal.trans ((d2.keepsStanding_put _ _).trans (Dev.keepsStanding_event _ _ _ _))⟩
  rw [(Dev.keepsRegs_event _ _ _ _).get (by decide), Dev.get_put _ _ _ (by decide)]
  exact Nat.mod_eq_of_lt (cmdValue_lt hcmd w)

/-- What a command does to the RUNs that it touches: each of those that are live and have not ended ends, and the park orders stay as
the command gave them. -/
theorem Dev.command_effect {d : Dev} {cmd : Nat} {w : BitVec 28} (h : cmdRefused w = false) (hcmd : cmd < 16) :
    (d.command cmd w).get hostCmdLast = cmdValue cmd w ∧
    (∀ e, ((d.command cmd w).die e).parkOrd = ((d.ordered cmd w).die e).parkOrd) ∧
    ∀ r, r ∈ d.runs → d.runById r.id = some r → r.live = true → r.aborted = false → r.partialE = false →
      r.sites &&& d.cmdSites w ≠ 0 →
      ∃ r', (d.command cmd w).runById r.id = some r' ∧ r'.aborted = (cmd != 1) ∧ r'.partialE = !(cmd != 1) := by
  obtain ⟨hlast, hkeep⟩ := Dev.command_shown (d := d) h hcmd
  obtain ⟨hord, hends⟩ := (d.ordered cmd w).endRuns_effect (d.cmdSites w) (cmd != 1)
  unfold Dev.KeepsStanding at hkeep
  refine ⟨hlast, fun e => congrFun ((congrArg Prod.snd hkeep).trans hord) e, fun r hr hid hlive haborted hpartial hsites => ?_⟩
  have hruns := (d.ordered_keeps cmd w).1
  have huntouched : (d.ordered cmd w).untouched r.id := by
    have hfound : (d.ordered cmd w).runById r.id = some r := by rw [Dev.runById, hruns]; exact hid
    rw [Dev.untouched, Dev.standing_of_runById hfound, OpenRun.standing, hlive, haborted, hpartial]
  have hended := hends r (hruns ▸ hr) huntouched hlive hsites
  rw [Dev.endedAs, ← hkeep] at hended
  obtain ⟨_, hst, hmark⟩ := Option.map_eq_some_iff.1 hended
  obtain ⟨r', hr', rfl⟩ := Option.map_eq_some_iff.1 hst
  exact ⟨r', hr', (congrArg Prod.fst hmark :), (congrArg Prod.snd hmark :)⟩

/-- Settles O47: no operation that stops the work of one RUN changes the standing of another, or a park order; the RUN that ends keeps
its mark. -/
theorem commandsEndRunsAndParkDies : Obligations.CommandsEndRunsAndParkDies := by
  refine ⟨fun s w href c hc => ?_, fun s w hok => ⟨?_, ?_, ?_⟩⟩
  · simp only [List.mem_cons, List.not_mem_nil, or_false] at hc
    rcases hc with rfl | rfl | rfl
    · exact .of_onDev (fun d => d.command 1 w) rfl rfl (Dev.command_refused s.dev 1 href)
    · exact .of_onDev (fun d => d.command 2 w) rfl rfl (Dev.command_refused s.dev 2 href)
    · exact .of_onDev (fun d => d.command 3 w) rfl rfl (Dev.command_refused s.dev 3 href)
  · obtain ⟨hlast, -, hends⟩ := Dev.command_effect (d := s.dev) (cmd := 1) hok (by decide)
    refine .of_onDev (fun d => d.command 1 w) rfl rfl ⟨hlast, fun r hr hid hlive ha hp hsites => ?_⟩
    obtain ⟨r', hr', haborted, hpartial⟩ := hends r hr hid hlive ha hp hsites
    exact ⟨r', hr', hpartial, haborted⟩
  · obtain ⟨hlast, -, hends⟩ := Dev.command_effect (d := s.dev) (cmd := 2) hok (by decide)
    refine .of_onDev (fun d => d.command 2 w) rfl rfl ⟨hlast, fun r hr hid hlive ha hp hsites => ?_⟩
    obtain ⟨r', hr', haborted, hpartial⟩ := hends r hr hid hlive ha hp hsites
    exact ⟨r', hr', hpartial, haborted⟩
  · obtain ⟨hlast, hord, hends⟩ := Dev.command_effect (d := s.dev) (cmd := 3) hok (by decide)
    refine .of_onDev (fun d => d.command 3 w) rfl rfl ⟨hlast, fun e he => ?_, fun r hr hid hlive ha hp hsites => ?_⟩
    · exact (hord e).trans (s.dev.parkOrd_parkOrdered he)
    · obtain ⟨r', hr', haborted, -⟩ := hends r hr hid hlive ha hp hsites
      exact ⟨r', hr', haborted⟩

end Sys2Proof.Machine
end

section
/-!
PROOFS. The acquisition units: arming, triggers, the end of a record and of its re-arm, and the waits of a step (R270 to R291).
-/

namespace Sys2Proof.Machine

/-! ## An AU changes state -/

theorem Dev.au_setAu_ne (d : Dev) {a i : Nat} (x : Au) (h : i ≠ a) : (d.setAu a x).au i = d.au i := by
  rw [Dev.au_setAu, if_neg (Ne.symm h)]

theorem Dev.keepsRegs_setAu {d t : Dev} {l : List Nat} (a : Nat) (x : Au) (h : d.KeepsRegs t l) : d.KeepsRegs (t.setAu a x) l :=
  fun b hb => h b hb

/-- Nothing but registers and AUs changes. -/
structure Dev.OnlyAus (d e : Dev) : Prop where
  rest : { e with regs := d.regs, aus := d.aus } = d

theorem Dev.onlyAus_put (d : Dev) (f : Fld) (v : Nat) : d.OnlyAus (d.put f v) := ⟨rfl⟩
theorem Dev.onlyAus_setAu (d : Dev) (a : Nat) (x : Au) : d.OnlyAus (d.setAu a x) := ⟨rfl⟩

theorem Dev.OnlyAus.trans {d e f : Dev} (h : d.OnlyAus e) (k : e.OnlyAus f) : d.OnlyAus f :=
  ⟨(congrArg (fun t : Dev => { t with regs := d.regs, aus := d.aus }) k.rest).trans h.rest⟩

theorem Dev.OnlyAus.mclk {d e : Dev} (h : d.OnlyAus e) : e.mclk = d.mclk := (congrArg Dev.mclk h.rest :)

theorem Dev.get_auState_put (d : Dev) (a : Nat) {v : Nat} (hv : v < 8) : (d.put (auState a) v).get (auState a) = v :=
  (d.get_put (auState a) v (by simp [auState])).trans (Nat.mod_eq_of_lt hv)

/-- An AU takes a state and its own contents: every other AU and every other word stay. -/
theorem Dev.auState_taken (d : Dev) (a : Nat) (x : Au) {v : Nat} (hv : v < 8) :
    let t := (d.put (auState a) v).setAu a x
    t.get (auState a) = v ∧ t.au a = x ∧ (∀ i, i ≠ a → t.au i = d.au i) ∧ d.KeepsRegs t [(auState a).addr] :=
  ⟨d.get_auState_put a hv, Dev.au_setAu_same _ a x, fun _ hi => Dev.au_setAu_ne _ x hi,
    Dev.keepsRegs_setAu a x (Dev.keepsRegs_put (auState a) v (by simp) (d.keepsRegs_refl _))⟩

/-- An AU returns to IDLE, its pass count with it. -/
def Dev.auIdled (d : Dev) (a : Nat) (x : Au) : Dev := ((d.put (auState a) 0).put (auPass a) 0).setAu a x

theorem Dev.auIdled_effect (d : Dev) (a : Nat) (x : Au) :
    (d.auIdled a x).get (auState a) = 0 ∧ (d.auIdled a x).au a = x ∧ (∀ i, i ≠ a → (d.auIdled a x).au i = d.au i) ∧
      d.KeepsRegs (d.auIdled a x) [(auState a).addr] := by
  refine ⟨?_, Dev.au_setAu_same _ a x, fun _ hi => Dev.au_setAu_ne _ x hi, Dev.keepsRegs_setAu a x
    (Dev.keepsRegs_put (auPass a) 0 (by simp [auPass, auState]) (Dev.keepsRegs_put (auState a) 0 (by simp) (d.keepsRegs_refl _)))⟩
  exact (Dev.get_put_bits _ (auPass a) (auState a) 0 (by simp [auPass]) (by simp [auPass, auState])).trans
    (d.get_auState_put a (by decide))

/-! ## Readiness (R271, R272) -/

/-- An AU past its arming or re-arm is FULL or waits for a trigger: of its contents only what belongs to the wait is new. -/
theorem Dev.auToReady_effect (d : Dev) (a : Nat) :
    let t := d.auToReady a
    t.get (auState a) = (if d.auFull a && (d.au a).passes == 0 then 4 else 1) ∧
      (∃ ready dead tmuS ev, t.au a = { d.au a with readyAt := ready, dead := dead, tmuS := tmuS, ev := ev }) ∧
      (∀ i, i ≠ a → t.au i = d.au i) ∧ (∀ g : Fld, g.addr ≠ (auState a).addr ∨ 3 ≤ g.lo → t.get g = d.get g) ∧
      d.KeepsRegs t [(auState a).addr] ∧ d.OnlyAus t := by
  have hkeeps (v : Nat) := Dev.keepsRegs_put (auState a) v (List.mem_singleton.2 rfl) (d.keepsRegs_refl _)
  have hother (v : Nat) (g : Fld) (hg : g.addr ≠ (auState a).addr ∨ 3 ≤ g.lo) : (d.put (auState a) v).get g = d.get g :=
    d.get_put_ne _ _ _ (hg.imp Ne.symm fun h => ⟨by simp [auState], .inr (by simpa [auState] using h)⟩)
  unfold Dev.auToReady
  dsimp only
  split
  · exact ⟨d.get_auState_put a (by decide), ⟨_, _, _, _, rfl⟩, fun _ _ => rfl, hother 4, hkeeps 4, d.onlyAus_put _ _⟩
  · exact ⟨d.get_auState_put a (by decide), ⟨_, _, _, _, Dev.au_setAu_same _ a _⟩, fun _ hi => Dev.au_setAu_ne _ _ hi, hother 1,
      Dev.keepsRegs_setAu a _ (hkeeps 1), (d.onlyAus_put _ _).trans (Dev.onlyAus_setAu _ a _)⟩

/-! ## Arming (R270, R276, R280) -/

/-- The device when an accepted arm has cleared the AU's error, counts and pass. -/
def Dev.armCleared (d : Dev) (a : Nat) : Dev :=
  (((d.put (auArmErr a) 0).put (auCntMiss a) 0).put (auCntGap a) 0).put (auPass a) 0

theorem Dev.onlyAus_armCleared (d : Dev) (a : Nat) : d.OnlyAus (d.armCleared a) :=
  (((d.onlyAus_put _ _).trans (Dev.onlyAus_put _ _ _)).trans (Dev.onlyAus_put _ _ _)).trans (Dev.onlyAus_put _ _ _)

theorem Dev.tb_armCleared (d : Dev) (a : Nat) : (d.armCleared a).tb = d.tb := by simp only [Dev.armCleared, Dev.put_tb]

theorem Dev.au_armCleared (d : Dev) (a i : Nat) : (d.armCleared a).au i = d.au i := by
  simp only [Dev.armCleared, Dev.au, Dev.put_aus]

/-- The arm clears what it counts in those three words. -/
theorem Dev.armCleared_effect (d : Dev) (a : Nat) :
    (d.armCleared a).get (auArmErr a) = 0 ∧ (d.armCleared a).get (auCntMiss a) = 0 ∧
      d.KeepsRegs (d.armCleared a) [(auState a).addr, (auCntMiss a).addr, (auCntGap a).addr] := by
  unfold Dev.armCleared
  refine ⟨?_, ?_, ?_⟩
  · rw [Dev.get_put_bits _ _ _ _ (by simp [auPass]) (by simp [auPass, auArmErr]),
      Dev.get_put_addr _ _ _ _ (by simp only [auCntGap, auArmErr]; omega),
      Dev.get_put_addr _ _ _ _ (by simp only [auCntMiss, auArmErr]; omega), Dev.get_put _ _ _ (by simp [auArmErr]), Nat.zero_mod]
  · rw [Dev.get_put_addr _ _ _ _ (by simp only [auPass, auCntMiss]; omega),
      Dev.get_put_addr _ _ _ _ (by simp only [auCntGap, auCntMiss]; omega), Dev.get_put _ _ _ (by simp [auCntMiss]), Nat.zero_mod]
  · exact Dev.keepsRegs_put _ _ (by simp [auPass, auState]) (Dev.keepsRegs_put _ _ (by simp)
      (Dev.keepsRegs_put _ _ (by simp) (Dev.keepsRegs_put _ _ (by simp [auArmErr, auState]) (d.keepsRegs_refl _))))

section
variable {d : Dev} {a : Nat} (hidle : d.get (auState a) = 0) (hquiet : d.auQuiesced a = false)
include hidle hquiet

/-- An arm by register that R280 accepts takes the settled layout, and a comparator or ADC source is ready at once. -/
theorem Dev.auArm_accepted {r : Settled} (harm : d.auArmable a = some r) (hsweep : d.is (auSweep a) = false) :
    ∃ x : Au, d.auArm a = ((d.armCleared a).setAu a x).auToReady a ∧ x.slotsN = r.slotsN ∧ x.pre = r.p ∧ x.post = r.q ∧
      x.armTb = (d.armCleared a).tb ∧ x.passes = 0 ∧ x.holds = ((d.armCleared a).au a).holds := by
  have hplain : (d.armCleared a).is (auSweep a) = false := by
    rw [Dev.KeepsRegs.is (d.armCleared_effect a).2.2 (by simp [auSweep, auState, auCntMiss, auCntGap]), hsweep]
  unfold Dev.auArm Dev.auArmCore
  rw [if_neg (by simp [hidle, hquiet]), harm]
  exact ⟨_, if_neg (ne_true_of_eq_false hplain), rfl, rfl, rfl, rfl, rfl, rfl⟩

theorem Dev.auArm_effect {r : Settled} (harm : d.auArmable a = some r) (hsweep : d.is (auSweep a) = false) :
    let t := d.auArm a
    t.get (auState a) = (if r.slotsN ≤ (d.get (auRecWr a) + 65536 - d.auRelease a) % 65536 then 4 else 1) ∧
      t.get (auArmErr a) = 0 ∧ t.get (auCntMiss a) = 0 ∧ (t.au a).pre = r.p ∧ (t.au a).post = r.q ∧ (t.au a).armTb = d.tb ∧
      (∀ i, i ≠ a → t.au i = d.au i) ∧ d.KeepsRegs t [(auState a).addr, (auCntMiss a).addr, (auCntGap a).addr] ∧
      { t with regs := d.regs, aus := d.aus } = d := by
  obtain ⟨x, heq, hslots, hpre, hpost, htb, hpasses, hholds⟩ := Dev.auArm_accepted hidle hquiet harm hsweep
  obtain ⟨herr, hmiss, hcleared⟩ := d.armCleared_effect a
  obtain ⟨hstate, ⟨_, _, _, _, hau⟩, hothers, hget, hkeeps, halone⟩ := ((d.armCleared a).setAu a x).auToReady_effect a
  rw [Dev.au_setAu_same] at hau hstate
  have hfull : ((d.armCleared a).setAu a x).auFull a =
      decide (r.slotsN ≤ (d.get (auRecWr a) + 65536 - d.auRelease a) % 65536) := by
    have hwr : (d.armCleared a).get (auRecWr a) = d.get (auRecWr a) :=
      hcleared.get (by simp [auRecWr, auState, auCntMiss, auCntGap])
    have hrd : (d.armCleared a).get (auRecRd a) = d.get (auRecRd a) :=
      hcleared.get (by simp [auRecRd, auState, auCntMiss, auCntGap])
    unfold Dev.auFull Dev.auRelease
    rw [Dev.au_setAu_same, Dev.get_setAu, Dev.get_setAu, hslots, hholds, Dev.au_armCleared, hwr, hrd]
  rw [heq]
  refine ⟨?_, ?_, ?_, ?_, ?_, ?_, ?_, ?_, ?_⟩
  · rw [hstate, hfull, hpasses]
    simp
  · exact (hget _ (.inr (by simp [auArmErr]))).trans ((Dev.get_setAu _ a x _).trans herr)
  · exact (hget _ (.inl (by simp [auCntMiss, auState]))).trans ((Dev.get_setAu _ a x _).trans hmiss)
  · rw [hau]; exact hpre
  · rw [hau]; exact hpost
  · rw [hau]; exact htb.trans (d.tb_armCleared a)
  · exact fun i hi => (hothers i hi).trans ((Dev.au_setAu_ne _ x hi).trans (d.au_armCleared a i))
  · exact (Dev.keepsRegs_setAu a x hcleared).trans (hkeeps.mono (by simp))
  · exact (((d.onlyAus_armCleared a).trans (Dev.onlyAus_setAu _ a x)).trans halone).rest

/-- An arm that R280 refuses sets ARM_ERR and raises an event. -/
theorem Dev.auArm_refused (harm : d.auArmable a = none) :
    let t := d.auArm a
    t.get (auState a) = 0 ∧ t.get (auArmErr a) = 1 ∧ t.aus = d.aus ∧ d.KeepsRegsEv t [(auArmErr a).addr] := by
  have heq : d.auArm a = (d.put (auArmErr a) 1).event (srcAu a) 0x0503 ((d.au a).seqNo % 2 ^ 32) := by
    unfold Dev.auArm Dev.auArmCore
    rw [if_neg (by simp [hidle, hquiet]), harm]
  rw [heq]
  refine ⟨?_, ?_, Dev.event_aus _ _ _ _, Dev.keepsRegsEv_event _ _ _ (Dev.keepsRegsEv_put _ _ (by simp) (d.keepsRegsEv_refl _))⟩
  · rw [Dev.get_event _ _ _ _ _ (by simp only [auState]; omega), Dev.get_put_bits _ _ _ _ (by simp [auArmErr])
      (by simp [auArmErr, auState]), hidle]
  · rw [Dev.get_event _ _ _ _ _ (by simp only [auArmErr]; omega), Dev.get_put _ _ _ (by simp [auArmErr])]
    rfl

end

/-! ## Triggers (R281 to R283) -/

/-- A SOFTWARE event waits at an AU that is ready and has none. -/
theorem Dev.auSwtrig_waits {d : Dev} {a : Nat} (hkind : d.get (auKind a) = 9) (hready : d.get (auState a) = 1)
    (hnone : (d.au a).ev = none) : d.auSwtrig a = d.setAu a { d.au a with ev := some (4096 * d.mclk) } := by
  unfold Dev.auSwtrig Dev.auEvent
  rw [if_pos hkind, if_pos hready, hnone]
  rfl

/-- The newest sample of a stream triggers a comparator or ADC source: its own event qualifies, or one that waits lies within the last
sample interval. -/
def Dev.auHit (d : Dev) (a : Nat) (stream : List (List Nat)) (tick : Nat) : Prop :=
  (d.get (auKind a) < 6 ∧ d.auQualifies a (stream.reverse.map fun x => x.getD (d.get (auTch a)) 0) = true) ∨
    (6 ≤ d.get (auKind a) ∧ stream ≠ [] ∧ ∃ t0, (d.au a).ev = some t0 ∧ t0 ≤ tick ∧ tick < t0 + d.auInterval a)

/-- A qualified trigger that its gate lets pass starts the record at its tick, with the samples before it. -/
theorem Dev.auTrigger_starts {d : Dev} {a : Nat} {stream : List (List Nat)} {tick : Nat} (hready : d.get (auState a) = 1)
    (htype : d.get (auType a) ≠ 2) (hgate : d.auGate a tick = true) (hhit : d.auHit a stream tick) :
    ∃ x : Au, d.auTrigger a stream tick = ((d.advanceTo (tick / 4096)).put (auState a) 2).setAu a x ∧ x.trigAt = tick ∧
      x.preS = stream.drop (stream.length - 1 - (d.au a).pre) ∧ x.ev = none := by
  have htmu : (d.get (auType a) == 2) = false := by simpa using htype
  unfold Dev.auTrigger
  simp only [htmu, Bool.false_eq_true, if_false]
  rw [if_neg, if_neg (by simp [hgate]), if_pos hready]
  · exact ⟨_, rfl, rfl, rfl, rfl⟩
  · rcases hhit with ⟨hown, hq⟩ | ⟨hother, hne, t0, hev, hle, hlt⟩
    · simpa [hown] using hq
    · simp [Nat.not_lt.2 hother, hne, hev, hle, hlt, Dev.auEvOpen]

/-! ## A record ends (R270, R273, R277, R286) -/

/-- The words of an AU's block that a record's measurements do not fill: those below AU_MEAS. -/
theorem Dev.word_auMeasSet (d : Dev) {a k b : Nat} (v : Option Int) (hb : b < 0x200070 + 0x1000 * a) :
    (d.auMeasSet a k v).word b = d.word b :=
  (Dev.word_put_ne _ _ _ (by simp only [auMeasHi]; omega)).trans (d.word_put_ne _ _ (by simp only [auMeas]; omega))

/-- The measurements of a record change no AU, and no word below AU_MEAS. -/
theorem Dev.measured_effect (d : Dev) (a : Nat) (v : Nat → Option Int) :
    let t := d.forEach (List.range 4) fun d k => if d.is (auMeasEn a) then d.auMeasSet a k (v k) else d
    t.aus = d.aus ∧ ∀ b, b < 0x200070 + 0x1000 * a → t.word b = d.word b := by
  refine ⟨Dev.forEach_keeps Dev.aus (fun d k _ => ?_) d, fun b hb => Dev.forEach_keeps (fun d => d.word b) (fun d k _ => ?_) d⟩
  · split <;> rfl
  · split
    · exact d.word_auMeasSet _ hb
    · rfl

/-- A record that belongs to no RUN and is not drained counts in AU_REC_WR and in the AU's sequence number, and leaves its state. -/
theorem Dev.auFinalise_effect {d : Dev} {a : Nat} (hrun : (d.au a).run = none) (hdrained : (d.au a).drained = false)
    (ss : List (List Nat)) (pre extra : Nat) :
    let t := d.auFinalise a ss pre extra
    t.get (auState a) = d.get (auState a) ∧ t.get (auRecWr a) = (d.get (auRecWr a) + 1) % 65536 ∧
      (t.au a).seqNo = (d.au a).seqNo + 1 ∧ (t.au a).preS = [] ∧ ∀ i, i ≠ a → t.au i = d.au i := by
  unfold Dev.auFinalise
  extract_lets x _ _ _ _ _ _ _ d1 d2 _ _ _ _ _ _ gap _ _ _ _ _ _ d3 d4 _ _ d5 d6 d7 d8 _ d9 t
  obtain ⟨haus2, hmeas⟩ : d2.aus = d.aus ∧ ∀ b, b < 0x200070 + 0x1000 * a → d2.word b = d.word b := d1.measured_effect a _
  have hwhole : ¬ x.drained = true := ne_true_of_eq_false hdrained
  have hnogap : ¬ 0 < gap := by
    rw [show gap = 0 from if_neg hwhole]
    exact Nat.lt_irrefl 0
  have hstored : d6 = d4 := (if_neg hnogap).trans (if_neg hwhole)
  have hsram : d4.regs = d2.regs ∧ d4.aus = d2.aus := by
    dsimp only [d4]
    split <;> exact ⟨rfl, rfl⟩
  have haus6 : d6.aus = d.aus := by rw [hstored, hsram.2, haus2]
  have hget {g : Fld} (hg : g.addr < 0x200070 + 0x1000 * a) : d6.get g = d.get g := by
    rw [hstored, Dev.get_of_regs hsram.1, Dev.get, hmeas _ hg, Dev.get]
  have hevent : d7.OnlyHost d8 := by
    dsimp only [d8]
    split
    · exact d7.onlyHost_event _ _ _
    · exact .refl d7
  have haus8 : d8.aus = d.aus := by
    obtain ⟨⟨_, _, _, h⟩, -⟩ := hevent
    rw [h]
    exact haus6
  have hend : t = d9 := by
    dsimp only [t, x]
    rw [hrun]
  rw [hend]
  refine ⟨?_, ?_, ?_, ?_, fun i hi => ?_⟩
  · refine (hevent.get _ (.inr (by simp only [auState]; omega))).trans ?_
    rw [Dev.get_put_addr _ _ _ _ (by simp only [auRecWr, auState]; omega), hget (by simp only [auState]; omega)]
  · refine (hevent.get _ (.inr (by simp only [auRecWr]; omega))).trans ?_
    rw [Dev.get_put _ _ _ (by simp [auRecWr]), hget (by simp only [auRecWr]; omega)]
    exact Nat.mod_eq_of_lt (Nat.mod_lt _ (by decide))
  · exact congrArg Au.seqNo (Dev.au_setAu_same _ a _)
  · exact congrArg Au.preS (Dev.au_setAu_same _ a _)
  · rw [Dev.au_setAu_ne _ _ hi, Dev.au, haus8, Dev.au]

/-- The device when the last sample of a record has been taken and the AU is in re-arm. -/
def Dev.recordTaken (d : Dev) (a : Nat) (noConv : Bool) : Dev :=
  let x := d.au a
  let e := d.advanceTo ((x.trigAt + (x.post - 1) * d.auInterval a) / 4096 + 1)
  (e.setAu a { e.au a with noConv := x.noConv || noConv }).put (auState a) 3

section
variable {d : Dev} {a : Nat} {post : List (List Nat)} (noConv : Bool) (hrec : d.get (auState a) = 2) (htype : d.get (auType a) ≠ 2)
  (hsweep : d.is (auSweep a) = false) (hfull : (d.au a).post ≤ post.length + 1)
include hrec htype hsweep hfull

/-- The record of a comparator or ADC source outside the sweep is finalised from the samples before its trigger and those after. -/
theorem Dev.auRecordEnd_finalises : ∃ (ss : List (List Nat)) (pre : Nat) (y : Au),
    d.auRecordEnd a post noConv = ((d.recordTaken a noConv).auFinalise a ss pre 0).setAu a y ∧
      y.seqNo = (((d.recordTaken a noConv).auFinalise a ss pre 0).au a).seqNo ∧
      y.preS = (((d.recordTaken a noConv).auFinalise a ss pre 0).au a).preS := by
  have htmu : (d.get (auType a) == 2) = false := by simpa using htype
  have hdue : ¬ (d.get (auState a) ≠ 2 ∨ post.length + 1 < (d.au a).post) := by omega
  have hplain : (d.recordTaken a noConv).is (auSweep a) = false := by
    rw [← hsweep]
    exact Dev.is_put_ne _ (auState a) (auSweep a) 3 (.inl (by simp [auState, auSweep]))
  unfold Dev.auRecordEnd
  rw [htmu]
  exact ⟨_, _, _, (if_neg hdue).trans (if_neg (ne_true_of_eq_false hplain)), rfl, rfl⟩

/-- Where no RUN waits for it and it is not drained, the record is counted. -/
theorem Dev.auRecordEnd_effect (hrun : (d.au a).run = none) (hdrained : (d.au a).drained = false) :
    let t := d.auRecordEnd a post noConv
    t.get (auState a) = 3 ∧ t.get (auRecWr a) = (d.get (auRecWr a) + 1) % 65536 ∧ (t.au a).seqNo = (d.au a).seqNo + 1 ∧
      (t.au a).preS = [] ∧ ∀ i, i ≠ a → t.au i = d.au i := by
  obtain ⟨ss, pre, y, heq, hseq, hpre⟩ := Dev.auRecordEnd_finalises noConv hrec htype hsweep hfull
  have hau : (d.recordTaken a noConv).au a = { d.au a with noConv := (d.au a).noConv || noConv } := Dev.au_setAu_same _ a _
  have hwr : (d.recordTaken a noConv).get (auRecWr a) = d.get (auRecWr a) :=
    Dev.get_put_addr _ (auState a) (auRecWr a) 3 (by simp [auState, auRecWr])
  obtain ⟨hstate, hcount, hseqNo, hpreS, hothers⟩ := Dev.auFinalise_effect (d := d.recordTaken a noConv) (a := a)
    (by rw [hau]; exact hrun) (by rw [hau]; exact hdrained) ss pre 0
  rw [heq]
  refine ⟨hstate.trans (Dev.get_auState_put _ a (by decide)), hcount.trans (by rw [hwr]), ?_, ?_, fun i hi => ?_⟩
  · rw [Dev.au_setAu_same, hseq, hseqNo, hau]
  · rw [Dev.au_setAu_same, hpre, hpreS]
  · rw [Dev.au_setAu_ne _ y hi, hothers i hi]
    exact Dev.au_setAu_ne (d.advanceTo _) _ hi

end

/-! ## Disarm, re-arm and the sweep's settle time (R276, R277, R279, R291) -/

/-- A ready AU outside the sweep and every RUN is disarmed: nothing is finalised. -/
theorem Dev.auDisarm_ready {d : Dev} {a : Nat} (hready : d.get (auState a) = 1) (hsweep : d.is (auSweep a) = false)
    (hrun : (d.au a).run = none) : ∃ x : Au, d.auDisarm a = (d.setAu a { d.au a with run := none }).auIdled a x ∧ x.ev = none := by
  unfold Dev.auDisarm Dev.auDisarmCore
  rw [if_neg (by simp [hready])]
  simp only [hready, hrun, Dev.is_setAu, hsweep, Nat.reduceEqDiff, Bool.false_eq_true, if_false]
  exact ⟨_, rfl, rfl⟩

theorem Dev.auRearmEnd_effect {d : Dev} {a : Nat} (hrearm : d.get (auState a) = 3) (hrun : (d.au a).run = none) :
    (d.auRearmEnd a).mclk = max d.mclk (d.au a).waitTo ∧
      ((d.au a).left = some 0 → (d.auRearmEnd a).get (auState a) = 0) ∧
      ((d.au a).left ≠ some 0 → (d.auRearmEnd a).get (auState a) = if d.auFull a && (d.au a).passes == 0 then 4 else 1) := by
  unfold Dev.auRearmEnd
  dsimp only
  rw [if_neg (by simp [hrearm])]
  have htime := d.mclk_advanceTo (d.au a).waitTo
  by_cases hleft : (d.au a).left = some 0
  · have hclosed : (((d.advanceTo (d.au a).waitTo).put (auState a) 0).put (auPass a) 0).auOpen a = false := by
      unfold Dev.auOpen
      rw [show ((((d.advanceTo (d.au a).waitTo).put (auState a) 0).put (auPass a) 0).au a).run = none from hrun]
    rw [if_pos hleft, hclosed]
    exact ⟨htime, fun _ => (Dev.auIdled_effect (d.advanceTo (d.au a).waitTo) a _).1, fun h => absurd hleft h⟩
  · obtain ⟨hstate, -, -, -, -, halone⟩ := (d.advanceTo (d.au a).waitTo).auToReady_effect a
    rw [if_neg hleft]
    exact ⟨halone.mclk.trans htime, fun h => absurd h hleft, fun _ => hstate⟩

theorem Dev.auSweepSettleEnd_effect {d : Dev} {a : Nat} (hsettle : d.get (auState a) = 5) :
    (d.auSweepSettleEnd a).mclk = max d.mclk (d.au a).waitTo ∧
      (d.auSweepSettleEnd a).get (auState a) = if d.auFull a && (d.au a).passes == 0 then 4 else 1 := by
  obtain ⟨hstate, -, -, -, -, halone⟩ := (d.advanceTo (d.au a).waitTo).auToReady_effect a
  rw [Dev.auSweepSettleEnd, if_pos hsettle]
  exact ⟨halone.mclk.trans (d.mclk_advanceTo _), hstate⟩

/-! ## Read indexes (R272, R274) -/

theorem Dev.auRecRelease_not_full {d : Dev} {a : Nat} (v : Nat) (h : d.get (auState a) ≠ 4) :
    d.auRecRelease a v = d.put (auRecRd a) (v % 65536) := by
  have hstate : (d.put (auRecRd a) (v % 65536)).get (auState a) = d.get (auState a) :=
    d.get_put_addr _ _ _ (by simp only [auRecRd, auState]; omega)
  exact if_neg fun hfull => h (hstate.symm.trans hfull.1)

theorem Dev.auDrainRead_empty {d : Dev} {a : Nat} (v : Nat) (h : (d.au a).fifo = []) :
    d.auDrainRead a v = d.put (auDrainRd a) (v % 2 ^ 32) := by
  rw [Dev.auDrainRead, h]
  rfl

/-! ## What a reading leaves of the AUs' control words (R245, R276)

A reading may end a PPMU step at its site. The channels then return to their registers, and a waveform that plays again may bring its SEG
trigger to the AUs (R111, R282): a trigger that they miss is counted, and no control word is written. -/

/-- The control word of an AU (R276, R291). -/
def AuCtlWord (b : Nat) : Prop := 0x200000 ≤ b ∧ b < 0x220000 ∧ b % 0x1000 = 0

/-- Every AU keeps its control word. -/
def Dev.KeepsCtl (d e : Dev) : Prop := ∀ b, AuCtlWord b → e.word b = d.word b

theorem Dev.KeepsCtl.refl (d : Dev) : d.KeepsCtl d := fun _ _ => rfl

theorem Dev.KeepsCtl.trans {d e f : Dev} (h : d.KeepsCtl e) (k : e.KeepsCtl f) : d.KeepsCtl f :=
  fun b hb => (k b hb).trans (h b hb)

theorem Dev.KeepsCtl.ite {d e f : Dev} {p : Prop} [Decidable p] (h : d.KeepsCtl e) (k : d.KeepsCtl f) :
    d.KeepsCtl (if p then e else f) := by
  split
  · exact h
  · exact k

theorem Dev.KeepsCtl.foldl {β : Type} {l : List β} {f : Dev → β → Dev} (h : ∀ d, ∀ i ∈ l, Dev.KeepsCtl d (f d i)) (d : Dev) :
    d.KeepsCtl (l.foldl f d) :=
  List.foldlRecOn l f (.refl d) fun d' hd i hi => hd.trans (h d' i hi)

theorem Dev.keepsCtl_of_regs {d e : Dev} (h : e.regs = d.regs) : d.KeepsCtl e := fun _ _ => by rw [Dev.word, h, Dev.word]

theorem Dev.KeepsRegs.ctl {d e : Dev} {l : List Nat} (h : d.KeepsRegs e l) (hl : ∀ a ∈ l, ¬ AuCtlWord a) : d.KeepsCtl e :=
  fun b hb => h b fun hmem => hl b hmem hb

theorem Dev.keepsCtl_put (d : Dev) (f : Fld) (v : Nat) (h : ¬ AuCtlWord f.addr) : d.KeepsCtl (d.put f v) :=
  fun _ hb => d.word_put_ne f v fun e => h (e ▸ hb)

/-- The registers of the edge dies and of the ledger. -/
theorem Dev.keepsCtl_put_high (d : Dev) (f : Fld) (v : Nat) (h : 0x1000000 ≤ f.addr) : d.KeepsCtl (d.put f v) :=
  d.keepsCtl_put f v (by simp only [AuCtlWord]; omega)

theorem Dev.keepsCtl_setChan (d : Dev) (c : Nat) (x : Chan) : d.KeepsCtl (d.setChan c x) := Dev.keepsCtl_of_regs rfl
theorem Dev.keepsCtl_setRun (d : Dev) (r : OpenRun) : d.KeepsCtl (d.setRun r) := Dev.keepsCtl_of_regs rfl
theorem Dev.keepsCtl_st (d : Dev) (a n v : Nat) : d.KeepsCtl (d.st a n v) := Dev.keepsCtl_of_regs rfl
theorem Dev.keepsCtl_led (d : Dev) (x : LedSt) : d.KeepsCtl { d with led := x } := Dev.keepsCtl_of_regs rfl

theorem Dev.keepsCtl_event (d : Dev) (src code pay : Nat) : d.KeepsCtl (d.event src code pay) :=
  fun b hb => d.word_event src code pay b (by simp only [AuCtlWord] at hb; omega)

theorem Dev.keepsCtl_auEvent (d : Dev) (a tick : Nat) : d.KeepsCtl (d.auEvent a tick) := by
  have hset (x : Au) : d.KeepsCtl (d.setAu a x) := Dev.keepsCtl_of_regs rfl
  have hcount (x : Au) : d.KeepsCtl ((d.setAu a x).bump (auCntMiss a)) :=
    (hset x).trans (Dev.keepsCtl_put _ _ _ (by simp only [AuCtlWord, auCntMiss]; omega))
  have hmissed : d.KeepsCtl (d.auMissed a) := .ite (hcount _) ((hcount _).trans (Dev.keepsCtl_event _ _ _ _))
  unfold Dev.auEvent
  exact .ite (.ite (.refl d) (hset _)) (.ite hmissed (.refl d))

theorem Dev.keepsCtl_auEvents (d : Dev) (kind idx : Nat) (rise : Option Bool) (tick : Nat) :
    d.KeepsCtl (d.auEvents kind idx rise tick) := by
  unfold Dev.auEvents
  exact Dev.KeepsCtl.foldl (fun d a _ => .ite (d.keepsCtl_auEvent a tick) (.refl d)) d

theorem Dev.keepsCtl_wfStop (d : Dev) (c : Nat) : d.KeepsCtl (d.wfStop c) :=
  (d.keepsCtl_put_high (ppmuWfRun c) 0 (by simp only [ppmuWfRun]; omega)).trans (Dev.keepsCtl_setChan _ c _)

theorem Dev.keepsCtl_wfRange (d : Dev) (c seg : Nat) : d.KeepsCtl (d.wfRange c seg) :=
  ((((d.keepsCtl_wfStop c).trans (Dev.keepsCtl_put_high _ (ppmuWfEn c) _ (by simp only [ppmuWfEn]; omega))).trans
    (Dev.keepsCtl_put_high _ (ppmuFaultF c) _ (by simp only [ppmuFaultF]; omega))).trans (Dev.keepsCtl_setChan _ c _)).trans
    (Dev.keepsCtl_event _ _ _ _)

section
variable (d : Dev) {c : Nat} (hc : c < 256)
include hc

theorem Dev.keepsCtl_reconvert (k : Nat) : d.KeepsCtl (d.reconvert c k) := by
  refine (d.keepsRegs_reconvert c k).ctl fun a ha => ?_
  simp only [calClipped, peIdeal, peHold, List.mem_cons, List.not_mem_nil, or_false] at ha
  simp only [AuCtlWord]
  omega

theorem Dev.keepsCtl_wfPut (code : Nat) : d.KeepsCtl (d.wfPut c code) := by
  refine (d.keepsRegs_wfPut c code).ctl fun a ha => ?_
  simp only [calClipped, peIdeal, peHold, List.mem_cons, List.not_mem_nil, or_false] at ha
  simp only [AuCtlWord]
  omega

theorem Dev.keepsCtl_wfPlay (seg left : Nat) : d.KeepsCtl (d.wfPlay c seg left) := by
  have hshow (x : Chan) (code : Nat) : d.KeepsCtl ((((d.put (ppmuWfRun c) 1).put (ppmuWfSeg c) seg).setChan c x).wfPut c code) :=
    (((d.keepsCtl_put_high _ _ (by simp only [ppmuWfRun]; omega)).trans
      (Dev.keepsCtl_put_high _ (ppmuWfSeg c) _ (by simp only [ppmuWfSeg]; omega))).trans (Dev.keepsCtl_setChan _ c x)).trans
      (Dev.keepsCtl_wfPut _ hc code)
  unfold Dev.wfPlay
  exact .ite (d.keepsCtl_wfRange c seg) (.ite ((hshow _ _).trans (Dev.keepsCtl_auEvents _ _ _ _ _)) (hshow _ _))

theorem Dev.keepsCtl_syncForce : d.KeepsCtl (d.syncForce c) := by
  have hput := d.keepsCtl_put_high (ppmuForceNow c) (d.wantForce c) (by simp only [ppmuForceNow]; omega)
  have hnote (e : Dev) : e.KeepsCtl (e.noteFv c) := Dev.keepsCtl_of_regs (congrArg Dev.regs (e.noteFv_alone c) :)
  unfold Dev.syncForce
  refine Dev.KeepsCtl.trans (hput.trans (.ite (p := d.wantForce c = 1) (hnote _) (.refl _))) (.ite ?_ ?_)
  · exact .ite (Dev.keepsCtl_wfStop _ c) (.refl _)
  · exact .ite ((Dev.keepsCtl_wfStop _ c).trans (Dev.keepsCtl_wfPlay _ hc _ _)) (.refl _)

theorem Dev.keepsCtl_ppmuReturn : d.KeepsCtl (d.ppmuReturn c) := by
  unfold Dev.ppmuReturn
  exact (((Dev.KeepsCtl.ite (d.keepsCtl_wfStop c) (.refl d)).trans (Dev.keepsCtl_setChan _ c _)).trans
    (Dev.keepsCtl_syncForce _ hc)).trans
    ((Dev.keepsCtl_put_high _ (ppmuCompl c) 0 (by simp only [ppmuCompl]; omega)).trans (Dev.keepsCtl_reconvert _ hc 10))

end

theorem Dev.keepsCtl_ppmuSiteDone (d : Dev) (st : StepData) (s : Nat) : d.KeepsCtl (d.ppmuSiteDone st s) := by
  have hheld : d.KeepsCtl (d.forEach [0, 1, 2, 3] fun d e => d.put (pedHeld e) (d.get (pedHeld e) - d.siteClaim st s e)) :=
    .foldl (fun d e _ => d.keepsCtl_put_high _ _ (by simp only [pedHeld]; omega)) d
  have hback (d : Dev) : d.KeepsCtl (d.forEach (d.stepChans st s) fun d c => d.ppmuReturn c) :=
    .foldl (fun d _ hc => d.keepsCtl_ppmuReturn (Dev.lt_of_mem_siteChans (List.mem_filter.1 hc).1)) d
  exact (hheld.trans (hback _)).trans (Dev.keepsCtl_of_regs rfl)

theorem Dev.keepsCtl_writeEnt (d : Dev) (id : Nat) (e : Ent) : d.KeepsCtl (d.writeEnt id e) := by
  unfold Dev.writeEnt
  split
  · exact .refl d
  · exact (((d.keepsCtl_st _ _ _).trans (Dev.keepsCtl_put_high _ _ _ (by simp only [ledWr]; omega))).trans
      (Dev.keepsCtl_led _ _)).trans (Dev.keepsCtl_setRun _ _)

theorem Dev.keepsCtl_flushSite (d : Dev) (id s : Nat) : d.KeepsCtl (d.flushSite id s) := by
  have hwrite (due : List Res) (es : Res → List Ent) :
      d.KeepsCtl (due.foldl (fun d x => (es x).foldl (fun d e => d.writeEnt id e) d) d) :=
    .foldl (fun d _ _ => .foldl (fun d e _ => d.keepsCtl_writeEnt id e) d) d
  unfold Dev.flushSite
  split
  · exact .refl d
  · split
    · exact .refl d
    · refine .ite (Dev.KeepsCtl.trans ?_ (Dev.keepsCtl_ppmuSiteDone _ _ s)) ?_
      all_goals
        split
        · exact (hwrite _ _).trans (Dev.keepsCtl_setRun _ _)
        · exact hwrite _ _

theorem Dev.keepsCtl_putReading (d : Dev) (id s j : Nat) (x : Reading) : d.KeepsCtl (d.putReading id s j x) := by
  unfold Dev.putReading
  split
  · exact .refl d
  · split
    · exact .refl d
    · exact (d.keepsCtl_setRun _).trans (Dev.keepsCtl_flushSite _ id s)

/-! ## The wait of an ACQ step ends (R290) -/

/-- The device when the wait of a step has ended without a trigger and the AU's open results of the site have failed. -/
def Dev.waitOver (d : Dev) (a at_ id site : Nat) (r : OpenRun) : Dev :=
  (d.advanceTo at_).forEach (((r.siteRes site).filter fun y => y.unit / 4 == a && y.fin.isNone).map fun y => y.j) fun e j =>
    e.putReading id site j { value := 0, code := rFailLo, flags := 0, startTb := (d.au a).armTb, endTb := e.tb }

theorem Dev.keepsCtl_waitOver (d : Dev) (a at_ id site : Nat) (r : OpenRun) : d.KeepsCtl (d.waitOver a at_ id site r) :=
  Dev.KeepsCtl.trans (e := d.advanceTo at_) (Dev.keepsCtl_of_regs rfl)
    (.foldl (fun e _ _ => e.keepsCtl_putReading _ _ _ _) (d.advanceTo at_))

/-- A ready AU outside the sweep whose results are done then returns to IDLE and leaves the RUN. -/
theorem Dev.acqWaitExpiry_idles {d : Dev} {a at_ id site : Nat} {r : OpenRun} (ha : a < 32) (hwait : (d.au a).waitEnd = some at_)
    (hrun : (d.au a).run = some id) (hsite : d.auSite a = some site) (hid : d.runById id = some r)
    (hready : d.get (auState a) = 1) (hsweep : d.is (auSweep a) = false) (hdone : (d.waitOver a at_ id site r).auOpen a = false) :
    ∃ x : Au, d.acqWaitExpiry a = (d.waitOver a at_ id site r).auIdled a x ∧ x.run = none ∧ x.waitEnd = none := by
  have hplain : (d.waitOver a at_ id site r).is (auSweep a) = false := by
    rw [← hsweep, Dev.is, Dev.get, d.keepsCtl_waitOver a at_ id site r _ (by simp only [AuCtlWord, auSweep]; omega), Dev.is, Dev.get]
  have hnow : (d.advanceTo at_).runById id = some r := hid
  unfold Dev.waitOver at hdone hplain ⊢
  unfold Dev.acqWaitExpiry
  simp only [hwait, hrun, hsite, hready, hnow, hdone, hplain, true_or, if_true, Bool.false_eq_true, if_false]
  exact ⟨_, rfl, rfl, rfl⟩

/-! ## The statement -/

/-- Settles O26: each command is one branch of its function. No reading of a step writes an AU's control word, so that the end of the
wait does not meet a sweep that was not there before. -/
theorem acquisitionUnitsArmTriggerAndRecord : Obligations.AcquisitionUnitsArmTriggerAndRecord := by
  refine ⟨⟨?_, ?_, ?_, ?_⟩, ?_, ?_, ?_, ?_, ?_, ?_, ?_⟩
  · intro s a r haw hidle hquiet harm hsweep
    exact .of_onDev (fun d => d.orHold (0x200008 + 0x1000 * a) 1 fun d => d.auArm a) rfl (if_pos haw)
      (Dev.auArm_effect hidle hquiet harm hsweep)
  · intro s a haw hidle hquiet hrefused
    exact .of_onDev (fun d => d.orHold (0x200008 + 0x1000 * a) 1 fun d => d.auArm a) rfl (if_pos haw)
      (Dev.auArm_refused hidle hquiet hrefused)
  · intro s a haw hkind hready hnone _
    refine .of_onDev (fun d => d.orHold (0x20000C + 0x1000 * a) 1 fun d => d.auSwtrig a) rfl
      ((if_pos haw).trans (Dev.auSwtrig_waits hkind hready hnone)) ⟨?_, fun i hi => Dev.au_setAu_ne _ _ hi, rfl⟩
    rw [Dev.au_setAu_same]
  · intro s a stream tick hready htype hgate hhit
    obtain ⟨x, heq, htrig, hpre, hev⟩ := Dev.auTrigger_starts hready htype hgate hhit
    obtain ⟨hstate, hau, hothers, hkeeps⟩ := (s.dev.advanceTo (tick / 4096)).auState_taken a x (v := 2) (by decide)
    refine .of_onDev (fun d => d.auTrigger a stream tick) rfl heq ⟨hstate, ?_, ?_, ?_, s.dev.mclk_advanceTo _, hothers, hkeeps⟩
    · rw [hau, htrig]
    · rw [hau, hpre]
    · rw [hau, hev]
  · intro s a post noConv hrec htype hsweep hrun hdrained hfull
    exact .of_onDevIdle (fun d => d.auRecordEnd a post noConv) rfl rfl
      (Dev.auRecordEnd_effect noConv hrec htype hsweep hfull hrun hdrained)
  · intro s a haw hready hsweep hrun
    obtain ⟨x, heq, hev⟩ := Dev.auDisarm_ready hready hsweep hrun
    obtain ⟨hstate, hau, hothers, hkeeps⟩ := (s.dev.setAu a { s.dev.au a with run := none }).auIdled_effect a x
    exact .of_onDevIdle (fun d => d.orHold (0x200008 + 0x1000 * a) 2 fun d => d.auDisarm a) rfl ((if_pos haw).trans heq)
      ⟨hstate, by rw [hau, hev], fun i hi => (hothers i hi).trans (Dev.au_setAu_ne _ _ hi), rfl, hkeeps⟩
  · intro s a hrearm hrun
    exact .of_onDevIdle (fun d => d.auRearmEnd a) rfl rfl (Dev.auRearmEnd_effect hrearm hrun)
  · intro s a hsettle
    exact .of_onDev (fun d => d.auSweepSettleEnd a) rfl rfl (Dev.auSweepSettleEnd_effect hsettle)
  · intro s a at_ id site r hwait hrun hsite hid hready hsweep late d hdone
    obtain ⟨x, heq, hleft, hnowait⟩ := Dev.acqWaitExpiry_idles a.2 hwait hrun hsite hid hready hsweep hdone
    obtain ⟨hstate, hau, -, hkeeps⟩ := (s.dev.waitOver a at_ id site r).auIdled_effect a x
    exact .of_onDevIdle (fun d => d.acqWaitExpiry a) rfl heq
      ⟨hstate, by rw [hau, hleft], by rw [hau, hnowait], rfl, rfl, rfl, hkeeps⟩
  · intro s a v hstate
    refine .of_onDev (fun d => d.auRecRelease a v.toNat) rfl (Dev.auRecRelease_not_full _ hstate)
      ⟨?_, Dev.keepsRegs_put _ _ (by simp) (s.dev.keepsRegs_refl _), rfl⟩
    rw [Dev.get_put _ _ _ (by simp [auRecRd])]
    exact Nat.mod_eq_of_lt (Nat.mod_lt _ (by decide))
  · intro s a v hempty
    refine .of_onDev (fun d => d.auDrainRead a v.toNat) rfl (Dev.auDrainRead_empty _ hempty)
      ⟨?_, Dev.keepsRegs_put _ _ (by simp) (s.dev.keepsRegs_refl _), rfl⟩
    rw [Dev.get_put _ _ _ (by simp [auDrainRd])]
    exact (Nat.mod_mod _ _).trans (Nat.mod_eq_of_lt v.isLt)

end Sys2Proof.Machine
end

section
/-!
PROOFS. The time-measurement units: arming, calibration, samples, time-outs and the end of an arming (R303 to R310).
-/

namespace Sys2Proof.Machine

variable (d : Dev) (u : Nat)

/-! ## A TMU takes its contents -/

theorem Dev.tmu_setTmu_ne {u i : Nat} (x : Tmu) (h : i ≠ u) : (d.setTmu u x).tmu i = d.tmu i := by
  rw [Dev.tmu_setTmu, if_neg (Ne.symm h)]

theorem Dev.tmu_of_tmus {d e : Dev} (h : e.tmus = d.tmus) (i : Nat) : e.tmu i = d.tmu i := by rw [Dev.tmu, h, Dev.tmu]

theorem Dev.OnlyHost.tmus_mclk {d e : Dev} (h : d.OnlyHost e) : e.tmus = d.tmus ∧ e.mclk = d.mclk := by
  obtain ⟨⟨_, _, _, rfl⟩, -⟩ := h
  exact ⟨rfl, rfl⟩

/-- The sample time-out is the one thing that its timer sets (R309). -/
theorem Dev.tmuTimer_effect :
    (d.tmuTimer u).regs = d.regs ∧ ∃ e : Option Nat, (d.tmuTimer u).tmu u = { d.tmu u with toEnd := e } :=
  ⟨rfl, _, Dev.tmu_setTmu_same d u _⟩

/-- A state takes the lowest two bits of TMU_STATUS. -/
theorem Dev.get_tmuState_put {v : Nat} (hv : v < 4) : (d.put (tmuState u) v).get (tmuState u) = v :=
  (d.get_put (tmuState u) v (by simp [tmuState])).trans (Nat.mod_eq_of_lt hv)

theorem Dev.keepsRegs_tmuReg (lo hi : Fld) (v : Int) (valid unref : Bool) :
    d.KeepsRegs (d.tmuReg lo hi v valid unref) [lo.addr, hi.addr] :=
  Dev.keepsRegs_put hi _ (by simp) (Dev.keepsRegs_put lo _ (by simp) (d.keepsRegs_refl _))

/-! ## Arming (R304) -/

/-- The device when an accepted arm has set CALIBRATING and cleared the TMU's flags and its count. -/
def Dev.tmuCleared : Dev := (((d.put (tmuState u) 1).put (tmuCalErr u) 0).put (tmuUnref u) 0).put (tmuStatCnt u) 0

theorem Dev.tmuCleared_effect :
    (d.tmuCleared u).get (tmuState u) = 1 ∧ (d.tmuCleared u).get (tmuCalErr u) = 0 ∧ (d.tmuCleared u).get (tmuStatCnt u) = 0 ∧
      d.KeepsRegs (d.tmuCleared u) [(tmuState u).addr, (tmuStatCnt u).addr] := by
  have hcount (e : Dev) (g : Fld) (hg : g.addr = 0x300004 + 0x400 * u) : (e.put (tmuStatCnt u) 0).get g = e.get g :=
    e.get_put_addr _ _ _ (by simp only [tmuStatCnt]; omega)
  have hunref (e : Dev) (g : Fld) (hg : g.lo + g.w ≤ 2 ∨ 3 ≤ g.lo) : (e.put (tmuUnref u) 0).get g = e.get g :=
    e.get_put_bits _ _ _ (by simp [tmuUnref]) hg
  unfold Dev.tmuCleared
  refine ⟨?_, ?_, ?_, ?_⟩
  · rw [hcount _ _ rfl, hunref _ _ (.inl (by simp [tmuState])),
      Dev.get_put_bits _ _ _ _ (by simp [tmuCalErr]) (.inl (by simp [tmuState, tmuCalErr])), d.get_tmuState_put u (by decide)]
  · rw [hcount _ _ rfl, hunref _ _ (.inr (by simp [tmuCalErr])), Dev.get_put _ _ _ (by simp [tmuCalErr]), Nat.zero_mod]
  · rw [Dev.get_put _ _ _ (by simp [tmuStatCnt]), Nat.zero_mod]
  · exact Dev.keepsRegs_put _ _ (by simp) (Dev.keepsRegs_put _ _ (by simp [tmuUnref, tmuState])
      (Dev.keepsRegs_put _ _ (by simp [tmuCalErr, tmuState]) (Dev.keepsRegs_put _ _ (by simp) (d.keepsRegs_refl _))))

theorem Dev.tmuCleared_tmu (i : Nat) : (d.tmuCleared u).tmu i = d.tmu i :=
  Dev.tmu_of_tmus (by simp only [Dev.tmuCleared, Dev.put_tmus]) i

theorem Dev.tmuCleared_alone : { d.tmuCleared u with regs := d.regs } = d := by
  have hcount (e : Dev) : { e.put (tmuStatCnt u) 0 with regs := d.regs } = { e with regs := d.regs } := rfl
  exact (hcount _).trans (d.puts_alone _ _ _ _ _ _)

/-- A change of registers alone and then of one TMU's contents leaves everything else. -/
theorem Dev.setTmu_alone {d e : Dev} (h : { e with regs := d.regs } = d) (x : Tmu) :
    { e.setTmu u x with regs := d.regs, tmus := d.tmus } = d :=
  congrArg (fun t : Dev => { t with tmus := d.tmus }) h

/-- An idle TMU whose inputs lie in no quiesced sector takes the fresh contents of an arming. -/
theorem Dev.tmuArm_accepted {d : Dev} {u : Nat} (hidle : d.get (tmuState u) = 0)
    (hstart : d.quiesced (sectorOf (d.tmuInputs u).1.1) = false) (hstop : d.quiesced (sectorOf (d.tmuInputs u).2.1) = false) :
    ∃ x : Tmu, d.tmuArm u = (d.tmuCleared u).setTmu u x ∧ x.armTb = d.tb ∧ x.sum = 0 := by
  unfold Dev.tmuArm Dev.tmuArmCore
  rw [if_neg (by simp [hidle, hstart, hstop])]
  exact ⟨_, rfl, rfl, rfl⟩

theorem Dev.tmuArm_effect {d : Dev} {u : Nat} (hidle : d.get (tmuState u) = 0)
    (hstart : d.quiesced (sectorOf (d.tmuInputs u).1.1) = false) (hstop : d.quiesced (sectorOf (d.tmuInputs u).2.1) = false) :
    let t := d.tmuArm u
    t.get (tmuState u) = 1 ∧ t.get (tmuCalErr u) = 0 ∧ t.get (tmuStatCnt u) = 0 ∧ (t.tmu u).armTb = d.tb ∧ (t.tmu u).sum = 0 ∧
      (∀ i, i ≠ u → t.tmu i = d.tmu i) ∧ d.KeepsRegs t [(tmuState u).addr, (tmuStatCnt u).addr] ∧
      { t with regs := d.regs, tmus := d.tmus } = d := by
  obtain ⟨x, heq, htb, hsum⟩ := Dev.tmuArm_accepted hidle hstart hstop
  obtain ⟨hstate, herr, hcount, hkeeps⟩ := d.tmuCleared_effect u
  rw [heq]
  refine ⟨hstate, herr, hcount, ?_, ?_, fun i hi => ?_, ?_, Dev.setTmu_alone u (d.tmuCleared_alone u) x⟩
  · rw [Dev.tmu_setTmu_same, htb]
  · rw [Dev.tmu_setTmu_same, hsum]
  · rw [Dev.tmu_setTmu_ne _ x hi, d.tmuCleared_tmu u i]
  · exact Dev.keepsRegs_of_regs (Dev.setTmu_regs _ u x) hkeeps

/-! ## The end of an arming (R309, R310) -/

section
variable {d : Dev} {u : Nat} (hrun : (d.tmu u).run = none)
include hrun

theorem Dev.tmuResults_no_run (why : TmuEnd) (stats : List Int) (unref : Bool) : d.tmuResults u why stats unref = d := by
  unfold Dev.tmuResults
  dsimp only
  rw [hrun]

theorem Dev.tmuOpen_no_run : d.tmuOpen u = false := by
  unfold Dev.tmuOpen
  rw [hrun]

end

/-- The device when the statistics of an arming are shown (R310). -/
def Dev.tmuStatsShown (stats : List Int) (valid unref : Bool) : Dev :=
  d.forEach [0, 1, 2, 3] fun d k => d.tmuReg (tmuStat u k) (tmuStatHi u k) (stats.getD k 0) valid unref

/-- The statistics stand in eight words from TMU_MEAN on. -/
theorem Dev.tmuStatsShown_effect (stats : List Int) (valid unref : Bool) :
    (d.tmuStatsShown u stats valid unref).tmus = d.tmus ∧ (d.tmuStatsShown u stats valid unref).mclk = d.mclk ∧
      ∀ b, b < 0x300030 + 0x400 * u → (d.tmuStatsShown u stats valid unref).word b = d.word b := by
  refine ⟨Dev.forEach_keeps Dev.tmus ?_ d, Dev.forEach_keeps Dev.mclk ?_ d, fun b hb => Dev.forEach_keeps (fun d => d.word b) ?_ d⟩
  · exact fun _ _ _ => rfl
  · exact fun _ _ _ => rfl
  · refine fun d k _ => d.keepsRegs_tmuReg _ _ _ _ _ b ?_
    simp only [tmuStat, tmuStatHi, List.mem_cons, List.not_mem_nil, or_false]
    omega

/-- The end of an arming outside every RUN: TMU_DONE may be raised, and no further arming follows. -/
theorem Dev.tmuFinish_no_run {d : Dev} {u : Nat} (hrun : (d.tmu u).run = none) (why : TmuEnd) :
    ∃ (stats : List Int) (valid unref : Bool) (e : Dev) (x : Tmu),
      ((d.put (tmuState u) 0).tmuStatsShown u stats valid unref).OnlyHost e ∧ d.tmuFinish u why = e.setTmu u x ∧ x.toEnd = none := by
  have hkept (stats : List Int) (valid unref : Bool) :
      (((d.put (tmuState u) 0).tmuStatsShown u stats valid unref).tmu u).run = none := by
    rw [Dev.tmu_of_tmus (Dev.tmuStatsShown_effect _ u stats valid unref).1]
    exact hrun
  unfold Dev.tmuFinish
  extract_lets x n unref stats d1 d2 d3 d4
  have hresults : d3 = d2 := Dev.tmuResults_no_run (hkept _ _ _) _ _ _
  have hevent : d2.OnlyHost d4 := by
    dsimp only [d4]
    rw [hresults]
    split
    · exact d2.onlyHost_event _ _ _
    · exact .refl d2
  have hclosed : d4.tmuOpen u = false := Dev.tmuOpen_no_run (by rw [Dev.tmu_of_tmus hevent.tmus_mclk.1]; exact hkept _ _ _)
  exact ⟨stats, _, _, d4, _, hevent, if_neg (ne_true_of_eq_false hclosed), rfl⟩

/-- An arming that belongs to no RUN ends in IDLE, with no time-out running. In the words of the TMU before its statistics nothing
else changes. -/
theorem Dev.tmuFinish_effect {d : Dev} {u : Nat} (hrun : (d.tmu u).run = none) (why : TmuEnd) :
    let t := d.tmuFinish u why
    t.get (tmuState u) = 0 ∧ (t.tmu u).toEnd = none ∧ (∀ i, i ≠ u → t.tmu i = d.tmu i) ∧ t.mclk = d.mclk ∧
      ∀ g : Fld, 0x300000 ≤ g.addr → g.addr < 0x300030 + 0x400 * u → (tmuState u).addr ≠ g.addr ∨ 2 ≤ g.lo → t.get g = d.get g := by
  obtain ⟨stats, valid, unref, e, x, hevent, heq, hnone⟩ := Dev.tmuFinish_no_run hrun why
  obtain ⟨htmus, hmclk, hwords⟩ := (d.put (tmuState u) 0).tmuStatsShown_effect u stats valid unref
  obtain ⟨htmusE, hmclkE⟩ := hevent.tmus_mclk
  have hget (g : Fld) (hlo : 0x300000 ≤ g.addr) (hhi : g.addr < 0x300030 + 0x400 * u) :
      (e.setTmu u x).get g = (d.put (tmuState u) 0).get g := by
    rw [Dev.get_setTmu, hevent.get g (.inr (by omega)), Dev.get, hwords _ hhi, Dev.get]
  rw [heq]
  refine ⟨?_, ?_, fun i hi => ?_, hmclkE.trans hmclk, fun g hlo hhi hg => ?_⟩
  · rw [hget _ (by simp only [tmuState]; omega) (by simp only [tmuState]; omega), d.get_tmuState_put u (by decide)]
  · rw [Dev.tmu_setTmu_same, hnone]
  · exact (e.tmu_setTmu_ne x hi).trans (Dev.tmu_of_tmus (htmusE.trans htmus) i)
  · rw [hget g hlo hhi, d.get_put_ne _ _ _ (hg.imp_right fun h => ⟨by simp [tmuState], .inr (by simpa [tmuState] using h)⟩)]

/-- A disarm of a busy TMU outside every RUN idles it and keeps its count. -/
theorem Dev.tmuDisarm_effect {d : Dev} {u : Nat} (hbusy : d.get (tmuState u) ≠ 0) (hrun : (d.tmu u).run = none) :
    let t := d.tmuDisarm u
    t.get (tmuState u) = 0 ∧ t.get (tmuStatCnt u) = d.get (tmuStatCnt u) ∧ (t.tmu u).toEnd = none ∧
      ∀ i, i ≠ u → t.tmu i = d.tmu i := by
  have heq : d.tmuDisarm u = d.tmuFinish u .cut := if_neg hbusy
  obtain ⟨hstate, hto, hothers, -, hget⟩ := Dev.tmuFinish_effect hrun .cut
  rw [heq]
  refine ⟨hstate, hget _ ?_ ?_ (.inl ?_), hto, hothers⟩ <;> simp only [tmuState, tmuStatCnt] <;> omega

/-! ## Calibration (R304 to R306) -/

/-- The device when the gain errors of a calibration are shown, where both readings tell a gain. -/
def Dev.tmuGainsShown (s1 s2 p1 p2 : Nat) : Dev :=
  if s2 = s1 ∨ p2 = p1 then d.nextFree
  else (d.nextFree.put (tmuGerrStart u) (gainErr (calGain s1 s2).1 (Config.measureUp d.nextFree.freeCtr))).put (tmuGerrStop u)
    (gainErr (calGain p1 p2).1 (Config.measureUp d.nextFree.freeCtr))

theorem Dev.tmuGainsShown_effect (s1 s2 p1 p2 : Nat) :
    (d.tmuGainsShown u s1 s2 p1 p2).tmus = d.tmus ∧ d.KeepsRegs (d.tmuGainsShown u s1 s2 p1 p2) [(tmuGerrStart u).addr] := by
  have hnext : d.KeepsRegs d.nextFree [(tmuGerrStart u).addr] := fun _ _ => rfl
  unfold Dev.tmuGainsShown
  split
  · exact ⟨rfl, hnext⟩
  · exact ⟨rfl, Dev.keepsRegs_put _ _ (by simp [tmuGerrStop, tmuGerrStart]) (Dev.keepsRegs_put _ _ (by simp) hnext)⟩

/-- The device when both pairs of readings were good: the TMU waits for events, with the gains and offsets that they tell. -/
def Dev.tmuCalibrated (s1 s2 p1 p2 : Nat) : Dev :=
  ((d.tmuGainsShown u s1 s2 p1 p2).put (tmuState u) 2).setTmu u
    { d.tmu u with
      fails := 0, gS := (calGain s1 s2).1, oS := (calGain s1 s2).2, gP := (calGain p1 p2).1, oP := (calGain p1 p2).2 }

/-- The device when a calibration has failed for good, before its arming ends. -/
def Dev.tmuCalLost (s1 s2 p1 p2 : Nat) : Dev :=
  (((d.tmuGainsShown u s1 s2 p1 p2).put (tmuStatCnt u) 0).put (tmuCalErr u) 1).event (srcTmu u) 0x0601 0

section
variable {d : Dev} {u s1 s2 p1 p2 : Nat} (hcal : d.get (tmuState u) = 1)
include hcal

/-- Two good pairs of readings arm the TMU with their gains. -/
theorem Dev.tmuCalDone_passes (hs : calFails s1 s2 = false) (hp : calFails p1 p2 = false) :
    let t := d.tmuCalDone u s1 s2 p1 p2
    t.get (tmuState u) = 2 ∧ (t.tmu u).fails = 0 ∧ ((t.tmu u).gS, (t.tmu u).oS) = calGain s1 s2 ∧
      ((t.tmu u).gP, (t.tmu u).oP) = calGain p1 p2 := by
  have heq : d.tmuCalDone u s1 s2 p1 p2 =
      if (d.tmu u).toEnd.isNone then (d.tmuCalibrated u s1 s2 p1 p2).tmuTimer u else d.tmuCalibrated u s1 s2 p1 p2 := by
    unfold Dev.tmuCalDone
    rw [if_neg (by simp [hcal])]
    exact if_neg (by simp [hs, hp])
  have hstate : (d.tmuCalibrated u s1 s2 p1 p2).get (tmuState u) = 2 := Dev.get_tmuState_put _ u (by decide)
  have htmu : (d.tmuCalibrated u s1 s2 p1 p2).tmu u = _ := Dev.tmu_setTmu_same _ u _
  rw [heq]
  dsimp only
  split
  · obtain ⟨hregs, e, hto⟩ := (d.tmuCalibrated u s1 s2 p1 p2).tmuTimer_effect u
    rw [Dev.get_of_regs hregs, hto, htmu]
    exact ⟨hstate, rfl, rfl, rfl⟩
  · rw [htmu]
    exact ⟨hstate, rfl, rfl, rfl⟩

/-- A first failure leaves the TMU calibrating; it tries once more. -/
theorem Dev.tmuCalDone_retries (hbad : (calFails s1 s2 || calFails p1 p2) = true) (hfirst : (d.tmu u).fails = 0) :
    (d.tmuCalDone u s1 s2 p1 p2).get (tmuState u) = 1 ∧ ((d.tmuCalDone u s1 s2 p1 p2).tmu u).fails = 1 := by
  have heq : d.tmuCalDone u s1 s2 p1 p2 = (d.tmuGainsShown u s1 s2 p1 p2).setTmu u
      { d.tmu u with fails := 1, dirty := (d.tmuGainsShown u s1 s2 p1 p2).unreferenced } := by
    unfold Dev.tmuCalDone
    rw [if_neg (by simp [hcal])]
    exact (if_pos hbad).trans (if_pos hfirst)
  rw [heq, Dev.tmu_setTmu_same]
  exact ⟨((d.tmuGainsShown_effect u s1 s2 p1 p2).2.get (by simp [tmuState, tmuGerrStart])).trans hcal, rfl⟩

/-- A further failure ends an arming outside every RUN with CAL_ERR. -/
theorem Dev.tmuCalDone_fails (hbad : (calFails s1 s2 || calFails p1 p2) = true) (hfurther : (d.tmu u).fails ≠ 0)
    (hrun : (d.tmu u).run = none) :
    (d.tmuCalDone u s1 s2 p1 p2).get (tmuState u) = 0 ∧ (d.tmuCalDone u s1 s2 p1 p2).get (tmuCalErr u) = 1 := by
  have heq : d.tmuCalDone u s1 s2 p1 p2 = (d.tmuCalLost u s1 s2 p1 p2).tmuFinish u .calFail := by
    unfold Dev.tmuCalDone
    rw [if_neg (by simp [hcal])]
    exact (if_pos hbad).trans (if_neg hfurther)
  have htmus : (d.tmuCalLost u s1 s2 p1 p2).tmus = d.tmus := (Dev.event_tmus _ _ _ _).trans (d.tmuGainsShown_effect u s1 s2 p1 p2).1
  have herr : (d.tmuCalLost u s1 s2 p1 p2).get (tmuCalErr u) = 1 := by
    rw [Dev.tmuCalLost, Dev.get_event _ _ _ _ _ (.inr (by simp only [tmuCalErr]; omega)), Dev.get_put _ _ _ (by simp [tmuCalErr])]
    rfl
  obtain ⟨hstate, -, -, -, hget⟩ := Dev.tmuFinish_effect (by rw [Dev.tmu_of_tmus htmus, hrun]) .calFail
  rw [heq]
  exact ⟨hstate, (hget _ (by simp only [tmuCalErr]; omega) (by simp only [tmuCalErr]; omega) (.inr (by simp [tmuCalErr]))).trans herr⟩

end

/-! ## Samples (R303, R307) -/

/-- A sample that AUs take in changes neither a register nor a TMU (R311). -/
theorem Dev.tmuFeed_keeps (v : Int) (unref : Bool) : (d.tmuFeed u v unref).regs = d.regs ∧ (d.tmuFeed u v unref).tmus = d.tmus := by
  refine ⟨Dev.forEach_keeps Dev.regs (fun e a _ => ?_) d, Dev.forEach_keeps Dev.tmus (fun e a _ => ?_) d⟩
  · split <;> rfl
  · split <;> rfl

/-- The value of a sample, from the three events as the gains of the calibration and the path delays correct them; an open value
where the manual states none. -/
def Dev.tmuSampleValue (start stop next : Vernier) (edges : Nat) : Int :=
  let x := d.tmu u
  let o := Config.openValue d.freeCtr u
  fit40 ((tmuValue (d.get (tmuMode u)) (max 1 (d.get (tmuEdges u))) edges (eventTime start x.gS x.oS x.pathS)
    (eventTime stop x.gP x.oP x.pathP) (eventTime next x.gS x.oS x.pathS)).getD o) o

/-- The contents of a TMU with one more sample, the `n`th of its arming. -/
def Tmu.withSample (x : Tmu) (n : Nat) (v : Int) : Tmu :=
  { x with
    sum := x.sum + v, sumSq := x.sumSq + v * v, minV := if n = 1 then v else min x.minV v, maxV := if n = 1 then v else max x.maxV v }

/-- The device when a sample has taken its open value and, without a reference, has set UNREF (R312). -/
def Dev.tmuNoted (unref : Bool) : Dev := if unref then d.nextFree.put (tmuUnref u) 1 else d.nextFree

theorem Dev.tmuNoted_effect (unref : Bool) :
    (d.tmuNoted u unref).get (tmuState u) = d.get (tmuState u) ∧ d.KeepsRegs (d.tmuNoted u unref) [(tmuState u).addr] := by
  have hnext : d.KeepsRegs d.nextFree [(tmuState u).addr] := fun _ _ => rfl
  unfold Dev.tmuNoted
  split
  · exact ⟨Dev.get_put_bits _ _ _ _ (by simp [tmuUnref]) (.inl (by simp [tmuState, tmuUnref])),
      Dev.keepsRegs_put _ _ (by simp [tmuUnref, tmuState]) hnext⟩
  · exact ⟨rfl, hnext⟩

/-- The device when a sample is counted and shown, before the AUs that it feeds take it in. -/
def Dev.tmuSampleShown (v : Int) (unref : Bool) : Dev :=
  (((d.tmuNoted u unref).put (tmuStatCnt u) (d.get (tmuStatCnt u) + 1)).tmuReg (tmuLast u) (tmuLastHi u) v true unref).setTmu u
    ((d.tmu u).withSample (d.get (tmuStatCnt u) + 1) v)

/-- Only the count, TMU_LAST and, beside the state, TMU_STATUS are written. -/
theorem Dev.tmuSampleShown_effect (v : Int) (unref : Bool) :
    let t := d.tmuSampleShown u v unref
    t.get (tmuState u) = d.get (tmuState u) ∧ t.get (tmuStatCnt u) = (d.get (tmuStatCnt u) + 1) % 2 ^ 25 ∧
      t.get (tmuLast u) = ofSigned 40 v % 2 ^ 32 ∧
      d.KeepsRegs t [(tmuState u).addr, (tmuStatCnt u).addr, (tmuLast u).addr, (tmuLastHi u).addr] := by
  obtain ⟨hstate, hnoted⟩ := d.tmuNoted_effect u unref
  unfold Dev.tmuSampleShown
  dsimp only
  have hlast (e : Dev) := e.keepsRegs_tmuReg (tmuLast u) (tmuLastHi u) v true unref
  refine ⟨?_, ?_, ?_, ?_⟩
  · rw [Dev.get_setTmu, (hlast _).get (by simp only [tmuState, tmuLast, tmuLastHi, List.mem_cons, List.not_mem_nil, or_false]; omega),
      Dev.get_put_addr _ _ _ _ (by simp only [tmuStatCnt, tmuState]; omega), hstate]
  · rw [Dev.get_setTmu, (hlast _).get (by simp only [tmuStatCnt, tmuLast, tmuLastHi, List.mem_cons, List.not_mem_nil, or_false]; omega),
      Dev.get_put _ _ _ (by simp [tmuStatCnt])]
    rfl
  · rw [Dev.get_setTmu, Dev.tmuReg, Dev.get_put_addr _ (tmuLastHi u) _ _ (by simp [tmuLast, tmuLastHi]),
      Dev.get_put _ _ _ (by simp [tmuLast])]
    exact Nat.mod_mod _ _
  · exact Dev.keepsRegs_of_regs (Dev.setTmu_regs _ u _)
      ((Dev.keepsRegs_put _ _ (by simp) (hnoted.mono (by simp))).trans ((hlast _).mono (by simp)))

/-- A sample that is shown and fed changes no control word. -/
theorem Dev.tmuFeed_shown_get (v : Int) (unref : Bool) {g : Fld} (hg : g.addr = (tmuNM1 u).addr ∨ g.addr = (tmuIcal u).addr) :
    ((d.tmuSampleShown u v unref).tmuFeed u v unref).get g = d.get g := by
  obtain ⟨-, -, -, hshown⟩ := d.tmuSampleShown_effect u v unref
  rw [Dev.get_of_regs (Dev.tmuFeed_keeps _ u v unref).1, hshown.get]
  simp only [tmuNM1, tmuIcal] at hg
  simp only [tmuState, tmuStatCnt, tmuLast, tmuLastHi, List.mem_cons, List.not_mem_nil, or_false]
  omega

/-- A sample short of the last, at a TMU that does not calibrate again, is counted and shown, the AUs take it in, and the time-out
starts anew. -/
theorem Dev.tmuSample_more {d : Dev} {u : Nat} (start stop next : Vernier) (edges : Nat) (harmed : d.get (tmuState u) = 2)
    (hmore : d.get (tmuStatCnt u) < d.get (tmuNM1 u)) (hplain : d.is (tmuIcal u) = false) :
    ∃ unref : Bool, d.tmuSample u start stop next edges =
      ((d.tmuSampleShown u (d.tmuSampleValue u start stop next edges) unref).tmuFeed u
        (d.tmuSampleValue u start stop next edges) unref).tmuTimer u := by
  have hshort (v : Int) (unref : Bool) :
      d.get (tmuStatCnt u) + 1 ≠ ((d.tmuSampleShown u v unref).tmuFeed u v unref).get (tmuNM1 u) + 1 := by
    rw [d.tmuFeed_shown_get u v unref (.inl rfl)]
    omega
  have hnocal (v : Int) (unref : Bool) : ¬ (((d.tmuSampleShown u v unref).tmuFeed u v unref).tmuTimer u).is (tmuIcal u) = true := by
    rw [Dev.is, Dev.get_of_regs (Dev.tmuTimer_effect _ u).1, d.tmuFeed_shown_get u v unref (.inr rfl), ← Dev.is, hplain]
    decide
  unfold Dev.tmuSample
  rw [if_neg (by simp [harmed])]
  exact ⟨(d.tmu u).dirty || d.unreferenced, (if_neg (hshort _ _)).trans (if_neg (hnocal _ _))⟩

/-- Such a sample enters the count, the sum and TMU_LAST. -/
theorem Dev.tmuSample_effect {d : Dev} {u : Nat} (start stop next : Vernier) (edges : Nat) (harmed : d.get (tmuState u) = 2)
    (hmore : d.get (tmuStatCnt u) < d.get (tmuNM1 u)) (hplain : d.is (tmuIcal u) = false) :
    let t := d.tmuSample u start stop next edges
    let v := d.tmuSampleValue u start stop next edges
    t.get (tmuState u) = 2 ∧ t.get (tmuStatCnt u) = d.get (tmuStatCnt u) + 1 ∧ (t.tmu u).sum = (d.tmu u).sum + v ∧
      t.get (tmuLast u) = ofSigned 40 v % 2 ^ 32 := by
  obtain ⟨unref, heq⟩ := Dev.tmuSample_more start stop next edges harmed hmore hplain
  rw [heq]
  generalize d.tmuSampleValue u start stop next edges = v
  obtain ⟨hstate, hcount, hlast, -⟩ := d.tmuSampleShown_effect u v unref
  obtain ⟨hfed, hfedTmus⟩ := (d.tmuSampleShown u v unref).tmuFeed_keeps u v unref
  obtain ⟨htimed, e, hto⟩ := ((d.tmuSampleShown u v unref).tmuFeed u v unref).tmuTimer_effect u
  have hregs := htimed.trans hfed
  have hroom : d.get (tmuStatCnt u) + 1 < 2 ^ 25 := by
    have hlt : d.get (tmuNM1 u) < 2 ^ 24 := d.get_lt (tmuNM1 u)
    omega
  dsimp only
  refine ⟨?_, ?_, ?_, ?_⟩
  · rw [Dev.get_of_regs hregs, hstate, harmed]
  · rw [Dev.get_of_regs hregs, hcount, Nat.mod_eq_of_lt hroom]
  · rw [hto, Dev.tmu_of_tmus hfedTmus, Dev.tmuSampleShown, Dev.tmu_setTmu_same]
    rfl
  · rw [Dev.get_of_regs hregs, hlast]

/-! ## Time-outs (R309) -/

/-- A time-out of an arming outside every RUN carries the time to its end, is counted and ends the arming. -/
theorem Dev.tmuTimeoutRow_effect {d : Dev} {u at_ : Nat} (hto : (d.tmu u).toEnd = some at_) (hbusy : d.get (tmuState u) ≠ 0)
    (hrun : (d.tmu u).run = none) :
    let t := d.tmuTimeoutRow u
    t.get (tmuState u) = 0 ∧ t.mclk = max d.mclk at_ ∧ t.get (tmuCntTo u) = min (d.get (tmuCntTo u) + 1) 0xFFFF := by
  obtain ⟨e, htmus, hmclk, hcount, heq⟩ : ∃ e : Dev, e.tmus = d.tmus ∧ e.mclk = max d.mclk at_ ∧
      e.get (tmuCntTo u) = min (d.get (tmuCntTo u) + 1) 0xFFFF ∧ d.tmuTimeoutRow u = e.tmuFinish u .timeout := by
    refine ⟨((d.advanceTo at_).bump (tmuCntTo u)).event (srcTmu u) 0x0602 ((d.advanceTo at_).get (tmuStatCnt u)), ?_, ?_, ?_, ?_⟩
    · exact Dev.event_tmus _ _ _ _
    · exact (Dev.event_mclk _ _ _ _).trans (d.mclk_advanceTo at_)
    · exact (Dev.get_event _ _ _ _ _ (.inr (by simp only [tmuCntTo]; omega))).trans (Dev.get_bump _ _ (by simp [tmuCntTo]))
    · rw [Dev.tmuTimeoutRow, hto]
      exact if_neg hbusy
  obtain ⟨hstate, -, -, hclock, hget⟩ := Dev.tmuFinish_effect (by rw [Dev.tmu_of_tmus htmus, hrun]) .timeout
  rw [heq]
  refine ⟨hstate, hclock.trans hmclk, ?_⟩
  rw [hget _ (by simp only [tmuCntTo]; omega) (by simp only [tmuCntTo]; omega) (.inl (by simp only [tmuState, tmuCntTo]; omega)), hcount]

/-! ## The statement -/

/-- Settles O27: each command is one branch of its function. An arming outside every RUN ends once and for all, and what it shows then
stands past the words that count. -/
theorem timeMeasurementUnitsCalibrateAndSample : Obligations.TimeMeasurementUnitsCalibrateAndSample := by
  refine ⟨?_, ?_, ?_, ?_, ?_, ?_⟩
  · intro s u haw hidle hstart hstop
    exact .of_onDev (fun d => d.orHold (0x300008 + 0x400 * u) 1 fun d => d.tmuArm u) rfl (if_pos haw)
      (Dev.tmuArm_effect hidle hstart hstop)
  · intro s u haw hbusy hrun
    exact .of_onDevIdle (fun d => d.orHold (0x300008 + 0x400 * u) 2 fun d => d.tmuDisarm u) rfl (if_pos haw)
      (Dev.tmuDisarm_effect hbusy hrun)
  · intro s u s1 s2 p1 p2 hcal hs hp
    exact .of_onDevIdle (fun d => d.tmuCalDone u s1 s2 p1 p2) rfl rfl (Dev.tmuCalDone_passes hcal hs hp)
  · intro s u s1 s2 p1 p2 hcal hbad hrun
    refine .of_onDevIdle (fun d => d.tmuCalDone u s1 s2 p1 p2) rfl rfl ?_
    split
    next hfirst => exact Dev.tmuCalDone_retries hcal hbad hfirst
    next hfurther => exact Dev.tmuCalDone_fails hcal hbad hfurther hrun
  · intro s u start stop next edges harmed hmore hplain
    exact .of_onDevIdle (fun d => d.tmuSample u start stop next edges) rfl rfl
      (Dev.tmuSample_effect start stop next edges harmed hmore hplain)
  · intro s u at_ hto hbusy hrun
    exact .of_onDevIdle (fun d => d.tmuTimeoutRow u) rfl rfl (Dev.tmuTimeoutRow_effect hto hbusy hrun)

end Sys2Proof.Machine
end

section
/-!
PROOFS. Signed results of the DSP engines: what a pattern stands for, and what saturation and wrap keep of it (R342 to R344).
-/

namespace Sys2Proof.Machine

/-! ## Patterns and the numbers they stand for -/

/-- A pattern is its number modulo 2^w. -/
theorem ofSigned_cast (w : Nat) (x : Int) : (ofSigned w x : Int) = x % 2 ^ w :=
  Int.toNat_of_nonneg (Int.emod_nonneg x (by positivity))

/-- A pattern of `w` bits stands for a number of the signed range. -/
theorem toSigned_mem {w : Nat} (hw : 0 < w) (n : Nat) : -2 ^ (w - 1) ≤ toSigned w n ∧ toSigned w n < 2 ^ (w - 1) := by
  have hpow : (2 : Nat) ^ w = 2 * 2 ^ (w - 1) := (mul_pow_sub_one hw.ne' 2).symm
  have hlt : n % 2 ^ w < 2 ^ w := Nat.mod_lt _ (Nat.two_pow_pos w)
  unfold toSigned
  zify at hpow hlt ⊢
  split <;> omega

/-- A number of the signed range is read back from its pattern. -/
theorem toSigned_ofSigned {w : Nat} (hw : 0 < w) {x : Int} (hlo : -2 ^ (w - 1) ≤ x) (hhi : x < 2 ^ (w - 1)) :
    toSigned w (ofSigned w x) = x := by
  have hpow : (2 : Int) ^ w = 2 * 2 ^ (w - 1) := (mul_pow_sub_one hw.ne' 2).symm
  have hcast := ofSigned_cast w x
  unfold toSigned
  rw [Nat.mod_eq_of_lt (ofSigned_lt w x)]
  zify
  rw [hcast]
  rcases lt_or_ge x 0 with hneg | hpos
  · rw [← Int.add_emod_right, Int.emod_eq_of_lt (by omega) (by omega), if_neg (by omega)]
    omega
  · rw [Int.emod_eq_of_lt hpos (by omega), if_pos hhi]

/-- The sign is the highest bit. -/
theorem testBit_sign {w : Nat} (hw : 0 < w) (n : Nat) : decide (toSigned w n < 0) = n.testBit (w - 1) := by
  have hpow : (2 : Nat) ^ w = 2 * 2 ^ (w - 1) := (mul_pow_sub_one hw.ne' 2).symm
  have hlt : n % 2 ^ w < 2 ^ w := Nat.mod_lt _ (Nat.two_pow_pos w)
  have hbit : (n % 2 ^ w).testBit (w - 1) = n.testBit (w - 1) := by
    rw [Nat.testBit_mod_two_pow, decide_eq_true (by omega), Bool.true_and]
  rw [← hbit]
  unfold toSigned
  dsimp only
  split
  next hlow =>
    rw [Nat.testBit_lt_two_pow hlow, decide_eq_false (by omega)]
  next hhigh =>
    rw [Nat.testBit_of_two_pow_le_and_two_pow_add_one_gt (by omega) (by rwa [Nat.sub_add_cancel hw])]
    zify at hlt
    exact decide_eq_true (by zify; omega)

/-! ## A result brought into its range -/

/-- A result in its range is stored as it is, with no mark. -/
theorem fit_of_mem {w : Nat} {x : Int} (s : Bool) (hlo : -2 ^ (w - 1) ≤ x) (hhi : x < 2 ^ (w - 1)) :
    fit w s x = { bits := ofSigned w x, sat := false, wrap := false } := if_pos ⟨hlo, hhi⟩

/-- A result above its range. -/
theorem fit_of_ge {w : Nat} {x : Int} (s : Bool) (h : 2 ^ (w - 1) ≤ x) : fit w s x =
    if s then { bits := 2 ^ (w - 1) - 1, sat := true, wrap := false } else { bits := ofSigned w x, sat := false, wrap := true } := by
  have hpos : (0 : Int) < 2 ^ (w - 1) := by positivity
  unfold fit
  rw [if_neg (by omega), if_neg (show ¬ x < 0 by omega)]

/-- A result below its range. -/
theorem fit_of_lt {w : Nat} {x : Int} (s : Bool) (h : x < -2 ^ (w - 1)) : fit w s x =
    if s then { bits := 2 ^ (w - 1), sat := true, wrap := false } else { bits := ofSigned w x, sat := false, wrap := true } := by
  have hpos : (0 : Int) < 2 ^ (w - 1) := by positivity
  unfold fit
  rw [if_neg (by omega), if_pos (show x < 0 by omega)]

/-- The lowest pattern of the signed range. -/
theorem toSigned_lowest {w : Nat} (hw : 0 < w) : toSigned w (2 ^ (w - 1)) = -2 ^ (w - 1) := by
  have hpow : (2 : Nat) ^ w = 2 * 2 ^ (w - 1) := (mul_pow_sub_one hw.ne' 2).symm
  have hpos := Nat.two_pow_pos (w - 1)
  unfold toSigned
  rw [Nat.mod_eq_of_lt (by omega)]
  zify at hpow ⊢
  rw [if_neg (lt_irrefl _)]
  omega

/-- The highest pattern of the signed range. -/
theorem toSigned_highest {w : Nat} (hw : 0 < w) : toSigned w (2 ^ (w - 1) - 1) = 2 ^ (w - 1) - 1 := by
  have hpow : (2 : Nat) ^ w = 2 * 2 ^ (w - 1) := (mul_pow_sub_one hw.ne' 2).symm
  have hpos := Nat.two_pow_pos (w - 1)
  unfold toSigned
  rw [Nat.mod_eq_of_lt (by omega)]
  exact (if_pos (by omega)).trans (by push_cast [Nat.one_le_two_pow]; rfl)

/-- Settles O34: below, in and above the range. -/
theorem resultsSaturateOrWrap : Obligations.ResultsSaturateOrWrap := by
  intro n x hn
  have hcast := ofSigned_cast n x
  have hpos : (0 : Int) < 2 ^ (n - 1) := by positivity
  rcases lt_or_ge x (-2 ^ (n - 1)) with hlow | hlo
  · rw [fit_of_lt true hlow, fit_of_lt false hlow]
    exact ⟨(toSigned_lowest hn).trans (by omega), hcast, rfl, rfl, by simp [hlow], by simp [hlow]⟩
  rcases lt_or_ge x (2 ^ (n - 1)) with hhi | hhigh
  · rw [fit_of_mem true hlo hhi, fit_of_mem false hlo hhi]
    exact ⟨(toSigned_ofSigned hn hlo hhi).trans (by omega), hcast, rfl, rfl, by simp [hlo, hhi], by simp [hlo, hhi]⟩
  · rw [fit_of_ge true hhigh, fit_of_ge false hhigh]
    exact ⟨(toSigned_highest hn).trans (by omega), hcast, rfl, rfl, by simp [hhigh], by simp [hhigh]⟩

end Sys2Proof.Machine
end

section
/-!
PROOFS. One instruction of a DSP engine that completes: its register file, its stores, the flags of ST and the program counter, said
once for every opcode (R357 to R363).
-/

namespace Sys2Proof.Machine

/-! ## The register file -/

theorem rGet_set (rf : Tab Nat) (c r v : Nat) : rGet (Tab.set (fun _ => 0) rf c v) r = if c = r then v else rGet rf r :=
  Tab.get_set _ _ _ _ _

theorem rGet_set_same (rf : Tab Nat) (c v : Nat) : rGet (Tab.set (fun _ => 0) rf c v) c = v := Tab.get_set_same _ _ _ _

theorem rGet_set_ne (rf : Tab Nat) {c r : Nat} (v : Nat) (h : c ≠ r) : rGet (Tab.set (fun _ => 0) rf c v) r = rGet rf r :=
  Tab.get_set_ne _ _ _ h

theorem rGet_rWrites_of_not_mem {rf : Tab Nat} {wr : List (Nat × Nat)} {r : Nat} (h : r ∉ wr.map Prod.fst) :
    rGet (rWrites rf wr) r = rGet rf r := by
  induction wr generalizing rf with
  | nil => rfl
  | cons p wr ih =>
    rw [List.map_cons, List.mem_cons, not_or] at h
    exact (ih h.2).trans (rGet_set_ne rf _ (Ne.symm h.1))

/-- Writes to different registers: each holds what was written to it, and every other what it held. -/
theorem rGet_rWrites {rf : Tab Nat} {wr : List (Nat × Nat)} (hnd : (wr.map Prod.fst).Nodup) (r : Nat) :
    rGet (rWrites rf wr) r = ((wr.find? fun p => p.1 == r).map fun p => p.2).getD (rGet rf r) := by
  induction wr generalizing rf with
  | nil => rfl
  | cons p wr ih =>
    rw [List.map_cons, List.nodup_cons] at hnd
    rw [List.find?_cons]
    split
    next heq =>
      obtain rfl := eq_of_beq heq
      exact (rGet_rWrites_of_not_mem hnd.1).trans (rGet_set_same rf _ _)
    next hne =>
      have hpr : p.1 ≠ r := by simpa using hne
      exact (ih hnd.2).trans (by rw [rGet_set_ne rf _ hpr])

/-! ## The moves of an instruction (R346, R355, R357) -/

/-- What the loads of an instruction bring; the addresses come from the registers at its start, `rf`. -/
def Dev.loadsDone (d : Dev) (e : Nat) (j : Job) (rf : Tab Nat) (ms : List Nat) (regs : Tab Nat) : Tab Nat :=
  (ms.map fun m => (m, d.moveRead e j (moveAddr rf m))).foldl (fun t p => if isLoad p.1 then loadInto t p.1 p.2.1 else t) regs

/-- A move of an instruction fell outside its view (R331). -/
def Dev.viewMissed (d : Dev) (e : Nat) (j : Job) (rf : Tab Nat) (ms : List Nat) : Bool :=
  (ms.map fun m => (m, d.moveRead e j (moveAddr rf m))).any fun p =>
    if isLoad p.1 then p.2.2 else (match placeOf (moveAddr rf p.1) with
      | .elem _ _ => true
      | _ => false)

/-- The pointers that an instruction moves on, where its operation does not write them. -/
def pointersMoved (o : OpOut) (rf : Tab Nat) (ms : List Nat) (regs : Tab Nat) : Tab Nat :=
  ms.foldl (fun t m =>
    let c := 0x18 + mPtr m
    if mPm m = 0 ∨ o.wr.any (fun p => p.1 == c) = true then t else Tab.set (fun _ => 0) t c (postMod rf m)) regs

/-- The stores of an instruction. -/
def Dev.storesDone (d : Dev) (e : Nat) (rf : Tab Nat) (ms : List Nat) : Dev :=
  ms.foldl (fun d m =>
    if isLoad m then d
    else match placeOf (moveAddr rf m) with
      | .loc i => d.setLocal e i (if mMop m = 5 then rGet rf 0x38 else rGet rf (mReg m))
      | _ => d) d

theorem rGet_loadsDone_of_unloaded (d : Dev) (e : Nat) (j : Job) (rf : Tab Nat) {ms : List Nat} {r : Nat} (regs : Tab Nat)
    (h : ∀ m ∈ ms, isLoad m = true → mReg m ≠ r) : rGet (d.loadsDone e j rf ms regs) r = rGet regs r := by
  unfold Dev.loadsDone
  induction ms generalizing regs with
  | nil => rfl
  | cons m ms ih =>
    rw [List.map_cons, List.foldl_cons, ih _ fun n hn => h n (.tail _ hn)]
    split
    next hload => exact rGet_set_ne regs _ (h m (.head _) hload)
    next => rfl

theorem rGet_pointersMoved_of_unmoved (o : OpOut) (rf : Tab Nat) {ms : List Nat} {r : Nat} (regs : Tab Nat)
    (h : ∀ m ∈ ms, mPm m ≠ 0 → 0x18 + mPtr m ≠ r) : rGet (pointersMoved o rf ms regs) r = rGet regs r := by
  unfold pointersMoved
  induction ms generalizing regs with
  | nil => rfl
  | cons m ms ih =>
    rw [List.foldl_cons, ih _ fun n hn => h n (.tail _ hn)]
    dsimp only
    split
    next => rfl
    next hmoved => exact rGet_set_ne regs _ (h m (.head _) fun h0 => hmoved (.inl h0))

/-- Stores change the SRAM alone. -/
theorem Dev.storesDone_alone (d : Dev) (e : Nat) (rf : Tab Nat) (ms : List Nat) :
    ∃ r, d.storesDone e rf ms = { d with sram := r } ∧ (ms.all isLoad = true → r = d.sram) := by
  unfold Dev.storesDone
  induction ms generalizing d with
  | nil => exact ⟨d.sram, rfl, fun _ => rfl⟩
  | cons m ms ih =>
    rw [List.foldl_cons, List.all_cons]
    cases hload : isLoad m with
    | true =>
      rw [if_pos rfl, Bool.true_and]
      exact ih d
    | false =>
      rw [if_neg (by decide), Bool.false_and]
      split
      all_goals
        obtain ⟨r, hr, -⟩ := ih _
        exact ⟨r, hr, fun h => by cases h⟩

/-! ## An engine that is ready -/

/-- What `dspReady` says of an engine, part by part; `j` is its job. -/
structure Dev.DspReady (d : Dev) (e w : Nat) (j : Job) : Prop where
  job : (d.dse e).job = some j
  inCode : (d.dse e).pc < (d.dse e).code
  word : d.ld (dseInstr e (d.dse e).pc) 8 = w
  encoding : encodingOk w = true
  repeatable : (iOpc w == 0x04 && decide ((d.dse e).pc + 1 < (d.dse e).code) &&
    inRange 1 4 (iOpc (d.ld (dseInstr e ((d.dse e).pc + 1)) 8))) = false
  places : ∀ m ∈ movesOf w, placeOf (moveAddr (d.dse e).rf m) ≠ .out
  limit : (d.dse e).limit = 0 ∨ (d.dse e).cycles + 322 ≤ (d.dse e).limit

theorem Dev.exists_dspReady {d : Dev} {e w : Nat} (h : d.dspReady e w = true) : ∃ j, d.DspReady e w j := by
  simp only [Dev.dspReady, Bool.and_eq_true, Bool.or_eq_true, Bool.not_eq_true', decide_eq_true_eq, beq_iff_eq, List.all_eq_true,
    bne_iff_ne, Option.isSome_iff_exists] at h
  obtain ⟨⟨⟨⟨⟨⟨⟨j, hjob⟩, hpc⟩, hword⟩, henc⟩, hrep⟩, hplaces⟩, hlimit⟩ := h
  exact ⟨j, hjob, hpc, hword, henc, hrep, hplaces, hlimit⟩

/-- An opcode of a word that is no reserved encoding is listed. -/
theorem opFields_of_encodingOk {w : Nat} (h : encodingOk w = true) : (opFields (iOpc w)).isNone = false := by
  unfold encodingOk at h
  dsimp only at h
  split at h
  · cases h
  next heq => rw [heq]; rfl

/-- Each view read stalls for at most 160 cycles (R327). -/
theorem viewStalls_le (free : Nat) (as_ : List Nat) (last : List (Nat × Nat)) : (viewStalls free as_ last).1 ≤ 160 * as_.length := by
  induction as_ generalizing free last with
  | nil => exact Nat.zero_le _
  | cons a as_ ih =>
    unfold viewStalls
    rw [List.length_cons]
    split
    · rename_i k i _
      have hrest := ih (free + 1) ((k, i) :: last.filter fun p => p.1 != k)
      have hstall : Config.viewStall free % 161 < 161 := Nat.mod_lt _ (by decide)
      dsimp only
      split <;> omega
    · have hrest := ih free last
      omega

theorem length_movesOf_le (w : Nat) : (movesOf w).length ≤ 2 := by
  unfold movesOf
  split
  · decide
  · exact List.length_filter_le _ _

/-- The stalls of an instruction's view reads, and the view elements read last. -/
def Dev.dspStalls (d : Dev) (e w : Nat) : Nat × List (Nat × Nat) :=
  viewStalls d.freeCtr (((movesOf w).filter isLoad).map (moveAddr (d.dse e).rf)) (d.dse e).lastV

/-- The cycles of an instruction (R359). -/
def Dev.dspCycles (d : Dev) (e w : Nat) : Nat := 1 + (branches w (d.dse e).rf).toNat + (d.dspStalls e w).1

/-- An instruction takes at most 322 cycles. -/
theorem Dev.dspCycles_le (d : Dev) (e w : Nat) : d.dspCycles e w ≤ 322 := by
  have hstalls : (d.dspStalls e w).1 ≤ 320 := by
    refine (viewStalls_le _ _ _).trans ?_
    rw [List.length_map]
    have := (List.length_filter_le isLoad (movesOf w)).trans (length_movesOf_le w)
    omega
  have hbranch := Bool.toNat_le (branches w (d.dse e).rf)
  unfold Dev.dspCycles
  omega

/-- The registers after an instruction: the operation's writes, what its loads bring, its pointers, and ST. -/
def Dev.dspRegs (d : Dev) (e : Nat) (j : Job) (w : Nat) : Tab Nat :=
  let rf := (d.dse e).rf
  let o := dspOp w rf
  Tab.set (fun _ => 0) (pointersMoved o rf (movesOf w) (d.loadsDone e j rf (movesOf w) (rWrites rf o.wr))) 0x39
    (newSt (rGet rf 0x39) o (d.viewMissed e j rf (movesOf w)))

/-- The device with the open values of an instruction's stalls taken (R327). -/
def Dev.stallsTaken (d : Dev) : Dev := { d with freeCtr := d.freeCtr + 2 }

theorem Dev.dse_stallsTaken (d : Dev) (i : Nat) : d.stallsTaken.dse i = d.dse i := rfl

/-- The device after an instruction: its stores, its cycles, and the engine. -/
def Dev.dspDone (d : Dev) (e : Nat) (j : Job) (w : Nat) : Dev :=
  let t := d.stallsTaken.storesDone e (d.dse e).rf (movesOf w)
  (t.addCycles e (d.dspCycles e w)).setDse e
    { t.dse e with rf := d.stallsTaken.dspRegs e j w, pc := (nextPc (d.dse e) w).1, rep := (nextPc (d.dse e) w).2,
                   cycles := (d.dse e).cycles + d.dspCycles e w, lastV := (d.dspStalls e w).2 }

/-- An instruction of a ready engine completes; HALT then ends the job. -/
theorem Dev.DspReady.dspInstr {d : Dev} {e w : Nat} {j : Job} (h : d.DspReady e w j) :
    d.dspInstr e j w = if iOpc w = 0x01 then (d.dspDone e j w).jobOver e .halt else d.dspDone e j w := by
  have hplaces : ((movesOf w).any fun m => placeOf (moveAddr (d.dse e).rf m) == .out) = false :=
    List.any_eq_false.2 fun m hm => by simpa using h.places m hm
  have hfits : ¬ ((d.dse e).limit ≠ 0 ∧ (d.dse e).limit < (d.dse e).cycles + d.dspCycles e w) := by
    have := d.dspCycles_le e w
    rcases h.limit with h | h <;> omega
  unfold Dev.dspInstr
  extract_lets x ms nextW badRep reads st cyc d' o got vr rf rf' t rf'' rf''' n t' done
  have hencoding : ¬ ((!encodingOk w || badRep) = true) := by rw [h.encoding, show badRep = false from h.repeatable]; decide
  have hdone : done = d.dspDone e j w := rfl
  rw [if_neg hencoding, if_neg (ne_true_of_eq_false hplaces), if_neg (show ¬ (x.limit ≠ 0 ∧ x.limit < x.cycles + cyc) from hfits), hdone]

theorem Dev.DspReady.dspStep {d : Dev} {e w : Nat} {j : Job} (h : d.DspReady e w j) {opc : Nat} (hopc : iOpc w = opc) :
    d.dspStep e opc = if opc = 0x01 then (d.dspDone e j w).jobOver e .halt else d.dspDone e j w := by
  unfold Dev.dspStep
  dsimp only
  rw [h.job]
  dsimp only
  rw [if_neg (by have := h.inCode; omega), h.word, opFields_of_encodingOk h.encoding, if_neg (by decide), if_pos hopc, h.dspInstr, hopc]

/-! ## What a completed instruction has done -/

/-- The device after an instruction, field by field: the engine, the two words of its cycle count, the SRAM by its stores. -/
theorem Dev.dspDone_eq (d : Dev) (e : Nat) (j : Job) (w : Nat) : ∃ r cyc v, ((movesOf w).all isLoad = true → r = d.sram) ∧
    d.dspDone e j w = (({ d.stallsTaken with sram := r } : Dev).put2 (dseCntCyc e) (dseCntCycHi e) v).setDse e
      { d.dse e with rf := d.stallsTaken.dspRegs e j w, pc := (nextPc (d.dse e) w).1,
                     rep := (nextPc (d.dse e) w).2, cycles := cyc, lastV := (d.dspStalls e w).2 } := by
  obtain ⟨r, hr, hloads⟩ := d.stallsTaken.storesDone_alone e (d.dse e).rf (movesOf w)
  unfold Dev.dspDone
  dsimp only
  rw [hr]
  exact ⟨r, _, _, hloads, rfl⟩

theorem Dev.rf_dspDone (d : Dev) (e : Nat) (j : Job) (w : Nat) :
    ((d.dspDone e j w).dse e).rf = d.stallsTaken.dspRegs e j w := by
  obtain ⟨r, cyc, v, -, heq⟩ := d.dspDone_eq e j w
  rw [heq, Dev.dse_setDse_same]

theorem Dev.sram_dspDone (d : Dev) (e : Nat) (j : Job) (w : Nat) :
    (d.dspDone e j w).sram = (d.stallsTaken.storesDone e (d.dse e).rf (movesOf w)).sram := by
  unfold Dev.dspDone Dev.addCycles
  dsimp only
  rw [Dev.setDse_sram, Dev.put2_sram]

/-- A register that no move touches holds what the operation wrote, or what it held. -/
theorem Dev.rGet_dspRegs {d : Dev} {e w r : Nat} (j : Job) (hnd : ((dspOp w (d.dse e).rf).wr.map Prod.fst).Nodup) (hst : r ≠ 0x39)
    (hun : dspUnmoved w r = true) : rGet (d.dspRegs e j w) r =
      (((dspOp w (d.dse e).rf).wr.find? fun p => p.1 == r).map fun p => p.2).getD (rGet (d.dse e).rf r) := by
  have hmoves : ∀ m ∈ movesOf w, (isLoad m = false ∨ mReg m ≠ r) ∧ (mPm m = 0 ∨ 0x18 + mPtr m ≠ r) := by
    simpa [dspUnmoved, List.all_eq_true] using hun
  unfold Dev.dspRegs
  dsimp only
  rw [rGet_set_ne _ _ (Ne.symm hst), rGet_pointersMoved_of_unmoved _ _ _ fun m hm => (hmoves m hm).2.resolve_left,
    rGet_loadsDone_of_unloaded d e j _ _ fun m hm hload => (hmoves m hm).1.resolve_left (by simp [hload]), rGet_rWrites hnd]

theorem Dev.rGet_dspRegs_st (d : Dev) (e : Nat) (j : Job) (w : Nat) : rGet (d.dspRegs e j w) 0x39 =
    newSt (rGet (d.dse e).rf 0x39) (dspOp w (d.dse e).rf) (d.viewMissed e j (d.dse e).rf (movesOf w)) := rGet_set_same _ _ _

/-- A completed instruction has made its operation's writes and nothing else, but for its moves and ST. -/
theorem Dev.dspRan_dspDone {d : Dev} {e w : Nat} (j : Job) (hnd : ((dspOp w (d.dse e).rf).wr.map Prod.fst).Nodup) :
    d.dspRan (d.dspDone e j w) e w (dspOp w (d.dse e).rf).wr (nextPc (d.dse e) w).1 (nextPc (d.dse e) w).2 := by
  have hregs := d.rf_dspDone e j w
  obtain ⟨r, cyc, v, hloads, heq⟩ := d.dspDone_eq e j w
  refine ⟨fun r hst hun => hregs ▸ Dev.rGet_dspRegs j hnd hst hun, ?_⟩
  rw [heq, Dev.dse_setDse_same]
  refine ⟨rfl, rfl, rfl, fun i hi => ?_, hloads, ?_, rfl⟩
  · rw [Dev.dse_setDse, if_neg (Ne.symm hi)]
    rfl
  · exact Dev.keepsRegs_put (dseCntCycHi e) _ (by simp) (Dev.keepsRegs_put (dseCntCyc e) _ (by simp) fun _ _ => rfl)

/-! ## The flags of ST (R363) -/

theorem testBit_stBit (st b : Nat) (v : Bool) (i : Nat) : (stBit st b v).testBit i = if i = b then v else st.testBit i := by
  unfold stBit
  rw [testBit_eq_bitsOf]
  split
  next h =>
    subst h
    rw [bitsOf_putBits]
    cases v <;> rfl
  next h => rw [bitsOf_putBits_ne _ _ _ _ _ _ (by omega), ← testBit_eq_bitsOf]

/-- A bit of ST after an operation that does not write ST: Z, N and V as the operation gives them, SV, GV and VR kept or set. -/
def OpOut.flag (o : OpOut) (vr : Bool) (st b : Nat) : Bool :=
  if b = 0 then (o.zn.map Prod.fst).getD (st.testBit 0)
  else if b = 1 then (o.zn.map Prod.snd).getD (st.testBit 1)
  else if b = 2 then o.v.getD (st.testBit 2)
  else if b = 3 then st.testBit 3 || o.sv
  else if b = 4 then st.testBit 4 || o.gv
  else if b = 5 then st.testBit 5 || vr
  else st.testBit b

/-- A sticky flag keeps its bit, or sets it. -/
theorem testBit_ite_stBit (c : Bool) (st b i : Nat) :
    (if c = true then stBit st b true else st).testBit i = if i = b then st.testBit b || c else st.testBit i := by
  split
  next h => rw [testBit_stBit, h, Bool.or_true]
  next h =>
    rw [eq_false_of_ne_true h, Bool.or_false]
    split
    · subst i; rfl
    · rfl

theorem testBit_newSt {o : OpOut} (h : 0x39 ∉ o.wr.map Prod.fst) (st : Nat) (vr : Bool) (b : Nat) :
    (newSt st o vr).testBit b = o.flag vr st b := by
  have hnone : (o.wr.find? fun p => p.1 == 0x39) = none :=
    List.find?_eq_none.2 fun p hp hst => h (eq_of_beq hst ▸ List.mem_map_of_mem hp)
  obtain ⟨wr, zn, v, sv, gv⟩ := o
  simp only [newSt, hnone, testBit_ite_stBit]
  rcases zn with _ | zn <;> rcases v with _ | v <;> simp only [testBit_stBit] <;> unfold OpOut.flag <;> grind

theorem mod_four_eq {m n : Nat} (h0 : m.testBit 0 = n.testBit 0) (h1 : m.testBit 1 = n.testBit 1) : m % 4 = n % 4 := by
  refine Nat.eq_of_testBit_eq (x := m % 2 ^ 2) fun i => ?_
  rw [Nat.testBit_mod_two_pow, show 4 = 2 ^ 2 from rfl, Nat.testBit_mod_two_pow]
  match i with
  | 0 => rw [h0]
  | 1 => rw [h1]
  | i + 2 => rw [decide_eq_false (by omega)]; rfl

/-! ## An opcode that goes on in order -/

/-- An opcode that neither halts, branches nor repeats goes on in order. -/
theorem nextPc_of_plain (x : Dse) {w : Nat} (h2 : iOpc w ≠ 0x02) (h3 : iOpc w ≠ 0x03) (h4 : iOpc w ≠ 0x04) : nextPc x w = x.after := by
  have hbranch : branches w x.rf = false := by
    unfold branches
    split
    · exact absurd ‹_› h2
    · exact absurd ‹_› h3
    · rfl
  unfold nextPc Dse.after
  rw [if_neg h4, hbranch]
  cases x.rep <;> rfl

/-- A command that steps a ready engine over an opcode other than HALT answers with the completed instruction. -/
theorem Answers.of_dspStep {c : Instr} {s : State} {e w opc : Nat} {post : Dev → Prop} (hready : s.dev.dspReady e w = true)
    (hexec : exec c s = onDev s fun d => d.dspStep e opc) (hopc : iOpc w = opc) (hhalt : opc ≠ 0x01)
    (hpost : ∀ j, post (s.dev.dspDone e j w)) : Answers c s post := by
  obtain ⟨j, hj⟩ := Dev.exists_dspReady hready
  exact .of_onDev (fun d => d.dspStep e opc) hexec ((hj.dspStep hopc).trans (if_neg hhalt)) (hpost j)

/-- Such a command of an operation `o` that goes on in order: the writes of `o`, and ST by its flags. -/
theorem Answers.of_dspOp {c : Instr} {s : State} {e w opc : Nat} {o : OpOut} {post : Dev → Prop} (hready : s.dev.dspReady e w = true)
    (hexec : exec c s = onDev s fun d => d.dspStep e opc) (hopc : iOpc w = opc) (hplain : opc ∉ [0x01, 0x02, 0x03, 0x04])
    (hop : dspOp w (s.dev.dse e).rf = o) (hnd : (o.wr.map Prod.fst).Nodup)
    (hpost : ∀ t vr, s.dev.dspRan t e w o.wr (s.dev.dse e).after.1 (s.dev.dse e).after.2 →
      rGet (t.dse e).rf 0x39 = newSt (rGet (s.dev.dse e).rf 0x39) o vr → post t) : Answers c s post := by
  subst hop hopc
  simp only [List.mem_cons, List.not_mem_nil, or_false, not_or] at hplain
  obtain ⟨h1, h2, h3, h4⟩ := hplain
  refine .of_dspStep hready hexec rfl h1 fun j => ?_
  have hst := s.dev.stallsTaken.rGet_dspRegs_st e j w
  rw [← s.dev.rf_dspDone] at hst
  exact hpost _ _ (nextPc_of_plain (s.dev.dse e) h2 h3 h4 ▸ Dev.dspRan_dspDone j hnd) hst

end Sys2Proof.Machine
end

section
/-!
PROOFS. The arithmetic of the DSP engines: ADD, SUB, MIN, MAX, ABS, NEG, SHF, AND, OR, XOR and CMP (R344, R345, R362, R363).
-/

namespace Sys2Proof.Machine

/-! ## Results and their flags -/

theorem lt_of_iDst (w : Nat) : iDst w < 16 := bitsOf_lt w 46 4

/-- The flags of one whole result of `n` bits, whichever register it is written to (R363). -/
theorem stFlags_newSt {o : OpOut} {n : Nat} {f : Fit} (hn : 0 < n) (hwr : 0x39 ∉ o.wr.map Prod.fst) (hzn : o.zn = some (znOf n f.bits))
    (hv : o.v = some (f.sat || f.wrap)) (hsv : o.sv = f.sat) (hgv : o.gv = f.wrap) (st : Nat) (vr : Bool) :
    stFlags st n f.bits f.sat f.wrap (newSt st o vr) := by
  unfold stFlags
  simp only [testBit_newSt hwr]
  unfold OpOut.flag
  rw [hzn, hv, hsv, hgv]
  exact ⟨rfl, testBit_sign hn f.bits, rfl, rfl, rfl⟩

theorem stFlags_whole {c n : Nat} {f : Fit} (hn : 0 < n) (hc : c ≠ 0x39) (st : Nat) (vr : Bool) :
    stFlags st n f.bits f.sat f.wrap (newSt st (OpOut.whole c n f) vr) :=
  stFlags_newSt hn (by simpa [OpOut.whole, OpOut.ofFits] using hc.symm) rfl (by simp [OpOut.whole, OpOut.ofFits]) (Bool.or_false _)
    (Bool.or_false _) st vr

/-- Halves leave Z and N, and V tells whether one of them left its range (R363). -/
theorem flags_halves {c : Nat} {lo hi : Fit} (hc : c ≠ 0x39) (st : Nat) (vr : Bool) :
    newSt st (OpOut.halves c lo hi) vr % 4 = st % 4 ∧
      (newSt st (OpOut.halves c lo hi) vr).testBit 2 = (lo.sat || lo.wrap || hi.sat || hi.wrap) := by
  have hwr : 0x39 ∉ (OpOut.halves c lo hi).wr.map Prod.fst := by simpa [OpOut.halves] using hc.symm
  exact ⟨mod_four_eq (testBit_newSt hwr st vr 0) (testBit_newSt hwr st vr 1), testBit_newSt hwr st vr 2⟩

/-! ## The results of the operations -/

/-- An operation's result in D[DST]: whole, or halves in H form. -/
def fitted (w : Nat) (whole lo hi : Fit) : OpOut := if iHalf w then OpOut.halves (iDst w) lo hi else OpOut.whole (iDst w) 40 whole

theorem wr_fitted (w : Nat) (whole lo hi : Fit) :
    (fitted w whole lo hi).wr = [(iDst w, if iHalf w then packHalves lo.bits hi.bits else whole.bits)] := by
  unfold fitted
  split <;> rfl

theorem shiftRound_zero (x : Int) (rnd : Bool) : shiftRound x 0 rnd = x := by simp [shiftRound]

/-- A result that is one of two operands lies in their range: nothing saturates or wraps (R362). -/
theorem fit_operand {n : Nat} (hn : 0 < n) (s : Bool) {x : Int} {a b : Nat} (h : x = toSigned n a ∨ x = toSigned n b) :
    fit n s x = fit n false x := by
  obtain ⟨hlo, hhi⟩ : -2 ^ (n - 1) ≤ x ∧ x < 2 ^ (n - 1) := by
    rcases h with rfl | rfl <;> exact toSigned_mem hn _
  rw [fit_of_mem s hlo hhi, fit_of_mem false hlo hhi]

/-- A choice of an operand, whole or by halves. -/
theorem binOp_choice (w : Nat) (rf : Tab Nat) {f : Int → Int → Int} (hf : ∀ a b, f a b = a ∨ f a b = b) :
    binOp w rf f false = fitted w (fit 40 false (f (dVal rf (iSa w)) (dVal rf (iSb w))))
      (fit 20 false (f (dLo rf (iSa w)) (dLo rf (iSb w)))) (fit 20 false (f (dHi rf (iSa w)) (dHi rf (iSb w)))) := by
  have hres {n : Nat} (hn : 0 < n) (a b : Nat) : fit n (iS w) (f (toSigned n a) (toSigned n b)) =
      fit n false (f (toSigned n a) (toSigned n b)) := fit_operand hn _ (hf _ _)
  unfold binOp fitted dVal dLo dHi
  simp only [Bool.false_eq_true, if_false, shiftRound_zero]
  rw [hres (by decide), hres (by decide), hres (by decide)]

section
variable {s : State} {e : Fin 16} {w opc : Nat} (hready : s.dev.dspReady e w = true) (hopc : iOpc w = opc)
  {c : Instr} (hexec : exec c s = onDev s fun d => d.dspStep e opc) (hplain : opc ∉ [0x01, 0x02, 0x03, 0x04])
include hready hopc hexec hplain

/-- An operation on whole registers or halves writes D[DST] and sets the flags. -/
theorem Answers.of_fitted {whole lo hi : Fit} (hop : dspOp w (s.dev.dse e).rf = fitted w whole lo hi) :
    Answers c s fun t => s.dev.dspRan t e w [(iDst w, if iHalf w then packHalves lo.bits hi.bits else whole.bits)]
        (s.dev.dse e).after.1 (s.dev.dse e).after.2 ∧
      (iHalf w = false → stFlags (rGet (s.dev.dse e).rf 0x39) 40 whole.bits whole.sat whole.wrap (rGet (t.dse e).rf 0x39)) ∧
      (iHalf w = true → rGet (t.dse e).rf 0x39 % 4 = rGet (s.dev.dse e).rf 0x39 % 4 ∧
        (rGet (t.dse e).rf 0x39).testBit 2 = (lo.sat || lo.wrap || hi.sat || hi.wrap)) := by
  have hdst : iDst w ≠ 0x39 := by have := lt_of_iDst w; omega
  refine .of_dspOp hready hexec hopc hplain hop (by simp [wr_fitted]) fun t vr hran hst => ⟨wr_fitted w whole lo hi ▸ hran, ?_, ?_⟩
  · intro hwhole
    rw [hst, fitted, if_neg (ne_true_of_eq_false hwhole)]
    exact stFlags_whole (by decide) hdst _ vr
  · intro hhalf
    rw [hst, fitted, if_pos hhalf]
    exact flags_halves hdst _ vr

/-- A bitwise operation writes D[DST] and sets the flags; nothing leaves its range. -/
theorem Answers.of_bits {f : Nat → Nat → Nat} (hop : dspOp w (s.dev.dse e).rf = bitOp w (s.dev.dse e).rf f) :
    let v := f (rGet (s.dev.dse e).rf (iSa w)) (rGet (s.dev.dse e).rf (iSb w))
    Answers c s fun t => s.dev.dspRan t e w [(iDst w, v % 2 ^ 40)] (s.dev.dse e).after.1 (s.dev.dse e).after.2 ∧
      stFlags (rGet (s.dev.dse e).rf 0x39) 40 (v % 2 ^ 40) false false (rGet (t.dse e).rf 0x39) := by
  intro v
  have hdst : iDst w ≠ 0x39 := by have := lt_of_iDst w; omega
  refine .of_dspOp hready hexec hopc hplain hop (by simp [bitOp]) fun t vr hran hst => ⟨hran, hst ▸ ?_⟩
  exact stFlags_newSt (f := ⟨v % 2 ^ 40, false, false⟩) (by decide) (by simpa [bitOp] using hdst.symm) rfl rfl rfl rfl _ vr

end

/-- Settles O29: each opcode's operation is a result in D[DST], whole or by halves, a bitwise one, or a compare that writes none. -/
theorem dspArithmeticWritesItsRegister : Obligations.DspArithmeticWritesItsRegister := by
  intro s e w hready
  refine ⟨?_, ?_, ?_, ?_, ?_, ?_, ?_, ?_, ?_, ?_, ?_, ?_⟩
  · intro h
    exact .of_fitted hready h rfl (by decide) (by simp only [dspOp, h]; rfl)
  · intro h
    exact .of_fitted hready h rfl (by decide) (by simp only [dspOp, h]; rfl)
  · intro h
    have hmin : (fun a b : Int => if a ≤ b then a else b) = min := by
      funext a b
      exact (min_def a b).symm
    exact .of_fitted hready h rfl (by decide) (by simp only [dspOp, h, hmin]; exact binOp_choice w _ min_choice)
  · intro h
    have hmax : (fun a b : Int => if a ≤ b then b else a) = max := by
      funext a b
      exact (max_def a b).symm
    exact .of_fitted hready h rfl (by decide) (by simp only [dspOp, h, hmax]; exact binOp_choice w _ max_choice)
  · intro h
    have habs : (fun a : Int => if a < 0 then -a else a) = fun a => (a.natAbs : Int) := by
      funext a
      omega
    exact .of_fitted hready h rfl (by decide) (by simp only [dspOp, h, habs]; rfl)
  · intro h
    exact .of_fitted hready h rfl (by decide) (by simp only [dspOp, h]; rfl)
  · intro h hright
    exact .of_fitted hready h rfl (by decide) (by simp only [dspOp, h, hright]; rfl)
  · intro h hleft
    exact .of_fitted hready h rfl (by decide) (by simp only [dspOp, h, hleft]; rfl)
  · intro h
    exact .of_bits hready h rfl (by decide) (by simp only [dspOp, h])
  · intro h
    exact .of_bits hready h rfl (by decide) (by simp only [dspOp, h])
  · intro h
    exact .of_bits hready h rfl (by decide) (by simp only [dspOp, h])
  · intro h
    refine .of_dspOp hready rfl h (by decide) rfl (by simp [dspOp, h, OpOut.none_]) fun t vr hran hst => ?_
    simp only [dspOp, h] at hran hst
    have hflag (b : Nat) := testBit_newSt (o := { OpOut.none_ with
      zn := some (decide (dVal (s.dev.dse e).rf (iSa w) - dVal (s.dev.dse e).rf (iSb w) = 0),
        decide (dVal (s.dev.dse e).rf (iSa w) - dVal (s.dev.dse e).rf (iSb w) < 0)), v := some false })
      (by simp [OpOut.none_]) (rGet (s.dev.dse e).rf 0x39) vr b
    refine ⟨hran, ?_, ?_, ?_⟩
    · rw [hst, hflag 0]
      exact decide_eq_decide.2 sub_eq_zero
    · rw [hst, hflag 1]
      exact decide_eq_decide.2 sub_neg
    · rw [hst, hflag 2]
      rfl

end Sys2Proof.Machine
end

section
/-!
PROOFS. The accumulators of the DSP engines, add-compare-select and the copies: MAC4, MACS, CMAC, ACC, LDA, STA, CLRA, ACS, MOV and LDI
(R342 to R349, R361 to R366).
-/

namespace Sys2Proof.Machine

/-! ## Accumulators -/

theorem lt_of_iAd (w : Nat) : iAd w < 4 := bitsOf_lt w 36 2

theorem ofSigned_lt_of_le {n k : Nat} (h : n ≤ k) (x : Int) : ofSigned n x < 2 ^ k :=
  (ofSigned_lt n x).trans_le (Nat.pow_le_pow_right (by decide) h)

/-- Entries for different accumulators have different registers. -/
theorem nodup_accumulators {β : Type} {l : List Nat} (h : l.Nodup) (f : Nat → β) :
    ((l.map fun i => (0x10 + i, f i)).map Prod.fst).Nodup := by
  rw [List.map_map]
  exact h.map fun i k hik => Nat.add_left_cancel hik

/-- ST is no accumulator. -/
theorem st_not_mem_accumulators {β : Type} {l : List Nat} (h : ∀ i ∈ l, i < 4) (f : Nat → β) :
    0x39 ∉ (l.map fun i => (0x10 + i, f i)).map Prod.fst := by
  rw [List.map_map]
  intro hmem
  obtain ⟨i, hi, hreg⟩ := List.mem_map.1 hmem
  have hlt := h i hi
  rw [Function.comp_apply] at hreg
  omega

theorem sum_four (f : Nat → Int) : ((List.range 4).map f).sum = f 0 + f 1 + f 2 + f 3 := by
  simp only [List.sum_range_succ, List.range_zero, List.map_nil, List.sum_nil, zero_add]

/-- Results in several registers leave Z and N. -/
theorem mod_four_newSt_ofFits {rs : List (Nat × Fit)} (h : 0x39 ∉ rs.map Prod.fst) (st : Nat) (vr : Bool) :
    newSt st (OpOut.ofFits rs none) vr % 4 = st % 4 := by
  have hwr : 0x39 ∉ (OpOut.ofFits rs none).wr.map Prod.fst := by simpa [OpOut.ofFits] using h
  exact mod_four_eq (testBit_newSt hwr st vr 0) (testBit_newSt hwr st vr 1)

/-- An operation that gives no flags leaves Z, N, V, SV and GV. -/
theorem testBit_newSt_silent {wr : List (Nat × Nat)} (h : 0x39 ∉ wr.map Prod.fst) (st : Nat) (vr : Bool) {b : Nat} (hb : b < 5) :
    (newSt st { OpOut.none_ with wr := wr } vr).testBit b = st.testBit b := by
  rw [testBit_newSt h]
  unfold OpOut.flag OpOut.none_
  interval_cases b <;> simp

theorem Dev.dspRan.sram {d t : Dev} {e w pc : Nat} {wr : List (Nat × Nat)} {rep : Option Nat} (h : d.dspRan t e w wr pc rep)
    (hloads : (movesOf w).all isLoad = true) : t.sram = d.sram := by
  obtain ⟨-, -, -, -, -, hsram, -⟩ := h
  exact hsram hloads

theorem Answers.mono {c : Instr} {s : State} {p q : Dev → Prop} (h : Answers c s p) (hpq : ∀ t, p t → q t) : Answers c s q := by
  obtain ⟨t, heq, hp⟩ := h
  exact ⟨t, heq, hpq t hp⟩

section
variable {s : State} {e : Fin 16} {w opc : Nat} (hready : s.dev.dspReady e w = true) (hopc : iOpc w = opc)
  {c : Instr} (hexec : exec c s = onDev s fun d => d.dspStep e opc) (hplain : opc ∉ [0x01, 0x02, 0x03, 0x04])
include hready hopc hexec hplain

/-- A result in one accumulator sets Z, N and V by itself. -/
theorem Answers.of_accumulator {f : Fit} (hop : dspOp w (s.dev.dse e).rf = OpOut.whole (0x10 + iAd w) 48 f) :
    Answers c s fun t => s.dev.dspRan t e w [(0x10 + iAd w, f.bits)] (s.dev.dse e).after.1 (s.dev.dse e).after.2 ∧
      stFlags (rGet (s.dev.dse e).rf 0x39) 48 f.bits f.sat f.wrap (rGet (t.dse e).rf 0x39) := by
  refine .of_dspOp hready hexec hopc hplain hop (by simp [OpOut.whole, OpOut.ofFits]) fun t vr hran hst => ⟨hran, hst ▸ ?_⟩
  have := lt_of_iAd w
  exact stFlags_whole (by decide) (by omega) _ vr

/-- Results in several accumulators leave Z and N. -/
theorem Answers.of_accumulators {rs : List (Nat × Fit)} {wr : List (Nat × Nat)} (hop : dspOp w (s.dev.dse e).rf = OpOut.ofFits rs none)
    (hwr : rs.map (fun p => (p.1, p.2.bits)) = wr) (hnd : (rs.map Prod.fst).Nodup) (hst : 0x39 ∉ rs.map Prod.fst) :
    Answers c s fun t => s.dev.dspRan t e w wr (s.dev.dse e).after.1 (s.dev.dse e).after.2 ∧
      rGet (t.dse e).rf 0x39 % 4 = rGet (s.dev.dse e).rf 0x39 % 4 :=
  .of_dspOp hready hexec hopc hplain hop (by simpa [OpOut.ofFits, Function.comp_def] using hnd) fun _ vr hran ht =>
    ⟨hwr ▸ hran, ht ▸ mod_four_newSt_ofFits hst _ vr⟩

/-- Register writes alone. -/
theorem Answers.of_writes {wr : List (Nat × Nat)} (hwr : (dspOp w (s.dev.dse e).rf).wr = wr) (hnd : (wr.map Prod.fst).Nodup) :
    Answers c s fun t => s.dev.dspRan t e w wr (s.dev.dse e).after.1 (s.dev.dse e).after.2 :=
  .of_dspOp hready hexec hopc hplain rfl (hwr ▸ hnd) fun _ _ hran _ => hwr ▸ hran

end

/-! ## Add-compare-select (R348, R366) -/

theorem lt_of_iX (w : Nat) : iX w < 4 := bitsOf_lt w 32 2

/-- One unit in exact numbers: both sums modulo 2^40, and their distance read as a signed number decides. -/
theorem acs_eq (min_ : Bool) (s t : Nat) (m0 m1 : Int) : acs min_ s t m0 m1 =
    let a := (s + m0) % 2 ^ 40
    let b := (t + m1) % 2 ^ 40
    let d := toSigned 40 (ofSigned 40 (a - b))
    if (if min_ then d ≤ 0 else 0 ≤ d) then (a.toNat, 0) else (b.toNat, 1) := by
  unfold acs
  simp only [ofSigned_cast]
  cases min_ <;> simp only [if_true, Bool.false_eq_true, if_false, decide_eq_true_eq] <;> rfl

/-- The registers that the ACS units write differ from each other and from TR. -/
theorem nodup_acs (w : Nat) : ((List.range (iX w + 1)).map (fun i => (iDst w + i) % 16) ++ [0x38]).Nodup := by
  have hx := lt_of_iX w
  refine List.nodup_append.2 ⟨List.nodup_range.map_on fun i hi k hk h => ?_, List.nodup_singleton _, fun a ha b hb hab => ?_⟩
  · rw [List.mem_range] at hi hk
    omega
  · obtain ⟨i, -, rfl⟩ := List.mem_map.1 ha
    have := List.mem_singleton.1 hb
    omega

/-! ## Copies (R361) -/

theorem regWidth_le (c : Nat) : regWidth c ≤ 48 := by
  unfold regWidth
  repeat' split
  all_goals decide

/-- A copy to a register other than ST: modulo its width, MODE to two bits. -/
theorem movWrite_eq {c : Nat} (h : c ≠ 0x39) (v : Int) :
    movWrite c v = (c, ofSigned (regWidth c) v % (if c = 0x3A then 4 else 2 ^ 48)) := by
  unfold movWrite
  dsimp only
  rw [if_neg h]
  split
  · rfl
  · rw [Nat.mod_eq_of_lt (ofSigned_lt_of_le (regWidth_le c) v)]

/-- Settles O30: results in one accumulator, in several, or register writes that set no flags. -/
theorem dspAccumulatorSelectAndCopyOperations : Obligations.DspAccumulatorSelectAndCopyOperations := by
  refine ⟨fun s e w hready => ⟨?_, ?_, ?_, ?_, ?_, ?_, ?_⟩, fun s e w hready => ⟨?_, ?_, ?_⟩⟩
  · intro h
    exact .of_accumulators hready h rfl (by decide) (by simp only [dspOp, h]; rfl) rfl
      (nodup_accumulators List.nodup_range _) (st_not_mem_accumulators (fun i => List.mem_range.1) _)
  · intro h
    exact .of_accumulator hready h rfl (by decide) (by unfold dspOp; rw [h]; dsimp only; rw [sum_four]; rfl)
  · intro h
    have hlast : 0x10 + (iAd w + 1) = 0x11 + iAd w := by omega
    have := lt_of_iAd w
    exact .of_accumulators hready h rfl (by decide) (by simp only [dspOp, h, hlast]; rfl) rfl (by simp) (by simp; omega)
  · intro h
    exact .of_accumulator hready h rfl (by decide) (by simp only [dspOp, h]; rfl)
  · intro h
    exact .of_accumulator hready h rfl (by decide) (by simp only [dspOp, h])
  · intro h
    refine .of_writes hready h rfl (by decide) ?_ (List.nodup_singleton _)
    simp only [dspOp, h]
    match haop : iAop w with
    | 0 => rfl
    | 1 => rfl
    | n + 2 => rfl
  · intro h
    have hst := st_not_mem_accumulators (fun i (hi : i ∈ maskList 4 (iBits w 35 32)) => (mem_maskList.1 hi).1) fun _ => 0
    exact .of_dspOp hready rfl h (by decide) (by simp only [dspOp, h]) (nodup_accumulators (List.nodup_range.filter _) _)
      fun t vr hran ht => ⟨hran, fun b hb => ht ▸ testBit_newSt_silent hst _ vr hb⟩
  · intro h hs0 ht0
    refine .of_writes hready h rfl (by decide) ?_ (by rw [List.map_append, List.map_map]; exact nodup_acs w)
    simp only [dspOp, h, acsUnits, hs0, ht0, Bool.false_eq_true, if_false, List.map_map, List.foldl_map, acs_eq]
    rfl
  · intro h hst
    exact .of_writes hready h rfl (by decide) (by simp only [dspOp, h, movWrite_eq hst]) (List.nodup_singleton _)
  · intro h hst
    have hloads : (movesOf w).all isLoad = true := by
      unfold movesOf
      rw [if_pos h]
      rfl
    refine .mono (.of_writes hready h rfl (by decide) (by simp only [dspOp, h, movWrite_eq hst])
      (by exact List.nodup_singleton _)) fun t hran => ⟨hran, hran.sram hloads⟩

end Sys2Proof.Machine
end

section
/-!
PROOFS. One move beside an instruction of a DSP engine: what a load brings, what a store writes, and where the pointer goes (R326, R346,
R355, R357).
-/

namespace Sys2Proof.Machine

/-! ## Local words (R326) -/

theorem Dev.localWord_lt (d : Dev) (e i : Nat) : d.localWord e i < 2 ^ 40 := d.ld_lt (dseLocal e i) 5

theorem Dev.localWord_setLocal (d : Dev) (e i v : Nat) : (d.setLocal e i v).localWord e i = v % 2 ^ 40 := by
  refine (d.ld_st_part (a := dseLocal e i) (n := 8) (v % 2 ^ 40) 0 5 (by decide)).trans ?_
  rw [pow_zero, Nat.div_one, show 256 ^ 5 = 2 ^ 40 from rfl, Nat.mod_mod]

theorem Dev.localWord_of_sram {d t : Dev} (h : t.sram = d.sram) (e i : Nat) : t.localWord e i = d.localWord e i := by
  rw [Dev.localWord, Dev.ld, h]
  rfl

theorem Dev.byte_of_sram {d t : Dev} (h : t.sram = d.sram) (a : Nat) : t.byte a = d.byte a := by
  rw [Dev.byte, h]
  rfl

/-! ## One move -/

theorem lt_of_mReg (m : Nat) : mReg m < 16 := bitsOf_lt m 9 4

section
variable (d : Dev) {e w m : Nat} (j : Job) (hms : movesOf w = [m])
include hms

/-- The registers after an instruction without an operation and with one move. -/
theorem Dev.dspRegs_one (hop : dspOp w (d.dse e).rf = OpOut.none_) : ∃ st, d.dspRegs e j w =
    Tab.set (fun _ => 0) (pointersMoved OpOut.none_ (d.dse e).rf [m]
      (if isLoad m then loadInto (d.dse e).rf m (d.moveRead e j (moveAddr (d.dse e).rf m)).1 else (d.dse e).rf)) 0x39 st := by
  unfold Dev.dspRegs
  dsimp only
  rw [hms, hop]
  exact ⟨_, rfl⟩

/-- A load brings what it read into its register, whatever becomes of the pointer. -/
theorem Dev.rGet_load (hop : dspOp w (d.dse e).rf = OpOut.none_) (hload : isLoad m = true) : rGet (d.dspRegs e j w) (mReg m) =
    rGet (loadInto (d.dse e).rf m (d.moveRead e j (moveAddr (d.dse e).rf m)).1) (mReg m) := by
  have hreg := lt_of_mReg m
  obtain ⟨st, heq⟩ := d.dspRegs_one j hms hop
  rw [heq, rGet_set_ne _ _ (by omega), rGet_pointersMoved_of_unmoved _ _ _ fun n hn _ => by omega, if_pos hload]

/-- Post-modification updates the pointer of a move. -/
theorem Dev.rGet_pointer (hop : dspOp w (d.dse e).rf = OpOut.none_) (hpm : mPm m ≠ 0) :
    rGet (d.dspRegs e j w) (0x18 + mPtr m) = postMod (d.dse e).rf m := by
  have hptr : mPtr m < 8 := bitsOf_lt m 6 3
  have hmoved : ¬ (mPm m = 0 ∨ OpOut.none_.wr.any (fun p => p.1 == 0x18 + mPtr m) = true) := by simp [hpm, OpOut.none_]
  obtain ⟨st, heq⟩ := d.dspRegs_one j hms hop
  rw [heq, rGet_set_ne _ _ (by omega)]
  exact (congrArg (rGet · _) (if_neg hmoved)).trans (rGet_set_same _ _ _)

/-- The one store of an instruction writes its local word. -/
theorem Dev.sram_dspDone_store {i : Nat} (hplace : placeOf (moveAddr (d.dse e).rf m) = .loc i) (hstore : isLoad m = false) :
    (d.dspDone e j w).sram =
      (d.setLocal e i (if mMop m = 5 then rGet (d.dse e).rf 0x38 else rGet (d.dse e).rf (mReg m))).sram := by
  rw [d.sram_dspDone, hms]
  unfold Dev.storesDone
  rw [List.foldl_cons, List.foldl_nil, hstore, if_neg (by decide), hplace]
  rfl

end

/-- What a load of each kind brings (R355): the word, or one half beside the other half of the register. -/
theorem rGet_loadInto (rf : Tab Nat) (m v : Nat) (hv : v < 2 ^ 40) :
    (mMop m = 1 → rGet (loadInto rf m v) (mReg m) = v) ∧
    (mMop m = 3 → rGet (loadInto rf m v) (mReg m) = packHalves v (rGet rf (mReg m) / 2 ^ 20)) ∧
    (mMop m = 4 → rGet (loadInto rf m v) (mReg m) = packHalves (rGet rf (mReg m)) v) := by
  unfold loadInto
  refine ⟨fun h => ?_, fun h => ?_, fun h => ?_⟩ <;> rw [rGet_set_same, h]
  · exact Nat.mod_eq_of_lt hv
  · rfl
  · rfl

/-- Settles O33: the loads, the stores and the pointer of one move, each by the parts of the completed instruction. -/
theorem dspMovesLoadAndStoreLocalWords : Obligations.DspMovesLoadAndStoreLocalWords := by
  intro s e w m i hready hopc hms hplace
  have hop : dspOp w (s.dev.dse e).rf = OpOut.none_ := by simp only [dspOp, hopc]
  refine .of_dspStep hready rfl hopc (by decide) fun j => ?_
  have hregs := s.dev.rf_dspDone e j w
  have hread : (s.dev.stallsTaken.moveRead e j (moveAddr (s.dev.dse e).rf m)).1 = s.dev.localWord e i := by
    rw [Dev.moveRead, hplace]
    rfl
  obtain ⟨hword, hlow, hhigh⟩ := rGet_loadInto (s.dev.dse e).rf m _ (s.dev.localWord_lt e i)
  have hload (h : isLoad m = true) : rGet ((s.dev.dspDone e j w).dse e).rf (mReg m) =
      rGet (loadInto (s.dev.dse e).rf m (s.dev.localWord e i)) (mReg m) := by
    rw [hregs, s.dev.stallsTaken.rGet_load j hms hop h, s.dev.dse_stallsTaken, hread]
  have hstored (h : isLoad m = false) := s.dev.sram_dspDone_store j hms hplace h
  refine ⟨fun h => ?_, fun h => ?_, fun h => ?_, fun h => ?_, fun h => ?_, fun h => ?_, fun h a ha => ?_, fun h => ?_⟩
  · exact (hload (by simp [isLoad, h])).trans (hword h)
  · rw [Dev.localWord_of_sram (hstored (by simp [isLoad, h])), Dev.localWord_setLocal, if_neg (by omega)]
  · exact (hload (by simp [isLoad, h])).trans (hlow h)
  · exact (hload (by simp [isLoad, h])).trans (hhigh h)
  · rw [Dev.localWord_of_sram (hstored (by simp [isLoad, h])), Dev.localWord_setLocal, if_pos h]
  · exact (Dev.dspRan_dspDone j (by simp [hop, OpOut.none_])).sram (by simp [hms, h])
  · exact (Dev.byte_of_sram (hstored h) a).trans (s.dev.byte_st_outside _ ha)
  · rw [hregs]
    exact Dev.rGet_pointer _ j hms hop h

end Sys2Proof.Machine
end

section
/-!
PROOFS. Control of a DSP program: NOP, BR, REP and HALT, and what the end of a job leaves of its engine (R335, R367 to R372).
-/

namespace Sys2Proof.Machine

/-! ## The program counter -/

/-- The conditions of a branch in the order of their codes (R368); a reserved code never holds. -/
theorem brCond_eq (cond st : Nat) :
    let z := st.testBit 0
    let n := st.testBit 1
    brCond cond st = [true, z, !z, n, !n, !z && !n, z || n, st.testBit 2, !st.testBit 2, st.testBit 3, st.testBit 4, st.testBit 5].getD cond false := by
  rcases Nat.lt_or_ge cond 12 with hlisted | hreserved
  · interval_cases cond <;> rfl
  · obtain ⟨k, rfl⟩ := Nat.exists_eq_add_of_le' hreserved
    rfl

/-- A branch outside a REP goes to its target when its condition on ST holds. -/
theorem nextPc_br {x : Dse} {w : Nat} (hopc : iOpc w = 0x02) (hrep : x.rep = none) :
    nextPc x w = (if brCond (iBits w 57 54) (rGet x.rf 0x39) then iTarget w else x.pc + 1, none) := by
  have hbranch : branches w x.rf = brCond (iBits w 57 54) (rGet x.rf 0x39) := by simp only [branches, hopc]
  unfold nextPc
  rw [hrep, hbranch, if_neg (by omega)]
  dsimp only
  split <;> rfl

/-- REP goes to the next word with its count, and past it for a count of 0. -/
theorem nextPc_rep {x : Dse} {w : Nat} (hopc : iOpc w = 0x04) :
    let n := if w.testBit 49 then rGet x.rf (iCnt w) % 65536 else iBits w 47 32
    nextPc x w = if n = 0 then (x.pc + 2, none) else (x.pc + 1, some n) := if_pos hopc

/-! ## The end of a job (R330, R335) -/

/-- A running engine stays running with its words, and so do all engines and the SRAM: of the registers only AU states and releases
change, and the state of a running engine, wherever a view says that an AU lies, is no FULL AU. -/
structure Dev.KeepsRunning (e : Nat) (d t : Dev) : Prop where
  state : d.get (dseState e) = 2 → t.get (dseState e) = 2
  words : ∀ g : Fld, g.addr % 0x1000 ≠ 0x04 → g.addr % 0x1000 ≠ 0x58 → t.get g = d.get g
  dses : t.dses = d.dses
  sram : t.sram = d.sram

theorem Dev.KeepsRunning.refl (e : Nat) (d : Dev) : d.KeepsRunning e d := ⟨id, fun _ _ _ => rfl, rfl, rfl⟩

theorem Dev.KeepsRunning.trans {e : Nat} {d t u : Dev} (h : d.KeepsRunning e t) (k : t.KeepsRunning e u) : d.KeepsRunning e u :=
  ⟨fun hst => k.state (h.state hst), fun g h4 h58 => (k.words g h4 h58).trans (h.words g h4 h58), k.dses.trans h.dses, k.sram.trans h.sram⟩

theorem Dev.keepsRunning_setAu (e : Nat) (d : Dev) (a : Nat) (x : Au) : d.KeepsRunning e (d.setAu a x) := ⟨id, fun _ _ _ => rfl, rfl, rfl⟩

theorem Dev.keepsRunning_auRecRd (e : Nat) (d : Dev) (a v : Nat) : d.KeepsRunning e (d.put (auRecRd a) v) where
  state h := (d.get_put_addr _ _ _ (by simp only [auRecRd, dseState]; omega)).trans h
  words g _ h58 := d.get_put_addr _ _ _ fun heq => h58 (by simp only [← heq, auRecRd]; omega)
  dses := rfl
  sram := rfl

/-- A FULL AU takes another state: no running engine shows its state there. -/
theorem Dev.keepsRunning_auState (e : Nat) {d : Dev} {a : Nat} (v : Nat) (hfull : d.get (auState a) = 4) :
    d.KeepsRunning e (d.put (auState a) v) where
  state h := by
    refine (d.get_put_addr _ _ _ fun heq => ?_).trans h
    have hsame : auState a = dseState e := by
      simp only [auState, dseState, Fld.mk.injEq] at heq ⊢
      exact ⟨heq, trivial, trivial⟩
    rw [hsame, h] at hfull
    cases hfull
  words g h4 _ := d.get_put_addr _ _ _ fun heq => h4 (by simp only [← heq, auState]; omega)
  dses := rfl
  sram := rfl

theorem Dev.keepsRunning_auUnfill (e : Nat) (d : Dev) (a : Nat) : d.KeepsRunning e (d.auUnfill a) := by
  unfold Dev.auUnfill Dev.auToReady
  split
  next h =>
    dsimp only
    split
    · exact Dev.keepsRunning_auState e 4 h.1
    · exact (Dev.keepsRunning_auState e 1 h.1).trans (Dev.keepsRunning_setAu e _ a _)
  next => exact .refl e d

theorem Dev.keepsRunning_freeAus (e : Nat) (d : Dev) (vs : List View) : d.KeepsRunning e (d.freeAus vs) := by
  unfold Dev.freeAus
  induction vs generalizing d with
  | nil => exact .refl e d
  | cons v vs ih =>
    rw [List.foldl_cons]
    refine Dev.KeepsRunning.trans ?_ (ih _)
    split
    · refine Dev.KeepsRunning.trans ?_ (Dev.keepsRunning_auUnfill e _ v.au)
      split
      · split
        · exact (d.keepsRunning_auRecRd e _ _).trans (Dev.keepsRunning_setAu e _ _ _)
        · exact d.keepsRunning_setAu e _ _
      · exact d.keepsRunning_setAu e _ _
    · exact .refl e d

/-- The device when a job's end has been counted, shown, and reported. -/
def Dev.jobCounted (d : Dev) (e : Nat) (j : Job) : Dev :=
  let t := (d.bump (dseCntJob e)).put (dseLastSt e) (rGet (d.dse e).rf 0x39)
  if t.is (dseEvDone e) then t.event (srcDse e) 0x0703 (j.step + 2 ^ 16 * j.site) else t

theorem Dev.jobCounted_effect (d : Dev) {e : Nat} (j : Job) :
    (d.jobCounted e j).get (dseState e) = d.get (dseState e) ∧
    (d.jobCounted e j).get (dseCntJob e) = min (d.get (dseCntJob e) + 1) (2 ^ (dseCntJob e).w - 1) ∧
    (d.jobCounted e j).get (dseLastSt e) = rGet (d.dse e).rf 0x39 % 2 ^ 16 ∧
    (d.jobCounted e j).dses = d.dses ∧ (d.jobCounted e j).sram = d.sram := by
  have hevent : ((d.bump (dseCntJob e)).put (dseLastSt e) (rGet (d.dse e).rf 0x39)).OnlyHost (d.jobCounted e j) := by
    unfold Dev.jobCounted
    dsimp only
    split
    · exact Dev.onlyHost_event _ _ _ _
    · exact .refl _
  obtain ⟨⟨_, _, _, hrest⟩, -⟩ := id hevent
  refine ⟨?_, ?_, ?_, by rw [hrest]; rfl, by rw [hrest]; rfl⟩
  · rw [hevent.get _ (.inr (by simp only [dseState]; omega)), Dev.get_put_addr _ _ _ _ (by simp [dseLastSt, dseState]),
      Dev.get_bump_ne _ _ _ (.inl (by simp [dseCntJob, dseState]))]
  · rw [hevent.get _ (.inr (by simp only [dseCntJob]; omega)), Dev.get_put_addr _ _ _ _ (by simp [dseLastSt, dseCntJob]),
      Dev.get_bump _ _ (by simp [dseCntJob])]
  · rw [hevent.get _ (.inr (by simp only [dseLastSt]; omega)), Dev.get_put _ _ _ (by simp [dseLastSt])]
    rfl

/-- The device when a job has let go of its engine and of its AUs. -/
def Dev.engineFreed (d : Dev) (e : Nat) (j : Job) : Dev :=
  ((d.setDse e { d.dse e with job := none, rep := none }).freeAus j.views).put (dseHoldAu e) 0

theorem Dev.engineFreed_effect {d : Dev} {e : Nat} (j : Job) (hstate : d.get (dseState e) = 2) :
    ((d.engineFreed e j).dse e).job = none ∧ (d.engineFreed e j).get (dseState e) = 2 ∧
    (d.engineFreed e j).get (dseCntJob e) = d.get (dseCntJob e) ∧ (d.engineFreed e j).get (dseLastSt e) = d.get (dseLastSt e) ∧
    (d.engineFreed e j).sram = d.sram := by
  have hfree := (d.setDse e { d.dse e with job := none, rep := none }).keepsRunning_freeAus e j.views
  unfold Dev.engineFreed
  refine ⟨?_, ?_, ?_, ?_, hfree.sram⟩
  · rw [Dev.dse, Dev.put_dses, hfree.dses, dseTab_get, Dev.dse_setDse_same]
  · rw [Dev.get_put_bits _ _ _ _ (by simp [dseHoldAu]) (by simp [dseHoldAu, dseState])]
    exact hfree.state hstate
  · rw [Dev.get_put_addr _ _ _ _ (by simp [dseHoldAu, dseCntJob]), hfree.words _ (by simp only [dseCntJob]; omega)
      (by simp only [dseCntJob]; omega)]
    rfl
  · rw [Dev.get_put_addr _ _ _ _ (by simp [dseHoldAu, dseLastSt]), hfree.words _ (by simp only [dseLastSt]; omega)
      (by simp only [dseLastSt]; omega)]
    rfl

/-- A job that the DSE_RUN register started ends at its HALT: the engine is free, the job counted, and ST shown. -/
theorem Dev.jobEnd_halt {d : Dev} {e : Nat} {j : Job} (hjob : (d.dse e).job = some j) (hrun : j.run = none)
    (hstate : d.get (dseState e) = 2) :
    let t := d.jobEnd e .halt
    (t.dse e).job = none ∧ t.get (dseState e) = 1 ∧ t.get (dseCntJob e) = min (d.get (dseCntJob e) + 1) (2 ^ (dseCntJob e).w - 1) ∧
      t.get (dseLastSt e) = rGet (d.dse e).rf 0x39 % 2 ^ 16 ∧ t.sram = d.sram := by
  obtain ⟨hcountedState, hcount, hlast, -, hcountedSram⟩ := d.jobCounted_effect (e := e) j
  obtain ⟨hfreed, hrunning, hfreedCount, hfreedLast, hfreedSram⟩ := (d.jobCounted e j).engineFreed_effect j (hcountedState.trans hstate)
  have hend : d.jobEnd e .halt = ((d.jobCounted e j).engineFreed e j).put (dseState e) 1 := by
    unfold Dev.jobEnd Dev.jobResults
    dsimp only
    rw [hjob]
    dsimp only
    rw [hrun]
    exact if_pos hrunning
  rw [hend]
  refine ⟨hfreed, ?_, ?_, ?_, hfreedSram.trans hcountedSram⟩
  · exact Dev.get_put _ _ _ (by simp [dseState])
  · rw [Dev.get_put_addr _ _ _ _ (by simp [dseState, dseCntJob]), hfreedCount, hcount]
  · rw [Dev.get_put_addr _ _ _ _ (by simp [dseState, dseLastSt]), hfreedLast, hlast]

/-- What follows the end of the last work leaves the engines, their registers and the SRAM. -/
theorem Dev.OnlyPower.engines {d t : Dev} (h : d.OnlyPower t) : t.dses = d.dses ∧ t.sram = d.sram := by
  obtain ⟨⟨_, _, _, _, _, _, hrest⟩, -⟩ := h
  rw [hrest]
  exact ⟨rfl, rfl⟩

/-! ## The statement -/

/-- HALT without moves shows ST as it stood. -/
theorem Dev.rGet_dspRegs_st_halt (d : Dev) (e : Nat) (j : Job) {w : Nat} (hopc : iOpc w = 0x01) (hms : movesOf w = []) :
    rGet (d.dspRegs e j w) 0x39 = rGet (d.dse e).rf 0x39 := by
  rw [Dev.rGet_dspRegs_st, hms]
  simp only [dspOp, hopc]
  rfl

/-- Settles O31: the next word of each control instruction, and the end of a job at HALT. -/
theorem dspControlSetsTheProgramCounter : Obligations.DspControlSetsTheProgramCounter := by
  intro s e w hready
  refine ⟨?_, ?_, ?_, ?_⟩
  · intro h
    exact .of_writes hready h rfl (by decide) (by simp only [dspOp, h]; rfl) List.nodup_nil
  · intro h hrep
    have hop : dspOp w (s.dev.dse e).rf = OpOut.none_ := by simp only [dspOp, h]
    refine .of_dspStep hready rfl h (by decide) fun j => ?_
    have hran := Dev.dspRan_dspDone (d := s.dev) (e := e) j (by rw [hop]; exact List.nodup_nil)
    rw [hop, nextPc_br h hrep, brCond_eq] at hran
    exact hran
  · intro h
    have hop : dspOp w (s.dev.dse e).rf = OpOut.none_ := by simp only [dspOp, h]
    refine .of_dspStep hready rfl h (by decide) fun j => ?_
    have hran := Dev.dspRan_dspDone (d := s.dev) (e := e) j (by rw [hop]; exact List.nodup_nil)
    intro n
    have hnext : nextPc (s.dev.dse e) w = if n = 0 then ((s.dev.dse e).pc + 2, none) else ((s.dev.dse e).pc + 1, some n) := nextPc_rep h
    rw [hop, hnext] at hran
    by_cases hzero : n = 0
    · rw [if_pos hzero] at hran ⊢
      exact hran
    · rw [if_neg hzero] at hran ⊢
      exact hran
  · intro j h hjob hrun hstate hms
    obtain ⟨i, hi⟩ := Dev.exists_dspReady hready
    obtain rfl : i = j := Option.some.inj (hi.job.symm.trans hjob)
    have hop : dspOp w (s.dev.dse e).rf = OpOut.none_ := by simp only [dspOp, h]
    obtain ⟨-, -, -, hjobKept, -, hsram, hregs, -⟩ := Dev.dspRan_dspDone (d := s.dev) (e := e) i (by rw [hop]; exact List.nodup_nil)
    have hst : rGet ((s.dev.dspDone e i w).dse e).rf 0x39 = rGet (s.dev.dse e).rf 0x39 := by
      rw [s.dev.rf_dspDone, Dev.rGet_dspRegs_st_halt _ e i h hms, Dev.dse_stallsTaken]
    obtain ⟨hfree, hidle, hcount, hlast, hkept⟩ := Dev.jobEnd_halt (hjobKept.trans hjob) hrun
      ((hregs.get (by simp [dseState, dseCntCyc, dseCntCycHi])).trans hstate)
    have hpower := ((s.dev.dspDone e i w).jobEnd e .halt).onlyPower_idleNote (s.dev.dspDone e i w)
    obtain ⟨hdses, hpowerSram⟩ := hpower.engines
    refine .of_onDev (fun d => d.dspStep e 0x01) rfl ((hi.dspStep h).trans (if_pos rfl)) ⟨?_, ?_, ?_, ?_, ?_⟩
    · rw [Dev.jobOver, Dev.dse, hdses, dseTab_get, hfree]
    · exact (hpower.get _ (by simp only [dseState]; omega)).trans hidle
    · rw [Dev.jobOver, hpower.get _ (by simp only [dseCntJob]; omega), hcount,
        hregs.get (by simp [dseCntJob, dseCntCyc, dseCntCycHi])]
    · rw [Dev.jobOver, hpower.get _ (by simp only [dseLastSt]; omega), hlast, hst]
    · exact (hpowerSram.trans hkept).trans (hsram (by rw [hms]; rfl))

end Sys2Proof.Machine
end

section
/-!
PROOFS. The DSP engines between jobs: quiesce and resume, the start of a job by register and by dispatch, and the load of a kernel (R320,
R325, R333, R334, R339 to R341, R352).
-/

namespace Sys2Proof.Machine

/-! ## Quiesce and resume (R341) -/

theorem Dev.get_put_dseState (d : Dev) (e : Nat) {v : Nat} (hv : v < 8) : (d.put (dseState e) v).get (dseState e) = v :=
  (d.get_put (dseState e) v (by simp [dseState])).trans (Nat.mod_eq_of_lt hv)

theorem Dev.keepsRegs_put_dseState (d : Dev) (e v : Nat) : d.KeepsRegs (d.put (dseState e) v) [(dseState e).addr] :=
  Dev.keepsRegs_put _ _ (List.mem_singleton.2 rfl) (d.keepsRegs_refl _)

theorem Dev.dseQuiesce_waits {d : Dev} {e : Nat} (hload : d.get (dseState e) ≠ 3) (hquiet : d.get (dseState e) ≠ 5) :
    d.dseQuiesce e false = d.put (dseState e) 4 := by
  unfold Dev.dseQuiesce
  split
  · exact absurd ‹_› hload
  · exact absurd ‹_› hquiet
  · rfl

/-! ## The start of a job (R325, R328, R330) -/

theorem Dev.writeBlock_alone (d : Dev) (e : Nat) (j : Job) (vs : List View) : ∃ r, d.writeBlock e j vs = { d with sram := r } := by
  have hwords (l : List (Nat × Nat)) (d : Dev) : ∃ r, l.foldl (fun d p => d.setLocal e p.2 p.1) d = { d with sram := r } := by
    induction l generalizing d with
    | nil => exact ⟨d.sram, rfl⟩
    | cons p l ih =>
      obtain ⟨r, hr⟩ := ih (d.setLocal e p.2 p.1)
      exact ⟨r, hr⟩
  exact hwords _ d

theorem Dev.holdAus_alone (d : Dev) (vs : List View) : ∃ x, d.holdAus vs = { d with aus := x } := by
  unfold Dev.holdAus
  induction vs generalizing d with
  | nil => exact ⟨d.aus, rfl⟩
  | cons v vs ih =>
    rw [List.foldl_cons]
    obtain ⟨x, hx⟩ := ih (if v.kind = 2 then d.setAu v.au { d.au v.au with holds := ((d.get (auRecWr v.au) + 65535) % 65536) :: (d.au v.au).holds } else d)
    refine ⟨x, hx.trans ?_⟩
    split <;> rfl

/-- An idle engine takes a job: it runs from its entry on the views as they are now. -/
theorem Dev.jobStart_effect {d : Dev} {e : Nat} (j : Job) (hidle : d.get (dseState e) = 1) :
    let t := d.jobStart e j false
    t.get (dseState e) = 2 ∧ t.jobs = d.jobs ∧ (t.dse e).pc = (d.dse e).entry ∧
      (t.dse e).job = some { j with views := j.asks.map (d.viewOf j), startTb := d.tb } := by
  have hstarted (k : Job) (vs : List View) : ∃ r x, ((d.writeBlock e k vs).holdAus vs) = { d with sram := r, aus := x } := by
    obtain ⟨r, hr⟩ := d.writeBlock_alone e k vs
    obtain ⟨x, hx⟩ := (d.writeBlock e k vs).holdAus_alone vs
    exact ⟨r, x, hx.trans (by rw [hr])⟩
  obtain ⟨r, x, heq⟩ := hstarted { j with views := j.asks.map (d.viewOf j), startTb := d.tb } (j.asks.map (d.viewOf j))
  have hstart : d.jobStart e j false = ((({ d with sram := r, aus := x } : Dev).setDse e
      ((d.dse e).start { j with views := j.asks.map (d.viewOf j), startTb := d.tb })).put (dseState e) 2).putB (dseHoldAu e)
        ((j.asks.map (d.viewOf j)).any fun v => v.kind == 2) := by
    unfold Dev.jobStart
    dsimp only
    rw [if_neg Bool.false_ne_true, if_neg Bool.false_ne_true, heq]
    exact congrArg (Dev.putB · _ _) (if_neg (by rw [Dev.get_setDse]; exact fun h => absurd (hidle.symm.trans h) (by decide)))
  rw [hstart]
  refine ⟨?_, rfl, ?_, ?_⟩
  · exact (Dev.get_put_bits _ (dseHoldAu e) (dseState e) _ (by simp [dseHoldAu]) (by simp [dseHoldAu, dseState])).trans
      (Dev.get_put_dseState _ e (by decide))
  · exact congrArg Dse.pc (Dev.dse_setDse_same _ e _)
  · exact congrArg Dse.job (Dev.dse_setDse_same _ e _)

/-- The dispatch with no PPMU job waiting starts the next listed job on its engine. -/
theorem Dev.jobDispatch_listed {d : Dev} {j : Job} {e : Nat} (hqueues : ∀ i, i < 16 → (d.dse i).queue = [])
    (hnext : d.nextListed [] d.jobs = some (j, some e)) :
    d.jobDispatch = ({ d with jobs := d.jobs.erase j } : Dev).jobStart e j false := by
  have hnone : ((List.range 16).find? fun i =>
      !(d.dse i).queue.isEmpty && d.get (dseState i) != 2 && d.get (dseState i) != 4) = none :=
    List.find?_eq_none.2 fun i hi => by simp [hqueues i (List.mem_range.1 hi)]
  unfold Dev.jobDispatch
  dsimp only
  rw [hnone, hnext]

/-! ## The load of a kernel (R339, R340) -/

/-- The device when a kernel's code and data stand in the engine's memories and its registers show the kernel. -/
def Dev.kernelStored (d : Dev) (e : Nat) (l : KLoad) : Dev :=
  let f (a n : Nat) : Nat := ofBytes ((l.image.drop a).take n)
  let d := { d with sram := Tab.keep (fun k => !(decide (dseLocal e 0 ≤ k) && decide (k < dseLocal e 0 + 0x80000))) d.sram }
  let d := d.stBytes (dseInstr e 0) ((l.image.drop 64).take (8 * f 6 2))
  let d := d.stBytes (dseLocal e (f 12 2)) ((l.image.drop (64 + 8 * f 6 2)).take (8 * f 10 2))
  let d := (d.put (dseKid e) (f 2 2)).put (dseVersion e) (f 4 2)
  (((d.put (dseCntJob e) 0).put (dseCntErr e) 0).put (dseCntCyc e) 0).put (dseCntCycHi e) 0

/-- An engine with a kernel's parameters. -/
def Dse.withKernel (x : Dse) (l : KLoad) : Dse :=
  let f (a n : Nat) : Nat := ofBytes ((l.image.drop a).take n)
  { x with code := f 6 2, entry := f 8 2, nres := f 14 1, mode := f 15 1, limit := f 16 4, load := none, wasQ := false }

/-- The device when an engine holds a kernel, before the event. -/
def Dev.kernelHeld (d : Dev) (e : Nat) (l : KLoad) : Dev :=
  ((d.kernelStored e l).setDse e ((d.dse e).withKernel l)).put (dseState e) (if (d.dse e).wasQ then 5 else 1)

/-- What follows is an event and, with the last engine of the load, its completion. -/
theorem Dev.dseLoaded_onlyHost {d : Dev} {e : Nat} {l : KLoad} (hload : (d.dse e).load = some l) (hstate : d.get (dseState e) = 3) :
    (d.kernelHeld e l).OnlyHost (d.dseLoaded e) := by
  unfold Dev.dseLoaded
  extract_lets x _ d1
  split
  next hnone => exact absurd (hload.symm.trans hnone) (by simp)
  next m hm =>
    obtain rfl : l = m := Option.some.inj (hload.symm.trans hm)
    rw [if_neg (not_not.2 hstate)]
    extract_lets f code data d2 d3 d4 d5 d6 d7 more
    have hevent : (d.kernelHeld e l).OnlyHost d7 := Dev.onlyHost_event _ _ _ _
    refine hevent.trans ?_
    split
    · exact .refl _
    · split
      · exact Dev.onlyHost_complete _ _ _ _ _
      · exact .refl _

/-- Two bytes are a number of 16 bits. -/
theorem ofBytes_take_two (bs : List Byte) : ofBytes (bs.take 2) < 2 ^ 16 :=
  (ofBytes_lt _).trans_le (Nat.pow_le_pow_right (by decide) (List.length_take_le 2 bs))

theorem Dev.kernelStored_effect (d : Dev) (e : Nat) (l : KLoad) :
    (d.kernelStored e l).get (dseKid e) = ofBytes ((l.image.drop 2).take 2) ∧ (d.kernelStored e l).get (dseCntJob e) = 0 ∧
      (d.kernelStored e l).dses = d.dses := by
  unfold Dev.kernelStored
  extract_lets f d1 d2 d3 d4
  have hkid : d4.get (dseKid e) = ofBytes ((l.image.drop 2).take 2) :=
    (Dev.get_put_bits _ _ _ _ (by simp [dseVersion]) (by simp [dseVersion, dseKid])).trans
      ((Dev.get_put d3 _ _ (by simp [dseKid])).trans (Nat.mod_eq_of_lt (ofBytes_take_two _)))
  have hdses : d4.dses = d.dses := rfl
  clear_value d4
  refine ⟨?_, ?_, hdses⟩
  · rw [Dev.get_put_addr _ _ _ _ (by simp [dseCntCycHi, dseKid]), Dev.get_put_addr _ _ _ _ (by simp [dseCntCyc, dseKid]),
      Dev.get_put_addr _ _ _ _ (by simp [dseCntErr, dseKid]), Dev.get_put_addr _ _ _ _ (by simp [dseCntJob, dseKid]), hkid]
  · rw [Dev.get_put_addr _ _ _ _ (by simp [dseCntCycHi, dseCntJob]), Dev.get_put_addr _ _ _ _ (by simp [dseCntCyc, dseCntJob]),
      Dev.get_put_addr _ _ _ _ (by simp [dseCntErr, dseCntJob]), Dev.get_put _ _ _ (by simp [dseCntJob]), Nat.zero_mod]

/-- The registers and the engines when an engine holds a kernel. -/
theorem Dev.kernelHeld_effect (d : Dev) (e : Nat) (l : KLoad) :
    let t := d.kernelHeld e l
    t.get (dseState e) = (if (d.dse e).wasQ then 5 else 1) ∧ t.get (dseKid e) = ofBytes ((l.image.drop 2).take 2) ∧
      t.dse e = (d.dse e).withKernel l ∧ t.get (dseCntJob e) = 0 ∧ (∀ i, i ≠ e → t.dse i = d.dse i) := by
  obtain ⟨hkid, hcount, hdses⟩ := d.kernelStored_effect e l
  unfold Dev.kernelHeld
  generalize d.kernelStored e l = k at hkid hcount hdses
  refine ⟨Dev.get_put_dseState _ e (by split <;> decide), ?_, ?_, ?_, fun i hi => ?_⟩
  · rw [Dev.get_put_addr _ _ _ _ (by simp [dseState, dseKid]), Dev.get_setDse, hkid]
  · exact Dev.dse_setDse_same _ e _
  · rw [Dev.get_put_addr _ _ _ _ (by simp [dseState, dseCntJob]), Dev.get_setDse, hcount]
  · exact (Dev.dse_setDse _ e i _).trans ((if_neg (Ne.symm hi)).trans (congrArg (Tab.get (fun _ => Dse.init) · i) hdses))

theorem Dev.dseLoaded_effect {d : Dev} {e : Nat} {l : KLoad} (hload : (d.dse e).load = some l) (hstate : d.get (dseState e) = 3) :
    let t := d.dseLoaded e
    t.get (dseState e) = (if (d.dse e).wasQ then 5 else 1) ∧ t.get (dseKid e) = ofBytes ((l.image.drop 2).take 2) ∧
      (t.dse e).code = ofBytes ((l.image.drop 6).take 2) ∧ (t.dse e).entry = ofBytes ((l.image.drop 8).take 2) ∧
      (t.dse e).load = none ∧ t.get (dseCntJob e) = 0 ∧ (∀ i, i ≠ e → t.dse i = d.dse i) := by
  have hhost := Dev.dseLoaded_onlyHost hload hstate
  have hdse (i : Nat) : (d.dseLoaded e).dse i = (d.kernelHeld e l).dse i := by
    obtain ⟨⟨_, _, _, hrest⟩, -⟩ := hhost
    rw [hrest]
    rfl
  intro t
  rw [hhost.get (dseState e) (.inr (by simp only [dseState]; omega)), hhost.get (dseKid e) (.inr (by simp only [dseKid]; omega)),
    hhost.get (dseCntJob e) (.inr (by simp only [dseCntJob]; omega)), hdse e]
  obtain ⟨hst, hkid, hengine, hcount, hothers⟩ := d.kernelHeld_effect e l
  rw [hengine]
  exact ⟨hst, hkid, rfl, rfl, rfl, hcount, fun i hi => (hdse i).trans (hothers i hi)⟩

/-- Settles O28: each command is one branch of its function; what follows a load is an event and a completion. -/
theorem dspEnginesQuiesceLoadAndStartJobs : Obligations.DspEnginesQuiesceLoadAndStartJobs := by
  refine ⟨?_, ?_, ?_, ?_, ?_, ?_⟩
  · intro s e haw hload hquiet
    exact .of_onDevIdle (fun d => d.orHold (0x400008 + 0x1000 * e) (1 + 2 * false.toNat) fun d => d.dseQuiesce e false) rfl
      ((if_pos haw).trans (Dev.dseQuiesce_waits hload hquiet))
      ⟨s.dev.get_put_dseState e (by decide), s.dev.keepsRegs_put_dseState e 4, rfl⟩
  · intro s e hstate hjob
    refine .of_onDevIdle (fun d => d.dseQuiesced e) rfl (if_pos ⟨hstate, by rw [hjob]; rfl⟩) ⟨?_, Dev.event_dses _ _ _ _, ?_⟩
    · rw [Dev.get_event _ _ _ _ _ (.inr (by simp only [dseState]; omega)), Dev.get_put_dseState _ _ (by decide)]
    · exact Dev.keepsRegsEv_event _ _ _ (Dev.keepsRegsEv_put _ _ (List.mem_singleton.2 rfl) (s.dev.keepsRegsEv_refl _))
  · intro s e haw hstate
    exact .of_onDev (fun d => d.orHold (0x400008 + 0x1000 * e) 4 fun d => d.dseResume e) rfl ((if_pos haw).trans (if_pos hstate))
      ⟨s.dev.get_put_dseState e (by split <;> decide), s.dev.keepsRegs_put_dseState e _, rfl⟩
  · intro s e haw hstate hrunning
    refine .of_onDev (fun d => d.orHold (0x400028 + 0x1000 * e) 1 fun d => d.dseRunRow e) rfl
      ((if_pos haw).trans (if_pos ⟨hstate, hrunning⟩)) ?_
    refine ⟨Dev.get_put_dseState _ e (by decide), ?_, ?_, ?_, fun i hi => ?_, Dev.keepsRegs_put_dseState _ e 2, rfl⟩
    · exact congrArg (Option.isSome ∘ Dse.job) (Dev.dse_setDse_same _ e _)
    · exact congrArg Dse.pc (Dev.dse_setDse_same _ e _)
    · exact congrArg Dse.cycles (Dev.dse_setDse_same _ e _)
    · exact (Dev.dse_setDse _ e i _).trans (if_neg (Ne.symm hi))
  · intro s j e _ hqueues hnext hidle
    obtain ⟨hstate, hjobs, hpc, hjob⟩ := Dev.jobStart_effect (d := { s.dev with jobs := s.dev.jobs.erase j }) j hidle
    exact .of_onDevIdle (fun d => d.jobDispatch) rfl (Dev.jobDispatch_listed hqueues hnext) ⟨hstate, hjobs, hpc, _, hjob, rfl, rfl, rfl, rfl⟩
  · intro s e l hload hstate
    exact .of_onDevIdle (fun d => d.dseLoaded e) rfl rfl (Dev.dseLoaded_effect hload hstate)

end Sys2Proof.Machine
end

section
/-!
PROOFS. DBNZ of the DSP engines: the count modulo 2^40, the branch on it, and the flags it leaves (R369).
-/

namespace Sys2Proof.Machine

/-! ## The new count -/

/-- A pattern and the signed number that it stands for are congruent. -/
theorem toSigned_emod (w n : Nat) : toSigned w n % 2 ^ w = n % 2 ^ w := by
  unfold toSigned
  dsimp only
  push_cast
  split
  · exact Int.emod_emod _ _
  · rw [Int.sub_emod_right, Int.emod_emod]

/-- Counting down by 1 modulo 2^w: for a pattern the same as adding 2^w - 1. -/
theorem ofSigned_pred (w n : Nat) : ofSigned w (toSigned w n - 1) = (n % 2 ^ w + (2 ^ w - 1)) % 2 ^ w := by
  zify [Nat.one_le_two_pow (n := w)]
  calc (ofSigned w (toSigned w n - 1) : Int)
      = (toSigned w n % 2 ^ w - 1) % 2 ^ w := by rw [ofSigned_cast, Int.emod_sub_emod]
    _ = (n % 2 ^ w - 1 + 2 ^ w) % 2 ^ w := by rw [toSigned_emod, Int.add_emod_right]
    _ = (n % 2 ^ w + (2 ^ w - 1)) % 2 ^ w := congrArg (· % _) (by ring)

theorem lt_of_iCnt (w : Nat) : iCnt w < 16 := bitsOf_lt w 50 4

/-- The count that DBNZ leaves in D[CNT]. -/
def dbnzCount (w : Nat) (rf : Tab Nat) : Nat := (rGet rf (iCnt w) % 2 ^ 40 + (2 ^ 40 - 1)) % 2 ^ 40

theorem ofSigned_dVal_cnt (w : Nat) (rf : Tab Nat) : ofSigned 40 (dVal rf (iCnt w) - 1) = dbnzCount w rf := by
  rw [dVal, Nat.mod_eq_of_lt (lt_of_iCnt w)]
  exact ofSigned_pred 40 _

/-! ## The operation and the branch -/

/-- DBNZ writes its new count and gives no flags. -/
theorem dspOp_dbnz {w : Nat} (hopc : iOpc w = 0x03) (rf : Tab Nat) :
    dspOp w rf = { OpOut.none_ with wr := [(iCnt w, dbnzCount w rf)] } := by
  simp only [dspOp, hopc, ofSigned_dVal_cnt]

/-- DBNZ outside a REP goes to its target while its new count is not 0. -/
theorem nextPc_dbnz {x : Dse} {w : Nat} (hopc : iOpc w = 0x03) (hrep : x.rep = none) :
    nextPc x w = (if dbnzCount w x.rf = 0 then x.pc + 1 else iTarget w, none) := by
  have hbranch : branches w x.rf = (dbnzCount w x.rf != 0) := by simp only [branches, hopc, ofSigned_dVal_cnt]
  unfold nextPc
  rw [hrep, hbranch, if_neg (by omega)]
  by_cases hzero : dbnzCount w x.rf = 0 <;> simp [hzero]

/-- Settles O32: the completed instruction, by its one write, its next word, and an operation that gives no flags. -/
theorem dspDbnzCountsAndBranches : Obligations.DspDbnzCountsAndBranches := by
  intro s e w hready hopc hrep
  have hst : 0x39 ≠ iCnt w := by have := lt_of_iCnt w; omega
  have hop := dspOp_dbnz hopc (s.dev.dse e).rf
  refine .of_dspStep hready rfl hopc (by decide) fun j => ⟨?_, fun b hb => ?_⟩
  · have hran := Dev.dspRan_dspDone (d := s.dev) (e := e) j (by rw [hop]; exact List.nodup_singleton _)
    rw [hop, nextPc_dbnz hopc hrep] at hran
    dsimp only at hran
    exact hran
  · rw [s.dev.rf_dspDone, Dev.rGet_dspRegs_st, Dev.dse_stallsTaken, hop]
    exact testBit_newSt_silent (by simpa using hst) _ _ hb

end Sys2Proof.Machine
end

section
/-!
PROOFS. One step of the block, and what a SYNC edge does to the timebase (R405, R406, R408, R409).
-/

namespace Sys2Proof.Machine

/-! ## A step -/

/-- Settles O1: a step looks at the front of the queue. -/
theorem stepRunsTheFrontCommand : Obligations.StepRunsTheFrontCommand := by
  intro s c cs
  refine ⟨fun h => ?_, fun h => ?_⟩
  · rw [step, h]
  · rw [step, h]

/-! ## SYNC and the timebase (R405, R406) -/

/-- With no sequencer in SYNCW none waits for SYNC. -/
theorem Dev.syncWaiters_none {d : Dev} (h : ∀ q, q < 16 → d.get (seqState q) ≠ 4) : d.syncWaiters = [] := by
  rw [Dev.syncWaiters, List.filter_eq_nil_iff]
  intro q hq
  simp [h q (List.mem_range.mp hq)]

theorem Dev.seqState_ne_syncw {d : Dev} (h : d.anySeqBusy = false) {q : Nat} (hq : q < 16) : d.get (seqState q) ≠ 4 := by
  rw [Dev.anySeqBusy, List.any_eq_false] at h
  intro h4
  exact h q (List.mem_range.mpr hq) (by simp [Dev.seqBusy, h4, inRange])

/-- TB holds the loaded value, and no alignment is pending (R406). -/
def Dev.tbLoaded (d : Dev) : Dev :=
  ({ d with tb := d.get2 clkSyncLoad clkSyncLoadHi, tbFrac := 0, clk := { d.clk with alignForce := false } }).put clkAlignPend 0

/-- With nothing at work an alignment loads TB and moves no start time; a locked SYS ends the discontinuity (R406, R409). -/
theorem Dev.align_idle {d : Dev} (hseq : d.anySeqBusy = false) (hruns : d.runs = []) :
    d.align = if (d.tbLoaded.refOn && d.tbLoaded.get (pllState 0) == 3) = true then d.tbLoaded.put clkTbDisc 0 else d.tbLoaded := by
  have hwait := Dev.syncWaiters_none fun q hq => Dev.seqState_ne_syncw hseq hq
  have hforced : (d.is clkAlignPend && d.clk.alignForce && !d.runs.isEmpty) = false := by simp [hruns]
  rw [Dev.align, hforced, hwait]
  rfl

theorem Dev.align_idle_effect {d : Dev} (hseq : d.anySeqBusy = false) (hruns : d.runs = []) :
    d.align.tb = d.get2 clkSyncLoad clkSyncLoadHi ∧ d.align.get clkAlignPend = 0 ∧ d.KeepsRegs d.align [clkAlignPend.addr] := by
  have hload : d.tbLoaded.get clkAlignPend = 0 ∧ d.KeepsRegs d.tbLoaded [clkAlignPend.addr] :=
    ⟨Dev.get_put _ _ _ (by decide), Dev.keepsRegs_put _ _ (by decide) fun _ _ => rfl⟩
  rw [Dev.align_idle hseq hruns]
  split
  · exact ⟨rfl, (Dev.get_put_ne _ _ _ _ (by decide)).trans hload.1, Dev.keepsRegs_put _ _ (by decide) hload.2⟩
  · exact ⟨rfl, hload⟩

theorem Dev.get2_lt_of_words (d : Dev) {lo hi : Fld} (hlo : lo.w = 32) (hhi : hi.w = 32) : d.get2 lo hi < 2 ^ 64 := by
  have h1 := d.get_lt lo
  have h2 := d.get_lt hi
  rw [Dev.get2, hlo]
  rw [hlo] at h1
  rw [hhi] at h2
  omega

/-- Settles O17: nothing waits for SYNC while no sequencer is at work, so the edge loads TB and shows it. -/
theorem syncAlignsTheTimebase : Obligations.SyncAlignsTheTimebase := by
  refine ⟨fun s force => ?_, fun s => ?_, fun s haw hpend hseq hruns => ?_⟩
  · exact .of_onDev (fun d => d.syncRequest force) rfl rfl
      ⟨Dev.get_put _ _ _ (by decide), rfl, Dev.keepsRegs_put _ _ (by decide) fun _ _ => rfl, rfl⟩
  · exact .of_onDev (fun d => d.syncCancel) rfl rfl
      ⟨Dev.get_put _ _ _ (by decide), rfl, Dev.keepsRegs_put _ _ (by decide) fun _ _ => rfl, rfl⟩
  · obtain ⟨htb, hdone, hkeep⟩ := Dev.align_idle_effect hseq hruns
    have hnow : s.dev.alignNow = true := by simp [Dev.alignNow, hpend, hseq, hruns]
    have hshown : s.dev.KeepsRegs (s.dev.align.put2 clkTbSyncLo clkTbSyncHi s.dev.align.tb) [0x20004, 0x20020, 0x20024] :=
      Dev.keepsRegs_put _ _ (by decide) (Dev.keepsRegs_put _ _ (by decide) fun a ha => hkeep a (by simp_all [clkAlignPend]))
    have hwait : (s.dev.align.put2 clkTbSyncLo clkTbSyncHi s.dev.align.tb).syncWaiters = [] := by
      refine Dev.syncWaiters_none fun q hq => ?_
      rw [Dev.get, hshown _ (by simp [seqState]; omega)]
      exact Dev.seqState_ne_syncw hseq hq
    refine .of_onDev (fun d => d.syncArrival) rfl (t := s.dev.align.put2 clkTbSyncLo clkTbSyncHi s.dev.align.tb) ?_
      ⟨htb, ?_, ?_, fun a ha _ => hshown a (by simp; omega)⟩
    · simp [Dev.syncArrival, haw, hnow, hwait, Dev.forEach]
    · exact Dev.get2_put2 _ (by decide) (by decide) (by decide) (htb ▸ s.dev.get2_lt_of_words rfl rfl)
    · rw [Dev.put2, Dev.get_put_addr _ _ _ _ (by decide), Dev.get_put_addr _ _ _ _ (by decide), hdone]

end Sys2Proof.Machine
end

section
/-!
PROOFS. The PLLs: loss and return of the reference, search, lock, failure and recovery (R402, R410 to R413, R420 to R425).
-/

namespace Sys2Proof.Machine

/-! ## Coast, return and unlock (R402, R411, R412, R420 to R425) -/

theorem Dev.tmuDirty_eq (d : Dev) : ∃ tmus, d.tmuDirty = { d with tmus := tmus } := by
  refine ⟨d.tmuDirty.tmus, ?_⟩
  have h : { d.tmuDirty with tmus := [] } = { d with tmus := [] } := by
    refine Dev.forEach_keeps (fun d : Dev => { d with tmus := [] }) (fun e u _ => ?_) d
    dsimp only
    split <;> rfl
  exact congrArg (fun e : Dev => { e with tmus := d.tmuDirty.tmus }) h

/-- One PLL at a time: in another table of PLLs every other reads as before, and this one holds the same lock average. -/
def Dev.PllsBut (d : Dev) (plls : Tab PllSt) (p : Nat) : Prop :=
  (∀ q, q ≠ p → Tab.get (fun _ => PllSt.init) plls q = d.pll q) ∧ (Tab.get (fun _ => PllSt.init) plls p).avg = (d.pll p).avg

theorem Dev.pllsBut_setPll {d : Dev} {p : Nat} {x : PllSt} (h : x.avg = (d.pll p).avg) : d.PllsBut (d.setPll p x).plls p :=
  ⟨fun q hq => (d.pll_setPll p q x).trans (if_neg (Ne.symm hq)), (congrArg PllSt.avg (d.pll_setPll_same p x)).trans h⟩

theorem Dev.rampPause_eq (d : Dev) (p : Nat) : ∃ plls, d.rampPause p = { d with plls := plls } ∧ d.PllsBut plls p := by
  rw [Dev.rampPause]
  split
  · exact ⟨_, rfl, Dev.pllsBut_setPll rfl⟩
  · exact ⟨_, rfl, fun _ _ => rfl, rfl⟩

/-- A PLL that leaves its state shows the new one, unlocked; beyond its status only the PLL and the TMUs may change. -/
theorem Dev.pllLeave_eq (d : Dev) (p st : Nat) : ∃ plls tmus,
    d.pllLeave p st = { (d.put (pllState p) st).put (pllLockBit p) 0 with plls := plls, tmus := tmus } ∧ d.PllsBut plls p := by
  obtain ⟨plls, hpause, hothers, havg⟩ := d.rampPause_eq p
  rw [Dev.pllLeave, hpause]
  dsimp only
  have hthis : ∀ x : PllSt, x.avg = (d.pll p).avg → d.PllsBut (({ d with plls := plls }).setPll p x).plls p := fun x hx =>
    have hbut := Dev.pllsBut_setPll (d := { d with plls := plls }) (p := p) (hx.trans havg.symm)
    ⟨fun q hq => (hbut.1 q hq).trans (hothers q hq), hbut.2.trans havg⟩
  split
  · obtain ⟨tmus, hdirty⟩ := Dev.tmuDirty_eq ((((({ d with plls := plls }).put (pllState p) st).put (pllLockBit p) 0).setPll p _))
    rw [hdirty]
    exact ⟨_, tmus, rfl, hthis _ havg⟩
  · exact ⟨_, _, rfl, hthis _ havg⟩


/-- What a move of PLL `p` to state `st` shows and leaves: the other PLLs and every register but the PLL's status and counts. -/
structure Dev.PllMoved (d t : Dev) (p st : Nat) : Prop where
  state : t.get (pllState p) = st
  lock : t.get (pllLockBit p) = 0
  plls : ∀ q, q ≠ p → t.pll q = d.pll q
  regs : d.KeepsRegsEv t [(pllState p).addr, (pllCoasts p).addr]

theorem Dev.pllLeave_moved (d : Dev) {p st : Nat} (hst : st < 8) : d.PllMoved (d.pllLeave p st) p st := by
  obtain ⟨plls, tmus, hleave, hothers, _⟩ := d.pllLeave_eq p st
  have hregs : (d.pllLeave p st).regs = ((d.put (pllState p) st).put (pllLockBit p) 0).regs := by rw [hleave]
  refine ⟨?_, ?_, fun q hq => ?_, fun a ha _ => ?_⟩
  · rw [Dev.get_of_regs hregs, Dev.get_put_ne _ _ _ _ (by simp [pllState, pllLockBit]), Dev.get_put _ _ _ (by simp [pllState])]
    exact Nat.mod_eq_of_lt hst
  · rw [Dev.get_of_regs hregs, Dev.get_put _ _ _ (by simp [pllLockBit])]
    rfl
  · rw [hleave]
    exact hothers q hq
  · refine Dev.keepsRegs_of_regs hregs (Dev.keepsRegs_put _ _ ?_ (Dev.keepsRegs_put _ _ ?_ (d.keepsRegs_refl _))) a ha
    · simp [pllState, pllLockBit]
    · simp

theorem Dev.PllMoved.count {d t : Dev} {p st : Nat} (h : d.PllMoved t p st) {f : Fld} (hf : f.addr = (pllCoasts p).addr) :
    d.PllMoved (t.bump f) p st where
  state := (Dev.get_bump_ne _ _ _ (.inl (by rw [hf]; simp [pllCoasts, pllState]))).trans h.state
  lock := (Dev.get_bump_ne _ _ _ (.inl (by rw [hf]; simp [pllCoasts, pllLockBit]))).trans h.lock
  plls := h.plls
  regs := Dev.keepsRegsEv_bump _ (by simp [hf]) h.regs

theorem Dev.PllMoved.setPll {d t : Dev} {p st : Nat} (h : d.PllMoved t p st) (x : PllSt) : d.PllMoved (t.setPll p x) p st where
  state := h.state
  lock := h.lock
  plls q hq := (Dev.pll_setPll _ _ _ _).trans ((if_neg (Ne.symm hq)).trans (h.plls q hq))
  regs := h.regs

theorem Dev.PllMoved.onlyHost {d t u : Dev} {p st : Nat} (h : d.PllMoved t p st) (k : t.OnlyHost u) : d.PllMoved u p st where
  state := (k.get _ (.inr (by simp only [pllState]; omega))).trans h.state
  lock := (k.get _ (.inr (by simp only [pllLockBit]; omega))).trans h.lock
  plls q hq := by
    obtain ⟨⟨_, _, _, rfl⟩, _⟩ := k
    exact h.plls q hq
  regs := Dev.keepsRegsEv_onlyHost k h.regs

theorem Dev.pllCoast_moved (d : Dev) (p : Nat) : d.PllMoved (d.pllCoast p) p 4 :=
  (((d.pllLeave_moved (by decide)).count rfl).setPll _).onlyHost (Dev.onlyHost_event _ _ _ _)

/-- What each change in the order of the three PLLs shows of a PLL, where it looks at that PLL alone. -/
theorem Dev.forEach_plls {α : Type} (φ : Dev → Nat → α) (f : Dev → Nat → Dev)
    (h : ∀ d p q, q ≠ p → φ (f d p) q = φ d q) (g : α → α) (hg : ∀ d p, φ (f d p) p = g (φ d p)) (d : Dev) {p : Nat} (hp : p < 3) :
    φ (d.forEach [0, 1, 2] f) p = g (φ d p) := by
  simp only [Dev.forEach, List.foldl_cons, List.foldl_nil]
  interval_cases p
  · rw [h _ _ _ (by decide), h _ _ _ (by decide), hg]
  · rw [h _ _ _ (by decide), hg, h _ _ _ (by decide)]
  · rw [hg, h _ _ _ (by decide), h _ _ _ (by decide)]

theorem Dev.PllMoved.others {d t : Dev} {p st : Nat} (h : d.PllMoved t p st) {q : Nat} (hq : q ≠ p) :
    t.get (pllState q) = d.get (pllState q) ∧ t.coasts q = d.coasts q := by
  have hstate : t.get (pllState q) = d.get (pllState q) := by
    have hw := h.regs (pllState q).addr (by simp [pllState, pllCoasts]; omega) (.inr (by simp only [pllState]; omega))
    rw [Dev.get, hw, Dev.get]
  exact ⟨hstate, by rw [Dev.coasts, hstate, h.plls q hq, Dev.coasts]⟩

/-- The PLLs that a missing REFCLK sends to COAST, one after the other (R411). -/
def Dev.coastAll (d : Dev) : Dev := d.forEach [0, 1, 2] fun d p => if d.coasts p then d.pllCoast p else d

theorem Dev.state_coastAll (d : Dev) {p : Nat} (hp : p < 3) :
    d.coastAll.get (pllState p) = if d.coasts p then 4 else d.get (pllState p) := by
  refine congrArg Prod.snd (Dev.forEach_plls (fun d p => (d.coasts p, d.get (pllState p))) _ (fun d p q hq => ?_)
    (fun x => (false, if x.1 then 4 else x.2)) (fun d p => ?_) d hp)
  · split
    · rw [((d.pllCoast_moved p).others hq).1, ((d.pllCoast_moved p).others hq).2]
    · rfl
  · split
    next hc =>
      have h4 := (d.pllCoast_moved p).state
      have hover : (d.pllCoast p).coasts p = false := by rw [Dev.coasts, h4]; simp
      rw [h4, hover]
    next hc => simp [hc]

theorem Dev.word_coastAll (d : Dev) {a : Nat} (ha : a < 0x20100 ∨ 0x21000 ≤ a) (hh : a < 0x10000 ∨ 0x10300 ≤ a) :
    d.coastAll.word a = d.word a := by
  refine Dev.forEach_keeps (fun d : Dev => d.word a) (fun e p hp => ?_) d
  have hp3 : p < 3 := by simp at hp; omega
  split
  · exact (e.pllCoast_moved p).regs a (by simp [pllState, pllCoasts]; omega) hh
  · rfl

/-- The loss of the reference is shown and counted (R402). -/
def Dev.refLossNoted (d : Dev) : Dev := ((d.put clkRefPresent 0).bump clkRefLoss).event (srcPll 0) 0x0101 0

theorem Dev.keepsRegsEv_refLossNoted (d : Dev) : d.KeepsRegsEv d.refLossNoted [clkRefPresent.addr, clkRefLoss.addr] :=
  Dev.keepsRegsEv_event _ _ _ (Dev.keepsRegsEv_bump _ (by decide) (Dev.keepsRegsEv_put _ _ (by decide) (d.keepsRegsEv_refl _)))

theorem Dev.plls_refLossNoted (d : Dev) : d.refLossNoted.plls = d.plls := by
  obtain ⟨⟨_, _, _, h⟩, _⟩ := Dev.onlyHost_event ((d.put clkRefPresent 0).bump clkRefLoss) (srcPll 0) 0x0101 0
  exact (congrArg Dev.plls h :)

/-- While the clocks run the loss of the reference is noted, by the TMUs too, and PLLs coast (R402, R411). -/
theorem Dev.refLost_awake {d : Dev} (hon : d.refOn = true) (haw : d.awake = true) : d.refLost = d.refLossNoted.tmuDirty.coastAll := by
  have hstill : d.refLossNoted.awake = true := by
    have hw := d.keepsRegsEv_refLossNoted pwrState.addr (by decide) (by decide)
    rwa [Dev.awake, Dev.get, hw]
  have h : (d.refLossNoted.awake || d.refLossNoted.pwr.refLostInStandby) = true := by rw [hstill, Bool.true_or]
  rw [Dev.refLost, hon]
  exact congrArg (fun e : Dev => e.tmuDirty.coastAll) (if_pos h)

theorem Dev.coasts_congr {d e : Dev} {p : Nat} (hs : e.get (pllState p) = d.get (pllState p)) (hp : e.plls = d.plls) :
    e.coasts p = d.coasts p := by
  rw [Dev.coasts, hs, Dev.pll, hp]
  rfl

theorem Dev.refLost_effect {d : Dev} (hon : d.refOn = true) (haw : d.awake = true) :
    d.refLost.refOn = false ∧ d.refLost.get clkRefLoss = min (d.get clkRefLoss + 1) (2 ^ clkRefLoss.w - 1) ∧
    (∀ p, p < 3 → d.refLost.get (pllState p) = if d.coasts p then 4 else d.get (pllState p)) ∧
    (∀ a, (a < 0x20000 ∨ 0x21000 ≤ a) → (a < 0x10000 ∨ 0x10300 ≤ a) → d.refLost.word a = d.word a) := by
  rw [Dev.refLost_awake hon haw]
  obtain ⟨tmus, hdirty⟩ := d.refLossNoted.tmuDirty_eq
  have hregs : d.refLossNoted.tmuDirty.regs = d.refLossNoted.regs := by rw [hdirty]
  have hplls : d.refLossNoted.tmuDirty.plls = d.plls := by rw [hdirty]; exact d.plls_refLossNoted
  have hlow (f : Fld) (h : 0x20000 ≤ f.addr ∧ f.addr < 0x20100) :
      d.refLossNoted.tmuDirty.coastAll.get f = d.refLossNoted.get f := by
    rw [Dev.get, Dev.word_coastAll _ (.inl h.2) (by omega)]
    exact Dev.get_of_regs hregs f
  have hstate (p : Nat) : d.refLossNoted.get (pllState p) = d.get (pllState p) := by
    rw [Dev.get, d.keepsRegsEv_refLossNoted _ (by simp [pllState, clkRefPresent, clkRefLoss]; omega) (by simp [pllState]; omega), Dev.get]
  refine ⟨?_, ?_, fun p hp => ?_, fun a ha hh => ?_⟩
  · have h0 : d.refLossNoted.get clkRefPresent = 0 := by
      rw [Dev.refLossNoted, Dev.get_event _ _ _ _ _ (by decide), Dev.get_bump_ne _ _ _ (by decide)]
      exact Dev.get_put _ _ _ (by decide)
    rw [Dev.refOn, Dev.is, hlow _ (by decide), h0]
    rfl
  · rw [hlow _ (by decide), Dev.refLossNoted, Dev.get_event _ _ _ _ _ (by decide), Dev.get_bump _ _ (by decide),
      Dev.get_put_addr _ _ _ _ (by decide)]
  · rw [Dev.state_coastAll _ hp, Dev.get_of_regs hregs, hstate,
      Dev.coasts_congr ((Dev.get_of_regs hregs _).trans (hstate p)) hplls]
  · rw [Dev.word_coastAll _ (by omega) hh, Dev.word, hregs]
    exact d.keepsRegsEv_refLossNoted a (by simp [clkRefPresent, clkRefLoss]; omega) hh

/-! ## The reference comes back (R402, R421 to R423) -/

/-- The PLLs that coast measure their return, one after the other (R411, R421). -/
def Dev.returnAll (d : Dev) : Dev :=
  d.forEach [0, 1, 2] fun d p =>
    if d.get (pllState p) = 4 then
      let x := d.pll p
      (d.setPll p { x with coastLen := d.mclk - x.coastAt, measured := false, slewing := false, toAt := 0 }).put (pllState p) 5
    else d

theorem Dev.state_returnAll (d : Dev) {p : Nat} (hp : p < 3) :
    d.returnAll.get (pllState p) = if d.get (pllState p) = 4 then 5 else d.get (pllState p) := by
  refine Dev.forEach_plls (fun d p => d.get (pllState p)) _ (fun d p q hq => ?_) (fun x => if x = 4 then 5 else x) (fun d p => ?_) d hp
  · dsimp only
    split
    · rw [Dev.get_put_addr _ _ _ _ (by simp [pllState]; omega)]
      rfl
    · rfl
  · dsimp only
    split
    · exact Dev.get_put _ _ _ (by simp [pllState])
    · rfl

theorem Dev.returnAll_alone (d : Dev) :
    (∀ a, (a < 0x20100 ∨ 0x21000 ≤ a) → d.returnAll.word a = d.word a) ∧ ∃ regs plls, d.returnAll = { d with regs := regs, plls := plls } := by
  refine ⟨fun a ha => Dev.forEach_keeps (fun d : Dev => d.word a) (fun e p hp => ?_) d, d.returnAll.regs, d.returnAll.plls, ?_⟩
  · have hp3 : p < 3 := by simp at hp; omega
    dsimp only
    split
    · exact Dev.word_put_ne _ _ _ (by simp [pllState]; omega)
    · rfl
  · have h : { d.returnAll with regs := [], plls := [] } = { d with regs := [], plls := [] } :=
      Dev.forEach_keeps (fun d : Dev => { d with regs := [], plls := [] }) (fun e p _ => by dsimp only; split <;> rfl) d
    exact congrArg (fun e : Dev => { e with regs := d.returnAll.regs, plls := d.returnAll.plls }) h

/-- The reference is shown present (R402). -/
def Dev.refFoundNoted (d : Dev) : Dev := (d.put clkRefPresent 1).event (srcPll 0) 0x0102 0

theorem Dev.refFound_effect {d : Dev} (hoff : d.refOn = false) :
    d.refFound.refOn = true ∧
    (∀ p, p < 3 → d.refFound.get (pllState p) = if d.get (pllState p) = 4 then 5 else d.get (pllState p)) ∧
    d.KeepsOutside d.refFound 0x20000 0x21000 ∧
    { d.refFound with regs := d.regs, host := d.host, out := d.out, plls := d.plls } = d := by
  have hfound : d.refFound = d.refFoundNoted.returnAll := by rw [Dev.refFound, hoff]; rfl
  obtain ⟨hwords, regs, plls, hrest⟩ := d.refFoundNoted.returnAll_alone
  obtain ⟨⟨regs', host, out, hnoted⟩, _⟩ := Dev.onlyHost_event (d.put clkRefPresent 1) (srcPll 0) 0x0102 0
  have hkeep : d.KeepsRegsEv d.refFoundNoted [clkRefPresent.addr] :=
    Dev.keepsRegsEv_event _ _ _ (Dev.keepsRegsEv_put _ _ (by decide) (d.keepsRegsEv_refl _))
  refine ⟨?_, fun p hp => ?_, fun a ha hh => ?_, ?_⟩
  · have h1 : d.refFoundNoted.get clkRefPresent = 1 := by
      rw [Dev.refFoundNoted, Dev.get_event _ _ _ _ _ (by decide)]
      exact Dev.get_put _ _ _ (by decide)
    rw [hfound, Dev.refOn, Dev.is, Dev.get, hwords _ (by decide)]
    exact congrArg (· == 1) h1
  · rw [hfound, Dev.state_returnAll _ hp, Dev.get,
      hkeep _ (by simp [pllState, clkRefPresent]; omega) (by simp [pllState]; omega), Dev.get]
  · rw [hfound, hwords _ (by omega)]
    exact hkeep a (by simp [clkRefPresent]; omega) hh
  · rw [hfound, hrest, Dev.refFoundNoted, hnoted]
    rfl

/-- The offset of SYS's return is shown and built out: TB has a discontinuity (R409, R421). -/
def Dev.sysBuiltOut (d : Dev) (off : Nat) : Dev :=
  ((d.put (pllBuildout 0) off).setPll 0 { d.pll 0 with measured := true, toAt := d.mclk + us (max 50 (d.get (pllAcqTo 0))) }).tbDisc

theorem Dev.returnMeasured_sys {d : Dev} (off : Nat) (hst : d.get (pllState 0) = 5) (hm : (d.pll 0).measured = false)
    (hon : d.refOn = true) : ∃ pay, d.returnMeasured 0 off = (d.sysBuiltOut off).event (srcPll 0) 0x0103 pay := by
  refine ⟨ofSigned 32 (toSigned 24 off) + 2 ^ 32 * ((d.pll 0).coastLen / 1500 % 2 ^ 32) + 2 ^ 64 * d.tb, ?_⟩
  rw [Dev.returnMeasured, if_neg (by simp [hst, hm, hon])]
  dsimp only
  rw [if_pos rfl, Dev.get_put_addr _ _ (pllAcqTo 0) _ (by decide)]
  rfl

theorem Dev.returnMeasured_ckx {d : Dev} {p : Nat} (off : Nat) (hp : p ≠ 0) (hst : d.get (pllState p) = 5)
    (hm : (d.pll p).measured = false) (hon : d.refOn = true) :
    d.returnMeasured p off = (d.put (pllBuildout p) off).setPll p { d.pll p with measured := true, slewing := true, toAt := 0 } := by
  rw [Dev.returnMeasured, if_neg (by simp [hst, hm, hon])]
  exact if_neg hp

theorem Dev.get_sysBuiltOut (d : Dev) (off : Nat) {f : Fld} (hf : 0x20030 ≤ f.addr) :
    (d.sysBuiltOut off).get f = (d.put (pllBuildout 0) off).get f := by
  rw [Dev.sysBuiltOut, Dev.tbDisc, Dev.get_bump_ne _ _ _ (.inl (by simp only [clkDisc]; omega)),
    Dev.get_put_addr _ _ _ _ (by simp only [clkTbDisc]; omega)]
  rfl

/-- The measured offset is shown; a CKx slews, and SYS marks a discontinuity of TB (R421 to R423). -/
theorem Dev.returnMeasured_effect {d : Dev} {p : Nat} (off : BitVec 24) (hst : d.get (pllState p) = 5)
    (hm : (d.pll p).measured = false) (hon : d.refOn = true) :
    let t := d.returnMeasured p off.toNat
    t.get (pllBuildout p) = off.toNat ∧ (t.pll p).measured = true ∧
      (t.pll p).slewing = (if p = 0 then (d.pll p).slewing else true) ∧ (p = 0 → t.get clkTbDisc = 1) ∧ t.get (pllState p) = 5 := by
  have hoff : (d.put (pllBuildout p) off.toNat).get (pllBuildout p) = off.toNat :=
    (Dev.get_put _ _ _ (by simp [pllBuildout])).trans (Nat.mod_eq_of_lt off.isLt)
  have hst' : (d.put (pllBuildout p) off.toNat).get (pllState p) = 5 :=
    (Dev.get_put_addr _ _ _ _ (by simp [pllBuildout, pllState])).trans hst
  by_cases hp : p = 0
  · subst hp
    obtain ⟨pay, hret⟩ := Dev.returnMeasured_sys off.toNat hst hm hon
    have hpll : ((d.returnMeasured 0 off.toNat).pll 0) =
        { d.pll 0 with measured := true, toAt := d.mclk + us (max 50 (d.get (pllAcqTo 0))) } := by
      obtain ⟨⟨_, _, _, hev⟩, _⟩ := Dev.onlyHost_event (d.sysBuiltOut off.toNat) (srcPll 0) 0x0103 pay
      rw [hret, hev]
      exact Dev.pll_setPll_same (d.put (pllBuildout 0) off.toNat) 0 _
    dsimp only
    refine ⟨?_, by rw [hpll], by rw [hpll, if_pos rfl], fun _ => ?_, ?_⟩
    · rw [hret, Dev.get_event _ _ _ _ _ (by decide), d.get_sysBuiltOut _ (by decide), hoff]
    · rw [hret, Dev.get_event _ _ _ _ _ (by decide), Dev.sysBuiltOut, Dev.tbDisc, Dev.get_bump_ne _ _ _ (by decide)]
      exact Dev.get_put _ _ _ (by decide)
    · rw [hret, Dev.get_event _ _ _ _ _ (by decide), d.get_sysBuiltOut _ (by decide), hst']
  · dsimp only
    rw [Dev.returnMeasured_ckx _ hp hst hm hon, if_neg hp]
    simp only [Dev.get_setPll, Dev.pll_setPll_same, hoff, hst', hp, true_and, false_implies]

/-- A slew that is over times the lock of its PLL alone (R423). -/
theorem Dev.slewDone_slewing {d : Dev} {p : Nat} (hst : d.get (pllState p) = 5) (hs : (d.pll p).slewing = true) :
    d.slewDone p = d.setPll p { d.pll p with slewing := false, toAt := d.mclk + us (max 50 (d.get (pllAcqTo p))) } :=
  if_pos ⟨hst, hs⟩

/-- Settles O14: the PLLs are taken one after the other, each looking at its own state alone. -/
theorem referenceLossCoastsAndReturnIsBuiltOut : Obligations.ReferenceLossCoastsAndReturnIsBuiltOut := by
  refine ⟨⟨fun s hon haw => ?_, fun s hoff => ?_⟩, fun s p off hst hm hon => ?_, fun s p hst hs => ?_⟩
  · obtain ⟨hoff, hcount, hplls, hregs⟩ := Dev.refLost_effect hon haw
    exact .of_onDev (fun d => d.refLost) rfl rfl ⟨hoff, hcount, hplls, fun a ha hh _ => hregs a ha hh⟩
  · exact .of_onDev (fun d => d.refFound) rfl rfl (Dev.refFound_effect hoff)
  · refine .of_onDev (fun d => d.returnMeasured p off.toNat) rfl rfl ?_
    simpa using Dev.returnMeasured_effect off hst hm hon
  · refine .of_onDev (fun d => d.slewDone p) rfl (Dev.slewDone_slewing hst hs) ⟨?_, ?_, fun r hr => ?_, rfl⟩
    · rw [Dev.pll_setPll_same]
    · rw [Dev.pll_setPll_same]
    · rw [Dev.pll_setPll, if_neg (Ne.symm hr)]

/-! ## Search, lock, failure and recovery (R410 to R413, R424, R425) -/

/-- A band search has ended: ACQUIRE and the band are shown (R410, R411). -/
def Dev.bandShown (d : Dev) (p band : Nat) : Dev := (d.put (pllState p) 2).put (pllBand p) band

theorem Dev.bandChosen_search {d : Dev} {p : Nat} (band q : Nat) (hst : d.get (pllState p) = 1) :
    d.bandChosen p band q = if p = 0 then d.bandShown p band
      else (d.bandShown p band).put (pllQ p) (dcoQ ((d.bandShown p band).get (pllFnow p)) q) := if_pos hst

theorem Dev.bandShown_effect (d : Dev) (p : Nat) (band : Fin 64) :
    (d.bandShown p band).get (pllState p) = 2 ∧ (d.bandShown p band).get (pllBand p) = band ∧
    (d.bandShown p band).get (pllQ p) = d.get (pllQ p) ∧ d.KeepsRegs (d.bandShown p band) [(pllState p).addr] := by
  refine ⟨?_, ?_, ?_, Dev.keepsRegs_put _ _ ?_ (Dev.keepsRegs_put _ _ ?_ (d.keepsRegs_refl _))⟩
  · rw [Dev.bandShown, Dev.get_put_ne _ _ _ _ (by simp [pllState, pllBand])]
    exact Dev.get_put _ _ _ (by simp [pllState])
  · exact (Dev.get_put _ _ _ (by simp [pllBand])).trans (Nat.mod_eq_of_lt band.isLt)
  · rw [Dev.bandShown, Dev.get_put_ne _ _ _ _ (by simp [pllQ, pllBand]), Dev.get_put_ne _ _ _ _ (by simp [pllQ, pllState])]
  · simp [pllBand, pllState]
  · simp

/-- A band search that ends shows ACQUIRE and the band; SYS keeps its divider (R410, R411). -/
theorem Dev.bandChosen_effect {d : Dev} {p : Nat} (band : Fin 64) (q : Nat) (hst : d.get (pllState p) = 1) :
    (d.bandChosen p band q).get (pllState p) = 2 ∧ (d.bandChosen p band q).get (pllBand p) = band ∧
    (p = 0 → (d.bandChosen p band q).get (pllQ p) = d.get (pllQ p)) ∧
    { d.bandChosen p band q with regs := d.regs } = d ∧ d.KeepsRegs (d.bandChosen p band q) [(pllState p).addr] := by
  obtain ⟨hstate, hband, hq, hkeep⟩ := d.bandShown_effect p band
  rw [Dev.bandChosen_search _ _ hst]
  split
  · exact ⟨hstate, hband, fun _ => hq, by simp [Dev.bandShown], hkeep⟩
  next hp =>
    refine ⟨?_, ?_, fun h => absurd h hp, by simp [Dev.bandShown], Dev.keepsRegs_put _ _ (by simp [pllQ, pllState]) hkeep⟩
    · rw [Dev.get_put_ne _ _ _ _ (by simp [pllQ, pllState]), hstate]
    · rw [Dev.get_put_ne _ _ _ _ (by simp [pllQ, pllBand]), hband]

/-- Nothing enters P0 while the device is not waking (R415). -/
theorem Dev.tryP0_not_waking {d : Dev} (h : d.pwr.wakeWhy = 0) : d.tryP0 = d := by
  rw [Dev.tryP0]
  exact if_pos (.inl h)

/-- The state of a PLL that locks now: it holds a lock average, and the frequency that it shows is its lock (R411, R412). -/
def Dev.lockedPll (d : Dev) (p : Nat) : PllSt :=
  let x := d.pll p
  { x with
    avg := true, fails := 0, toAt := 0, lockHz := d.get (pllFnow p), measured := false, slewing := false, freqWait := false
    attempt := x.attempt + 1, rampAt := d.mclk }

/-- A PLL shows LOCKED, and its unlock condition ends (R411, R465). -/
def Dev.pllLocked (d : Dev) (p : Nat) : Dev :=
  (((d.setPll p (d.lockedPll p)).put (pllState p) 3).put (pllLockBit p) 1).condEnd (srcPll p) 0

theorem Dev.pllLock_moves {d : Dev} {p : Nat} (h : (d.pll p).freqWait = false) : (d.pllLocked p).OnlyHost (d.pllLock p) := by
  have hlock : d.pllLock p = if (d.pllLocked p).is (pllEvLock p) then
      (d.pllLocked p).event (srcPll p) 0x0105 ((d.pllLocked p).get (pllFnow p)) else d.pllLocked p := by
    rw [Dev.pllLock]
    exact if_neg (by rw [h]; exact Bool.false_ne_true)
  rw [hlock]
  split
  · exact Dev.onlyHost_event _ _ _ _
  · exact .refl _

/-- The lock criterion met in ACQUIRE locks the PLL at its frequency (R412). -/
theorem Dev.lockCriterion_acquire {d : Dev} {p : Nat} (hst : d.get (pllState p) = 2) (hwait : (d.pll p).freqWait = false) :
    (d.lockCriterion p).get (pllState p) = 3 ∧ (d.lockCriterion p).get (pllLockBit p) = 1 ∧
    (d.lockCriterion p).pll p = d.lockedPll p ∧ d.KeepsRegsEv (d.lockCriterion p) [(pllState p).addr] ∧
    (d.lockCriterion p).pwr = d.pwr := by
  have hlock : d.lockCriterion p = d.pllLock p := by
    rw [Dev.lockCriterion]
    exact if_pos (by simp [hst])
  have hmove := Dev.pllLock_moves hwait
  have hplls : (d.pllLocked p).plls = (d.setPll p (d.lockedPll p)).plls := by simp [Dev.pllLocked, Dev.condEnd]
  have hpll : (d.pllLocked p).pll p = d.lockedPll p := by
    rw [Dev.pll, hplls]
    exact d.pll_setPll_same p _
  have hregs : (d.pllLocked p).regs = (((d.setPll p (d.lockedPll p)).put (pllState p) 3).put (pllLockBit p) 1).regs := rfl
  have hkeep : d.KeepsRegs (d.pllLocked p) [(pllState p).addr] := Dev.keepsRegs_of_regs hregs <|
    Dev.keepsRegs_put _ _ (by simp [pllLockBit, pllState]) (Dev.keepsRegs_put _ _ (by simp) (d.keepsRegs_refl _))
  have hstate : (d.pllLocked p).get (pllState p) = 3 := by
    rw [Dev.get_of_regs hregs, Dev.get_put_ne _ _ _ _ (by simp [pllLockBit, pllState]), Dev.get_put _ _ _ (by simp [pllState])]
    rfl
  have hbit : (d.pllLocked p).get (pllLockBit p) = 1 := by
    rw [Dev.get_of_regs hregs, Dev.get_put _ _ _ (by simp [pllLockBit])]
    rfl
  have hsame : (d.pllLock p).pll p = (d.pllLocked p).pll p ∧ (d.pllLock p).pwr = d.pwr := by
    obtain ⟨⟨_, _, _, h⟩, _⟩ := hmove
    rw [h]
    exact ⟨rfl, by simp [Dev.pllLocked, Dev.condEnd]⟩
  rw [hlock]
  refine ⟨(hmove.get _ (.inr (by simp only [pllState]; omega))).trans hstate,
    (hmove.get _ (.inr (by simp only [pllLockBit]; omega))).trans hbit, hsame.1.trans hpll,
    Dev.keepsRegsEv_onlyHost hmove fun a ha _ => hkeep a ha, hsame.2⟩

/-- An attempt that is tried again, and one that has failed for the third time (R413). -/
def Dev.attemptAgain (d : Dev) (p : Nat) : Dev :=
  ((d.advanceTo (d.pll p).toAt).pllSearch p).setPll p
    { ((d.advanceTo (d.pll p).toAt).pllSearch p).pll p with fails := (d.pll p).fails + 1, freqWait := (d.pll p).freqWait }

def Dev.attemptFailed (d : Dev) (p : Nat) : Dev :=
  let e := ((d.advanceTo (d.pll p).toAt).pllLeave p 7).event (srcPll p) 0x0106 0
  e.setPll p { e.pll p with avg := false, fails := 0, freqWait := false, attempt := (d.pll p).attempt + 1 }

theorem Dev.acqTimeout_acquire {d : Dev} {p : Nat} (hst : d.get (pllState p) = 2) (hto : (d.pll p).toAt ≠ 0) :
    d.acqTimeout p = if (d.pll p).fails < 2 then d.attemptAgain p else d.attemptFailed p := by
  rw [Dev.acqTimeout, if_neg hto, hst]
  rfl

theorem Dev.attemptFailed_effect (d : Dev) (p : Nat) : (d.attemptFailed p).mclk = max d.mclk (d.pll p).toAt ∧
    (d.attemptFailed p).get (pllState p) = 7 ∧ (d.attemptFailed p).pwr = d.pwr := by
  obtain ⟨plls, tmus, hleave, _⟩ := (d.advanceTo (d.pll p).toAt).pllLeave_eq p 7
  have hmoved := (d.advanceTo (d.pll p).toAt).pllLeave_moved (p := p) (st := 7) (by decide)
  have hhost := Dev.onlyHost_event ((d.advanceTo (d.pll p).toAt).pllLeave p 7) (srcPll p) 0x0106 0
  refine ⟨?_, (hmoved.onlyHost hhost).state, ?_⟩
  · simp only [Dev.attemptFailed, Dev.setPll_mclk, Dev.event_mclk, hleave, Dev.put_mclk, d.mclk_advanceTo]
  · simp only [Dev.attemptFailed, Dev.setPll_pwr, Dev.event_pwr, hleave, Dev.put_pwr, Dev.advanceTo_pwr]

/-- An attempt that reaches its time limit is tried again, or after the third fails (R413). -/
theorem Dev.acqTimeout_effect {d : Dev} {p : Nat} (hst : d.get (pllState p) = 2) (hto : (d.pll p).toAt ≠ 0) :
    (d.acqTimeout p).mclk = max d.mclk (d.pll p).toAt ∧
    (d.acqTimeout p).get (pllState p) = (if (d.pll p).fails < 2 then 1 else 7) ∧ (d.acqTimeout p).pwr = d.pwr := by
  rw [Dev.acqTimeout_acquire hst hto]
  split
  · refine ⟨?_, ?_, ?_⟩
    · simp only [Dev.attemptAgain, Dev.setPll_mclk, Dev.pllSearch, Dev.put_mclk, d.mclk_advanceTo]
    · rw [Dev.attemptAgain, Dev.get_setPll, Dev.get_pllSearch_state]
    · simp only [Dev.attemptAgain, Dev.setPll_pwr, Dev.pllSearch, Dev.put_pwr, Dev.advanceTo_pwr]
  · exact d.attemptFailed_effect p

theorem Dev.regs_report (d : Dev) (src chk syn det scope : Nat) (level : Bool) : (d.report src chk syn det scope level).regs = d.regs := by
  obtain ⟨fcu, h⟩ := d.report_eq src chk syn det scope level
  rw [h]

theorem Dev.pllLeave_keeps_unlocks (d : Dev) (p st : Nat) : (d.pllLeave p st).get (pllUnlocks p) = d.get (pllUnlocks p) := by
  obtain ⟨plls, tmus, hleave, _⟩ := d.pllLeave_eq p st
  have hregs : (d.pllLeave p st).regs = ((d.put (pllState p) st).put (pllLockBit p) 0).regs := by rw [hleave]
  rw [Dev.get_of_regs hregs, Dev.get_put_addr _ _ _ _ (by simp [pllLockBit, pllUnlocks]),
    Dev.get_put_addr _ _ _ _ (by simp [pllState, pllUnlocks])]

/-- With no sequencer at work LOCK_LOST opens the PLL, counts, and reports (R412, R424). -/
theorem Dev.lockLost_quiet {d : Dev} {p : Nat} (hst : d.get (pllState p) = 3) (hseq : ∀ q, q < 16 → d.seqBusy q = false) :
    ∃ x sites, d.lockLost p = (((d.pllLeave p 6).bump (pllUnlocks p)).setPll p x).report (srcPll p) 0 0 0 sites true := by
  have hnone : ((List.range 16).filter fun s => inRange 1 4 (d.get (seqState s)) && d.usesPll s p) = [] := by
    rw [List.filter_eq_nil_iff]
    intro q hq
    have hbusy := hseq q (List.mem_range.mp hq)
    simp only [Dev.seqBusy, inRange, Bool.and_eq_false_iff, decide_eq_false_iff_not] at hbusy
    simp only [inRange, Bool.and_eq_true, decide_eq_true_eq]
    omega
  rw [Dev.lockLost, if_pos hst, Dev.pllUnlock, hnone]
  exact ⟨_, _, rfl⟩

/-- A PLL whose halts are over tries to lock again (R425). -/
def Dev.recovering (d : Dev) (p : Nat) : PllSt :=
  { d.pll p with fails := 0, toAt := d.mclk + us (max 50 (d.get (pllAcqTo p))), attempt := (d.pll p).attempt + 1 }

theorem Dev.openRecovery_locks {d : Dev} {p : Nat} (hst : d.get (pllState p) = 6) (haff : (d.pll p).affected = 0) (hon : d.refOn = true) :
    d.openRecovery p = (d.setPll p (d.recovering p)).put (pllState p) 2 := by
  rw [Dev.openRecovery, if_neg (by simp [hst, haff, maskList]), if_pos hon]
  rfl

/-- Settles O15: each event acts in the one state that it names. -/
theorem pllStatesFollowTheLockDetector : Obligations.PllStatesFollowTheLockDetector := by
  refine ⟨fun s p band q hst => ?_, fun s p hst hwhy hwait => ?_, fun s p hst hwhy hto => ?_, fun s p hst hseq => ?_,
    fun s p hst haff hon => ?_⟩
  · obtain ⟨hstate, hband, hq, hrest⟩ := Dev.bandChosen_effect band q.toNat hst
    exact .of_onDev (fun d => d.bandChosen p band q.toNat) rfl rfl ⟨hstate, hband, fun h => hq (by simp [h]), hrest⟩
  · obtain ⟨hstate, hbit, hpll, hkeep, hpwr⟩ := Dev.lockCriterion_acquire hst hwait
    exact .of_onDevIdle (fun d => (d.lockCriterion p).tryP0) rfl (Dev.tryP0_not_waking (by rw [hpwr, hwhy]))
      ⟨hstate, hbit, by rw [hpll]; rfl, by rw [hpll]; rfl, hkeep⟩
  · obtain ⟨hmclk, hstate, hpwr⟩ := Dev.acqTimeout_effect hst hto
    exact .of_onDevIdle (fun d => (d.acqTimeout p).tryP0) rfl (Dev.tryP0_not_waking (by rw [hpwr, hwhy])) ⟨hmclk, hstate⟩
  · obtain ⟨x, sites, hlost⟩ := Dev.lockLost_quiet hst hseq
    have hmoved := s.dev.pllLeave_moved (p := p) (st := 6) (by decide)
    have hcount := hmoved.count (f := pllUnlocks p) rfl
    have hbump : ((s.dev.pllLeave p 6).bump (pllUnlocks p)).get (pllUnlocks p) = min (s.dev.get (pllUnlocks p) + 1) 0xFFFF := by
      rw [Dev.get_bump _ _ (by simp [pllUnlocks]), Dev.pllLeave_keeps_unlocks]
      rfl
    refine .of_onDev (fun d => d.lockLost p) rfl hlost ?_
    have hregs := Dev.regs_report (((s.dev.pllLeave p 6).bump (pllUnlocks p)).setPll p x) (srcPll p) 0 0 0 sites true
    rw [Dev.get_of_regs hregs, Dev.get_of_regs hregs, Dev.get_of_regs hregs, Dev.get_setPll, Dev.get_setPll, Dev.get_setPll]
    exact ⟨hcount.state, hcount.lock, hbump⟩
  · refine .of_onDev (fun d => d.openRecovery p) rfl (Dev.openRecovery_locks hst haff hon) ⟨Dev.get_put _ _ _ (by simp [pllState]), ?_, by simp,
      Dev.keepsRegs_put _ _ (by simp) (s.dev.keepsRegs_refl _)⟩
    have hpll : ((s.dev.setPll p (s.dev.recovering p)).put (pllState p) 2).pll p = s.dev.recovering p := by
      rw [Dev.pll, Dev.put_plls]
      exact s.dev.pll_setPll_same p _
    rw [hpll]
    rfl

end Sys2Proof.Machine
end

section
/-!
PROOFS. The code of a value of a tracked test (R376).
-/

namespace Sys2Proof.Machine

section
variable {c : AlmCfg} {v : Int}

/-- The bin that a value in the range lies in. -/
def AlmCfg.binOf (c : AlmCfg) (v : Int) : Int := (v - c.lo) * 1024 / (c.hi - c.lo)

theorem AlmCfg.code_under (h : v < c.lo) : c.code v = 0 := if_pos h

theorem AlmCfg.code_over (hc : c.lo < c.hi) (h : c.hi < v) : c.code v = 1025 := by
  rw [AlmCfg.code, if_neg (by omega), if_pos h]

theorem AlmCfg.code_top (hc : c.lo < c.hi) (h : v = c.hi) : c.code v = 1024 := by
  rw [AlmCfg.code, if_neg (by omega), if_neg (by omega), if_pos h]

theorem AlmCfg.code_inside (hlo : c.lo ≤ v) (hhi : v < c.hi) : c.code v = 1 + (c.binOf v).toNat := by
  rw [AlmCfg.code, if_neg (by omega), if_neg (by omega), if_neg (by omega), AlmCfg.binOf]

theorem AlmCfg.binOf_eq_iff (hc : c.lo < c.hi) (b : Int) :
    c.binOf v = b ↔ b * (c.hi - c.lo) ≤ (v - c.lo) * 1024 ∧ (v - c.lo) * 1024 < (b + 1) * (c.hi - c.lo) := by
  have hn : 0 < c.hi - c.lo := by omega
  rw [← Int.le_ediv_iff_mul_le hn, ← Int.ediv_lt_iff_lt_mul hn, AlmCfg.binOf]
  omega

/-- A value of the range lies in one of its 1,024 bins. -/
theorem AlmCfg.binOf_mem (hlo : c.lo ≤ v) (hhi : v < c.hi) : 0 ≤ c.binOf v ∧ c.binOf v < 1024 := by
  have hn : 0 < c.hi - c.lo := by omega
  exact ⟨Int.ediv_nonneg (by omega) hn.le, Int.ediv_lt_of_lt_mul hn (by omega)⟩

theorem AlmCfg.binOf_mono (hc : c.lo < c.hi) {u : Int} (h : u ≤ v) : c.binOf u ≤ c.binOf v :=
  Int.ediv_le_ediv (by omega) (by omega)

/-- A value lies below the range, in it, at its top or above it. -/
theorem AlmCfg.place (c : AlmCfg) (v : Int) : v < c.lo ∨ (c.lo ≤ v ∧ v < c.hi) ∨ v = c.hi ∨ c.hi < v := by omega

/-- The code of a value of the range is that of a bin. -/
theorem AlmCfg.code_mem (hlo : c.lo ≤ v) (hhi : v < c.hi) : 1 ≤ c.code v ∧ c.code v ≤ 1024 := by
  have hbin := AlmCfg.binOf_mem hlo hhi
  rw [AlmCfg.code_inside hlo hhi]
  omega

theorem AlmCfg.code_mono (hc : c.lo < c.hi) {u : Int} (h : u ≤ v) : c.code u ≤ c.code v := by
  rcases c.place v with hv | ⟨hlo, hhi⟩ | hv | hv
  · rw [AlmCfg.code_under hv, AlmCfg.code_under (h.trans_lt hv)]
  · rcases lt_or_ge u c.lo with hu | hu
    · rw [AlmCfg.code_under hu]; omega
    · have hmono := AlmCfg.binOf_mono hc h
      rw [AlmCfg.code_inside hu (by omega), AlmCfg.code_inside hlo hhi]
      omega
  · rw [AlmCfg.code_top hc hv]
    rcases c.place u with hu | ⟨hulo, huhi⟩ | hu | hu
    · rw [AlmCfg.code_under hu]; omega
    · exact (AlmCfg.code_mem hulo huhi).2
    · rw [AlmCfg.code_top hc hu]
    · omega
  · rw [AlmCfg.code_over hc hv]
    rcases c.place u with hu | ⟨hulo, huhi⟩ | hu | hu
    · rw [AlmCfg.code_under hu]; omega
    · exact (AlmCfg.code_mem hulo huhi).2.trans (by decide)
    · rw [AlmCfg.code_top hc hu]; decide
    · rw [AlmCfg.code_over hc hu]

theorem AlmCfg.code_eq_zero (hc : c.lo < c.hi) : c.code v = 0 ↔ v < c.lo := by
  refine ⟨fun h => ?_, AlmCfg.code_under⟩
  rcases c.place v with hv | ⟨hlo, hhi⟩ | hv | hv
  · exact hv
  · have hmem := AlmCfg.code_mem hlo hhi
    omega
  · rw [AlmCfg.code_top hc hv] at h; omega
  · rw [AlmCfg.code_over hc hv] at h; omega

theorem AlmCfg.code_eq_over (hc : c.lo < c.hi) : c.code v = 1025 ↔ c.hi < v := by
  refine ⟨fun h => ?_, AlmCfg.code_over hc⟩
  rcases c.place v with hv | ⟨hlo, hhi⟩ | hv | hv
  · rw [AlmCfg.code_under hv] at h; omega
  · have hmem := AlmCfg.code_mem hlo hhi
    omega
  · rw [AlmCfg.code_top hc hv] at h; omega
  · exact hv

theorem AlmCfg.code_eq_bin (hhi : v < c.hi) (b : Nat) : c.code v = 1 + b ↔ c.lo ≤ v ∧ c.binOf v = b := by
  rcases lt_or_ge v c.lo with hv | hv
  · rw [AlmCfg.code_under hv]
    omega
  · have hmem := AlmCfg.binOf_mem hv hhi
    rw [AlmCfg.code_inside hv hhi]
    omega

end

/-- Settles O50: the code is 0 below the range, the bin in it, and the greatest code above. -/
theorem almanacCodesFollowTheValues : Obligations.AlmanacCodesFollowTheValues := fun _ _ _ hc =>
  ⟨AlmCfg.code_mono hc, AlmCfg.code_eq_zero hc, AlmCfg.code_eq_over hc,
    fun b _ hhi => (AlmCfg.code_eq_bin hhi b).trans (and_congr_right' (AlmCfg.binOf_eq_iff hc b))⟩

end Sys2Proof.Machine
end

section
/-!
PROOFS. The fault collector: injection, windows, SEVERE states, wire pairs, FAULT_N and the first-fault latch (R457, R462, R466, R467,
R473 to R475).
-/

namespace Sys2Proof.Machine

/-! ## Changes of registers alone -/

/-- From `d` to `t` nothing has changed but registers of a list. -/
structure Dev.OnlyRegs (d t : Dev) (l : List Nat) : Prop where
  rest : ∃ regs, t = { d with regs := regs }
  keeps : d.KeepsRegs t l

theorem Dev.OnlyRegs.refl (d : Dev) (l : List Nat) : d.OnlyRegs d l := ⟨⟨_, rfl⟩, d.keepsRegs_refl l⟩

theorem Dev.OnlyRegs.put {d t : Dev} {l : List Nat} (h : d.OnlyRegs t l) {f : Fld} (v : Nat) (hf : f.addr ∈ l) :
    d.OnlyRegs (t.put f v) l := by
  obtain ⟨⟨regs, rfl⟩, hkeep⟩ := h
  exact ⟨⟨_, rfl⟩, Dev.keepsRegs_put f v hf hkeep⟩

theorem Dev.OnlyRegs.bump {d t : Dev} {l : List Nat} (h : d.OnlyRegs t l) {f : Fld} (hf : f.addr ∈ l) :
    d.OnlyRegs (t.bump f) l := h.put _ hf

theorem Dev.OnlyRegs.alone {d t : Dev} {l : List Nat} (h : d.OnlyRegs t l) : { t with regs := d.regs } = d := by
  obtain ⟨⟨regs, rfl⟩, _⟩ := h
  rfl

theorem Dev.OnlyRegs.get {d t : Dev} {l : List Nat} (h : d.OnlyRegs t l) {f : Fld} (hf : f.addr ∉ l) : t.get f = d.get f :=
  h.keeps.get hf

/-! ## Injection (R474, R475) -/

/-- What an accepted injection shows: COUNT errors left, and whether it goes on. -/
def Dev.injShown (d : Dev) (n : Nat) : Dev :=
  (((d.put fcuInjRefused 0).put fcuInjLeft n).putB fcuInjBusy (n != 0)).putB fcuInjBusyS (n != 0)

theorem Dev.injShown_effect (d : Dev) {n : Nat} (hn : n < 256) :
    (d.injShown n).get fcuInjLeft = n ∧ (d.injShown n).get fcuInjBusy = (n != 0).toNat ∧ (d.injShown n).get fcuInjBusyS = (n != 0).toNat ∧
    (d.injShown n).get fcuInjRefused = 0 ∧ (d.injShown n).get fcuInjReal = d.get fcuInjReal ∧
    d.OnlyRegs (d.injShown n) [fcuInjLeft.addr, fcuInjBusyS.addr] := by
  have hbit : (n != 0).toNat < 2 := Bool.toNat_lt _
  have hkeep : d.OnlyRegs (d.injShown n) [fcuInjLeft.addr, fcuInjBusyS.addr] :=
    ((((Dev.OnlyRegs.refl d _).put _ (by decide)).put _ (by decide)).put _ (by decide)).put _ (by decide)
  refine ⟨?_, ?_, ?_, ?_, ?_, hkeep⟩ <;> simp only [Dev.injShown, Dev.putB]
  · rw [Dev.get_put_ne _ _ _ _ (by decide), Dev.get_put_ne _ _ _ _ (by decide), Dev.get_put _ _ _ (by decide)]
    exact Nat.mod_eq_of_lt hn
  · rw [Dev.get_put_ne _ _ _ _ (by decide), Dev.get_put _ _ _ (by decide)]
    exact Nat.mod_eq_of_lt hbit
  · rw [Dev.get_put _ _ _ (by decide)]
    exact Nat.mod_eq_of_lt hbit
  · rw [Dev.get_put_ne _ _ _ _ (by decide), Dev.get_put_ne _ _ _ _ (by decide), Dev.get_put_ne _ _ _ _ (by decide),
      Dev.get_put _ _ _ (by decide)]
    rfl
  · rw [Dev.get_put_ne _ _ _ _ (by decide), Dev.get_put_ne _ _ _ _ (by decide), Dev.get_put_ne _ _ _ _ (by decide),
      Dev.get_put_ne _ _ _ _ (by decide)]

/-- The checker that an accepted injection names is noted, with whether the full reactions follow (R474). -/
def Dev.injNamed (d : Dev) (v : Nat) : Dev :=
  { d with fcu := { d.fcu with injSrc := bitsOf v 0 12, injChk := bitsOf v 12 4, injFull := v.testBit 24 } }

theorem Dev.injWrite_refused {d : Dev} {v : Nat} (h : (injSyndrome (bitsOf v 0 12) (bitsOf v 12 4)).isNone = true ∨
    (bitsOf v 16 8 ≠ 0 ∧ d.get fcuInjBusy = 1)) : d.injWrite v = d.put fcuInjRefused 1 := by
  refine if_pos ?_
  rw [Bool.or_eq_true, Bool.and_eq_true, bne_iff_ne, Dev.is, beq_iff_eq]
  exact h

theorem Dev.injWrite_ends {d : Dev} {v : Nat} (hlist : (injSyndrome (bitsOf v 0 12) (bitsOf v 12 4)).isSome = true)
    (hn : bitsOf v 16 8 = 0) : d.injWrite v = d.injShown 0 := by
  rw [Dev.injWrite, if_neg (by simp [Option.isNone_iff_eq_none, Option.isSome_iff_ne_none.mp hlist, hn]), hn]
  rfl

theorem Dev.injWrite_begins {d : Dev} {v : Nat} (hlist : (injSyndrome (bitsOf v 0 12) (bitsOf v 12 4)).isSome = true)
    (hn : bitsOf v 16 8 ≠ 0) (hidle : d.get fcuInjBusy = 0) :
    d.injWrite v = ((d.injShown (bitsOf v 16 8)).injNamed v).put fcuInjReal 0 := by
  rw [Dev.injWrite, if_neg (by simp [Option.isNone_iff_eq_none, Option.isSome_iff_ne_none.mp hlist, Dev.is, hidle])]
  exact if_neg hn

/-- Settles O53: the three cases of a write to FCU_INJ. -/
theorem injectionIsAcceptedOrRefused : Obligations.InjectionIsAcceptedOrRefused := by
  refine ⟨fun s v hlist hn hidle => ?_, fun s v hlist hn => ?_, fun s v h => ?_⟩
  · obtain ⟨hleft, hbusy, hbusyS, hrefused, hreal, hkeep⟩ := s.dev.injShown_effect (bitsOf_lt v.toNat 16 8)
    have hon : (bitsOf v.toNat 16 8 != 0).toNat = 1 := by simp [hn]
    have hregs : ∀ f, ((s.dev.injShown (bitsOf v.toNat 16 8)).injNamed v.toNat).get f = (s.dev.injShown (bitsOf v.toNat 16 8)).get f :=
      fun f => rfl
    refine .of_onDev (fun d => d.injWrite v.toNat) rfl (Dev.injWrite_begins hlist hn hidle)
      ⟨?_, ?_, ?_, ?_, Dev.get_put _ _ _ (by decide), rfl, rfl, rfl, ?_, ?_⟩
    · rw [Dev.get_put_ne _ _ _ _ (by decide), hregs, hbusy, hon]
    · rw [Dev.get_put_ne _ _ _ _ (by decide), hregs, hbusyS, hon]
    · rw [Dev.get_put_ne _ _ _ _ (by decide), hregs, hleft]
    · rw [Dev.get_put_ne _ _ _ _ (by decide), hregs, hrefused]
    · exact Dev.keepsRegs_put _ _ (by decide) (Dev.keepsRegs_of_regs rfl hkeep.keeps)
    · exact congrArg (fun e : Dev => { e with fcu := s.dev.fcu }) hkeep.alone
  · obtain ⟨hleft, hbusy, hbusyS, hrefused, hreal, hkeep⟩ := s.dev.injShown_effect (n := 0) (by decide)
    exact .of_onDev (fun d => d.injWrite v.toNat) rfl (Dev.injWrite_ends hlist hn) ⟨hbusy, hbusyS, hleft, hrefused, hreal, hkeep.alone⟩
  · refine .of_onDev (fun d => d.injWrite v.toNat) rfl (Dev.injWrite_refused (by simpa using h))
      ⟨Dev.get_put _ _ _ (by decide), Dev.get_put_ne _ _ _ _ (by decide), Dev.get_put_ne _ _ _ _ (by decide), ?_, ?_⟩
    · exact Dev.keepsRegs_put _ _ (by decide) (s.dev.keepsRegs_refl _)
    · exact ((Dev.OnlyRegs.refl s.dev [fcuInjRefused.addr]).put _ (by decide)).alone

end Sys2Proof.Machine
end

section
/-!
PROOFS. The fault collector: windows, SEVERE states, wire pairs, FAULT_N and the first-fault latch (R457, R462, R466, R467, R473).
-/

namespace Sys2Proof.Machine

/-! ## Windows and SEVERE states (R466, R467) -/

theorem Dev.checker_setChecker (d : Dev) (k j : Nat) (x : Checker) :
    (d.setChecker k x).checker j = if k = j then x else d.checker j := Tab.get_set _ _ _ _ _

/-- The window of a checker that ends clears it alone (R466). -/
theorem Dev.windowExpiry_open {d : Dev} {src chk : Nat} (h : (d.checker (chkKey src chk)).isOpen = true) :
    d.windowExpiry src chk = (d.advanceTo (d.checker (chkKey src chk)).winEnd).setChecker (chkKey src chk) Checker.init := if_pos h

/-- The checkers of the named sources start again (R467). -/
def Dev.sevCleared (d : Dev) (k v : Nat) : Dev :=
  { d with fcu := { d.fcu with
    checkers := Tab.keep (fun a => !((maskList 32 v).map (· + 32 * k)).contains (a / 16)) d.fcu.checkers } }

theorem Dev.sevClear_eq (d : Dev) (k v : Nat) : ∃ n, d.sevClear k v =
    ((d.sevCleared k v).put (fcuSevsrc k) (d.get (fcuSevsrc k) - (d.get (fcuSevsrc k) &&& v))).put fcuSevcls n := ⟨_, rfl⟩

/-- A source belongs to the word `k` of FCU_SEVSRC and is named there. -/
theorem mem_named {k v b : Nat} (hb : b < 32) : ((maskList 32 v).map (· + 32 * k)).contains (32 * k + b) = v.testBit b := by
  rw [Bool.eq_iff_iff]
  simp only [List.contains_iff_mem, List.mem_map, maskList, List.mem_filter, List.mem_range]
  refine ⟨?_, fun h => ⟨b, ⟨hb, h⟩, by omega⟩⟩
  rintro ⟨a, ⟨_, h⟩, ha⟩
  obtain rfl : a = b := by omega
  exact h

theorem Dev.checker_sevCleared (d : Dev) (k v : Nat) {b c : Nat} (hb : b < 32) (hc : c < 16) :
    (d.sevCleared k v).checker (chkKey (32 * k + b) c) =
      if v.testBit b then Checker.init else d.checker (chkKey (32 * k + b) c) := by
  have hsrc : chkKey (32 * k + b) c / 16 = 32 * k + b := by rw [chkKey]; omega
  refine (Tab.get_keep _ _ _ _).trans ?_
  rw [hsrc, mem_named hb]
  cases v.testBit b <;> rfl

theorem Dev.sevClear_effect (d : Dev) (k v : Nat) :
    (∀ b, b < 32 → ((d.sevClear k v).get (fcuSevsrc k)).testBit b = ((d.get (fcuSevsrc k)).testBit b && !v.testBit b)) ∧
    (∀ b c, b < 32 → c < 16 → (d.sevClear k v).checker (chkKey (32 * k + b) c) =
      if v.testBit b then Checker.init else d.checker (chkKey (32 * k + b) c)) ∧
    d.KeepsRegs (d.sevClear k v) [(fcuSevsrc k).addr, fcuSevcls.addr] := by
  obtain ⟨n, heq⟩ := d.sevClear_eq k v
  rw [heq]
  refine ⟨fun b hb => ?_, fun b c hb hc => d.checker_sevCleared k v hb hc, ?_⟩
  · rw [Dev.get_put_addr _ _ _ _ (by simp only [fcuSevcls, fcuSevsrc]; omega), Dev.get_put _ _ _ (by simp [fcuSevsrc]),
      Nat.testBit_mod_two_pow, testBit_sub_and]
    simp [fcuSevsrc, hb]
  · exact Dev.keepsRegs_put _ _ (by simp) (Dev.keepsRegs_put _ _ (by simp) (Dev.keepsRegs_of_regs rfl (d.keepsRegs_refl _)))

/-! ## Wire pairs (R457) -/

theorem chkKey_inj {src chk : Nat} (hchk : chk < 16) (h : chkKey src chk = chkKey srcFcu 0) : src = srcFcu ∧ chk = 0 := by
  simp only [chkKey] at h
  omega

theorem classOf_fcu : classOf srcFcu 0 = some 0x0F := by decide

/-- A report whose own wire pair is good joins the reports that wait (R457). -/
theorem Dev.raise_good {d : Dev} {r : Report} (h : d.fcu.wireBad.contains (chkKey r.src r.chk) = false) :
    ∃ live, d.raise r = { d with fcu := { d.fcu with live := live, raised := d.fcu.raised ++ [r] } } := by
  rw [Dev.raise]
  dsimp only
  rw [h]
  exact ⟨_, rfl⟩

/-- A pair that is good again leaves the failed ones, and with the last of them the condition ends (R457, R465). -/
theorem Dev.wireGood_effect (d : Dev) (src chk : Nat) :
    (d.wireGood src chk).fcu.wireBad = d.fcu.wireBad.filter (fun k => k != chkKey src chk) ∧
    ((d.wireGood src chk).fcu.wireBad = [] → ∀ p ∈ (d.wireGood src chk).fcu.live, p.1 ≠ chkKey srcFcu 0) ∧
    { d.wireGood src chk with fcu := d.fcu } = d := by
  rw [Dev.wireGood]
  split
  · refine ⟨rfl, fun _ p hp => ?_, rfl⟩
    simpa using (List.mem_filter.mp hp).2
  next hbad => exact ⟨rfl, fun h => absurd (List.isEmpty_iff.mpr h) hbad, rfl⟩

/-- The report of a failed pair (R457). -/
def Dev.wireReport (d : Dev) (k src chk : Nat) : Report :=
  { src := srcFcu, chk := 0, cls := 0x0F, t := d.tb, lat := (d.latOf k src).map fun l => 600 + l, syn := 0,
    det := k + 2 ^ 8 * chk + 2 ^ 16 * src, scope := d.chkScope src chk, level := true, inj := false, real := true }

/-- The pair counts as failed. -/
def Dev.pairBad (d : Dev) (src chk : Nat) : Dev := { d with fcu := { d.fcu with wireBad := chkKey src chk :: d.fcu.wireBad } }

theorem Dev.wireFault_first {d : Dev} {src chk k : Nat} (hclass : classOf src chk = some k) (hk : k ≠ 0x0F)
    (hgood : d.fcu.wireBad.contains (chkKey src chk) = false) :
    d.wireFault src chk = (d.pairBad src chk).raise ((d.pairBad src chk).wireReport k src chk) := by
  rw [Dev.wireFault, hclass]
  exact if_neg (by simp only [hk, hgood, false_or]; exact Bool.false_ne_true)

/-! ## FAULT_N (R473) -/

/-- FAULT_N can go high: its minimum width is over, and it is released or releases by itself. -/
def Dev.pinFree (d : Dev) : Prop := d.fcu.minwEnd ≤ d.mclk ∧ (d.is fcuPinAuto = true ∨ d.fcu.released = true)

theorem Dev.is_iff (d : Dev) (f : Fld) : d.is f = true ↔ d.get f = 1 := by rw [Dev.is, beq_iff_eq]

theorem Dev.pinTry_free {d : Dev} (hlow : d.get fcuFaultLow = 1) (h : d.pinFree) : d.pinTry = d.pinHigh := by
  obtain ⟨hover, hrel⟩ := h
  refine if_pos ?_
  rw [Bool.and_eq_true, Bool.and_eq_true, Bool.or_eq_true, decide_eq_true_eq, Dev.is_iff]
  exact ⟨⟨hlow, hover⟩, hrel⟩

theorem Dev.pinTry_held {d : Dev} (h : ¬ d.pinFree) : d.pinTry = d := by
  refine if_neg fun hc => h ?_
  simp only [Bool.and_eq_true, Bool.or_eq_true, decide_eq_true_eq] at hc
  exact ⟨hc.1.2, hc.2⟩

theorem Dev.pinHigh_effect (d : Dev) : d.pinHigh.get fcuFaultLow = 0 ∧ d.pinHigh.fcu.released = false ∧
    d.KeepsRegs d.pinHigh [fcuFaultLow.addr] ∧ { d.pinHigh with regs := d.regs, fcu := d.fcu } = d := by
  refine ⟨Dev.get_put _ _ _ (by decide), rfl, ?_, by simp [Dev.pinHigh]⟩
  exact Dev.keepsRegs_put _ _ (by simp) (Dev.keepsRegs_of_regs rfl (d.keepsRegs_refl _))

/-- A release has been written. -/
def Dev.pinAsked (d : Dev) : Dev := { d with fcu := { d.fcu with released := true } }

theorem Dev.pinRelease_low {d : Dev} (h : d.get fcuFaultLow = 1) : d.pinRelease = d.pinAsked.pinTry :=
  if_pos ((d.is_iff _).mpr h)

/-- The minimum width of FAULT_N ends. -/
def Dev.widthOver (d : Dev) : Dev := d.advanceTo d.fcu.minwEnd

theorem Dev.widthOver_free (d : Dev) : d.widthOver.pinFree ↔ d.get fcuPinAuto = 1 ∨ d.fcu.released = true := by
  have hover : d.widthOver.fcu.minwEnd ≤ d.widthOver.mclk := by
    rw [Dev.widthOver, Dev.mclk_advanceTo, Dev.advanceTo_fcu]
    exact le_max_right _ _
  rw [Dev.pinFree, and_iff_right hover, Dev.widthOver, Dev.is_advanceTo, Dev.advanceTo_fcu, Dev.is_iff]

/-! ## The first-fault latch (R462) -/

theorem Dev.putRec_onlyRegs (d : Dev) (f : Nat → Fld) (rec : Nat) :
    d.OnlyRegs (d.putRec f rec) ((List.range 8).map fun w => (f w).addr) := by
  have h : ∀ l : List Nat, l ⊆ List.range 8 → ∀ e, d.OnlyRegs e ((List.range 8).map fun w => (f w).addr) →
      d.OnlyRegs (l.foldl (fun d w => d.put (f w) (bitsOf rec (32 * w) 32)) e) ((List.range 8).map fun w => (f w).addr) := by
    intro l
    induction l with
    | nil => exact fun _ e he => he
    | cons w l ih => exact fun hl e he => ih (fun a ha => hl (.tail _ ha)) _ (he.put _ (List.mem_map.mpr ⟨w, hl (.head _), rfl⟩))
  rw [Dev.putRec, Dev.forEach]
  exact h (List.range 8) (List.Subset.refl _) d (.refl _ _)

/-- The latch's key is empty. -/
def Dev.firstFree (d : Dev) : Dev := { d with fcu := { d.fcu with firstKey := none } }

theorem Dev.firstClr_effect (d : Dev) : d.firstFree.OnlyRegs d.firstClr (fcuFirstValid.addr :: (List.range 8).map fun w => (fcuFirst w).addr) := by
  obtain ⟨hrest, hkeep⟩ := d.firstFree.putRec_onlyRegs fcuFirst 0
  exact (Dev.OnlyRegs.put ⟨hrest, fun a ha => hkeep a fun h => ha (.tail _ h)⟩ _ (.head _))

/-- A word of a record that has been stored in registers of whole words, one behind the other. -/
theorem Dev.get_putRec (d : Dev) {f : Nat → Fld} {base : Nat} (hf : ∀ w, f w = ⟨base + 4 * w, 0, 32⟩) (rec : Nat) {w : Nat} (hw : w < 8) :
    (d.putRec f rec).get (f w) = bitsOf rec (32 * w) 32 := by
  have h : ∀ n, n ≤ 8 → w < n → ((List.range n).foldl (fun d w => d.put (f w) (bitsOf rec (32 * w) 32)) d).get (f w) = bitsOf rec (32 * w) 32 := by
    intro n
    induction n with
    | zero => intro _ h; omega
    | succ n ih =>
      intro hn hwn
      rw [List.range_succ, List.foldl_append, List.foldl_cons, List.foldl_nil]
      rcases Nat.lt_or_ge w n with hlt | hge
      · rw [Dev.get_put_addr _ _ _ _ (by simp only [hf]; omega)]
        exact ih (by omega) hlt
      · obtain rfl : w = n := by omega
        rw [Dev.get_put _ _ _ (by simp [hf]), hf]
        exact Nat.mod_eq_of_lt (bitsOf_lt _ _ _)
  exact h 8 (by omega) hw

/-- Settles O55: each release acts on its own unit of the collector. -/
theorem countsWiresPinAndLatchAreReleased : Obligations.CountsWiresPinAndLatchAreReleased := by
  refine ⟨⟨fun s src chk hopen => ?_, fun s k v => ?_, fun s src chk k hclass hk hgood hfcu => ?_, fun s src chk => ?_⟩,
    fun s hlow => ⟨fun hover => ?_, fun hnot => ?_⟩, fun s hlow => ?_, fun s => ?_⟩
  · refine .of_onDev (fun d => d.windowExpiry src.toNat chk) rfl (Dev.windowExpiry_open hopen)
      ⟨?_, s.dev.mclk_advanceTo _, fun k hk => ?_, fun _ _ => rfl⟩
    · rw [Dev.checker_setChecker, if_pos rfl]
    · rw [Dev.checker_setChecker, if_neg (Ne.symm hk)]
      rfl
  · obtain ⟨hbits, hcheckers, hkeep⟩ := s.dev.sevClear_effect k v.toNat
    refine .of_onDev (fun d => d.sevClear k v.toNat) rfl rfl ⟨hbits, fun b c hb hc hv => ?_, fun b c hb hc hv => ?_, hkeep⟩
    · rw [hcheckers b c hb hc, if_pos hv]
    · rw [hcheckers b c hb hc, hv]
      rfl
  · have hown : (s.dev.pairBad src.toNat chk).fcu.wireBad.contains (chkKey srcFcu 0) = false := by
      have hne : chkKey src.toNat chk ≠ chkKey srcFcu 0 := fun h => by
        obtain ⟨hsrc, hchk⟩ := chkKey_inj chk.isLt h
        rw [hsrc, hchk, classOf_fcu] at hclass
        exact hk (Option.some.inj hclass).symm
      rw [Dev.pairBad, List.contains_cons, hfcu, Bool.or_false, beq_eq_false_iff_ne]
      exact Ne.symm hne
    obtain ⟨live, hraise⟩ := Dev.raise_good (d := s.dev.pairBad src.toNat chk)
      (r := (s.dev.pairBad src.toNat chk).wireReport k src.toNat chk) hown
    refine .of_onDev (fun d => d.wireFault src.toNat chk) rfl ((Dev.wireFault_first hclass hk hgood).trans hraise) ?_
    exact ⟨rfl, ⟨_, rfl, rfl, rfl, rfl, rfl, rfl⟩, rfl⟩
  · obtain ⟨hbad, hlive, hrest⟩ := s.dev.wireGood_effect src.toNat chk
    refine .of_onDev (fun d => d.wireGood src.toNat chk) rfl rfl ⟨?_, fun k hk => ?_, hlive, hrest⟩
    · rw [hbad, ← Bool.not_eq_true, List.contains_iff_mem]
      simp
    · rw [hbad, Bool.eq_iff_iff, List.contains_iff_mem, List.contains_iff_mem]
      simp [hk]
  · refine .of_onDev (fun d => d.pinRelease) rfl
      ((Dev.pinRelease_low hlow).trans (Dev.pinTry_free hlow ⟨hover, .inr rfl⟩)) ?_
    obtain ⟨hhigh, hrel, hkeep, hrest⟩ := s.dev.pinAsked.pinHigh_effect
    exact ⟨hhigh, hrel, hkeep, congrArg (fun e : Dev => { e with fcu := s.dev.fcu }) hrest⟩
  · refine .of_onDev (fun d => d.pinRelease) rfl
      ((Dev.pinRelease_low hlow).trans (Dev.pinTry_held fun h => absurd h.1 (Nat.not_le_of_gt hnot))) ⟨hlow, rfl, rfl⟩
  · have hrow : (if s.dev.is fcuFaultLow then (s.dev.advanceTo s.dev.fcu.minwEnd).pinTry else s.dev) = s.dev.widthOver.pinTry :=
      if_pos ((s.dev.is_iff _).mpr hlow)
    have hmclk : s.dev.widthOver.mclk = max s.dev.mclk s.dev.fcu.minwEnd := s.dev.mclk_advanceTo _
    refine .of_onDev (fun d => if d.is fcuFaultLow then (d.advanceTo d.fcu.minwEnd).pinTry else d) rfl hrow ?_
    by_cases hfree : s.dev.get fcuPinAuto = 1 ∨ s.dev.fcu.released = true
    · obtain ⟨hhigh, _, hkeep, _⟩ := s.dev.widthOver.pinHigh_effect
      rw [Dev.pinTry_free (d := s.dev.widthOver) hlow (s.dev.widthOver_free.mpr hfree), if_pos hfree]
      exact ⟨hmclk, hhigh, hkeep⟩
    · rw [Dev.pinTry_held (mt s.dev.widthOver_free.mp hfree), if_neg hfree]
      exact ⟨hmclk, hlow, fun _ _ => rfl⟩
  · obtain ⟨⟨regs, hrest⟩, hkeep⟩ := s.dev.firstClr_effect
    have hwords : s.dev.firstClr = (s.dev.firstFree.putRec fcuFirst 0).put fcuFirstValid 0 := rfl
    refine .of_onDev (fun d => d.firstClr) rfl rfl ⟨?_, fun w hw => ?_, ?_, Dev.keepsRegs_of_regs rfl hkeep, ?_⟩
    · rw [hwords, Dev.get_put _ _ _ (by decide)]
      rfl
    · rw [hwords, Dev.get_put_addr _ _ _ _ (by simp only [fcuFirstValid, fcuFirst]; omega), Dev.get_putRec _ (f := fcuFirst) (base := 0x30040) (fun _ => rfl) _ hw]
      simp [bitsOf]
    · rw [hrest]
      rfl
    · rw [hrest]
      rfl

end Sys2Proof.Machine
end

section
/-!
PROOFS. Where the statement on reports fails: the counterexample is a state that its premises admit, whether or not a sequence of
commands from reset leads to it.
-/

namespace Sys2Proof.Machine

/-- The idle timers follow a command without touching a sequencer: what an answer says of the sequencers holds of the effect. -/
theorem AnswersIdle.seqs_of_onDevIdle {c : Instr} {s : State} {post : Dev → Prop} (f : Dev → Dev) (h : AnswersIdle c s post)
    (e : exec c s = onDevIdle s f) : ∃ t, post t ∧ t.seqs = (f s.dev).seqs := by
  obtain ⟨t, ht, hpost⟩ := h
  have hnote : (f s.dev).idleNote s.dev = t.idleNote s.dev := congrArg State.dev (Host.Outcome.next.inj (e.symm.trans ht))
  have hseqs : ∀ d : Dev, (d.idleNote s.dev).seqs = d.seqs := fun d => by
    obtain ⟨⟨_, _, _, _, _, _, hpower⟩, _⟩ := d.onlyPower_idleNote s.dev
    rw [hpower]
  exact ⟨t, hpost, by rw [← hseqs t, ← hnote, hseqs]⟩

/-- A PLL_LOCK report from source 0x67FC22, which is none of the 4,096 sources of R455, with site 0 in its scope. -/
def strayReport : Report :=
  { src := 0x67FC22, chk := 0, cls := 0x0C, t := 0, lat := none, syn := 0, det := 0, scope := 1, level := false, inj := false, real := true }

/-- Sequencer 0 plays in STATE 3 and owns quad 0, channel 0 belongs to site 0; PLL_LOCK is SEVERE at the first report, and its reactions
are the fixed ones alone (R469). -/
def strayReported : State :=
  { State.reset with
    dev := { ((((((Dev.init.put (seqState 0) 3).put (seqQuadsLo 0) 1).put (siteMap 0) 0x80).put (fcuReact 0x0C) 0).put
        (fcuSevReact 0x0C) 0).put (fcuN 0x0C) 1) with
      fcu := { FcuSt.init with raised := [strayReport] } } }

set_option maxRecDepth 20000 in
/-- Refutes O54: FCU_SEVSRC has words for the sources of R455 alone. The premises do not bound the source of a report; the SEVERE bit of
source 0x67FC22 falls on the status word of sequencer 0, whose STATE 3 then reads 7, and the sequencer is not asked to halt. -/
theorem not_reportsAreRecordedAndAnswered : ¬ Obligations.ReportsAreRecordedAndAnswered := by
  intro h
  obtain ⟨t, ⟨-, -, -, -, hhalt⟩, hseqs⟩ :=
    (h strayReported strayReport (by decide) (by decide) (by decide)).seqs_of_onDevIdle (fun d => d.faultReport none) rfl
  have hasked := hhalt (by decide) 0 (by decide) (by decide) (by decide)
  rw [Dev.seq, hseqs] at hasked
  have hrun : ((strayReported.dev.faultReport none).seq 0).haltReq.isSome = false := by decide
  exact absurd hasked (by rw [← Dev.seq, hrun]; decide)

end Sys2Proof.Machine
end

section
/-!
PROOFS. What a completion writes and what it leaves of the host interface (R488, R489, R503); fetching and fences (R490 to R492).
-/

namespace Sys2Proof.Machine

/-! ## What events leave of the host interface -/

/-- The host interface without what events and messages change. -/
def HostSt.core (h : HostSt) : HostSt :=
  { h with evSeq := [], evBuf := [], dropped := 0, dropTb := 0, msgSent := [], vecPend := 0 }

theorem Dev.ringMessage_core (d : Dev) (ring : Nat) : (d.ringMessage ring).host.core = d.host.core := by
  unfold Dev.ringMessage
  dsimp only
  repeat' split
  all_goals rfl

theorem Dev.eqWrite_core (d : Dev) (e : EvRec) : (d.eqWrite e).host.core = d.host.core := by
  unfold Dev.eqWrite
  rw [Dev.ringMessage_core]
  split <;> simp

theorem Dev.evPut_core (d : Dev) (e : EvRec) : (d.evPut e).host.core = d.host.core := by
  unfold Dev.evPut
  repeat' split
  · rfl
  · rfl
  · exact d.eqWrite_core e
  · rfl

theorem Dev.event_core (d : Dev) (src code pay : Nat) : (d.event src code pay).host.core = d.host.core :=
  Dev.evPut_core _ _

theorem Dev.stateTo_core (d : Dev) (st cause : Nat) : (d.stateTo st cause).host.core = d.host.core :=
  Dev.event_core _ _ _ _

theorem Dev.pllStop_core (d : Dev) (p : Nat) : (d.pllStop p).host.core = d.host.core := by
  simp [Dev.pllStop]

theorem Dev.enterP2_core (d : Dev) (cause : Nat) : (d.enterP2 cause).host.core = d.host.core := by
  unfold Dev.enterP2
  dsimp only
  rw [Dev.pllStop_core, Dev.pllStop_core]
  split <;> exact d.stateTo_core 2 cause

theorem Dev.enterP3_core (d : Dev) (cause : Nat) : (d.enterP3 cause).host.core = d.host.core := by
  unfold Dev.enterP3
  dsimp only
  rw [Dev.put_host]
  exact (Dev.forEach_keeps (f := fun d e => d.setDie e { d.die e with parkP3 := true }) (fun e => e.host.core)
    (fun _ _ _ => rfl) _).trans (d.stateTo_core 3 cause)

/-- The idle timers leave the rings, the work and the fences (R575). -/
theorem Dev.idleRestart_core (d : Dev) : d.idleRestart.host.core = d.host.core := by
  unfold Dev.idleRestart Dev.powerIdle
  dsimp only
  repeat' split
  all_goals simp only [Dev.enterP3_core, Dev.enterP2_core, Dev.stateTo_core]

theorem HostSt.work_of_core {h k : HostSt} (e : h.core = k.core) : h.work = k.work := (congrArg HostSt.work e :)

theorem HostSt.fences_of_core {h k : HostSt} (e : h.core = k.core) : h.fences = k.fences := (congrArg HostSt.fences e :)

theorem HostSt.waiting_of_core {h k : HostSt} (e : h.core = k.core) : h.waiting = k.waiting := (congrArg HostSt.waiting e :)

/-! ## A completion record (R488, R503) -/

theorem Dev.ringMessage_regs (d : Dev) (ring : Nat) : (d.ringMessage ring).regs = d.regs := by
  unfold Dev.ringMessage
  dsimp only
  repeat' split
  all_goals rfl

/-- The places of a record's parts, and the bits that stay 0 (R503). -/
theorem Comp.pack_bits (c : Comp) (sqHead phase : Nat) (hs : c.status < 256) (hh : sqHead < 4096) (hp : phase < 2) :
    c.pack sqHead phase < 2 ^ 256 ∧ bitsOf (c.pack sqHead phase) 0 16 = c.cid % 2 ^ 16 ∧
      bitsOf (c.pack sqHead phase) 16 8 = c.opc % 2 ^ 8 ∧ bitsOf (c.pack sqHead phase) 24 8 = c.status ∧
      bitsOf (c.pack sqHead phase) 32 12 = sqHead ∧ bitsOf (c.pack sqHead phase) 44 4 = c.q % 16 ∧
      bitsOf (c.pack sqHead phase) 48 1 = phase ∧ bitsOf (c.pack sqHead phase) 49 15 = 0 ∧
      bitsOf (c.pack sqHead phase) 64 32 = c.result % 2 ^ 32 ∧ bitsOf (c.pack sqHead phase) 96 32 = 0 ∧
      bitsOf (c.pack sqHead phase) 128 64 = c.result64 % 2 ^ 64 ∧ bitsOf (c.pack sqHead phase) 192 64 = c.tb % 2 ^ 64 := by
  unfold Comp.pack bitsOf
  generalize c.cid = cid, c.opc = opc, c.q = q, c.result = r, c.result64 = r64, c.tb = tb, c.status = st at *
  refine ⟨?_, ?_, ?_, ?_, ?_, ?_, ?_, ?_, ?_, ?_, ?_, ?_⟩ <;> omega

theorem ringSize_le (k : Nat) : ringSize k ≤ 4096 := by
  have h : clampNat 4 12 k ≤ 12 := by unfold clampNat; grind
  exact Nat.pow_le_pow_right (by decide : 2 > 0) h

/-- What a record written to a CQ leaves in the ring's words: the tail moved by one, and the phase turned at the wrap (R488). -/
theorem Dev.cqWrite_ring (d : Dev) (cq : Nat) (c : Comp) (hi : d.get (cqTail cq) < ringSize (d.get (cqSizeLog cq))) :
    let n := ringSize (d.get (cqSizeLog cq))
    let i := d.get (cqTail cq)
    (d.cqWrite cq c).get (cqTail cq) = (if i + 1 = n then 0 else i + 1) ∧
      (d.cqWrite cq c).get (cqPhase cq) = (if i + 1 = n then 1 - d.get (cqPhase cq) else d.get (cqPhase cq)) := by
  intro n i
  have hi : i < n := hi
  have hn : n ≤ 4096 := ringSize_le _
  have hphase : ∀ e : Dev, ∀ v, (e.put (cqTail cq) v).get (cqPhase cq) = e.get (cqPhase cq) := fun e v =>
    Dev.get_put_bits _ _ _ _ (by simp [cqTail]) (.inr (by simp [cqTail, cqPhase]))
  have htail : ∀ e : Dev, ∀ v, (e.put (cqPhase cq) v).get (cqTail cq) = e.get (cqTail cq) := fun e v =>
    Dev.get_put_bits _ _ _ _ (by simp [cqPhase]) (.inl (by simp [cqTail, cqPhase]))
  have hlt : d.get (cqPhase cq) < 2 := d.get_lt (cqPhase cq)
  unfold Dev.cqWrite
  dsimp only
  rw [Dev.get_of_regs (Dev.ringMessage_regs _ cq), Dev.get_of_regs (Dev.ringMessage_regs _ cq)]
  by_cases h : i + 1 = n
  · rw [if_pos h, if_pos h, if_pos h, htail, Dev.get_put _ _ _ (by simp [cqTail]), Dev.get_put _ _ _ (by simp [cqPhase])]
    exact ⟨rfl, Nat.mod_eq_of_lt (by simp only [cqPhase]; omega)⟩
  · rw [if_neg h, if_neg h, if_neg h, hphase, Dev.get_put _ _ _ (by simp [cqTail])]
    exact ⟨Nat.mod_eq_of_lt (show i + 1 < 2 ^ 12 by omega), rfl⟩

/-- A descriptor that completes leaves the work in progress, its SQ may go on, and its record is to be posted (R491). -/
def Dev.leaveWork (d : Dev) (w : Work) : Dev :=
  { d with
    host := { d.host with
      waiting := match Tab.get (fun _ => none) d.host.waiting w.q with
        | some f => if f.id = w.id then Tab.set (fun _ => none) d.host.waiting w.q none else d.host.waiting
        | none => d.host.waiting
      work := d.host.work.filter fun x => x.id != w.id } }

/-- The record of a descriptor that completes now. -/
def Dev.compOf (d : Dev) (w : Work) (status result r64 : Nat) : Comp :=
  { id := w.id, q := w.q, cid := w.cid, opc := w.opc, status := status, result := result, result64 := r64, tb := d.tb }

theorem Dev.complete_eq (d : Dev) (w : Work) (status result r64 : Nat) :
    d.complete w status result r64 = (d.leaveWork w).postComp (d.compOf w status result r64) := (rfl)

/-- The host interface without its completion records and messages. -/
def HostSt.sansComps (h : HostSt) : HostSt := { h.core with held := [] }

theorem Dev.cqWrite_core (d : Dev) (cq : Nat) (c : Comp) : (d.cqWrite cq c).host.core = d.host.core := by
  unfold Dev.cqWrite
  dsimp only
  rw [Dev.ringMessage_core]
  split <;> simp

theorem Dev.postComp_sansComps (d : Dev) (c : Comp) : (d.postComp c).host.sansComps = d.host.sansComps := by
  unfold Dev.postComp HostSt.sansComps
  dsimp only
  repeat' split
  · rfl
  · rw [Dev.cqWrite_core]
  · rfl

/-- A completion takes its work off the list. -/
theorem Dev.complete_work (d : Dev) (w : Work) (status result r64 : Nat) :
    (d.complete w status result r64).host.work = d.host.work.filter fun x => x.id != w.id :=
  (congrArg HostSt.work ((d.leaveWork w).postComp_sansComps (d.compOf w status result r64)) :)

theorem Dev.complete_fences (d : Dev) (w : Work) (status result r64 : Nat) :
    (d.complete w status result r64).host.fences = d.host.fences :=
  (congrArg HostSt.fences ((d.leaveWork w).postComp_sansComps (d.compOf w status result r64)) :)

theorem Dev.complete_waiting (d : Dev) (w : Work) (status result r64 : Nat) :
    (d.complete w status result r64).host.waiting = (d.leaveWork w).host.waiting :=
  (congrArg HostSt.waiting ((d.leaveWork w).postComp_sansComps (d.compOf w status result r64)) :)

theorem ne_of_mem_filter_id {l : List Work} {id : Nat} : ∀ y, y ∈ l.filter (fun x => x.id != id) → y.id ≠ id := fun y hy => by
  simpa using (List.mem_filter.1 hy).2

/-- The record written to a CQ has been sent. -/
theorem Dev.mem_cqWrite_out (d : Dev) (cq : Nat) (c : Comp) :
    Output.cqRecord cq (d.get2 (cqBase cq) (cqBaseHi cq) + 32 * d.get (cqTail cq))
      (c.pack (d.get (sqHead c.q)) (d.get (cqPhase cq))) ∈ (d.cqWrite cq c).out := by
  unfold Dev.cqWrite
  dsimp only
  apply Dev.mem_ringMessage_out
  split <;> exact .head _

/-- A completion whose ring is enabled, holds no earlier record and has room writes its record. -/
theorem Dev.complete_of_room {d : Dev} {w : Work} (status result r64 : Nat) (hon : d.cqOn (d.cqOf w.q) = true)
    (hheld : d.cqHeld (d.cqOf w.q) = false) (hroom : d.cqHasRoom (d.cqOf w.q) = true) :
    d.complete w status result r64 = (d.leaveWork w).cqWrite (d.cqOf w.q) (d.compOf w status result r64) := by
  rw [Dev.complete_eq]
  have hon' : (d.leaveWork w).cqOn (d.cqOf w.q) = true := hon
  have hheld' : (d.leaveWork w).cqHeld (d.cqOf w.q) = false := hheld
  have hroom' : (d.leaveWork w).cqHasRoom (d.cqOf w.q) = true := hroom
  unfold Dev.postComp
  simp only [show (d.leaveWork w).cqOf (d.compOf w status result r64).q = d.cqOf w.q from rfl, hon', hheld', hroom']
  rfl

/-- Settles O41: the record is `Comp.pack` at the tail of the ring. -/
theorem completionRecordsAreWrittenToTheirRing : Obligations.CompletionRecordsAreWrittenToTheirRing := by
  refine ⟨?_, fun s q x w h => ?_⟩
  · intro d w status result r64 hst c hon hheld hroom n i t hi
    have ht : t = (d.leaveWork w).cqWrite c (d.compOf w status result r64) := Dev.complete_of_room status result r64 hon hheld hroom
    have hring := (d.leaveWork w).cqWrite_ring c (d.compOf w status result r64) hi
    rw [ht]
    refine ⟨⟨_, (d.leaveWork w).mem_cqWrite_out c _, ?_⟩, hring.1, hring.2, ?_⟩
    · exact Comp.pack_bits _ _ _ hst (d.get_lt (sqHead w.q)) (d.get_lt (cqPhase c))
    · rw [← ht, Dev.complete_work]
      exact ne_of_mem_filter_id
  · exact .of_onDev (fun d => d.nopDesc q) rfl (Dev.onDesc_of_descOf _ h) rfl

end Sys2Proof.Machine
end

section
/-!
PROOFS. Descriptors are fetched; NOP and FENCE complete (R490 to R492, R494, R495).
-/

namespace Sys2Proof.Machine

/-! ## A descriptor enters the device (R490, R491) -/

/-- The work of a descriptor that is fetched now. -/
def Dev.newWork (d : Dev) (q x : Nat) : Work := { id := d.host.fetchNo, q := q, cid := dCid x, opc := dOpc x }

/-- The device once a descriptor has been taken from its ring. -/
def Dev.fetched (d : Dev) (q x : Nat) : Dev :=
  { d.put (sqHead q) ((d.get (sqHead q) + 1) % ringSize (d.get (sqSizeLog q))) with
    host := { d.host with
      fetchNo := d.host.fetchNo + 1
      rr := if q = 0 then d.host.rr else q
      waiting := Tab.set (fun _ => none) d.host.waiting q (some ⟨d.host.fetchNo, x⟩)
      work := d.host.work ++ [d.newWork q x] } }

/-- The ring that is served next gives its descriptor. -/
theorem Dev.fetch_served {d : Dev} {q x : Nat} (hup : d.linkUp = true) (hnext : d.nextSq = some q) :
    d.fetch q x =
      if dMalformed x then (d.fetched q x).complete (d.newWork q x) stRange 0 0
      else if dStandby (dOpc x) then d.fetched q x
      else if (d.fetched q x).awake then
        if (d.fetched q x).get pwrState = 1 then (d.fetched q x).stateTo 0 2 else d.fetched q x
      else (d.fetched q x).beginWake 2 := by
  unfold Dev.fetch
  rw [if_neg (by simp [hup, hnext])]
  rfl

theorem Dev.regs_fetched (d : Dev) (q x : Nat) :
    (d.fetched q x).regs = (d.put (sqHead q) ((d.get (sqHead q) + 1) % ringSize (d.get (sqSizeLog q)))).regs := (rfl)

theorem Dev.get_fetched_sqHead (d : Dev) (q x : Nat) :
    (d.fetched q x).get (sqHead q) = (d.get (sqHead q) + 1) % ringSize (d.get (sqSizeLog q)) := by
  rw [Dev.get_of_regs (d.regs_fetched q x), Dev.get_put _ _ _ (by simp [sqHead])]
  have hpos : 0 < ringSize (d.get (sqSizeLog q)) := Nat.two_pow_pos _
  exact Nat.mod_eq_of_lt (Nat.lt_of_lt_of_le (Nat.mod_lt _ hpos) (ringSize_le _))

theorem Dev.pwr_fetched (d : Dev) (q x : Nat) : (d.fetched q x).pwr = d.pwr := by
  unfold Dev.fetched
  rw [Dev.put_pwr]

theorem Dev.waiting_fetched (d : Dev) (q x i : Nat) :
    Tab.get (fun _ => none) (d.fetched q x).host.waiting i =
      if q = i then some ⟨d.host.fetchNo, x⟩ else Tab.get (fun _ => none) d.host.waiting i :=
  Tab.get_set (fun _ => none) d.host.waiting q i (some (⟨d.host.fetchNo, x⟩ : Fetched))

theorem Dev.keepsRegs_fetched (d : Dev) (q x : Nat) : d.KeepsRegs (d.fetched q x) [(sqHead q).addr] :=
  Dev.keepsRegs_of_regs (d.regs_fetched q x) (Dev.keepsRegs_put _ _ (.head _) (d.keepsRegs_refl _))

/-- Awake in P0, a well-formed descriptor does nothing more. -/
theorem Dev.fetch_awake {d : Dev} {q x : Nat} (hup : d.linkUp = true) (hnext : d.nextSq = some q) (hx : dMalformed x = false)
    (hp : d.get pwrState = 0) (hq : q < 16) : d.fetch q x = d.fetched q x := by
  have hpwr : (d.fetched q x).get pwrState = 0 :=
    (Dev.get_of_regs (d.regs_fetched q x) pwrState).trans
      ((Dev.get_put_addr _ _ _ _ (by simp only [sqHead, pwrState]; omega)).trans hp)
  rw [Dev.fetch_served hup hnext, hx, hpwr, Dev.awake, hpwr]
  simp

/-! ## What a completion leaves (R488, R489) -/

/-- A completion writes at most the tail and the phase of its ring. -/
theorem Dev.keepsRegs_complete (d : Dev) (w : Work) (status result r64 : Nat) :
    d.KeepsRegs (d.complete w status result r64) [(cqTail (d.cqOf w.q)).addr] := by
  have hleave : d.KeepsRegs (d.leaveWork w) [(cqTail (d.cqOf w.q)).addr] := fun _ _ => rfl
  rw [Dev.complete_eq]
  unfold Dev.postComp
  dsimp only
  split
  · exact hleave
  split
  · refine Dev.keepsRegs_of_regs (Dev.ringMessage_regs _ _) ?_
    split
    · exact Dev.keepsRegs_put _ _ (.head _) (Dev.keepsRegs_put _ _ (.head _) hleave)
    · exact Dev.keepsRegs_put _ _ (.head _) hleave
  · exact fun _ _ => rfl

/-- The descriptor that waits leaves its place when it completes. -/
theorem Dev.waiting_complete {d : Dev} {w : Work} {f : Fetched} (status result r64 : Nat)
    (h : Tab.get (fun _ => none) d.host.waiting w.q = some f) (hid : f.id = w.id) :
    Tab.get (fun _ => none) (d.complete w status result r64).host.waiting w.q = none := by
  rw [Dev.complete_waiting, Dev.leaveWork]
  simp [h, hid]

/-- A malformed descriptor completes at once (R494). -/
theorem Dev.fetch_malformed {d : Dev} {q x : Nat} (hup : d.linkUp = true) (hnext : d.nextSq = some q) (hx : dMalformed x = true) :
    d.fetch q x = (d.fetched q x).complete (d.newWork q x) stRange 0 0 := by
  rw [Dev.fetch_served hup hnext, if_pos hx]

/-! ## Fences (R492) -/

theorem Dev.fenceMet_iff (d : Dev) (id m : Nat) :
    d.fenceMet id m = true ↔ (∀ y, y ∈ d.host.work → y.id < id → m.testBit y.q = false) ∧
      ∀ c, c ∈ d.host.held → c.id < id → m.testBit c.q = false := by
  simp [Dev.fenceMet]

theorem Dev.done_work (d : Dev) (w : Work) (status : Nat) :
    (d.done w status).host.work = d.host.work.filter fun x => x.id != w.id :=
  (HostSt.work_of_core (Dev.idleRestart_core _)).trans (d.complete_work w status 0 0)

theorem Dev.done_fences (d : Dev) (w : Work) (status : Nat) : (d.done w status).host.fences = d.host.fences :=
  (HostSt.fences_of_core (Dev.idleRestart_core _)).trans (d.complete_fences w status 0 0)

/-- The device once a FENCE that waited is off the list. -/
def Dev.fenceOff (d : Dev) (id : Nat) : Dev :=
  { d with host := { d.host with fences := d.host.fences.filter fun y => y.id != id } }

/-- A FENCE that waited and is met completes. -/
theorem Dev.fenceComplete_met {d : Dev} {q : Nat} {f : FenceWait} (hf : d.host.fences.find? (fun f => f.q == q) = some f)
    (hmet : d.fenceMet f.id f.mask = true) :
    d.fenceComplete q = (d.fenceOff f.id).done { id := f.id, q := f.q, cid := f.cid, opc := opFence } stOk := by
  rw [Dev.fenceComplete, hf]
  exact if_pos hmet

/-- Settles O40: the descriptor is taken by `Dev.fetched`; FENCE waits on `Dev.fenceMet`. -/
theorem descriptorsAreFetchedAndFencesComplete : Obligations.DescriptorsAreFetchedAndFencesComplete := by
  refine ⟨⟨fun s q x hup hnext hx hp => ?_, fun s q x hup hnext hx => ?_⟩, fun s q x w h => ?_, fun s q x w h hnew => ?_,
    fun s q f hf hmet => ?_⟩
  · refine .of_onDev (fun d => d.fetch q x.toNat) rfl (Dev.fetch_awake hup hnext hx hp q.isLt) ?_
    refine ⟨s.dev.get_fetched_sqHead q x.toNat, ?_, fun i hi => ?_, rfl, rfl, s.dev.keepsRegs_fetched q x.toNat, rfl⟩
    · exact (s.dev.waiting_fetched q _ q).trans (if_pos rfl)
    · exact (s.dev.waiting_fetched q _ i).trans (if_neg (Ne.symm hi))
  · refine .of_onDev (fun d => d.fetch q x.toNat) rfl (Dev.fetch_malformed hup hnext hx) ?_
    refine ⟨?_, ?_, ?_, ?_⟩
    · rw [((s.dev.fetched q x.toNat).keepsRegs_complete _ _ _ _).get, Dev.get_fetched_sqHead]
      simp only [sqHead, cqTail, List.mem_singleton]
      omega
    · exact Dev.waiting_complete _ _ _ ((s.dev.waiting_fetched q _ q).trans (if_pos rfl)) rfl
    · rw [Dev.complete_work]
      exact ne_of_mem_filter_id
    · rw [Dev.complete_pwr, Dev.pwr_fetched]
  · exact .of_onDev (fun d => d.nopDesc q) rfl (Dev.onDesc_of_descOf _ h) rfl
  · intro m
    refine .of_onDev (fun d => d.fenceDesc q) rfl (Dev.onDesc_of_descOf _ h) ?_
    simp only [hnew, Bool.false_eq_true, if_false, Dev.fenceMet_iff]
    split
    · rfl
    · exact ⟨rfl, rfl, rfl⟩
  · refine .of_onDev (fun d => d.fenceComplete q) rfl (Dev.fenceComplete_met hf hmet) ⟨?_, ?_, rfl⟩
    · rw [Dev.done_fences]
      exact fun y hy => by simpa using (List.mem_filter.1 hy).2
    · rw [Dev.done_work]
      exact ne_of_mem_filter_id

end Sys2Proof.Machine
end

section
/-!
PROOFS. Ring enables, doorbells and the unmasking of a vector (R485 to R489, R507, R515, R519).
-/

namespace Sys2Proof.Machine

/-! ## What a change of the rings writes -/

/-- A list of changes gives a value `c` where it changes it at all. -/
theorem Dev.forEach_resets {α : Type} (φ : Dev → α) {f : Dev → Nat → Dev} {c : α} {q : Nat} (hq : ∀ d, φ (f d q) = c)
    (hne : ∀ d i, i ≠ q → φ (f d i) = φ d) (l : List Nat) (d : Dev) : φ (d.forEach l f) = if q ∈ l then c else φ d := by
  unfold Dev.forEach
  induction l generalizing d with
  | nil => rfl
  | cons i l ih =>
    rw [List.foldl_cons, ih]
    by_cases hi : i = q
    · subst hi
      simp [hq]
    · simp [hne d i hi, Ne.symm hi]

/-! ## The EQ is enabled (R486, R518, R519) -/

theorem Dev.keepsRegs_eqWrite (d : Dev) (e : EvRec) : d.KeepsRegs (d.eqWrite e) [eqTail.addr, eqDrop.addr] := by
  unfold Dev.eqWrite
  refine Dev.keepsRegs_of_regs (Dev.ringMessage_regs _ _) (.ite ?_ ?_)
  · exact Dev.keepsRegs_put _ _ (by decide) (Dev.keepsRegs_put _ _ (by decide) fun _ _ => rfl)
  · exact Dev.keepsRegs_put _ _ (by decide) fun _ _ => rfl

theorem Dev.keepsRegs_evDrop (d : Dev) (n : Nat) : d.KeepsRegs (d.evDrop n) [eqTail.addr, eqDrop.addr] :=
  Dev.keepsRegs_put _ _ (by decide) fun _ _ => rfl

theorem Dev.keepsRegs_evOverflow (d : Dev) : d.KeepsRegs d.evOverflow [eqTail.addr, eqDrop.addr] := by
  have hwrite : ∀ (u : Dev) (e : EvRec), u.regs = d.regs → d.KeepsRegs (u.eqWrite e) [eqTail.addr, eqDrop.addr] := fun u e hu =>
    (Dev.keepsRegs_of_regs hu (d.keepsRegs_refl _)).trans (u.keepsRegs_eqWrite e)
  unfold Dev.evOverflow
  exact .ite (hwrite _ _ rfl) (d.keepsRegs_refl _)

theorem Dev.keepsRegs_evFlush (d : Dev) (buf : List EvRec) : d.KeepsRegs (d.evFlush buf) [eqTail.addr, eqDrop.addr] := by
  induction buf generalizing d with
  | nil => exact d.keepsRegs_refl _
  | cons e es ih =>
    unfold Dev.evFlush
    exact .ite ((d.keepsRegs_eqWrite e).trans (ih _)) (d.keepsRegs_evDrop _)

/-- The EQ's own registers as the enable sets them. -/
def Dev.eqReset (d : Dev) : Dev := (((d.put hostEqEn 1).put eqTail 0).put eqHead 0).put eqPhase 1

/-- The EQ is enabled and takes what waited for it. -/
def Dev.eqSeenNow (d : Dev) : Dev := { d.eqReset with host := { d.host with eqSeen := true, evBuf := [] } }

theorem Dev.eqEnable_eq (d : Dev) : d.eqEnable = (d.eqSeenNow.evFlush d.host.evBuf).evOverflow := by
  unfold Dev.eqEnable Dev.eqSeenNow Dev.eqReset
  simp only [Dev.put_host]

theorem Dev.eqReset_regs (d : Dev) : d.eqReset.get hostEqEn = 1 ∧ d.eqReset.get eqHead = 0 ∧ d.eqReset.get eqTail = 0 ∧
    d.eqReset.get eqPhase = 1 := by
  unfold Dev.eqReset
  refine ⟨?_, ?_, ?_, ?_⟩ <;> simp [Dev.get_put, Dev.get_put_ne, hostEqEn, eqHead, eqTail, eqPhase]

/-- With nothing dropped, no OVERFLOW record is due (R518). -/
theorem Dev.evOverflow_quiet {d : Dev} (h : d.host.dropped = 0) : d.evOverflow = d := by
  simp [Dev.evOverflow, h]

theorem Dev.eqSeenNow_host (d : Dev) : d.eqSeenNow.host = { d.host with eqSeen := true, evBuf := [] } := by
  rw [Dev.eqSeenNow]

theorem Dev.eqSeenNow_regs (d : Dev) : d.eqSeenNow.regs = d.eqReset.regs := by
  rw [Dev.eqSeenNow]

/-- With nothing that waited or was dropped, the enable writes no record. -/
theorem Dev.eqEnable_quiet {d : Dev} (hbuf : d.host.evBuf = []) (hdrop : d.host.dropped = 0) : d.eqEnable = d.eqSeenNow := by
  rw [Dev.eqEnable_eq, hbuf, Dev.evFlush, Dev.evOverflow_quiet]
  rw [Dev.eqSeenNow_host]
  exact hdrop

/-- The enable keeps the CQ enables and every word but the EQ's. -/
theorem Dev.eqEnable_get (d : Dev) {f : Fld} (hf : f.addr ≠ eqTail.addr ∧ f.addr ≠ eqDrop.addr)
    (hen : f.addr ≠ hostEqEn.addr ∨ f.lo + f.w ≤ 16) : d.eqEnable.get f = d.get f := by
  have hkeep := (d.eqSeenNow.keepsRegs_evFlush d.host.evBuf).trans (Dev.keepsRegs_evOverflow _)
  rw [Dev.eqEnable_eq, hkeep.get (by simpa using hf)]
  have htail : eqTail.addr ≠ f.addr := Ne.symm hf.1
  rw [Dev.get_of_regs d.eqSeenNow_regs, Dev.eqReset, Dev.get_put_addr _ eqPhase _ _ htail, Dev.get_put_addr _ eqHead _ _ htail,
    Dev.get_put_addr _ eqTail _ _ htail]
  refine d.get_put_ne hostEqEn f 1 (hen.imp Ne.symm fun h => ⟨by decide, .inl h⟩)

/-! ## Rings start (R486) -/

/-- A newly enabled SQ starts at index 0. -/
def Dev.sqStart (d : Dev) (q : Nat) : Dev := (d.put (sqHead q) 0).put (sqTail q) 0

/-- A newly enabled CQ starts at index 0 with phase 1. -/
def Dev.cqStart (d : Dev) (q : Nat) : Dev := ((d.put (cqHead q) 0).put (cqTail q) 0).put (cqPhase q) 1

theorem Dev.sqStart_get (d : Dev) (q : Nat) : (d.sqStart q).get (sqHead q) = 0 ∧ (d.sqStart q).get (sqTail q) = 0 := by
  unfold Dev.sqStart
  constructor <;> simp [Dev.get_put, Dev.get_put_ne, sqHead, sqTail]

theorem Dev.cqStart_get (d : Dev) (q : Nat) : (d.cqStart q).get (cqHead q) = 0 ∧ (d.cqStart q).get (cqTail q) = 0 ∧
    (d.cqStart q).get (cqPhase q) = 1 := by
  unfold Dev.cqStart
  refine ⟨?_, ?_, ?_⟩ <;> simp [Dev.get_put, Dev.get_put_ne, cqHead, cqTail, cqPhase]

theorem Dev.onlyRegs_sqStart (d : Dev) (q : Nat) : d.OnlyRegs (d.sqStart q) [(sqHead q).addr] :=
  ((Dev.OnlyRegs.refl d _).put _ (.head _)).put _ (.head _)

theorem Dev.onlyRegs_cqStart (d : Dev) (q : Nat) : d.OnlyRegs (d.cqStart q) [(cqHead q).addr] :=
  have htail : (cqTail q).addr ∈ [(cqHead q).addr] := .head _
  have hphase : (cqPhase q).addr ∈ [(cqHead q).addr] := .head _
  (((Dev.OnlyRegs.refl d _).put 0 (.head _)).put 0 htail).put 1 hphase

theorem Dev.sqStart_get_ne (d : Dev) {q i : Nat} (h : i ≠ q) :
    (d.sqStart i).get (sqHead q) = d.get (sqHead q) ∧ (d.sqStart i).get (sqTail q) = d.get (sqTail q) := by
  constructor <;> refine (d.onlyRegs_sqStart i).get ?_ <;> simp only [sqHead, sqTail, List.mem_singleton] <;> omega

theorem Dev.cqStart_get_ne (d : Dev) {q i : Nat} (h : i ≠ q) : (d.cqStart i).get (cqHead q) = d.get (cqHead q) ∧
    (d.cqStart i).get (cqTail q) = d.get (cqTail q) ∧ (d.cqStart i).get (cqPhase q) = d.get (cqPhase q) := by
  refine ⟨?_, ?_, ?_⟩ <;> refine (d.onlyRegs_cqStart i).get ?_ <;> simp only [cqHead, cqTail, cqPhase, List.mem_singleton] <;> omega

/-- The rings of a mask that another does not hold. -/
def newRings (v old : Nat) : List Nat := (List.range 16).filter fun q => v.testBit q && !old.testBit q

theorem mem_newRings {v old q : Nat} (hq : q < 16) : q ∈ newRings v old ↔ (v.testBit q && !old.testBit q) = true := by
  simp [newRings, hq]

theorem Dev.sqEnWrite_eq (d : Dev) (v : Nat) :
    d.sqEnWrite v = (d.put hostSqEn (v % 65536)).forEach (newRings v (d.get hostSqEn)) Dev.sqStart := (rfl)

/-- The words of the SQ indices, with that of the enables. -/
abbrev sqWords : List Nat := hostSqEn.addr :: (List.range 16).map fun q => (sqHead q).addr

theorem Dev.onlyRegs_forEach {l ks : List Nat} {g : Dev → Nat → Dev} (h : ∀ d, ∀ k ∈ ks, Dev.OnlyRegs d (g d k) l) (d : Dev) :
    d.OnlyRegs (d.forEach ks g) l := by
  unfold Dev.forEach
  refine List.foldlRecOn ks g (motive := fun t => d.OnlyRegs t l) (.refl d l) fun t ht k hk => ?_
  obtain ⟨⟨r, hr⟩, hkeep⟩ := ht
  obtain ⟨⟨r', hr'⟩, hkeep'⟩ := h t k hk
  exact ⟨⟨r', by rw [hr', hr]⟩, hkeep.trans hkeep'⟩

theorem Dev.onlyRegs_sqEnWrite (d : Dev) (v : Nat) : d.OnlyRegs (d.sqEnWrite v) sqWords := by
  have hput : d.OnlyRegs (d.put hostSqEn (v % 65536)) sqWords := (Dev.OnlyRegs.refl d _).put _ (.head _)
  have hrings := Dev.onlyRegs_forEach (l := sqWords) (ks := newRings v (d.get hostSqEn)) (g := Dev.sqStart) (fun e q hq =>
    ⟨(e.onlyRegs_sqStart q).1, (e.onlyRegs_sqStart q).2.mono fun a ha => by
      have hlt : q < 16 := List.mem_range.1 (List.mem_of_mem_filter hq)
      rw [List.mem_singleton.1 ha]
      exact .tail _ (List.mem_map.2 ⟨q, List.mem_range.2 hlt, rfl⟩)⟩) (d.put hostSqEn (v % 65536))
  rw [Dev.sqEnWrite_eq]
  obtain ⟨⟨r, hr⟩, hkeep⟩ := hrings
  exact ⟨⟨r, by rw [hr]; rfl⟩, hput.keeps.trans hkeep⟩

theorem Dev.sqEnWrite_index (d : Dev) (v : Nat) {q : Nat} (hq : q < 16) :
    (d.sqEnWrite v).get (sqHead q) = (if v.testBit q && !(d.get hostSqEn).testBit q then 0 else d.get (sqHead q)) ∧
      (d.sqEnWrite v).get (sqTail q) = if v.testBit q && !(d.get hostSqEn).testBit q then 0 else d.get (sqTail q) := by
  have hhead : (d.put hostSqEn (v % 65536)).get (sqHead q) = d.get (sqHead q) :=
    d.get_put_addr _ _ _ (by simp only [hostSqEn, sqHead]; omega)
  have htail : (d.put hostSqEn (v % 65536)).get (sqTail q) = d.get (sqTail q) :=
    d.get_put_addr _ _ _ (by simp only [hostSqEn, sqTail]; omega)
  rw [Dev.sqEnWrite_eq]
  constructor
  · rw [Dev.forEach_resets (fun e => e.get (sqHead q)) (fun e => (e.sqStart_get q).1) (fun e i hi => (e.sqStart_get_ne hi).1), hhead]
    simp only [mem_newRings hq]
  · rw [Dev.forEach_resets (fun e => e.get (sqTail q)) (fun e => (e.sqStart_get q).2) (fun e i hi => (e.sqStart_get_ne hi).2), htail]
    simp only [mem_newRings hq]

theorem Dev.sqEnWrite_en (d : Dev) (v : Nat) : (d.sqEnWrite v).get hostSqEn = v % 65536 := by
  rw [Dev.sqEnWrite_eq, Dev.forEach_keeps (fun e => e.get hostSqEn)]
  · rw [Dev.get_put _ _ _ (by decide)]
    exact Nat.mod_mod _ _
  · exact fun e q _ => (e.onlyRegs_sqStart q).get (by simp only [hostSqEn, sqHead, List.mem_singleton]; omega)

/-! ## The enables of the completion rings (R486, R489) -/

/-- The CQs that a write would disable and that an enabled SQ still uses. -/
def Dev.cqKeep (d : Dev) (v : Nat) : List Nat := (newRings (d.get hostCqEn) v).filter d.cqBound

/-- The enables that a write leaves. -/
def Dev.cqNow (d : Dev) (v : Nat) : Nat := v % 65536 ||| listMask (d.cqKeep v)

/-- The device with the enables of its CQs changed and the records of disabled CQs discarded. -/
def Dev.cqsSet (d : Dev) (v : Nat) : Dev :=
  let e := (if (d.cqKeep v).isEmpty then d else d.bump hostDbErr).put hostCqEn (d.cqNow v)
  { e with host := { e.host with held := e.host.held.filter fun c => (d.cqNow v).testBit (e.cqOf c.q) } }

/-- The device with its new CQs started. -/
def Dev.cqsStarted (d : Dev) (v : Nat) : Dev := (d.cqsSet v).forEach (newRings (d.cqNow v) (d.get hostCqEn)) Dev.cqStart

theorem Dev.cqEnWrite_eq (d : Dev) (v : Nat) :
    d.cqEnWrite v = if v.testBit 16 then (if (d.cqsStarted v).is hostEqEn then d.cqsStarted v else (d.cqsStarted v).eqEnable)
      else (d.cqsStarted v).put hostEqEn 0 := (rfl)

theorem Dev.cqsSet_regs (d : Dev) (v : Nat) :
    (d.cqsSet v).regs = ((if (d.cqKeep v).isEmpty then d else d.bump hostDbErr).put hostCqEn (d.cqNow v)).regs := (rfl)

theorem Dev.cqsSet_en (d : Dev) (v : Nat) : (d.cqsSet v).get hostCqEn = d.cqNow v % 65536 := by
  rw [Dev.get_of_regs (d.cqsSet_regs v), Dev.get_put _ _ _ (by decide)]
  rfl

/-- A CQ that stays enabled against the write is counted (R486). -/
theorem Dev.cqsSet_dbErr (d : Dev) (v : Nat) :
    (d.cqsSet v).get hostDbErr = if (d.cqKeep v).isEmpty then d.get hostDbErr else min (d.get hostDbErr + 1) 0xFFFF := by
  rw [Dev.get_of_regs (d.cqsSet_regs v), Dev.get_put_addr _ _ _ _ (by decide)]
  split
  · rfl
  · exact Dev.get_bump _ _ (by decide)

theorem Dev.cqsSet_twin (d : Dev) (v : Nat) : (d.cqsSet v).twin = d.twin := by
  unfold Dev.cqsSet
  dsimp only
  split <;> simp

theorem Dev.cqsSet_host (d : Dev) (v : Nat) :
    (d.cqsSet v).host = { d.host with held := d.host.held.filter fun c => (d.cqNow v).testBit (d.cqOf c.q) } := by
  have hof : ∀ q, ((if (d.cqKeep v).isEmpty then d else d.bump hostDbErr).put hostCqEn (d.cqNow v)).cqOf q = d.cqOf q := fun q => by
    have hen : hostCqEn.addr ≠ (sqCq q).addr := by simp only [hostCqEn, sqCq]; omega
    have herr : hostDbErr.addr ≠ (sqCq q).addr := by simp only [hostDbErr, sqCq]; omega
    rw [Dev.cqOf, Dev.get_put_addr _ _ _ _ hen]
    split
    · rfl
    · exact d.get_bump_ne _ _ (.inl herr)
  unfold Dev.cqsSet
  simp only [hof]
  split <;> simp

/-- The words of the CQ indices. -/
abbrev cqWords : List Nat := (List.range 16).map fun q => (cqHead q).addr

theorem Dev.onlyRegs_cqsStarted (d : Dev) (v : Nat) : (d.cqsSet v).OnlyRegs (d.cqsStarted v) cqWords :=
  Dev.onlyRegs_forEach (fun e q hq => ⟨(e.onlyRegs_cqStart q).1, (e.onlyRegs_cqStart q).2.mono fun a ha => by
    have hlt : q < 16 := List.mem_range.1 (List.mem_of_mem_filter hq)
    rw [List.mem_singleton.1 ha]
    exact List.mem_map.2 ⟨q, List.mem_range.2 hlt, rfl⟩⟩) (d.cqsSet v)

theorem Dev.cqsStarted_twin (d : Dev) (v : Nat) : (d.cqsStarted v).twin = d.twin := by
  obtain ⟨⟨r, hr⟩, -⟩ := d.onlyRegs_cqsStarted v
  rw [hr, ← d.cqsSet_twin v]

theorem Dev.cqsStarted_host (d : Dev) (v : Nat) : (d.cqsStarted v).host = (d.cqsSet v).host := by
  obtain ⟨⟨r, hr⟩, -⟩ := d.onlyRegs_cqsStarted v
  rw [hr]

theorem Dev.cqsStarted_get (d : Dev) (v : Nat) {f : Fld} (hf : f.addr < 0x10200) :
    (d.cqsStarted v).get f = (d.cqsSet v).get f :=
  (d.onlyRegs_cqsStarted v).get fun ha => by
    obtain ⟨q, -, hq⟩ := List.mem_map.1 ha
    simp only [cqHead] at hq
    omega

/-- A CQ that the write enables starts at index 0 with phase 1. -/
theorem Dev.cqsStarted_new (d : Dev) (v : Nat) {q : Nat} (hq : q ∈ newRings (d.cqNow v) (d.get hostCqEn)) :
    (d.cqsStarted v).get (cqHead q) = 0 ∧ (d.cqsStarted v).get (cqTail q) = 0 ∧ (d.cqsStarted v).get (cqPhase q) = 1 := by
  unfold Dev.cqsStarted
  refine ⟨?_, ?_, ?_⟩
  · rw [Dev.forEach_resets (fun e => e.get (cqHead q)) (fun e => (e.cqStart_get q).1) (fun e i hi => (e.cqStart_get_ne hi).1), if_pos hq]
  · rw [Dev.forEach_resets (fun e => e.get (cqTail q)) (fun e => (e.cqStart_get q).2.1) (fun e i hi => (e.cqStart_get_ne hi).2.1),
      if_pos hq]
  · rw [Dev.forEach_resets (fun e => e.get (cqPhase q)) (fun e => (e.cqStart_get q).2.2) (fun e i hi => (e.cqStart_get_ne hi).2.2),
      if_pos hq]

/-- With no RUN on its way to the twin, held records that were written tell it nothing. -/
theorem Dev.tellHeld_of_closing {d : Dev} (h : d.twin.closing = []) : d.tellHeld = d := by
  simp [Dev.tellHeld, h]

theorem testBit_listMask (l : List Nat) (i : Nat) : (listMask l).testBit i = decide (i ∈ l) := by
  have hfold : ∀ m, (l.foldl (fun m i => m ||| 2 ^ i) m).testBit i = (m.testBit i || decide (i ∈ l)) := by
    induction l with
    | nil => simp
    | cons j l ih =>
      intro m
      rw [List.foldl_cons, ih, Nat.testBit_or, Nat.testBit_two_pow]
      by_cases h : j = i
      · simp [h]
      · simp [h, Ne.symm h]
  rw [listMask, hfold, Nat.zero_testBit, Bool.false_or]

/-- The enables that stay: those written, and those that cannot be disabled. -/
theorem Dev.testBit_cqNow (d : Dev) (v : Nat) {q : Nat} (hq : q < 16) :
    (d.cqNow v).testBit q = (v.testBit q || decide (q ∈ d.cqKeep v)) := by
  rw [Dev.cqNow, Nat.testBit_or, testBit_listMask, show 65536 = 2 ^ 16 from rfl, Nat.testBit_mod_two_pow]
  simp [hq]

theorem Dev.mem_cqKeep (d : Dev) (v q : Nat) :
    q ∈ d.cqKeep v ↔ q < 16 ∧ (d.get hostCqEn).testBit q = true ∧ v.testBit q = false ∧ d.cqBound q = true := by
  simp only [Dev.cqKeep, newRings, List.mem_filter, List.mem_range, Bool.and_eq_true, Bool.not_eq_true', and_assoc]

theorem Dev.OnlyHost.twin {d e : Dev} (h : d.OnlyHost e) : e.twin = d.twin := by
  obtain ⟨⟨_, _, _, he⟩, -⟩ := h
  rw [he]

theorem Dev.onlyHost_evFlush (d : Dev) (buf : List EvRec) : d.OnlyHost (d.evFlush buf) := by
  induction buf generalizing d with
  | nil => exact .refl d
  | cons e es ih =>
    unfold Dev.evFlush
    split
    · exact (d.onlyHost_eqWrite e).trans (ih _)
    · exact d.onlyHost_evDrop _

theorem Dev.eqEnable_twin (d : Dev) : d.eqEnable.twin = d.twin := by
  have hseen : d.eqSeenNow.twin = d.twin := by simp [Dev.eqSeenNow, Dev.eqReset]
  rw [Dev.eqEnable_eq, (Dev.onlyHost_evOverflow _).twin, (Dev.onlyHost_evFlush _ _).twin, hseen]

theorem Dev.cqEnWrite_twin (d : Dev) (v : Nat) : (d.cqEnWrite v).twin = d.twin := by
  rw [Dev.cqEnWrite_eq]
  repeat' split
  · exact d.cqsStarted_twin v
  · exact (Dev.eqEnable_twin _).trans (d.cqsStarted_twin v)
  · exact (Dev.put_twin _ _ _).trans (d.cqsStarted_twin v)

/-- The write's CQ enables and its count of refusals, whatever becomes of the EQ. -/
theorem Dev.cqEnWrite_get (d : Dev) (v : Nat) {f : Fld} (hf : f = hostCqEn ∨ f = hostDbErr) :
    (d.cqEnWrite v).get f = (d.cqsSet v).get f := by
  rw [← d.cqsStarted_get v (f := f) (by rcases hf with rfl | rfl <;> decide), Dev.cqEnWrite_eq]
  repeat' split
  · rfl
  · exact Dev.eqEnable_get _ (by rcases hf with rfl | rfl <;> decide) (by rcases hf with rfl | rfl <;> decide)
  · exact Dev.get_put_ne _ _ _ _ (by rcases hf with rfl | rfl <;> decide)

end Sys2Proof.Machine
end

section
/-!
PROOFS. Doorbells move an index or are counted; a vector that is unmasked sends its message (R486 to R488, R507, R515).
-/

namespace Sys2Proof.Machine

/-! ## Doorbells (R483, R487, R488) -/

/-- A bad doorbell is counted, and its event writes nothing but the EQ's words. -/
theorem Dev.doorbellErr_get (d : Dev) (off v : Nat) :
    (d.doorbellErr off v).get hostDbErr = min (d.get hostDbErr + 1) 0xFFFF := by
  rw [Dev.doorbellErr, (Dev.keepsRegs_event _ _ _ _).get (by decide)]
  exact d.get_bump hostDbErr (by decide)

theorem Dev.doorbellErr_keeps (d : Dev) (off v : Nat) :
    d.KeepsRegs (d.doorbellErr off v) [hostDbErr.addr, eqTail.addr, eqDrop.addr] :=
  (Dev.KeepsRegs.mono (Dev.keepsRegs_bump _ (.head _) (d.keepsRegs_refl [hostDbErr.addr])) (by decide)).trans
    ((Dev.keepsRegs_event _ _ _ _).mono (by decide))

theorem ringSize_pos (k : Nat) : 0 < ringSize k := Nat.two_pow_pos _

/-- A lawful value of a tail doorbell becomes the tail. -/
theorem Dev.sqTailBell_lawful {d : Dev} {q v : Nat} (hon : (d.get hostSqEn).testBit q = true) (hv : v < ringSize (d.get (sqSizeLog q)))
    (hroom : (d.get (sqTail q) + ringSize (d.get (sqSizeLog q)) - d.get (sqHead q)) % ringSize (d.get (sqSizeLog q)) +
      (v + ringSize (d.get (sqSizeLog q)) - d.get (sqTail q)) % ringSize (d.get (sqSizeLog q)) < ringSize (d.get (sqSizeLog q))) :
    d.sqTailBell q v = if v = d.get (sqTail q) then d else d.put (sqTail q) v := by
  unfold Dev.sqTailBell
  dsimp only
  rw [if_neg (by simpa [hon] using hv)]
  refine if_congr Iff.rfl rfl (if_neg ?_)
  omega

/-- An unlawful value of a tail doorbell is counted. -/
theorem Dev.sqTailBell_unlawful {d : Dev} {q v : Nat} (h : (d.get hostSqEn).testBit q = false ∨ ringSize (d.get (sqSizeLog q)) ≤ v ∨
    (v ≠ d.get (sqTail q) ∧ ringSize (d.get (sqSizeLog q)) ≤
      (d.get (sqTail q) + ringSize (d.get (sqSizeLog q)) - d.get (sqHead q)) % ringSize (d.get (sqSizeLog q)) +
        (v + ringSize (d.get (sqSizeLog q)) - d.get (sqTail q)) % ringSize (d.get (sqSizeLog q)))) :
    d.sqTailBell q v = d.doorbellErr (8 * q) v := by
  have hn := ringSize_pos (d.get (sqSizeLog q))
  unfold Dev.sqTailBell
  dsimp only
  by_cases hbad : (d.get hostSqEn).testBit q = false ∨ ringSize (d.get (sqSizeLog q)) ≤ v
  · rw [if_pos (by simpa using hbad)]
  · obtain ⟨hon, hv⟩ := not_or.1 hbad
    obtain ⟨hne, hfull⟩ := (h.resolve_left hon).resolve_left hv
    rw [if_neg (by simpa using hbad), if_neg hne, if_pos]
    omega

/-- The device once a head doorbell has moved a ring's head. -/
def Dev.headMoved (d : Dev) (f : Fld) (v ring : Nat) : Dev :=
  { d.put f v with host := { d.host with msgSent := d.host.msgSent.filter fun r => r != ring } }

theorem Dev.headMoved_regs (d : Dev) (f : Fld) (v ring : Nat) : (d.headMoved f v ring).regs = (d.put f v).regs := (rfl)

theorem Dev.flushHeld_quiet {d : Dev} (q : Nat) (h : d.host.held = []) : d.flushHeld q d.host.held = d := by
  rw [h, Dev.flushHeld]

/-- A head doorbell that takes no more than the ring holds moves the head; with no record held it does nothing more. -/
theorem Dev.cqHeadBell_lawful {d : Dev} {q v : Nat} (hon : d.cqOn q = true) (hheld : d.host.held = [])
    (hv : v < ringSize (d.get (cqSizeLog q)))
    (hfull : (v + ringSize (d.get (cqSizeLog q)) - d.get (cqHead q)) % ringSize (d.get (cqSizeLog q)) ≤
      (d.get (cqTail q) + ringSize (d.get (cqSizeLog q)) - d.get (cqHead q)) % ringSize (d.get (cqSizeLog q))) :
    d.cqHeadBell q v = if v = d.get (cqHead q) then d else d.headMoved (cqHead q) v q := by
  unfold Dev.cqHeadBell
  dsimp only
  rw [if_neg (by simpa [hon] using hv), if_neg (Nat.not_lt.2 hfull)]
  exact if_congr Iff.rfl rfl (Dev.flushHeld_quiet q (show (d.put _ _).host.held = [] from hheld))

theorem Dev.eqHeadBell_lawful {d : Dev} {v : Nat} (hon : d.get hostEqEn = 1) (hdrop : d.host.dropped = 0)
    (hv : v < ringSize (d.get eqSizeLog))
    (hfull : (v + ringSize (d.get eqSizeLog) - d.get eqHead) % ringSize (d.get eqSizeLog) ≤
      (d.get eqTail + ringSize (d.get eqSizeLog) - d.get eqHead) % ringSize (d.get eqSizeLog)) :
    d.eqHeadBell v = if v = d.get eqHead then d else d.headMoved eqHead v 16 := by
  unfold Dev.eqHeadBell
  dsimp only
  rw [if_neg (by simpa [(d.is_iff _).2 hon] using hv), if_neg (Nat.not_lt.2 hfull)]
  exact if_congr Iff.rfl rfl (Dev.evOverflow_quiet (show (d.put _ _).host.dropped = 0 from hdrop))

/-- What a head doorbell with a lawful value leaves. -/
theorem Dev.headMoved_effect (d : Dev) {f g : Fld} (ring : Nat) {v n : Nat} (hf : f.lo + f.w ≤ 32) (hw : f.w = 12) (hn : n ≤ 4096)
    (hv : v < n) (hg : g.lo + g.w ≤ f.lo ∨ f.lo + f.w ≤ g.lo) :
    let t := if v = d.get f then d else d.headMoved f v ring
    t.get f = v ∧ t.get g = d.get g ∧ d.KeepsRegs t [f.addr] ∧ { t with regs := d.regs, host := d.host } = d := by
  intro t
  by_cases h : v = d.get f
  · have ht : t = d := if_pos h
    rw [ht]
    exact ⟨h.symm, rfl, d.keepsRegs_refl _, rfl⟩
  · have ht : t = d.headMoved f v ring := if_neg h
    rw [ht, Dev.get_of_regs (d.headMoved_regs f v ring), Dev.get_of_regs (d.headMoved_regs f v ring), d.get_put f v hf, hw,
      d.get_put_bits f g v hf hg]
    exact ⟨Nat.mod_eq_of_lt (Nat.lt_of_lt_of_le hv hn), rfl,
      Dev.keepsRegs_of_regs (d.headMoved_regs f v ring) (Dev.keepsRegs_put f v (.head _) (d.keepsRegs_refl _)), rfl⟩

/-- A doorbell of a CQ that is disabled, or with a value past its ring, is counted. -/
theorem Dev.cqHeadBell_unlawful {d : Dev} {q v : Nat} (h : d.cqOn q = false ∨ ringSize (d.get (cqSizeLog q)) ≤ v) :
    d.cqHeadBell q v = d.doorbellErr (8 * q + 4) v := by
  unfold Dev.cqHeadBell
  dsimp only
  rw [if_pos (by simpa using h)]

theorem Dev.doorbellErr_twin (d : Dev) (off v : Nat) : (d.doorbellErr off v).twin = d.twin := by
  simp [Dev.doorbellErr]

/-! ## A vector is unmasked (R515) -/

theorem getLsbD_clear (m : BitVec 64) {i j : Nat} (hj : j < 64) :
    (m &&& ~~~BitVec.ofNat 64 (2 ^ i)).getLsbD j = (m.getLsbD j && decide (j ≠ i)) := by
  rw [BitVec.getLsbD_and, BitVec.getLsbD_not, BitVec.getLsbD_ofNat, Nat.testBit_two_pow]
  by_cases h : j = i <;> simp [h, hj, Ne.symm]

/-- A vector that is unmasked sends the message that waited for it. -/
theorem Dev.msixUnmask_effect (d : Dev) (i : Nat) (hi : i < 64) :
    (∀ j, j < 64 → (d.msixUnmask i).host.vecMask.getLsbD j = (d.host.vecMask.getLsbD j && decide (j ≠ i))) ∧
      (d.msixUnmask i).out = (if d.host.vecPend.getLsbD i then Output.msix i :: d.out else d.out) ∧
      (d.msixUnmask i).host.vecPend.getLsbD i = false ∧ { d.msixUnmask i with host := d.host, out := d.out } = d := by
  unfold Dev.msixUnmask
  dsimp only
  by_cases h : d.host.vecPend.getLsbD i = true
  · rw [if_pos h, if_pos h]
    exact ⟨fun j hj => getLsbD_clear _ hj, rfl, (getLsbD_clear _ hi).trans (by simp), rfl⟩
  · rw [if_neg h, if_neg h]
    exact ⟨fun j hj => getLsbD_clear _ hj, rfl, by simpa using h, rfl⟩

/-! ## The obligation -/

theorem Dev.cqKeep_nil {d : Dev} {v : Nat}
    (h : ∀ q, q < 16 → (d.get hostCqEn).testBit q = true → v.testBit q = true ∨ d.cqBound q = false) : d.cqKeep v = [] := by
  refine List.eq_nil_iff_forall_not_mem.2 fun q hq => ?_
  obtain ⟨hlt, hon, hoff, hbound⟩ := (d.mem_cqKeep v q).1 hq
  rcases h q hlt hon with hv | hb
  · exact Bool.false_ne_true (hoff.symm.trans hv)
  · exact Bool.false_ne_true (hb.symm.trans hbound)

/-- What a write that disables no CQ in use leaves, the EQ aside. -/
theorem Dev.cqEnWrite_free {d : Dev} {v : Nat} (hkeep : d.cqKeep v = []) (h16 : v.testBit 16 = false) :
    let t := d.cqEnWrite v
    t.get hostCqEn = v % 65536 ∧ t.get hostEqEn = 0 ∧ t.get hostDbErr = d.get hostDbErr ∧
      (∀ q, q < 16 → v.testBit q = true → (d.get hostCqEn).testBit q = false →
        t.get (cqHead q) = 0 ∧ t.get (cqTail q) = 0 ∧ t.get (cqPhase q) = 1) ∧
      t.host.held = d.host.held.filter fun c => v.testBit (d.cqOf c.q) := by
  have hnow : d.cqNow v = v % 65536 := by rw [Dev.cqNow, hkeep]; exact Nat.or_zero _
  have ht : d.cqEnWrite v = (d.cqsStarted v).put hostEqEn 0 := by rw [Dev.cqEnWrite_eq, h16]; rfl
  intro t
  refine ⟨?_, ?_, ?_, fun q hq hv hold => ?_, ?_⟩
  · rw [d.cqEnWrite_get v (.inl rfl), Dev.cqsSet_en, hnow, Nat.mod_mod]
  · rw [show t = _ from ht, Dev.get_put _ _ _ (by decide)]
    rfl
  · rw [d.cqEnWrite_get v (.inr rfl), Dev.cqsSet_dbErr, hkeep]
    rfl
  · have hnew : q ∈ newRings (d.cqNow v) (d.get hostCqEn) := by
      rw [mem_newRings hq, d.testBit_cqNow v hq, hv, hold]
      rfl
    obtain ⟨hhead, htail, hphase⟩ := d.cqsStarted_new v hnew
    have hne : hostEqEn.addr ≠ (cqHead q).addr := by simp only [hostEqEn, cqHead]; omega
    rw [show t = _ from ht, Dev.get_put_addr _ _ (cqHead q) _ hne, Dev.get_put_addr _ _ (cqTail q) _ hne,
      Dev.get_put_addr _ _ (cqPhase q) _ hne]
    exact ⟨hhead, htail, hphase⟩
  · rw [show t = _ from ht, Dev.put_host, Dev.cqsStarted_host, Dev.cqsSet_host]
    refine List.filter_congr fun c _ => ?_
    rw [d.testBit_cqNow v (d.cqOf_lt c.q), hkeep]
    simp

/-- A CQ in use stays enabled against the write, which is counted. -/
theorem Dev.cqEnWrite_bound {d : Dev} {v q : Nat} (hq : q < 16) (hon : (d.get hostCqEn).testBit q = true)
    (hoff : v.testBit q = false) (hbound : d.cqBound q = true) :
    ((d.cqEnWrite v).get hostCqEn).testBit q = true ∧ (d.cqEnWrite v).get hostDbErr = min (d.get hostDbErr + 1) 0xFFFF := by
  have hkeep : q ∈ d.cqKeep v := (d.mem_cqKeep v q).2 ⟨hq, hon, hoff, hbound⟩
  constructor
  · rw [d.cqEnWrite_get v (.inl rfl), Dev.cqsSet_en, show 65536 = 2 ^ 16 from rfl, Nat.testBit_mod_two_pow, d.testBit_cqNow v hq]
    simp [hq, hkeep]
  · rw [d.cqEnWrite_get v (.inr rfl), Dev.cqsSet_dbErr, if_neg]
    rw [List.isEmpty_iff]
    exact List.ne_nil_of_mem hkeep

/-- The EQ is enabled by a write that finds it disabled and nothing waiting for it. -/
theorem Dev.cqEnWrite_eq_on {d : Dev} {v : Nat} (h16 : v.testBit 16 = true) (hen : d.get hostEqEn = 0) (hbuf : d.host.evBuf = [])
    (hdrop : d.host.dropped = 0) : d.cqEnWrite v = (d.cqsStarted v).eqSeenNow := by
  have hget : (d.cqsStarted v).get hostEqEn = 0 := by
    rw [d.cqsStarted_get v (by decide), Dev.get_of_regs (d.cqsSet_regs v), Dev.get_put_bits _ _ _ _ (by decide) (.inr (by decide))]
    split
    · exact hen
    · rw [d.get_bump_ne _ _ (.inl (by decide)), hen]
  have hoff : ¬ (d.cqsStarted v).is hostEqEn = true := fun h => absurd ((Dev.is_iff _ _).1 h) (by rw [hget]; decide)
  rw [Dev.cqEnWrite_eq, if_pos h16, if_neg hoff]
  refine Dev.eqEnable_quiet ?_ ?_ <;> rw [Dev.cqsStarted_host, Dev.cqsSet_host]
  · exact hbuf
  · exact hdrop

/-- What the enable of the EQ leaves. -/
theorem Dev.cqEnWrite_eq_effect {d : Dev} {v : Nat} (h16 : v.testBit 16 = true) (hen : d.get hostEqEn = 0)
    (hbuf : d.host.evBuf = []) (hdrop : d.host.dropped = 0) :
    let t := d.cqEnWrite v
    t.get hostEqEn = 1 ∧ t.get eqHead = 0 ∧ t.get eqTail = 0 ∧ t.get eqPhase = 1 ∧ t.host.eqSeen = true := by
  have ht := Dev.cqEnWrite_eq_on h16 hen hbuf hdrop
  have hregs : (d.cqEnWrite v).regs = (d.cqsStarted v).eqReset.regs := by rw [ht, Dev.eqSeenNow_regs]
  obtain ⟨hon, hhead, htail, hphase⟩ := (d.cqsStarted v).eqReset_regs
  refine ⟨?_, ?_, ?_, ?_, ?_⟩
  · exact (Dev.get_of_regs hregs _).trans hon
  · exact (Dev.get_of_regs hregs _).trans hhead
  · exact (Dev.get_of_regs hregs _).trans htail
  · exact (Dev.get_of_regs hregs _).trans hphase
  · rw [ht, Dev.eqSeenNow_host]

/-- What a tail doorbell with a lawful value leaves. -/
theorem Dev.tailMoved_effect (d : Dev) {q v k : Nat} (hv : v < ringSize k) :
    let t := if v = d.get (sqTail q) then d else d.put (sqTail q) v
    t.get (sqTail q) = v ∧ t.get (sqHead q) = d.get (sqHead q) ∧ d.KeepsRegs t [(sqTail q).addr] ∧
      { t with regs := d.regs } = d := by
  intro t
  have hmoved : d.OnlyRegs (d.put (sqTail q) v) [(sqTail q).addr] := (Dev.OnlyRegs.refl d _).put _ (.head _)
  by_cases h : v = d.get (sqTail q)
  · rw [show t = d from if_pos h]
    exact ⟨h.symm, rfl, d.keepsRegs_refl _, rfl⟩
  · rw [show t = d.put (sqTail q) v from if_neg h]
    refine ⟨?_, ?_, hmoved.keeps, hmoved.alone⟩
    · rw [Dev.get_put _ _ _ (by simp [sqTail])]
      exact Nat.mod_eq_of_lt (Nat.lt_of_lt_of_le hv (ringSize_le k))
    · exact Dev.get_put_bits _ _ _ _ (by simp [sqTail]) (.inl (by simp [sqTail, sqHead]))

/-- A tail doorbell that is refused is counted and moves nothing. -/
theorem Dev.sqTail_refused (d : Dev) {q : Nat} (off v : Nat) (hq : q < 16) :
    (d.doorbellErr off v).get hostDbErr = min (d.get hostDbErr + 1) 0xFFFF ∧
      (d.doorbellErr off v).get (sqTail q) = d.get (sqTail q) ∧ d.KeepsRegsEv (d.doorbellErr off v) [] := by
  refine ⟨d.doorbellErr_get off v, (d.doorbellErr_keeps off v).get ?_, fun a _ ha => d.doorbellErr_keeps off v a ?_⟩
  · simp only [sqTail, hostDbErr, eqTail, eqDrop, List.mem_cons, List.not_mem_nil, or_false]
    omega
  · simp only [hostDbErr, eqTail, eqDrop, List.mem_cons, List.not_mem_nil, or_false]
    omega

theorem hostCqEnWrite_answers {s : State} {v : Word} {post : Dev → Prop} (hclose : s.dev.twin.closing = [])
    (h : post (s.dev.cqEnWrite v.toNat)) : AnswersIdle (.hostCqEnWrite v) s post :=
  .of_onDevIdle (fun d => (d.cqEnWrite v.toNat).tellHeld) rfl
    (Dev.tellHeld_of_closing ((congrArg TwinSt.closing (s.dev.cqEnWrite_twin v.toNat)).trans hclose)) h

theorem cqHeadDoorbell_answers {s : State} {q : Fin 16} {v : Word} {post : Dev → Prop} {t : Dev} (hbell : s.dev.cqHeadBell q v.toNat = t)
    (hclose : t.twin.closing = []) (h : post t) : AnswersIdle (.cqHeadDoorbell q v) s post :=
  .of_onDevIdle (fun d => (d.cqHeadBell q v.toNat).tellHeld) rfl (by rw [hbell]; exact Dev.tellHeld_of_closing hclose) h

/-- Settles O38: the enables by `Dev.cqEnWrite_eq` and `Dev.sqEnWrite_eq`, the doorbells by the two ways each can go. -/
theorem ringsAreEnabledAndDoorbellsMoveThem : Obligations.RingsAreEnabledAndDoorbellsMoveThem := by
  refine ⟨⟨fun s v => ?_, fun s v hclose h16 hfree => ?_, fun s v q hclose hq hon hoff hbound => ?_,
    fun s v hclose h16 hen hbuf hdrop => ?_⟩, ?_, ?_, fun s q v hclose hbad => ?_, ?_, fun s i => ?_⟩
  · refine .of_onDev (fun d => d.sqEnWrite v.toNat) rfl rfl ⟨s.dev.sqEnWrite_en _, fun q hq => s.dev.sqEnWrite_index _ hq, ?_, ?_⟩
    · exact (s.dev.onlyRegs_sqEnWrite _).keeps
    · exact (s.dev.onlyRegs_sqEnWrite _).alone
  · exact hostCqEnWrite_answers hclose (Dev.cqEnWrite_free (Dev.cqKeep_nil hfree) h16)
  · exact hostCqEnWrite_answers hclose (Dev.cqEnWrite_bound hq hon hoff hbound)
  · exact hostCqEnWrite_answers hclose (Dev.cqEnWrite_eq_effect h16 hen hbuf hdrop)
  · intro s q v n used more
    exact ⟨fun hon hv hroom => .of_onDev (fun d => d.sqTailBell q v.toNat) rfl (Dev.sqTailBell_lawful hon hv hroom)
        (s.dev.tailMoved_effect hv),
      fun hbad => .of_onDev (fun d => d.sqTailBell q v.toNat) rfl (Dev.sqTailBell_unlawful hbad)
        (s.dev.sqTail_refused _ _ q.isLt)⟩
  · intro s q v hclose hheld hon n h hv hfull
    refine cqHeadDoorbell_answers (Dev.cqHeadBell_lawful hon hheld hv hfull) ?_
      (s.dev.headMoved_effect q (by simp [cqHead]) rfl (ringSize_le _) hv (.inl (by simp [cqHead, cqTail])))
    split
    · exact hclose
    · exact hclose
  · refine cqHeadDoorbell_answers (Dev.cqHeadBell_unlawful hbad) ?_ ⟨s.dev.doorbellErr_get _ _, ?_⟩
    · rw [Dev.doorbellErr_twin]
      exact hclose
    · refine (s.dev.doorbellErr_keeps _ _).get ?_
      simp only [cqHead, hostDbErr, eqTail, eqDrop, List.mem_cons, List.not_mem_nil, or_false]
      omega
  · intro s v hon hdrop n h hv hfull
    exact .of_onDev (fun d => d.eqHeadBell v.toNat) rfl (Dev.eqHeadBell_lawful hon hdrop hv hfull)
      (s.dev.headMoved_effect 16 (by decide) rfl (ringSize_le _) hv (.inl (by decide)))
  · exact .of_onDev (fun d => d.msixUnmask i) rfl rfl (s.dev.msixUnmask_effect i i.isLt)

end Sys2Proof.Machine
end

section
/-!
PROOFS. The Transit port's target frames and buffer commands (R558 to R560, R563).
-/

namespace Sys2Proof.Machine

/-! ## Bits of a buffer (R551) -/

theorem tpBitAt_lo (base n : Nat) : (tpBitAt base n).lo + (tpBitAt base n).w ≤ 32 := by
  simp only [tpBitAt]; omega

/-- Two bits of a buffer have two places. -/
theorem tpBitAt_ne (base : Nat) {n k : Nat} (h : n ≠ k) : (tpBitAt base n).addr ≠ (tpBitAt base k).addr ∨
    (tpBitAt base k).lo + (tpBitAt base k).w ≤ (tpBitAt base n).lo ∨ (tpBitAt base n).lo + (tpBitAt base n).w ≤ (tpBitAt base k).lo := by
  simp only [tpBitAt]; omega

theorem Dev.is_putB (d : Dev) (f : Fld) (b : Bool) (hf : f.lo + f.w ≤ 32) (hw : f.w = 1) : (d.putB f b).is f = b := by
  cases b
  · exact d.is_put_zero f hf
  · exact d.is_put_one f hf hw

theorem Dev.is_putB_ne (d : Dev) (f g : Fld) (b : Bool)
    (h : f.addr ≠ g.addr ∨ (f.lo + f.w ≤ 32 ∧ (g.lo + g.w ≤ f.lo ∨ f.lo + f.w ≤ g.lo))) : (d.putB f b).is g = d.is g := by
  rw [Dev.is, Dev.is, Dev.putB, d.get_put_ne f g _ h]

/-- Bits stored in a buffer from bit `n` on. -/
def Dev.tpStoreFrom (d : Dev) (base : Nat) : List Bool → Nat → Dev
  | [], _ => d
  | b :: bs, n => Dev.tpStoreFrom (d.putB (tpBitAt base n) b) base bs (n + 1)

theorem Dev.tpStore_eq (d : Dev) (base : Nat) (bits : List Bool) : d.tpStore base bits = d.tpStoreFrom base bits 0 := by
  have h : ∀ (bits : List Bool) (n : Nat) (d : Dev),
      (bits.zipIdx n).foldl (fun d p => d.putB (tpBitAt base p.2) p.1) d = d.tpStoreFrom base bits n := by
    intro bits
    induction bits with
    | nil => exact fun _ _ => rfl
    | cons b bs ih => exact fun n d => ih (n + 1) _
  exact h bits 0 d

theorem Dev.tpStoreFrom_is (base : Nat) (bits : List Bool) (d : Dev) (n k : Nat) :
    (d.tpStoreFrom base bits n).is (tpBitAt base k) =
      if n ≤ k ∧ k < n + bits.length then bits.getD (k - n) false else d.is (tpBitAt base k) := by
  induction bits generalizing d n with
  | nil =>
    rw [if_neg (by simp)]
    rfl
  | cons b bs ih =>
    rw [Dev.tpStoreFrom, ih]
    rcases Nat.lt_trichotomy n k with hlt | rfl | hgt
    · have hk : k - n = (k - (n + 1)) + 1 := by omega
      rw [d.is_putB_ne _ _ _ ((tpBitAt_ne base (Nat.ne_of_lt hlt)).imp_right fun h => ⟨tpBitAt_lo base n, h⟩), hk, List.getD_cons_succ]
      refine if_congr ?_ rfl rfl
      rw [List.length_cons]
      omega
    · rw [if_neg (by omega), if_pos (by simp), d.is_putB _ _ (tpBitAt_lo base n) rfl]
      simp
    · rw [d.is_putB_ne _ _ _ ((tpBitAt_ne base (Nat.ne_of_gt hgt)).imp_right fun h => ⟨tpBitAt_lo base n, h⟩), if_neg (by omega),
        if_neg (by omega)]

/-- From `d` to `t` only registers have changed, and of them only words from `lo` up to below `hi`. -/
structure Dev.OnlyWords (d t : Dev) (lo hi : Nat) : Prop where
  regs : ∃ r, t = { d with regs := r }
  word : ∀ a, a < lo ∨ hi ≤ a → t.word a = d.word a

theorem Dev.tpStoreFrom_words (base : Nat) (bits : List Bool) (d : Dev) (n : Nat) (h : n + bits.length ≤ 8192) :
    d.OnlyWords (d.tpStoreFrom base bits n) base (base + 0x400) := by
  induction bits generalizing d n with
  | nil => exact ⟨⟨_, rfl⟩, fun _ _ => rfl⟩
  | cons b bs ih =>
    rw [List.length_cons] at h
    obtain ⟨⟨r, hr⟩, hword⟩ := ih (d.putB (tpBitAt base n) b) (n + 1) (by omega)
    refine ⟨⟨r, by rw [Dev.tpStoreFrom, hr]; rfl⟩, fun a ha => (hword a ha).trans (d.word_put_ne _ _ ?_)⟩
    simp only [tpBitAt]
    omega

/-- The bits of a list stand in a buffer from its bit 0 on. -/
theorem Dev.tpStore_is (d : Dev) (base : Nat) (bits : List Bool) {k : Nat} (hk : k < bits.length) :
    (d.tpStore base bits).is (tpBitAt base k) = bits.getD k false := by
  rw [Dev.tpStore_eq, Dev.tpStoreFrom_is, if_pos (by omega), Nat.sub_zero]

theorem Dev.tpStore_words (d : Dev) (base : Nat) {bits : List Bool} (h : bits.length ≤ 8192) :
    d.OnlyWords (d.tpStore base bits) base (base + 0x400) := by
  rw [Dev.tpStore_eq]
  exact d.tpStoreFrom_words base bits 0 (by omega)

/-! ## Target frames (R558 to R560) -/

theorem Dev.tgtLen_le (d : Dev) : d.tgtLen ≤ 8192 := by
  unfold Dev.tgtLen clampNat
  grind

/-- A frame of 8 command bits and a command of 0 in its low bits is taken whole when its word is complete. -/
theorem Dev.tpFrame_write {d : Dev} {bits : List Bool} (hen : d.is tpTgtEn = true) (hfree : d.tpMastering = false)
    (hlen : bits.length = d.tgtLen) : d.tpFrame 8 0 bits false = d.tpRx bits := by
  simp [Dev.tpFrame, hen, hfree, hlen, Dev.tpOver]

/-- The ring buffer that is filled next. -/
def Dev.rxNext (d : Dev) : Nat := (d.get tpRxHead + d.get tpRxCount) % 8

/-- The device once a word has been stored in the next buffer of the ring. -/
def Dev.rxStored (d : Dev) (bits : List Bool) : Dev :=
  ((d.tpStore (0x62000 + 0x400 * d.rxNext) bits).put (tpRxInfo d.rxNext) d.tgtLen).put tpRxCount (d.get tpRxCount + 1)

theorem Dev.tpRx_stored {d : Dev} {bits : List Bool} (hroom : d.get tpRxCount < 8) (hev : d.is tpEvRx = false)
    (hlen : bits.length = d.tgtLen) : d.tpRx bits = d.rxStored bits := by
  have htake : bits.take d.tgtLen = bits := by rw [← hlen, List.take_length]
  have hstored : (d.rxStored bits).is tpEvRx = false := by
    have hword : (d.rxStored bits).word tpEvRx.addr = d.word tpEvRx.addr := by
      have hi : d.rxNext < 8 := Nat.mod_lt _ (by decide)
      rw [Dev.rxStored, Dev.word_put_ne _ _ _ (by decide), Dev.word_put_ne _ _ _ (by simp only [tpRxInfo, tpEvRx]; omega)]
      exact (d.tpStore_words _ (hlen.trans_le d.tgtLen_le)).word _ (.inl (by simp only [tpEvRx]; omega))
    rw [Dev.is, Dev.get, hword, ← hev]
    rfl
  unfold Dev.tpRx
  dsimp only
  rw [if_neg (Nat.not_le.2 hroom), htake]
  exact (congrArg (fun b => if b = true then _ else d.rxStored bits) hstored).trans (if_neg Bool.false_ne_true)

/-- What a word stored in the ring leaves. -/
theorem Dev.rxStored_effect (d : Dev) {bits : List Bool} (hroom : d.get tpRxCount < 8) (hlen : bits.length = d.tgtLen) :
    let t := d.rxStored bits
    let i := (d.get tpRxHead + d.get tpRxCount) % 8
    t.get tpRxCount = d.get tpRxCount + 1 ∧ t.get (tpRxInfo i) = d.tgtLen ∧
      (∀ k, k < d.tgtLen → t.is (tpBitAt (0x62000 + 0x400 * i) k) = bits.getD k false) ∧ { t with regs := d.regs } = d ∧
      ∀ a, a < 0x62000 + 0x400 * i ∨ 0x62400 + 0x400 * i ≤ a → a ≠ tpRxCount.addr → a ≠ (tpRxInfo i).addr → t.word a = d.word a := by
  intro t i
  have hle := d.tgtLen_le
  have hi : i < 8 := Nat.mod_lt _ (by decide)
  obtain ⟨⟨r, hr⟩, hword⟩ := d.tpStore_words (0x62000 + 0x400 * i) (hlen.trans_le hle)
  have ht : t = ((d.tpStore (0x62000 + 0x400 * i) bits).put (tpRxInfo i) d.tgtLen).put tpRxCount (d.get tpRxCount + 1) := rfl
  rw [ht]
  refine ⟨?_, ?_, fun k hk => ?_, ?_, fun a ha hcount hinfo => ?_⟩
  · rw [Dev.get_put _ _ _ (by decide)]
    exact Nat.mod_eq_of_lt (show _ < 2 ^ 4 by omega)
  · rw [Dev.get_put_addr _ _ _ _ (by simp only [tpRxCount, tpRxInfo]; omega), Dev.get_put _ _ _ (by simp [tpRxInfo])]
    exact Nat.mod_eq_of_lt (show _ < 2 ^ 14 by omega)
  · rw [Dev.is_put_ne _ _ _ _ (.inl (by simp only [tpRxCount, tpBitAt]; omega)),
      Dev.is_put_ne _ _ _ _ (.inl (by simp only [tpRxInfo, tpBitAt]; omega)), d.tpStore_is _ _ (hk.trans_eq hlen.symm)]
  · rw [hr]
    exact (((Dev.OnlyRegs.refl d [tpRxCount.addr, (tpRxInfo i).addr]).alone) :)
  · rw [Dev.word_put_ne _ _ _ (Ne.symm hcount), Dev.word_put_ne _ _ _ (Ne.symm hinfo)]
    exact hword a (by omega)

/-- With the ring full, a word is counted as an overflow. -/
theorem Dev.tpRx_full {d : Dev} (bits : List Bool) (hfull : 8 ≤ d.get tpRxCount) : d.tpRx bits = d.tpErr 3 4 tpCntOvf := by
  unfold Dev.tpRx
  exact if_pos hfull

/-- What a frame error leaves: its flag, its count, and perhaps an event. -/
theorem Dev.tpErr_effect (d : Dev) (flag code : Nat) {cnt : Fld} (hf : flag < 32) (hc : cnt.lo + cnt.w ≤ 32)
    (hne : cnt.addr ≠ (tpFlag flag).addr) (hhost : 0x10300 ≤ cnt.addr) :
    let t := d.tpErr flag code cnt
    t.get (tpFlag flag) = 1 ∧ t.get cnt = min (d.get cnt + 1) (2 ^ cnt.w - 1) ∧
      d.KeepsRegsEv t [(tpFlag flag).addr, cnt.addr] := by
  have hput : ((d.bump cnt).put (tpFlag flag) 1).get (tpFlag flag) = 1 := Dev.get_put _ _ _ (by simp only [tpFlag]; omega)
  have hcnt : ((d.bump cnt).put (tpFlag flag) 1).get cnt = min (d.get cnt + 1) (2 ^ cnt.w - 1) :=
    (Dev.get_put_addr _ _ _ _ (Ne.symm hne)).trans (d.get_bump cnt hc)
  have hkeep : d.KeepsRegsEv ((d.bump cnt).put (tpFlag flag) 1) [(tpFlag flag).addr, cnt.addr] :=
    Dev.keepsRegsEv_put _ _ (.head _) (Dev.keepsRegsEv_put _ _ (.tail _ (.head _)) fun _ _ _ => rfl)
  intro t
  have ht : t = d.tpErr flag code cnt := rfl
  rw [ht]
  unfold Dev.tpErr
  dsimp only
  split
  · refine ⟨?_, ?_, Dev.keepsRegsEv_event _ _ _ hkeep⟩
    · rw [Dev.get_event _ _ _ _ _ (.inr (by simp [tpFlag])), hput]
    · rw [Dev.get_event _ _ _ _ _ (.inr hhost), hcnt]
  · exact ⟨hput, hcnt, hkeep⟩

/-- A read frame sends the loaded word, which is then no longer loaded. -/
theorem Dev.tpFrame_read {d : Dev} {bits : List Bool} (hen : d.is tpTgtEn = true) (hfree : d.tpMastering = false)
    (hlen : bits.length = d.tgtLen) (hvalid : d.is tpTxValid = true) :
    d.tpFrame 8 0x80 bits false = (d.emit (.tpBits true (d.tpBits 0x60800 d.tgtLen))).put tpTxValid 0 := by
  simp [Dev.tpFrame, hen, hfree, hlen, hvalid, Dev.tpOver]

/-- RX_POP drops the oldest buffer of the ring. -/
def Dev.rxDropped (d : Dev) : Dev := (d.put tpRxCount (d.get tpRxCount - 1)).put tpRxHead ((d.get tpRxHead + 1) % 8)

theorem Dev.rxDropped_get (d : Dev) : d.rxDropped.get tpRxCount = d.get tpRxCount - 1 ∧
    d.rxDropped.get tpRxHead = (d.get tpRxHead + 1) % 8 := by
  have hlt : d.get tpRxCount < 16 := d.get_lt tpRxCount
  unfold Dev.rxDropped
  constructor
  · rw [Dev.get_put_bits _ _ _ _ (by decide) (.inl (by decide)), Dev.get_put _ _ _ (by decide)]
    exact Nat.mod_eq_of_lt (show _ < 2 ^ 4 by omega)
  · rw [Dev.get_put _ _ _ (by decide)]
    exact Nat.mod_mod _ _

/-- Settles O60: `Dev.rxStored` says what a write frame leaves, `Dev.tpFrame_read` what a read frame sends. -/
theorem transitTargetFramesAndBuffers : Obligations.TransitTargetFramesAndBuffers := by
  refine ⟨⟨?_, fun s bits hen hfree hlen hfull => ?_, fun s bits hen hfree hlen hvalid => ?_⟩, fun s hpos => ?_, fun s hzero => ?_,
    fun s => ?_, fun s => ?_⟩
  · rintro s _ bits hen hfree rfl hlen hroom hev
    exact .of_onDev (fun d => d.tpFrame 8 0 bits false) rfl ((Dev.tpFrame_write hen hfree hlen).trans (Dev.tpRx_stored hroom hev hlen))
      (s.dev.rxStored_effect hroom hlen)
  · exact .of_onDev (fun d => d.tpFrame 8 0 bits false) rfl ((Dev.tpFrame_write hen hfree hlen).trans (Dev.tpRx_full bits hfull))
      (s.dev.tpErr_effect 3 4 (by decide) (by decide) (by decide) (by decide))
  · refine .of_onDev (fun d => d.tpFrame 8 0x80 bits false) rfl (Dev.tpFrame_read hen hfree hlen hvalid) ⟨?_, ?_, ?_⟩
    · rw [Dev.get_put _ _ _ (by decide)]
      rfl
    · rw [Dev.put_out]
      rfl
    · exact Dev.keepsRegs_put _ _ (.head _) fun _ _ => rfl
  · refine .of_onDev (fun d => if d.get tpRxCount = 0 then d else d.rxDropped) rfl (if_neg (Nat.ne_of_gt hpos)) ?_
    have honly : s.dev.OnlyRegs s.dev.rxDropped [tpRxCount.addr, tpRxHead.addr] :=
      ((Dev.OnlyRegs.refl _ _).put _ (.head _)).put _ (.tail _ (.head _))
    exact ⟨s.dev.rxDropped_get.1, s.dev.rxDropped_get.2, honly.keeps, honly.alone⟩
  · exact .of_onDev (fun d => if d.get tpRxCount = 0 then d else d.rxDropped) rfl (if_pos hzero) rfl
  · have honly : s.dev.OnlyRegs (s.dev.put tpTxValid 1) [tpTxValid.addr] := (Dev.OnlyRegs.refl _ _).put _ (.head _)
    exact .of_onDev (fun d => d.put tpTxValid 1) rfl rfl ⟨Dev.get_put _ _ _ (by decide), honly.keeps, honly.alone⟩
  · have honly : s.dev.OnlyRegs (s.dev.put tpTxValid 0) [tpTxValid.addr] := (Dev.OnlyRegs.refl _ _).put _ (.head _)
    exact .of_onDev (fun d => d.put tpTxValid 0) rfl rfl ⟨Dev.get_put _ _ _ (by decide), honly.keeps, honly.alone⟩

end Sys2Proof.Machine
end

section
/-!
PROOFS. The phases of a Transit master transfer (R546 to R548, R552, R554, R556).
-/

namespace Sys2Proof.Machine

/-- What the end of a transfer or of an arbitration leaves in the port's status word. -/
theorem Dev.tpEnd_status (d : Dev) {result : Nat} (h : result < 8) :
    (d.tpEnd result).get tpState = 0 ∧ (d.tpEnd result).get tpResult = result ∧ d.KeepsRegs (d.tpEnd result) [tpState.addr] := by
  unfold Dev.tpEnd Dev.tpLine Dev.putB
  dsimp only
  refine ⟨?_, ?_, ?_⟩
  · rw [Dev.get_put_bits _ _ _ _ (by decide) (.inl (by decide)), Dev.get_put_bits _ _ _ _ (by decide) (.inl (by decide)),
      Dev.get_put _ _ _ (by decide)]
    rfl
  · rw [Dev.get_put_bits _ _ _ _ (by decide) (.inl (by decide)), Dev.get_put _ _ _ (by decide)]
    exact Nat.mod_eq_of_lt h
  · exact Dev.keepsRegs_put _ _ (.head _) (Dev.keepsRegs_put _ _ (.head _) (Dev.keepsRegs_put _ _ (.head _) fun _ _ => rfl))

/-- What the seizure of the bus leaves. -/
theorem Dev.tpSeize_effect (d : Dev) : d.tpSeize.get tpState = 2 ∧ d.tpSeize.is tpBusyIn = false ∧ d.tpSeize.mclk = d.mclk ∧
    d.KeepsRegs d.tpSeize [tpState.addr] := by
  have hmaster : ∀ e : Dev, (e.put tpState 2).tpMastering = true := fun e => by
    have hstate : (e.put tpState 2).get tpState = 2 := Dev.get_put _ _ _ (by decide)
    rw [Dev.tpMastering, hstate]
    rfl
  unfold Dev.tpSeize Dev.tpLine
  dsimp only
  rw [hmaster, Bool.not_true, Bool.and_false]
  refine ⟨?_, Dev.is_putB _ _ _ (by decide) rfl, rfl, ?_⟩
  · rw [Dev.putB, Dev.get_put_bits _ _ _ _ (by decide) (.inl (by decide)), Dev.get_put _ _ _ (by decide)]
    rfl
  · exact Dev.keepsRegs_put _ _ (.head _) (Dev.keepsRegs_put _ _ (.head _) fun _ _ => rfl)

/-- GO of an idle port claims the bus. -/
def Dev.tpClaiming (d : Dev) : Dev :=
  let lim := d.get tpTimeout
  ({ d with tp := { d.tp with
      winAt := if d.tp.busyLow then none else some d.mclk, toAt := if lim = 0 then none else some (d.mclk + us lim) } }).put tpState 1

theorem Dev.tpGo_claims {d : Dev} (hidle : d.get tpState = 0) (hfault : d.is (tpFlag 0) = false) (hawake : d.awake = true)
    (hcmd : d.get tpCmdLen ≤ 32) (haddr : d.get tpAddrLen ≤ 32) (hlen : 1 ≤ d.get tpLen) (hmax : d.get tpLen ≤ 8192) :
    d.tpGo = d.tpClaiming := by
  have hrange : ¬ (32 < d.get tpCmdLen ∨ 32 < d.get tpAddrLen ∨ d.get tpLen = 0 ∨ 8192 < d.get tpLen) := by omega
  unfold Dev.tpGo
  simp [hidle, hfault, hawake, hrange, Dev.tpClaiming]

/-- The window of the port's own claim ends: the bus is seized. -/
theorem Dev.tpArbWindow_own {d : Dev} {w : Nat} (hstate : d.get tpState = 1) (hwin : d.tp.winAt = some w) (hclaim : d.tp.claim = false) :
    d.tpArbWindow = (d.advanceTo (w + d.tpWindow true)).tpSeize := by
  unfold Dev.tpArbWindow
  simp [hstate, hwin, hclaim]

/-- The device once a transfer that keeps its select has sent its bits. -/
def Dev.tpHeld (d : Dev) : Dev :=
  ((((d.advanceTo (d.tp.began + d.tpSck d.tpClocks)).emit (.tpBits false d.tpSent)).put tpState 3).put tpResult 0)

theorem Dev.tpDone_held {d : Dev} (rx : List Bool) (hstate : d.get tpState = 2) (hhold : d.is tpHoldSel = true)
    (hdir : d.is tpDir = false) : d.tpDone rx = if d.tpHeld.is tpEvDone then d.tpHeld.event srcTp 0x0B01 0 else d.tpHeld := by
  have hsent : (d.advanceTo (d.tp.began + d.tpSck d.tpClocks)).tpSent = d.tpSent := rfl
  unfold Dev.tpDone Dev.tpHeld
  simp only [hstate, if_true, hsent, Dev.is_emit, Dev.is_advanceTo, hdir, hhold, Bool.false_eq_true, if_false]

theorem Dev.tpHeld_effect (d : Dev) : d.tpHeld.get tpState = 3 ∧ d.tpHeld.get tpResult = 0 ∧ .tpBits false d.tpSent ∈ d.tpHeld.out ∧
    d.KeepsRegsEv d.tpHeld [tpState.addr] := by
  unfold Dev.tpHeld
  refine ⟨?_, ?_, ?_, ?_⟩
  · rw [Dev.get_put_bits _ _ _ _ (by decide) (.inl (by decide)), Dev.get_put _ _ _ (by decide)]
    rfl
  · rw [Dev.get_put _ _ _ (by decide)]
    rfl
  · rw [Dev.put_out, Dev.put_out]
    exact .head _
  · exact Dev.keepsRegsEv_put _ _ (.head _) (Dev.keepsRegsEv_put _ _ (.head _) fun _ _ _ => rfl)

/-- ABORT in every phase ends in the port's end with result 5. -/
theorem Dev.tpAbort_ends {d : Dev} (h : inRange 1 3 (d.get tpState) = true) : ∃ e : Dev, d.tpAbort = e.tpEnd 5 := by
  have hphase : d.get tpState = 1 ∨ d.get tpState = 2 ∨ d.get tpState = 3 := by
    simp only [inRange, Bool.and_eq_true, decide_eq_true_eq] at h
    omega
  unfold Dev.tpAbort
  rcases hphase with h | h | h <;> rw [h]
  · exact ⟨d, rfl⟩
  · exact ⟨_, rfl⟩
  · exact ⟨_, rfl⟩

theorem Dev.tpBusTimeout_ends {d : Dev} {w : Nat} (hstate : d.get tpState = 1) (hto : d.tp.toAt = some w) :
    d.tpBusTimeout = ((d.advanceTo w).tpEnd 2).event srcTp 0x0B03 0 := by
  unfold Dev.tpBusTimeout
  rw [hstate, hto]
  rfl

theorem Dev.tpModeFault_ends {d : Dev} (n : Nat) (h : d.tpMastering = true) :
    ∃ e : Dev, d.tpModeFault n = ((e.tpEnd 1).put (tpFlag 0) 1).event srcTp 0x0B02 (n % 65536) := by
  unfold Dev.tpModeFault
  rw [if_pos h]
  exact ⟨_, rfl⟩

/-- A level of TP_BUSY_N is shown unless the port drives the line itself. -/
theorem Dev.tpBusyEdge_effect (d : Dev) (level : Bool) :
    (d.tpBusyEdge level).tp.busyLow = !level ∧ (d.tpBusyEdge level).is tpBusyIn = (level && !d.tpMastering) ∧
      { d.tpBusyEdge level with regs := d.regs, tp := d.tp } = d ∧ d.KeepsRegs (d.tpBusyEdge level) [tpBusyIn.addr] := by
  refine ⟨rfl, ?_, rfl, Dev.keepsRegs_put _ _ (.head _) fun _ _ => rfl⟩
  unfold Dev.tpBusyEdge Dev.tpLine
  rw [Dev.is_putB _ _ _ (by decide) rfl]
  dsimp only
  rw [Bool.not_not]
  rfl

/-- Settles O59: every way out of a transfer is `Dev.tpEnd`; the bus is taken by `Dev.tpSeize`. -/
theorem transitMasterPhases : Obligations.TransitMasterPhases := by
  refine ⟨fun s hidle hfault hawake hcmd haddr hlen hmax => ?_, fun s w hstate hwin hclaim => ?_, fun s rx hstate hhold hdir => ?_,
    fun s hphase => ?_, fun s w hstate hto => ?_, fun s n hmaster => ?_, fun s level => ?_⟩
  · exact .of_onDev (fun d => d.tpGo) rfl (Dev.tpGo_claims hidle hfault hawake hcmd haddr hlen hmax)
      ⟨Dev.get_put _ _ _ (by decide), rfl, rfl, Dev.keepsRegs_put _ _ (.head _) fun _ _ => rfl⟩
  · obtain ⟨hstate', hbusy, hmclk, hkeep⟩ := (s.dev.advanceTo (w + s.dev.tpWindow true)).tpSeize_effect
    exact .of_onDevIdle (fun d => d.tpArbWindow) rfl (Dev.tpArbWindow_own hstate hwin hclaim)
      ⟨hstate', hbusy, hmclk.trans (s.dev.mclk_advanceTo _), hkeep⟩
  · refine .of_onDevIdle (fun d => d.tpDone rx) rfl (Dev.tpDone_held rx hstate hhold hdir) ?_
    obtain ⟨hstate', hresult, hout, hkeep⟩ := s.dev.tpHeld_effect
    split
    · refine ⟨?_, ?_, Dev.mem_event_out _ _ _ _ _ hout, Dev.keepsRegsEv_event _ _ _ hkeep⟩
      · rw [Dev.get_event _ _ _ _ _ (.inr (by decide)), hstate']
      · rw [Dev.get_event _ _ _ _ _ (.inr (by decide)), hresult]
    · exact ⟨hstate', hresult, hout, hkeep⟩
  · obtain ⟨e, he⟩ := Dev.tpAbort_ends hphase
    obtain ⟨hstate', hresult, -⟩ := e.tpEnd_status (result := 5) (by decide)
    exact .of_onDevIdle (fun d => d.tpAbort) rfl he ⟨hstate', hresult⟩
  · obtain ⟨hstate', hresult, hkeep⟩ := (s.dev.advanceTo w).tpEnd_status (result := 2) (by decide)
    refine .of_onDevIdle (fun d => d.tpBusTimeout) rfl (Dev.tpBusTimeout_ends hstate hto) ⟨?_, ?_, ?_⟩
    · rw [Dev.get_event _ _ _ _ _ (.inr (by decide)), hstate']
    · rw [Dev.get_event _ _ _ _ _ (.inr (by decide)), hresult]
    · exact Dev.keepsRegsEv_event _ _ _ fun a ha _ => hkeep a ha
  · obtain ⟨e, he⟩ := Dev.tpModeFault_ends n.toNat hmaster
    obtain ⟨hstate', hresult, -⟩ := e.tpEnd_status (result := 1) (by decide)
    refine .of_onDevIdle (fun d => d.tpModeFault n.toNat) rfl he ⟨?_, ?_, ?_⟩
    · rw [Dev.get_event _ _ _ _ _ (.inr (by decide)), Dev.get_put_addr _ _ _ _ (by decide), hstate']
    · rw [Dev.get_event _ _ _ _ _ (.inr (by decide)), Dev.get_put_addr _ _ _ _ (by decide), hresult]
    · rw [Dev.get_event _ _ _ _ _ (.inr (by decide)), Dev.get_put _ _ _ (by decide)]
      rfl
  · exact .of_onDev (fun d => d.tpBusyEdge level) rfl rfl (s.dev.tpBusyEdge_effect level)

end Sys2Proof.Machine
end

section
/-!
PROOFS. The Meridian link trains: what the messages that follow leave alone, and what both outcomes show (R524, R525, R536).
-/

namespace Sys2Proof.Machine

/-! ## Messages -/

theorem foldl_keeps {α β γ : Type} (φ : α → γ) {f : α → β → α} (h : ∀ a b, φ (f a b) = φ a) (l : List β) (a : α) :
    φ (l.foldl f a) = φ a := by
  induction l generalizing a with
  | nil => rfl
  | cons b l ih => exact (ih _).trans (h a b)

/-- The device without what messages to the twin change: what has been sent and is unacknowledged, and the RUNs' place in it. -/
def Dev.sansSent (d : Dev) : Dev :=
  { d with out := [], twin := { d.twin with txSeq := 0, unacked := [], retxAt := 0, closing := [] } }

theorem Dev.sansSent_sendOne (d : Dev) (kind : Nat) (bs : List Byte) : (d.sendOne kind bs).sansSent = d.sansSent := (rfl)

theorem Dev.sansSent_sendRel (d : Dev) (kind : Nat) (bs : List Byte) : (d.sendRel kind bs).sansSent = d.sansSent := by
  unfold Dev.sendRel
  split
  · exact foldl_keeps Dev.sansSent (fun e p => e.sansSent_sendOne kind p) _ d
  · rfl

/-- The MIRROR of a frozen RUN is sent again, and its number noted (R536). -/
theorem Dev.sansSent_resend (d : Dev) : d.resend.sansSent = d.sansSent := by
  unfold Dev.resend
  dsimp only
  refine (Dev.forEach_keeps Dev.sansSent (fun e s _ => ?_) _).trans ?_
  · split
    · exact e.sansSent_sendRel mStartReady _
    · rfl
  refine (foldl_keeps Dev.sansSent (fun e r => ?_) _ _).trans ?_
  · exact e.sansSent_sendRel mMirror _
  refine (foldl_keeps Dev.sansSent (fun e r => e.sansSent_sendRel mOpen _) _ _).trans ?_
  exact foldl_keeps Dev.sansSent (fun e r => e.sansSent_sendRel mOpen _) _ d

theorem Dev.regs_of_sansSent {d e : Dev} (h : d.sansSent = e.sansSent) : d.regs = e.regs := (congrArg Dev.regs h :)

theorem Dev.twin_of_sansSent {d e : Dev} (h : d.sansSent = e.sansSent) :
    d.twin.rxSeq = e.twin.rxSeq ∧ d.twin.hbArr = e.twin.hbArr ∧ d.twin.hbLast = e.twin.hbLast :=
  ⟨(congrArg (fun d => d.twin.rxSeq) h :), (congrArg (fun d => d.twin.hbArr) h :), (congrArg (fun d => d.twin.hbLast) h :)⟩

/-! ## Training (R524, R525) -/

/-- The link registers once training with the opposite role is over. -/
def Dev.linkShown (d : Dev) (lanes : Nat) : Dev := ((d.put twinLink 2).put twinLanes lanes).condEnd srcMer 0

/-- The twin interface as it starts on a link that is UP. -/
def Dev.linkFresh (d : Dev) (lanes : Nat) : Dev :=
  { d.linkShown lanes with
    twin := { d.twin with
      txSeq := 0, rxSeq := 0, unacked := [], hbSend := d.mclk + us 10, hbArr := d.mclk, hbLast := none, delays := [], offsets := [],
      readyP := [] } }

/-- Mirror slots are freed (R536). -/
def Dev.slotsFreed (d : Dev) (ks : List Nat) : Dev := d.forEach ks fun e k => e.mirTo k 0

theorem Dev.sansSram_slotsFreed (d : Dev) (ks : List Nat) : (d.slotsFreed ks).sansSram = d.sansSram :=
  Dev.forEach_keeps (f := fun e k => e.mirTo k 0) Dev.sansSram (fun e k _ => e.sansSram_mirTo k 0) d

/-- The device with the link UP and the slots of RUNs under way freed. -/
def Dev.linkCleared (d : Dev) (lanes : Nat) : Dev :=
  (d.linkFresh lanes).slotsFreed (((d.linkFresh lanes).mirIn 1) ++ ((d.linkFresh lanes).mirIn 2) ++ ((d.linkFresh lanes).mirIn 3))

/-- The device with the link UP and its event raised. -/
def Dev.linkTrained (d : Dev) (lanes : Nat) : Dev := (d.linkCleared lanes).event srcMer 0x0A01 lanes

/-- The package pairs when it is asked for. -/
def Dev.linkPaired (d : Dev) : Dev := if d.get twinState = 0 ∧ d.wantsPair = true then d.put twinState 1 else d.leaveTaken

/-- The link trains only from not UP, with no role conflict and a lawful number of lanes. -/
theorem Dev.merLinkUp_lawful {d : Dev} {lanes : Nat} (partnerB : Bool) (hup : d.merUp = false) (hconf : d.get twinRoleConf = 0)
    (hlanes : [1, 2, 4].contains lanes = true) :
    d.merLinkUp lanes partnerB =
      if d.is twinRole = partnerB then
        if ((((d.put twinRoleConf 1).put twinLink 0).put twinLanes 0).event srcMer 0x0A03 0).get twinState = 1 then
          (((((d.put twinRoleConf 1).put twinLink 0).put twinLanes 0).event srcMer 0x0A03 0).put twinState 0).closeAlone false
        else (((d.put twinRoleConf 1).put twinLink 0).put twinLanes 0).event srcMer 0x0A03 0
      else if (d.linkTrained lanes).linkPaired.almLinkUp.paired then (d.linkTrained lanes).linkPaired.almLinkUp.resend
        else (d.linkTrained lanes).linkPaired.almLinkUp := by
  have hoff : d.is twinRoleConf = false := by simp [Dev.is, hconf]
  unfold Dev.merLinkUp
  rw [if_neg (by rw [hup, hoff, hlanes]; decide)]
  rfl

theorem Dev.linkShown_get (d : Dev) {lanes : Nat} (h : lanes < 8) :
    (d.linkShown lanes).get twinLink = 2 ∧ (d.linkShown lanes).get twinLanes = lanes := by
  have hregs : (d.linkShown lanes).regs = ((d.put twinLink 2).put twinLanes lanes).regs := rfl
  rw [Dev.get_of_regs hregs, Dev.get_of_regs hregs]
  constructor
  · rw [Dev.get_put_bits _ _ _ _ (by decide) (by decide), Dev.get_put _ _ _ (by decide)]
    rfl
  · rw [Dev.get_put _ _ _ (by decide)]
    exact Nat.mod_eq_of_lt h

/-- The other fields of the twin's registers are as they were. -/
theorem Dev.linkShown_get_ne (d : Dev) (lanes : Nat) {f : Fld} (h : f.addr ≠ 0x50004 ∨ f.lo + f.w ≤ 1 ∨ 6 ≤ f.lo) :
    (d.linkShown lanes).get f = d.get f := by
  have hregs : (d.linkShown lanes).regs = ((d.put twinLink 2).put twinLanes lanes).regs := rfl
  rw [Dev.get_of_regs hregs, Dev.get_put_ne, Dev.get_put_ne]
  · exact h.imp Ne.symm fun h => ⟨by decide, by simp only [twinLink]; omega⟩
  · exact h.imp Ne.symm fun h => ⟨by decide, by simp only [twinLanes]; omega⟩

theorem Dev.linkFresh_regs (d : Dev) (lanes : Nat) : (d.linkFresh lanes).regs = (d.linkShown lanes).regs := (rfl)

theorem Dev.linkCleared_regs (d : Dev) (lanes : Nat) : (d.linkCleared lanes).regs = (d.linkShown lanes).regs :=
  ((congrArg Dev.regs (Dev.sansSram_slotsFreed _ _) :)).trans (d.linkFresh_regs lanes)

theorem Dev.linkCleared_twin (d : Dev) (lanes : Nat) : (d.linkCleared lanes).twin = (d.linkFresh lanes).twin :=
  (congrArg Dev.twin (Dev.sansSram_slotsFreed _ _) :)

theorem Dev.linkTrained_get (d : Dev) (lanes : Nat) {f : Fld} (hf : 0x10300 ≤ f.addr) :
    (d.linkTrained lanes).get f = (d.linkShown lanes).get f := by
  rw [Dev.linkTrained, Dev.get_event _ _ _ _ _ (.inr hf), Dev.get_of_regs (d.linkCleared_regs lanes)]

theorem Dev.linkTrained_twin (d : Dev) (lanes : Nat) : (d.linkTrained lanes).twin.rxSeq = 0 ∧
    (d.linkTrained lanes).twin.hbArr = d.mclk ∧ (d.linkTrained lanes).twin.hbLast = none := by
  rw [Dev.linkTrained, Dev.event_twin, Dev.linkCleared_twin]
  exact ⟨rfl, rfl, rfl⟩

theorem Dev.keepsRegs_linkShown (d : Dev) (lanes : Nat) : d.KeepsRegs (d.linkShown lanes) [twinLink.addr] :=
  have hput : d.KeepsRegs ((d.put twinLink 2).put twinLanes lanes) [twinLink.addr] :=
    Dev.keepsRegs_put _ _ (by decide) (Dev.keepsRegs_put _ _ (by decide) (d.keepsRegs_refl _))
  Dev.keepsRegs_of_regs (by rfl) hput

theorem Dev.keepsRegsEv_linkTrained (d : Dev) (lanes : Nat) : d.KeepsRegsEv (d.linkTrained lanes) [twinLink.addr] :=
  Dev.keepsRegsEv_event _ _ _ fun a ha _ => Dev.keepsRegs_of_regs (d.linkCleared_regs lanes) (d.keepsRegs_linkShown lanes) a ha

/-- Pairing touches one field of the twin's status word and no part of the interface that messages use. -/
theorem Dev.linkPaired_solo {d : Dev} (h : d.get twinState = 0) :
    d.linkPaired = if d.wantsPair = true then d.put twinState 1 else d := by
  unfold Dev.linkPaired Dev.leaveTaken
  simp [h]

/-- The Almanac's refusals are cleared (R390). -/
def Dev.almCleared (d : Dev) : Dev :=
  { d with alm := { d.alm with ents := d.alm.ents.map fun p => (p.1, { p.2 with range := false }) } }

theorem Dev.almLinkUp_eq (d : Dev) :
    d.almLinkUp = if d.almCleared.is almTwinEn then d.almCleared.sendRel mAlmFull d.almCleared.fullBytes else d.almCleared := (rfl)

/-- The Almanac's part of the link's start sends and clears refusals; it changes no register. -/
theorem Dev.almLinkUp_keeps (d : Dev) : d.almLinkUp.regs = d.regs ∧ d.almLinkUp.twin.rxSeq = d.twin.rxSeq ∧
    d.almLinkUp.twin.hbArr = d.twin.hbArr ∧ d.almLinkUp.twin.hbLast = d.twin.hbLast := by
  rw [Dev.almLinkUp_eq]
  split
  · have h := d.almCleared.sansSent_sendRel mAlmFull d.almCleared.fullBytes
    have hregs := Dev.regs_of_sansSent h
    have htwin := Dev.twin_of_sansSent h
    exact ⟨hregs, htwin⟩
  · exact ⟨rfl, rfl, rfl, rfl⟩

theorem Dev.told_keeps (d : Dev) : (if d.paired then d.resend else d).regs = d.regs ∧
    (if d.paired then d.resend else d).twin.rxSeq = d.twin.rxSeq ∧ (if d.paired then d.resend else d).twin.hbArr = d.twin.hbArr ∧
    (if d.paired then d.resend else d).twin.hbLast = d.twin.hbLast := by
  split
  · exact ⟨Dev.regs_of_sansSent d.sansSent_resend, Dev.twin_of_sansSent d.sansSent_resend⟩
  · exact ⟨rfl, rfl, rfl, rfl⟩

/-- What training with the opposite role leaves. -/
theorem Dev.merLinkUp_opposite {d : Dev} {lanes : Nat} {partnerB : Bool} (hup : d.merUp = false) (hconf : d.get twinRoleConf = 0)
    (hlanes : [1, 2, 4].contains lanes = true) (hrole : d.is twinRole = !partnerB) (hstate : d.get twinState = 0) (hlt : lanes < 8) :
    let t := d.merLinkUp lanes partnerB
    t.get twinLink = 2 ∧ t.get twinLanes = lanes ∧ t.get twinState = (if d.wantsPair = true then 1 else 0) ∧ t.twin.rxSeq = 0 ∧
      t.twin.hbArr = d.mclk ∧ t.twin.hbLast = none ∧ d.KeepsRegsEv t [twinLink.addr] := by
  intro t
  have hne : ¬ d.is twinRole = partnerB := by rw [hrole]; exact Bool.not_ne_self _
  have ht : t = _ := (Dev.merLinkUp_lawful partnerB hup hconf hlanes).trans (if_neg hne)
  obtain ⟨htold, hrx, harr, hlast⟩ := ((d.linkTrained lanes).linkPaired.almLinkUp).told_keeps
  obtain ⟨halm, hrx', harr', hlast'⟩ := ((d.linkTrained lanes).linkPaired).almLinkUp_keeps
  obtain ⟨hrx0, harr0, hlast0⟩ := d.linkTrained_twin lanes
  obtain ⟨hlink, hlanes'⟩ := d.linkShown_get hlt
  have hstate' : (d.linkTrained lanes).get twinState = 0 :=
    (d.linkTrained_get lanes (by decide)).trans ((d.linkShown_get_ne lanes (by decide)).trans hstate)
  have hwants : (d.linkTrained lanes).wantsPair = d.wantsPair := by
    simp only [Dev.wantsPair, Dev.is, d.linkTrained_get lanes (f := twinEn) (by decide), d.linkShown_get_ne lanes (f := twinEn) (by decide),
      d.linkTrained_get lanes (f := twinSolo) (by decide), d.linkShown_get_ne lanes (f := twinSolo) (by decide),
      d.linkTrained_get lanes (f := twinRoleConf) (by decide), d.linkShown_get_ne lanes (f := twinRoleConf) (by decide)]
  have hpair : (d.linkTrained lanes).linkPaired = if d.wantsPair = true then (d.linkTrained lanes).put twinState 1 else d.linkTrained lanes := by
    rw [Dev.linkPaired_solo hstate', hwants]
  have hregs : t.regs = (d.linkTrained lanes).linkPaired.regs := by rw [ht, htold, halm]
  rw [hpair] at hregs
  have htwin : ((d.linkTrained lanes).linkPaired).twin = (d.linkTrained lanes).twin := by
    rw [hpair]
    split
    · exact Dev.put_twin _ _ _
    · rfl
  have hother : ∀ f : Fld, f.lo + f.w ≤ 6 ∨ 9 ≤ f.lo →
      (if d.wantsPair = true then (d.linkTrained lanes).put twinState 1 else d.linkTrained lanes).get f = (d.linkTrained lanes).get f := by
    intro f hf
    split
    · exact Dev.get_put_bits _ _ _ _ (by decide) hf
    · rfl
  refine ⟨?_, ?_, ?_, ?_, ?_, ?_, ?_⟩
  · rw [Dev.get_of_regs hregs, hother twinLink (.inl (by decide)), d.linkTrained_get lanes (by decide), hlink]
  · rw [Dev.get_of_regs hregs, hother twinLanes (.inl (by decide)), d.linkTrained_get lanes (by decide), hlanes']
  · rw [Dev.get_of_regs hregs]
    split
    · exact Dev.get_put _ _ _ (by decide)
    · exact hstate'
  · rw [ht, hrx, hrx', htwin, hrx0]
  · rw [ht, harr, harr', htwin, harr0]
  · rw [ht, hlast, hlast', htwin, hlast0]
  · have hkeep := d.keepsRegsEv_linkTrained lanes
    have hboth : d.KeepsRegsEv (if d.wantsPair = true then (d.linkTrained lanes).put twinState 1 else d.linkTrained lanes) [twinLink.addr] := by
      split
      · exact Dev.keepsRegsEv_put _ _ (by decide) hkeep
      · exact hkeep
    intro a ha hb
    rw [← hboth a ha hb, Dev.word, hregs, Dev.word]

/-- What training with the same role leaves: the conflict, and no link. -/
theorem Dev.merLinkUp_equal {d : Dev} {lanes : Nat} {partnerB : Bool} (hup : d.merUp = false) (hconf : d.get twinRoleConf = 0)
    (hlanes : [1, 2, 4].contains lanes = true) (hrole : d.is twinRole = partnerB) (hstate : d.get twinState ≠ 1) :
    let t := d.merLinkUp lanes partnerB
    t.get twinRoleConf = 1 ∧ t.get twinLink = 0 ∧ t.get twinLanes = 0 ∧ t.get twinState = d.get twinState ∧
      d.KeepsRegsEv t [twinLink.addr] := by
  intro t
  have hkept : ((((d.put twinRoleConf 1).put twinLink 0).put twinLanes 0).event srcMer 0x0A03 0).get twinState = d.get twinState := by
    rw [Dev.get_event _ _ _ _ _ (by decide), Dev.get_put_bits _ _ _ _ (by decide) (by decide),
      Dev.get_put_bits _ _ _ _ (by decide) (by decide), Dev.get_put_bits _ _ _ _ (by decide) (by decide)]
  have ht : t = _ := ((Dev.merLinkUp_lawful partnerB hup hconf hlanes).trans (if_pos hrole)).trans (if_neg (by rw [hkept]; exact hstate))
  rw [ht]
  refine ⟨?_, ?_, ?_, hkept, ?_⟩
  · rw [Dev.get_event _ _ _ _ _ (by decide), Dev.get_put_bits _ _ _ _ (by decide) (by decide),
      Dev.get_put_bits _ _ _ _ (by decide) (by decide), Dev.get_put _ _ _ (by decide)]
    rfl
  · rw [Dev.get_event _ _ _ _ _ (by decide), Dev.get_put_bits _ _ _ _ (by decide) (by decide), Dev.get_put _ _ _ (by decide)]
    rfl
  · rw [Dev.get_event _ _ _ _ _ (by decide), Dev.get_put _ _ _ (by decide)]
    rfl
  · exact Dev.keepsRegsEv_event _ _ _ (Dev.keepsRegsEv_put _ _ (by decide) (Dev.keepsRegsEv_put _ _ (by decide)
      (Dev.keepsRegsEv_put _ _ (by decide) fun _ _ _ => rfl)))

end Sys2Proof.Machine
end

section
/-!
PROOFS. The Meridian link while it is UP and its loss: heartbeats, flags, messages sent again, and what a lost link begins (R526 to
R531, R538).
-/

namespace Sys2Proof.Machine

/-! ## Heartbeats (R529 to R531) -/

/-- An unreliable message that arrives with nothing left to acknowledge acts at once (R528). -/
theorem Dev.merRecv_acts {d : Dev} (ack : Nat) (f : Dev → Dev) (hup : d.merUp = true) (hun : d.twin.unacked = []) :
    d.merRecv ack false f = f d := by
  simp [Dev.merRecv, hup, Dev.merAck, hun]

/-- The payload of the HEARTBEAT that is sent now: times, state, host link and flags (R527). -/
def Dev.hbPayload (d : Dev) : List Byte :=
  toBytes 8 d.tb ++ toBytes 8 (d.twin.hbLast.getD (0, 0)).1 ++ toBytes 8 (d.twin.hbLast.getD (0, 0)).2
    ++ toBytes 8 (d.get twinState + 8 * d.linkUp.toNat) ++ d.flagBytes

/-- The device once its HEARTBEAT has been sent. -/
def Dev.hbSent (d : Dev) : Dev :=
  { d.emit (.twin mHeartbeat (d.merFrame mHeartbeat 0 d.hbPayload)) with twin := { d.twin with hbSend := d.mclk + us 10 } }

theorem Dev.sendRaw_up {d : Dev} (kind : Nat) (bs : List Byte) (h : d.merUp = true) :
    d.sendRaw kind bs = d.emit (.twin kind (d.merFrame kind 0 bs)) := if_pos h

theorem Dev.heartbeatSend_up {d : Dev} (hup : d.merUp = true) : d.heartbeatSend = (d.advanceTo d.twin.hbSend).hbSent := by
  have hup' : (d.advanceTo d.twin.hbSend).merUp = true := hup
  unfold Dev.heartbeatSend
  rw [if_pos hup]
  dsimp only
  rw [Dev.sendRaw_up _ _ hup']
  rfl

theorem flags_foldl (flags : List Byte) (t : Tab Nat) (n : Nat) :
    (flags.zipIdx n).foldl (fun t p => Tab.set (fun _ => 0) t p.2 p.1.toNat) t =
      Tab.setList (fun _ => 0) t n (flags.map fun b => b.toNat) := by
  induction flags generalizing t n with
  | nil => rfl
  | cons b bs ih => exact ih _ _

/-- The partner's flags read as the message gave them. -/
theorem Dev.takeFlags_get (d : Dev) {flags : List Byte} (hlen : flags.length = 16) {k : Nat} (hk : k < 16) :
    Tab.get (fun _ => 0) (d.takeFlags flags).twin.flags k = (flags.getD k 0).toNat := by
  have htake : flags.take 16 = flags := by rw [← hlen, List.take_length]
  have hflags : (d.takeFlags flags).twin.flags = Tab.setList (fun _ => 0) d.twin.flags 0 (flags.map fun b => b.toNat) := by
    rw [← flags_foldl]
    unfold Dev.takeFlags
    rw [htake]
  have hget : flags[k]? = some flags[k] := List.getElem?_eq_getElem (hlen ▸ hk)
  rw [hflags, Tab.get_setList, if_pos (Nat.zero_le k), Nat.sub_zero, List.getElem?_map, List.getD_eq_getElem?_getD, hget]
  rfl

/-- The device once a HEARTBEAT has been noted: its flags and its times. -/
def Dev.hbNoted (d : Dev) (sendTb : Nat) (flags : List Byte) : Dev :=
  { d.takeFlags flags with
    twin := { (d.takeFlags flags).twin with hbArr := d.mclk, hbLast := some (sendTb, d.tb), delayAt := none } }

/-- The times of a HEARTBEAT that give a delay and an offset. -/
def Dev.hbSampled (d : Dev) (sendTb : Nat) (flags : List Byte) (back fwd : Int) : Dev :=
  { d.hbNoted sendTb flags with
    twin := { (d.hbNoted sendTb flags).twin with
      delays := ((back + fwd) :: d.twin.delays).take 16
      offsets := ((back - fwd) :: d.twin.offsets).take 16 } }

theorem Dev.hbSampled_regs (d : Dev) (sendTb : Nat) (flags : List Byte) (back fwd : Int) :
    (d.hbSampled sendTb flags back fwd).regs = d.regs := (rfl)

theorem Dev.heartbeat_eq (d : Dev) (sendTb echoTb echoArr : Nat) (flags : List Byte) :
    d.heartbeat sendTb echoTb echoArr flags =
      if echoTb = 0 ∧ echoArr = 0 then d.hbNoted sendTb flags
      else (d.hbSampled sendTb flags (toSigned 64 ((echoArr + 2 ^ 64 - echoTb) % 2 ^ 64))
        (toSigned 64 ((d.tb + 2 ^ 64 - sendTb) % 2 ^ 64))).showLink := (rfl)

theorem openRound_int (n : Int) (up : Bool) : openRound (n : Rat) up = n := by
  rw [openRound, if_pos (Rat.den_intCast n), Rat.num_intCast]

theorem Dev.showLink_twin (d : Dev) : d.showLink.twin = d.twin := by
  simp [Dev.showLink]

theorem Dev.keepsRegs_showLink (d : Dev) : d.KeepsRegs d.showLink [twinDelay.addr, twinOffset.addr, twinOffsetHi.addr] :=
  Dev.keepsRegs_put _ _ (by decide) (Dev.keepsRegs_put _ _ (by decide) (Dev.keepsRegs_put _ _ (by decide) fun _ _ => rfl))

/-- The average delay as the register shows it. -/
def Dev.shownDelay (d : Dev) : Nat :=
  let dl := openRound ((d.twin.delays.sum : Rat) * (8 : Nat) / (d.twin.delays.length : Nat)) (Config.linkUp d.freeCtr 0)
  if 0 ≤ dl ∧ dl < 65536 then dl.toNat else ofSigned 16 (Config.openValue d.freeCtr 0)

/-- The average offset as the registers show it. -/
def Dev.shownOffset (d : Dev) : Nat :=
  ofSigned 64 (openRound ((d.twin.offsets.sum : Rat) * (1 : Nat) / (d.twin.delays.length : Nat) / 2) (Config.linkUp d.freeCtr 1))

theorem Dev.showLink_eq (d : Dev) :
    d.showLink = (d.nextFree.put twinDelay d.shownDelay).put2 twinOffset twinOffsetHi d.shownOffset := (rfl)

/-- A first sample alone is its own average. -/
theorem Dev.shownDelay_first {d : Dev} {x : Int} (h : d.twin.delays = [x]) (hlo : 0 ≤ x) (hhi : x < 8192) :
    d.shownDelay = (8 * x).toNat := by
  have hmean : ((([x] : List Int).sum : Int) : Rat) * (8 : Nat) / (([x] : List Int).length : Nat) = ((8 * x : Int) : Rat) := by
    rw [List.sum_singleton, List.length_singleton]
    push_cast
    ring
  unfold Dev.shownDelay
  rw [h, hmean, openRound_int]
  exact if_pos (by omega)

theorem Dev.showLink_delay {d : Dev} {x : Int} (h : d.twin.delays = [x]) (hlo : 0 ≤ x) (hhi : x < 8192) :
    (d.showLink.get twinDelay : Int) = 8 * x := by
  have hlt : (8 * x).toNat < 2 ^ twinDelay.w := by simp only [twinDelay]; omega
  rw [Dev.showLink_eq, Dev.put2, Dev.get_put_addr _ _ _ _ (by decide), Dev.get_put_addr _ _ _ _ (by decide),
    Dev.get_put _ _ _ (by decide), Dev.shownDelay_first h hlo hhi, Nat.mod_eq_of_lt hlt]
  omega

/-- What a HEARTBEAT leaves. -/
theorem Dev.heartbeat_effect (d : Dev) (sendTb echoTb echoArr : Nat) {flags : List Byte} (hlen : flags.length = 16) :
    let t := d.heartbeat sendTb echoTb echoArr flags
    let x : Int := toSigned 64 ((echoArr + 2 ^ 64 - echoTb) % 2 ^ 64) + toSigned 64 ((d.tb + 2 ^ 64 - sendTb) % 2 ^ 64)
    t.twin.hbArr = d.mclk ∧ t.twin.hbLast = some (sendTb, d.tb) ∧ t.twin.delayAt = none ∧
      (∀ k, k < 16 → Tab.get (fun _ => 0) t.twin.flags k = (flags.getD k 0).toNat) ∧
      (echoTb = 0 → echoArr = 0 → d.KeepsRegs t []) ∧
      (echoTb ≠ 0 → d.twin.delays = [] → 0 ≤ x → x < 8192 → (t.get twinDelay : Int) = 8 * x) ∧
      d.KeepsRegs t [twinDelay.addr, twinOffset.addr, twinOffsetHi.addr] := by
  intro t x
  by_cases h : echoTb = 0 ∧ echoArr = 0
  · have ht : t = d.hbNoted sendTb flags := (d.heartbeat_eq _ _ _ _).trans (if_pos h)
    rw [ht]
    exact ⟨rfl, rfl, rfl, fun k hk => d.takeFlags_get hlen hk, fun _ _ _ _ => rfl, fun hne => absurd h.1 hne, fun _ _ => rfl⟩
  · have ht : t = _ := (d.heartbeat_eq sendTb echoTb echoArr flags).trans (if_neg h)
    rw [ht, Dev.showLink_twin]
    refine ⟨rfl, rfl, rfl, fun k hk => d.takeFlags_get hlen hk, fun h1 h2 => absurd ⟨h1, h2⟩ h, fun _ hnil hlo hhi => ?_, ?_⟩
    · refine Dev.showLink_delay ?_ hlo hhi
      rw [Dev.hbSampled, hnil]
      rfl
    · exact (Dev.keepsRegs_of_regs (d.hbSampled_regs _ _ _ _) (d.keepsRegs_refl _)).trans (Dev.keepsRegs_showLink _)

end Sys2Proof.Machine
end

section
/-!
PROOFS. Messages sent again, and the loss of the Meridian link (R526, R528, R529, R533, R538).
-/

namespace Sys2Proof.Machine

/-! ## Messages sent again (R528) -/

/-- Messages are sent again, each counted. -/
def Dev.sentAgain (d : Dev) (ms : List TwinMsg) : Dev :=
  ms.foldl (fun d m => (d.emit (.twin m.kind (d.merFrame m.kind m.seq m.payload))).bump twinRetx) d

theorem Dev.sentAgain_retx (d : Dev) (ms : List TwinMsg) : (d.sentAgain ms).get twinRetx = min (d.get twinRetx + ms.length) 0xFFFF := by
  induction ms generalizing d with
  | nil =>
    have hlt : d.get twinRetx < 65536 := d.get_lt twinRetx
    exact (Nat.min_eq_left (Nat.le_of_lt_succ hlt)).symm
  | cons m ms ih =>
    have hone : ((d.emit (.twin m.kind (d.merFrame m.kind m.seq m.payload))).bump twinRetx).get twinRetx =
        min (d.get twinRetx + 1) 0xFFFF := Dev.get_bump _ _ (by decide)
    refine (ih _).trans ?_
    rw [hone, List.length_cons]
    omega

theorem Dev.sentAgain_keeps (d : Dev) (ms : List TwinMsg) : d.KeepsRegs (d.sentAgain ms) [twinRetx.addr] ∧
    (d.sentAgain ms).mclk = d.mclk ∧ (d.sentAgain ms).twin = d.twin := by
  unfold Dev.sentAgain
  refine ⟨?_, foldl_keeps Dev.mclk ?_ ms d, foldl_keeps Dev.twin ?_ ms d⟩
  · exact List.foldlRecOn ms _ (motive := fun t => d.KeepsRegs t [twinRetx.addr]) (d.keepsRegs_refl _) fun t ht m _ =>
      ht.trans (Dev.keepsRegs_bump _ (.head _) fun _ _ => rfl)
  · exact fun _ _ => rfl
  · exact fun _ _ => rfl

/-- The time limit of the oldest message ends: every unacknowledged one is sent again and has its time anew. -/
theorem Dev.retxTimeout_due {d : Dev} (hup : d.merUp = true) (hun : d.twin.unacked ≠ []) :
    d.retxTimeout =
      { (d.advanceTo d.twin.retxAt).sentAgain d.twin.unacked with
        twin := { ((d.advanceTo d.twin.retxAt).sentAgain d.twin.unacked).twin with
          unacked := ((d.advanceTo d.twin.retxAt).sentAgain d.twin.unacked).twin.unacked.map fun m =>
            { m with due := ((d.advanceTo d.twin.retxAt).sentAgain d.twin.unacked).mclk + us 20 }
          retxAt := ((d.advanceTo d.twin.retxAt).sentAgain d.twin.unacked).mclk + us 20 } } := by
  unfold Dev.retxTimeout
  dsimp only
  rw [if_neg (by simp [hup, hun])]
  rfl

theorem Dev.retxTimeout_effect {d : Dev} (hup : d.merUp = true) (hun : d.twin.unacked ≠ []) :
    let t := d.retxTimeout
    t.mclk = max d.mclk d.twin.retxAt ∧ t.twin.retxAt = t.mclk + 30000 ∧
      t.twin.unacked = (d.twin.unacked.map fun m => { m with due := t.mclk + 30000 }) ∧
      t.get twinRetx = min (d.get twinRetx + d.twin.unacked.length) 0xFFFF ∧ d.KeepsRegs t [twinRetx.addr] := by
  obtain ⟨hkeep, hmclk, htwin⟩ := (d.advanceTo d.twin.retxAt).sentAgain_keeps d.twin.unacked
  rw [Dev.mclk_advanceTo] at hmclk
  intro t
  have ht : t = _ := Dev.retxTimeout_due hup hun
  have hun' : ((d.advanceTo d.twin.retxAt).sentAgain d.twin.unacked).twin.unacked = d.twin.unacked := by rw [htwin]; rfl
  rw [ht, hun']
  exact ⟨hmclk, rfl, rfl, (d.advanceTo d.twin.retxAt).sentAgain_retx d.twin.unacked, hkeep⟩

/-! ## The link is lost (R529, R538) -/

/-- The link's registers and the report, once 80 µs have passed without a HEARTBEAT. -/
def Dev.lossShown (d : Dev) : Dev :=
  (((d.advanceTo (d.twin.hbArr + us 80)).put twinLink 3).put twinLanes 0).report srcMer 0 0 0 0 true

/-- The messages that no partner will acknowledge are dropped. -/
def Dev.lossCleared (d : Dev) : Dev :=
  { d.lossShown with twin := { d.lossShown.twin with unacked := [], readyP := [] } }

theorem Dev.merLost_up {d : Dev} (hup : d.merUp = true) (htake : d.lossCleared.lostHalts.twin.take = .none) :
    d.merLost = d.lossCleared.lostHalts.lostTrigger := by
  have heq : d.merLost = match d.lossCleared.lostHalts.twin.take with
      | .wait => d.lossCleared.lostHalts.lostTrigger.takeResolve
      | _ => d.lossCleared.lostHalts.lostTrigger := if_pos hup
  rw [heq, htake]

/-- The report of a lost link. -/
def Dev.linkReport (d : Dev) : Report :=
  { src := srcMer, chk := 0, cls := 0x14, t := d.tb, lat := d.latOf 0x14 srcMer, syn := 0, det := 0, scope := 0, level := true, inj := false,
    real := true }

theorem Dev.report_link (d : Dev) : d.report srcMer 0 0 0 0 true = d.raise d.linkReport := (rfl)

/-- The link's registers as its loss sets them. -/
def Dev.linkDown (d : Dev) : Dev := ((d.advanceTo (d.twin.hbArr + us 80)).put twinLink 3).put twinLanes 0

theorem Dev.lossCleared_eq {d : Dev} (h : d.fcu.wireBad.contains (chkKey srcMer 0) = false) :
    ∃ live, d.lossCleared =
      { d.linkDown with
        fcu := { d.fcu with live := live, raised := d.fcu.raised ++ [d.linkDown.linkReport] }
        twin := { d.twin with unacked := [], readyP := [] } } := by
  have hfcu : d.linkDown.fcu = d.fcu := by rw [Dev.linkDown, Dev.put_fcu, Dev.put_fcu, Dev.advanceTo_fcu]
  have htwin : d.linkDown.twin = d.twin := by rw [Dev.linkDown, Dev.put_twin, Dev.put_twin, Dev.advanceTo_twin]
  obtain ⟨live, hlive⟩ := Dev.raise_good (d := d.linkDown) (r := d.linkDown.linkReport) (by rw [hfcu]; exact h)
  refine ⟨live, ?_⟩
  have hshown : d.lossShown = _ := (Dev.report_link d.linkDown).trans hlive
  rw [Dev.lossCleared, hshown, hfcu, htwin]

theorem Dev.linkDown_get (d : Dev) : d.linkDown.get twinLink = 3 ∧ d.linkDown.get twinLanes = 0 ∧
    (∀ f : Fld, f.addr ≠ 0x50004 ∨ f.lo + f.w ≤ 1 ∨ 6 ≤ f.lo → d.linkDown.get f = d.get f) ∧ d.KeepsRegs d.linkDown [twinLink.addr] := by
  unfold Dev.linkDown
  refine ⟨?_, ?_, fun f h => ?_, ?_⟩
  · rw [Dev.get_put_bits _ _ _ _ (by decide) (by decide), Dev.get_put _ _ _ (by decide)]
    rfl
  · rw [Dev.get_put _ _ _ (by decide)]
    rfl
  · rw [Dev.get_put_ne, Dev.get_put_ne, Dev.get_advanceTo]
    · exact h.imp Ne.symm fun h => ⟨by decide, by simp only [twinLink]; omega⟩
    · exact h.imp Ne.symm fun h => ⟨by decide, by simp only [twinLanes]; omega⟩
  · exact Dev.keepsRegs_put _ _ (by decide) (Dev.keepsRegs_put _ _ (by decide) fun _ _ => rfl)

/-- With no sequencer in a twin-start wait, none halts. -/
theorem Dev.lostHalts_none {d : Dev} (h : ∀ q, q < 16 → d.get (seqState q) ≠ 4) : d.lostHalts = d := by
  have hnil : ((List.range 16).filter fun s => d.get (seqState s) == 4 && d.syncwTwin s) = [] :=
    List.filter_eq_nil_iff.2 fun q hq => by simp [h q (List.mem_range.1 hq)]
  unfold Dev.lostHalts
  rw [hnil]
  exact ite_self d

/-- What the trigger of a takeover leaves alone, whichever way it goes. -/
structure Dev.KeptByTrigger (d t : Dev) : Prop where
  unacked : t.twin.unacked = d.twin.unacked
  mclk : t.mclk = d.mclk
  tb : t.tb = d.tb
  fcu : t.fcu = d.fcu
  get : ∀ f : Fld, f.addr = 0x50004 → f.lo + f.w ≤ 6 → t.get f = d.get f
  regs : d.KeepsRegsEv t [twinLink.addr]

theorem Dev.KeptByTrigger.refl (d : Dev) : d.KeptByTrigger d := ⟨rfl, rfl, rfl, rfl, fun _ _ _ => rfl, fun _ _ _ => rfl⟩

theorem Dev.keptByTrigger_event (d : Dev) (src code pay : Nat) : d.KeptByTrigger (d.event src code pay) where
  unacked := by rw [Dev.event_twin]
  mclk := Dev.event_mclk _ _ _ _
  tb := Dev.event_tb _ _ _ _
  fcu := Dev.event_fcu _ _ _ _
  get f hf _ := Dev.get_event _ _ _ _ _ (by omega)
  regs := Dev.keepsRegsEv_event _ _ _ fun _ _ _ => rfl

/-- The registers and the event of a takeover that begins. -/
def Dev.takeShown (d : Dev) (trig : Nat) : Dev := ((d.put twinParkOut 1).put twinState 2).event srcMer 0x0A05 trig

theorem Dev.takeBegin_of_shown (d : Dev) (trig : Nat) : (d.takeBegin trig).regs = (d.takeShown trig).regs ∧
    (d.takeBegin trig).twin.unacked = (d.takeShown trig).twin.unacked ∧ (d.takeBegin trig).mclk = (d.takeShown trig).mclk ∧
    (d.takeBegin trig).tb = (d.takeShown trig).tb ∧ (d.takeBegin trig).fcu = (d.takeShown trig).fcu :=
  ⟨rfl, rfl, rfl, rfl, rfl⟩

theorem Dev.keptByTrigger_takeBegin (d : Dev) (trig : Nat) : d.KeptByTrigger (d.takeBegin trig) := by
  obtain ⟨hregs, hun, hmclk, htb, hfcu⟩ := d.takeBegin_of_shown trig
  refine ⟨?_, ?_, ?_, ?_, fun f ha hf => ?_, (d.takeBegin_effect trig).2.2.2.2.2.2⟩
  · rw [hun, Dev.takeShown, Dev.event_twin, Dev.put_twin, Dev.put_twin]
  · rw [hmclk, Dev.takeShown, Dev.event_mclk, Dev.put_mclk, Dev.put_mclk]
  · rw [htb, Dev.takeShown, Dev.event_tb, Dev.put_tb, Dev.put_tb]
  · rw [hfcu, Dev.takeShown, Dev.event_fcu, Dev.put_fcu, Dev.put_fcu]
  · rw [Dev.get_of_regs hregs, Dev.takeShown, Dev.get_event _ _ _ _ _ (by omega),
      Dev.get_put_bits _ _ _ _ (by decide) (.inl (by simpa [twinState] using hf)),
      Dev.get_put_bits _ _ _ _ (by decide) (.inl (by simp only [twinParkOut]; omega))]

theorem Dev.keptByTrigger_lostTrigger (d : Dev) : d.KeptByTrigger d.lostTrigger := by
  unfold Dev.lostTrigger Dev.takeTrigger
  repeat' split
  · exact .refl d
  · exact ⟨rfl, rfl, rfl, rfl, fun _ _ _ => rfl, fun _ _ _ => rfl⟩
  · exact d.keptByTrigger_takeBegin 1
  · exact d.keptByTrigger_event srcMer 0x0A07 1

/-- Without automatic takeover nothing begins. -/
theorem Dev.lostTrigger_manual {d : Dev} (h : d.is twinAuto = false) : d.lostTrigger = d := by
  rw [Dev.lostTrigger, h]
  rfl

/-- Role A begins its takeover at once. -/
theorem Dev.lostTrigger_roleA {d : Dev} (hauto : d.is twinAuto = true) (hp : d.paired = true) (hin : d.pwr.parkIn = false)
    (hrole : d.is twinRole = false) : d.lostTrigger = d.takeBegin 1 := by
  simp [Dev.lostTrigger, Dev.takeTrigger, hauto, hp, hin, hrole]

/-- Role B notes the end of its delay. -/
theorem Dev.lostTrigger_roleB {d : Dev} (hauto : d.is twinAuto = true) (hp : d.paired = true) (hin : d.pwr.parkIn = false)
    (hrole : d.is twinRole = true) :
    d.lostTrigger = { d with twin := { d.twin with delayAt := some (d.mclk + us (max 100 (d.get twinDelayB))) } } := by
  simp [Dev.lostTrigger, hauto, hp, hin, hrole]

/-- What a lost link leaves. -/
theorem Dev.merLost_effect {d : Dev} (hup : d.merUp = true) (htake : d.twin.take = .none)
    (hseq : ∀ q, q < 16 → d.get (seqState q) ≠ 4) (hwire : d.fcu.wireBad.contains (chkKey srcMer 0) = false) :
    let t := d.merLost
    t.get twinLink = 3 ∧ t.get twinLanes = 0 ∧ t.twin.unacked = [] ∧ t.mclk = max d.mclk (d.twin.hbArr + 120000) ∧
      (∃ r, t.fcu.raised = d.fcu.raised ++ [r] ∧ r.src = srcMer ∧ r.chk = 0 ∧ r.t = t.tb) ∧ d.KeepsRegsEv t [twinLink.addr] ∧
      (d.is twinAuto = false → t.get twinState = d.get twinState) ∧
      (d.is twinAuto = true → d.paired = true → d.pwr.parkIn = false → d.is twinRole = false →
        t.get twinState = 2 ∧ t.get twinParkOut = 1 ∧ t.twin.take = .bus) ∧
      (d.is twinAuto = true → d.paired = true → d.pwr.parkIn = false → d.is twinRole = true →
        t.get twinState = 1 ∧ t.twin.delayAt = some (t.mclk + 1500 * max 100 (d.get twinDelayB))) := by
  obtain ⟨live, hL⟩ := Dev.lossCleared_eq hwire
  obtain ⟨hlink, hlanes, hother, hkeep⟩ := d.linkDown_get
  have hregs : d.lossCleared.regs = d.linkDown.regs := by rw [hL]
  have hget : ∀ f : Fld, f.addr ≠ 0x50004 ∨ f.lo + f.w ≤ 1 ∨ 6 ≤ f.lo → d.lossCleared.get f = d.get f := fun f hf =>
    (Dev.get_of_regs hregs f).trans (hother f hf)
  have hhalts : d.lossCleared.lostHalts = d.lossCleared := Dev.lostHalts_none fun q hq => by
    rw [hget _ (.inl (by simp only [seqState]; omega))]
    exact hseq q hq
  have hmclk : d.lossCleared.mclk = max d.mclk (d.twin.hbArr + 120000) := by
    rw [hL]
    exact (d.mclk_advanceTo _ :)
  have hauto : d.lossCleared.is twinAuto = d.is twinAuto := by rw [Dev.is, hget _ (.inl (by decide))]; rfl
  have hrole : d.lossCleared.is twinRole = d.is twinRole := by rw [Dev.is, hget _ (by decide)]; rfl
  have hpaired : d.lossCleared.paired = d.paired := by rw [Dev.paired, hget _ (by decide)]; rfl
  have hpark : d.lossCleared.pwr.parkIn = d.pwr.parkIn := by
    rw [hL]
    simp [Dev.linkDown]
  have hkept := d.lossCleared.keptByTrigger_lostTrigger
  have ht : d.merLost = d.lossCleared.lostTrigger := by
    rw [Dev.merLost_up hup] <;> rw [hhalts]
    rw [hL]
    exact htake
  intro t
  rw [show t = d.lossCleared.lostTrigger from ht]
  refine ⟨?_, ?_, ?_, ?_, ⟨d.linkDown.linkReport, ?_, rfl, rfl, ?_⟩, ?_, fun ha => ?_, fun ha hp hi hr => ?_, fun ha hp hi hr => ?_⟩
  · rw [hkept.get _ rfl (by decide), Dev.get_of_regs hregs, hlink]
  · rw [hkept.get _ rfl (by decide), Dev.get_of_regs hregs, hlanes]
  · rw [hkept.unacked, hL]
  · rw [hkept.mclk, hmclk]
  · rw [hkept.fcu, hL]
  · rw [hkept.tb, hL]
    rfl
  · intro a ha hb
    rw [hkept.regs a ha hb, Dev.word, hregs]
    exact hkeep a ha
  · rw [Dev.lostTrigger_manual (hauto.trans ha), hget _ (by decide)]
  · rw [Dev.lostTrigger_roleA (hauto.trans ha) (hpaired.trans hp) (hpark.trans hi) (hrole.trans hr)]
    obtain ⟨hout, hstate, htake', -⟩ := d.lossCleared.takeBegin_effect 1
    exact ⟨hstate, hout, htake'⟩
  · rw [Dev.lostTrigger_roleB (hauto.trans ha) (hpaired.trans hp) (hpark.trans hi) (hrole.trans hr)]
    refine ⟨?_, ?_⟩
    · exact (hget twinState (by decide)).trans (beq_iff_eq.1 hp)
    · rw [hget twinDelayB (.inl (by decide))]
      rfl

/-- Settles O56: training by `Dev.merLinkUp_lawful`, heartbeats by `Dev.heartbeat_eq`, loss by `Dev.merLost_up`. -/
theorem theTwinLinkIsTrainedWatchedAndLost : Obligations.TheTwinLinkIsTrainedWatchedAndLost := by
  refine ⟨fun s lanes partnerB hup hconf hlanes hrole hstate => ?_, fun s lanes partnerB hup hconf hlanes hrole hstate => ?_,
    fun s hup => ?_, fun s ack sendTb echoTb echoArr st up flags hup hun hlen => ?_, fun s ack flags hup hun hlen => ?_,
    fun s hup htake hseq hwire => ?_, fun s hup hun => ?_, fun s why => ?_⟩
  · exact .of_onDevIdle (fun d => d.merLinkUp lanes partnerB) rfl rfl
      (Dev.merLinkUp_opposite hup hconf hlanes hrole hstate (by have := lanes.isLt; omega))
  · exact .of_onDevIdle (fun d => d.merLinkUp lanes partnerB) rfl rfl (Dev.merLinkUp_equal hup hconf hlanes hrole hstate)
  · exact .of_onDev (fun d => d.heartbeatSend) rfl (Dev.heartbeatSend_up hup) ⟨rfl, rfl, fun _ _ => rfl, rfl⟩
  · refine .of_onDev (fun d => d.merRecv ack.toNat false fun d => d.heartbeat sendTb.toNat echoTb.toNat echoArr.toNat flags) rfl
      (Dev.merRecv_acts _ _ hup hun) ?_
    obtain ⟨harr, hlast, hdelay, hflags, hzero, hfirst, hkeep⟩ := s.dev.heartbeat_effect sendTb.toNat echoTb.toNat echoArr.toNat hlen
    exact ⟨harr, hlast, hdelay, hflags, fun h1 h2 => hzero (by rw [h1]; rfl) (by rw [h2]; rfl),
      fun hne => hfirst fun h => hne (BitVec.eq_of_toNat_eq h), hkeep⟩
  · exact .of_onDev (fun d => d.merRecv ack.toNat false fun d => d.takeFlags flags) rfl (Dev.merRecv_acts _ _ hup hun)
      ⟨fun k hk => s.dev.takeFlags_get hlen hk, rfl, rfl⟩
  · exact .of_onDevIdle (fun d => d.merLost) rfl rfl (Dev.merLost_effect hup htake hseq hwire)
  · exact .of_onDev (fun d => d.retxTimeout) rfl rfl (Dev.retxTimeout_effect hup hun)
  · refine .of_onDev (fun d => d.merDiscard why) rfl rfl ?_
    cases why
    case crc =>
      exact ⟨s.dev.get_bump twinCrcErr (by decide), s.dev.get_bump_ne _ _ (.inr ⟨by decide, by decide⟩), rfl,
        Dev.keepsRegs_bump _ (.head _) fun _ _ => rfl⟩
    all_goals exact ⟨rfl, rfl, rfl, fun _ _ => rfl⟩

end Sys2Proof.Machine
end

section
/-!
PROOFS. The calibration store is erased and committed in one bank (R448, R449).
-/

namespace Sys2Proof.Machine

/-- What a command does to the flash and the device is its answer. -/
theorem AnswersNv.of_onNv {c : Instr} {s : State} {post : NonVol → Dev → Prop} {nv : NonVol} {t : Dev} (f : NonVol → Dev → NonVol × Dev)
    (e : exec c s = onNv s f) (h : f s.nv s.dev = (nv, t)) (p : post nv t) : AnswersNv c s post :=
  ⟨nv, t, by rw [e, onNv, h], p⟩

/-! ## Bytes of the flash after a write -/

theorem Tab.getList_congr {α : Type} (dflt : Nat → α) {t u : Tab α} {k n : Nat}
    (h : ∀ a, k ≤ a → a < k + n → Tab.get dflt t a = Tab.get dflt u a) : Tab.getList dflt t k n = Tab.getList dflt u k n := by
  induction n generalizing k with
  | zero => rfl
  | succ n ih =>
    rw [Tab.getList, Tab.getList, h k (by omega) (by omega), ih fun a lo hi => h a (by omega) (by omega)]

theorem NonVol.bytes_write_same (nv : NonVol) (a : Nat) (bs : List Byte) : (nv.write a bs).bytes a bs.length = bs :=
  Tab.getList_setList_same _ _ _ _

/-- A write leaves every byte before it and after it. -/
theorem NonVol.bytes_write_outside (nv : NonVol) {a b n : Nat} {bs : List Byte} (h : b + n ≤ a ∨ a + bs.length ≤ b) :
    (nv.write a bs).bytes b n = nv.bytes b n := by
  refine Tab.getList_congr _ fun c lo hi => ?_
  rw [NonVol.write, Tab.get_setList]
  split
  · rw [List.getElem?_eq_none (by omega)]
    rfl
  · rfl

/-! ## A STORE (R448, R449) -/

/-- The header and the body of a store image, programmed into the bank. -/
def NonVol.imageWritten (nv : NonVol) (d : Dev) : NonVol :=
  (nv.write (calBankAddr d.cal.bank) (calHeader d.cal.gen d.calBody)).write (calBankAddr d.cal.bank + 0x100) d.calBody

/-- The image with its commit page. -/
def NonVol.imageCommitted (nv : NonVol) (d : Dev) : NonVol :=
  (nv.imageWritten d).write (calBankAddr d.cal.bank + 0x7FFF00) (calCommit d.cal.gen (crcOf d.calBody))

theorem NonVol.imageWritten_outside (nv : NonVol) (d : Dev) {a n : Nat}
    (h : a + n ≤ calBankAddr d.cal.bank ∨ calBankAddr d.cal.bank + 0x7FFF00 ≤ a) : (nv.imageWritten d).bytes a n = nv.bytes a n := by
  have hbody := d.length_calBody
  rw [NonVol.imageWritten, NonVol.bytes_write_outside _ (by omega),
    NonVol.bytes_write_outside _ (by rw [length_calHeader]; omega)]

theorem NonVol.imageCommitted_outside (nv : NonVol) (d : Dev) {a n : Nat}
    (h : a + n ≤ calBankAddr d.cal.bank ∨ calBankAddr d.cal.bank + 0x800000 ≤ a) : (nv.imageCommitted d).bytes a n = nv.bytes a n := by
  rw [NonVol.imageCommitted, NonVol.bytes_write_outside _ (by rw [length_calCommit]; omega), nv.imageWritten_outside d (by omega)]

theorem NonVol.imageCommitted_commit (nv : NonVol) (d : Dev) :
    (nv.imageCommitted d).bytes (calBankAddr d.cal.bank + 0x7FFF00) 256 = calCommit d.cal.gen (crcOf d.calBody) := by
  conv_lhs => rw [← length_calCommit d.cal.gen (crcOf d.calBody)]
  exact NonVol.bytes_write_same _ _ _

theorem NonVol.imageCommitted_header (nv : NonVol) (d : Dev) :
    (nv.imageCommitted d).bytes (calBankAddr d.cal.bank) 256 = calHeader d.cal.gen d.calBody := by
  rw [NonVol.imageCommitted, NonVol.bytes_write_outside _ (by omega), NonVol.imageWritten,
    NonVol.bytes_write_outside _ (by omega)]
  conv_lhs => rw [← length_calHeader d.cal.gen d.calBody]
  exact NonVol.bytes_write_same _ _ _

/-- The STORE of a descriptor is listed, with the generation that follows those in the flash. -/
def Dev.storeListed (d : Dev) (nv : NonVol) (w : Work) : Dev :=
  { d with cal := { d.cal with stores := [w], gen := (max ((nv.bankGen 0).getD 0) ((nv.bankGen 1).getD 0) + 1) % 2 ^ 32 } }

/-- The first STORE erases its bank and begins. -/
theorem Dev.calStoreRow_first {d : Dev} {nv : NonVol} {q x : Nat} {w : Work} (h : d.descOf q opCalRun = some (x, w))
    (hkc : d.pwr.hkcReady = true) (hop : calOp x = 1) (htwin : d.get twinState ≠ 2) (hstores : d.cal.stores = [])
    (hruns : d.cal.runs = []) :
    Dev.calStoreRow nv d q = (nv.erase (calBankAddr d.cal.bank) 0x800000, ((d.storeListed nv w).accept w).calSync) := by
  have hfresh : d.calFresh w = true := by simp [Dev.calFresh, hstores, hruns]
  rw [Dev.calStoreRow, h]
  simp only [hkc, hop, hfresh, htwin, hstores, Bool.not_true, bne_self_eq_false, Bool.or_self, Bool.false_eq_true, if_false,
    List.isEmpty_nil, if_true, List.nil_append]
  rfl

theorem Dev.accept_cal_regs (d : Dev) (w : Work) : (d.accept w).cal = d.cal ∧ (d.accept w).regs = d.regs := by
  unfold Dev.accept
  repeat' split
  all_goals exact ⟨rfl, rfl⟩

/-- What a STORE that begins shows. -/
theorem Dev.storeBegun_effect (d : Dev) (nv : NonVol) (w : Work) (hruns : d.cal.runs = []) :
    let t := ((d.storeListed nv w).accept w).calSync
    t.cal.stores = [w] ∧ t.get calState = 2 ∧ t.cal.gen = (max ((nv.bankGen 0).getD 0) ((nv.bankGen 1).getD 0) + 1) % 2 ^ 32 ∧
      d.KeepsRegs t [calState.addr] := by
  obtain ⟨hcal, hregs⟩ := (d.storeListed nv w).accept_cal_regs w
  intro t
  have ht : t = ((d.storeListed nv w).accept w).put calState 2 := by
    have hruns' : ((d.storeListed nv w).accept w).cal.runs = [] := by rw [hcal]; exact hruns
    have hstores' : ((d.storeListed nv w).accept w).cal.stores = [w] := by rw [hcal]; rfl
    show ((d.storeListed nv w).accept w).calSync = _
    rw [Dev.calSync, hruns', hstores']
    rfl
  rw [ht, Dev.put_cal, hcal]
  refine ⟨rfl, Dev.get_put _ _ _ (by decide), rfl, ?_⟩
  exact Dev.keepsRegs_put _ _ (.head _) (Dev.keepsRegs_of_regs hregs fun _ _ => rfl)

theorem Dev.OnlyPower.cal {d e : Dev} (h : d.OnlyPower e) : e.cal = d.cal := by
  obtain ⟨⟨_, _, _, _, _, _, he⟩, -⟩ := h
  rw [he]

/-- The device without the STORE that has ended. -/
def Dev.storeOff (d : Dev) : Dev := { d with cal := { d.cal with stores := [] } }

theorem Dev.calStoreDone_last {d : Dev} {w : Work} (nv : NonVol) (ok : Bool) (h : d.cal.stores = [w]) :
    Dev.calStoreDone nv d ok = (if ok then nv.imageCommitted d else nv.imageWritten d,
      (if ok then d.storeOff.done w stOk else (d.storeOff.event srcCal 0x0901 0).done w stIntegrity).calSync) := by
  rw [Dev.calStoreDone, h]
  cases ok <;> rfl

theorem Dev.calStoreDone_stores (d : Dev) (w : Work) (ok : Bool) :
    (if ok then d.storeOff.done w stOk else (d.storeOff.event srcCal 0x0901 0).done w stIntegrity).calSync.cal.stores = [] := by
  rw [Dev.calSync, Dev.put_cal]
  cases ok
  · exact (congrArg CalSt.stores (Dev.onlyPower_done _ w stIntegrity).cal).trans (by rw [Dev.event_cal]; rfl)
  · exact (congrArg CalSt.stores (Dev.onlyPower_done _ w stOk).cal :)

end Sys2Proof.Machine
end

section
/-!
PROOFS. Temperatures are shown with their validity, and the recompute period follows them (R437 to R440).
-/

namespace Sys2Proof.Machine

/-! ## What the recomputation of a sector changes (R439, R440) -/

/-- From `d` to `t` only level conversions and interpolated values have changed: of the registers CAL_STATUS, the marks of clipped
channels and the channels' own. -/
structure Dev.Interp (d t : Dev) : Prop where
  rest : ∃ r c p u f, t = { d with regs := r, chans := c, cal := { d.cal with pendT := p, usedT := u, force := f } }
  word : ∀ a, a ≠ 0x40004 → (a < 0x41000 ∨ (0x42000 ≤ a ∧ a < 0x1000000) ∨ 0x1200000 ≤ a) → t.word a = d.word a

theorem Dev.Interp.refl (d : Dev) : d.Interp d := ⟨⟨_, _, _, _, _, rfl⟩, fun _ _ _ => rfl⟩

theorem Dev.Interp.trans {d e f : Dev} (h : d.Interp e) (k : e.Interp f) : d.Interp f := by
  obtain ⟨⟨_, _, _, _, _, rfl⟩, hw⟩ := h
  obtain ⟨⟨_, _, _, _, _, rfl⟩, kw⟩ := k
  exact ⟨⟨_, _, _, _, _, rfl⟩, fun a hne ha => (kw a hne ha).trans (hw a hne ha)⟩

theorem Dev.Interp.get {d t : Dev} (h : d.Interp t) (f : Fld) (hne : f.addr ≠ 0x40004)
    (ha : f.addr < 0x41000 ∨ (0x42000 ≤ f.addr ∧ f.addr < 0x1000000) ∨ 0x1200000 ≤ f.addr) :
    t.get f = d.get f := by
  rw [Dev.get, h.word _ hne ha, Dev.get]

theorem Dev.interp_put (d : Dev) (v : Nat) : d.Interp (d.put calPending v) :=
  ⟨⟨_, _, _, _, _, rfl⟩, fun _ hne _ => d.word_put_ne _ _ (Ne.symm hne)⟩

/-- The channels and DACs of a sector. -/
def sectorDacs (k : Nat) : List (Nat × Nat) := (sectorChans k).flatMap fun c => (List.range 11).map fun i => (c, i)

theorem lt_of_mem_sectorDacs {k : Nat} (hk : k < 16) {p : Nat × Nat} (h : p ∈ sectorDacs k) : p.1 < 256 ∧ p.2 < 11 := by
  obtain ⟨c, hc, hp⟩ := List.mem_flatMap.1 h
  obtain ⟨i, hi, rfl⟩ := List.mem_map.1 hp
  exact ⟨lt_of_mem_sectorChans hk hc, List.mem_range.1 hi⟩

theorem Dev.interp_reconvert (d : Dev) {c k : Nat} (hc : c < 256) (hk : k < 11) : d.Interp (d.reconvert c k) := by
  obtain ⟨r, ch, hr⟩ := d.reconvert_eq c k
  refine ⟨⟨r, ch, _, _, _, hr⟩, fun a hne ha => d.keepsRegs_reconvert c k a ?_⟩
  simp only [calClipped, peIdeal, peHold, List.mem_cons, List.not_mem_nil, or_false]
  omega

/-- The pending values of a sector in effect, before its DACs convert again. -/
def Dev.calApplied (d : Dev) (k : Nat) : Dev :=
  ({ d with cal := { d.cal with
      force := (d.calKeys k).foldl (fun f y => Tab.set calDefault f y (d.interpolate y (tempOf d.cal.pendT k))) d.cal.force
      usedT := Tab.set (fun _ => 0) d.cal.usedT k (tempOf d.cal.pendT k) } }).put calPending (d.get calPending - (d.get calPending &&& 2 ^ k))

/-- After them, DACs of the sector convert again. -/
theorem Dev.applyCal_eq (d : Dev) (k : Nat) :
    ∃ l : List (Nat × Nat), (∀ p ∈ l, p ∈ sectorDacs k) ∧ (d.applyCal k).1 = l.foldl (fun d p => d.reconvert p.1 p.2) (d.calApplied k) := by
  unfold Dev.applyCal
  dsimp only
  split
  · exact ⟨[], by simp, rfl⟩
  · refine ⟨_, fun p hp => ?_, rfl⟩
    obtain ⟨⟨p', n⟩, hz, rfl⟩ := List.mem_map.1 hp
    exact (List.of_mem_zip (List.mem_filter.1 hz).1).1

theorem Dev.interp_reconverts (d : Dev) {k : Nat} (hk : k < 16) {l : List (Nat × Nat)} (hl : ∀ p ∈ l, p ∈ sectorDacs k) :
    d.Interp (l.foldl (fun d p => d.reconvert p.1 p.2) d) :=
  List.foldlRecOn l _ (motive := fun t => d.Interp t) (.refl d) fun t ht p hp =>
    ht.trans (t.interp_reconvert (lt_of_mem_sectorDacs hk (hl p hp)).1 (lt_of_mem_sectorDacs hk (hl p hp)).2)

theorem Dev.interp_calApplied (d : Dev) (k : Nat) : d.Interp (d.calApplied k) :=
  Dev.Interp.trans (e := { d with cal := { d.cal with
      force := (d.calKeys k).foldl (fun f y => Tab.set calDefault f y (d.interpolate y (tempOf d.cal.pendT k))) d.cal.force
      usedT := Tab.set (fun _ => 0) d.cal.usedT k (tempOf d.cal.pendT k) } }) ⟨⟨_, _, _, _, _, rfl⟩, fun _ _ _ => rfl⟩ (Dev.interp_put _ _)

theorem Dev.interp_applyCal (d : Dev) {k : Nat} (hk : k < 16) : d.Interp (d.applyCal k).1 := by
  obtain ⟨l, hl, heq⟩ := d.applyCal_eq k
  rw [heq]
  exact (d.interp_calApplied k).trans (Dev.interp_reconverts _ hk hl)

theorem Dev.interp_applyIdle (d : Dev) {k : Nat} (hk : k < 16) : d.Interp (d.applyIdle k) := by
  unfold Dev.applyIdle
  split
  · exact d.interp_applyCal hk
  · exact .refl d

/-- The values of a sector pending at a temperature. -/
def Dev.calPended (d : Dev) (k : Nat) (t : Rat) : Dev :=
  ({ d with cal := { d.cal with pendT := Tab.set (fun _ => 0) d.cal.pendT k t } }).put calPending (d.get calPending ||| 2 ^ k)

theorem Dev.recompute_cases (d : Dev) (k : Nat) : d.recompute k = d ∨ ∃ t, d.recompute k = d.calPended k t := by
  unfold Dev.recompute
  split
  next t _ =>
    split
    · exact .inr ⟨t, rfl⟩
    · exact .inl rfl
  next => exact .inl rfl

theorem Dev.interp_calPended (d : Dev) (k : Nat) (t : Rat) : d.Interp (d.calPended k t) :=
  Dev.Interp.trans (e := { d with cal := { d.cal with pendT := Tab.set (fun _ => 0) d.cal.pendT k t } })
    ⟨⟨_, _, _, _, _, rfl⟩, fun _ _ _ => rfl⟩ (Dev.interp_put _ _)

theorem Dev.interp_recompute (d : Dev) (k : Nat) : d.Interp (d.recompute k) := by
  rcases d.recompute_cases k with h | ⟨t, h⟩ <;> rw [h]
  · exact .refl d
  · exact d.interp_calPended k t

/-! ## The sensors are read (R438) -/

theorem Dev.word_ite {d e f : Dev} {p : Prop} [Decidable p] {a : Nat} (h : e.word a = d.word a) (k : f.word a = d.word a) :
    (if p then e else f).word a = d.word a := by
  split
  · exact h
  · exact k

/-- A word of the sensors' readings stays whatever follows a reading. -/
theorem Dev.sectorMoved_word (d : Dev) {k a : Nat} (hk : k < 16) (hlo : 0x40008 ≤ a) (hhi : a < 0x41000) :
    (d.sectorMoved k).word a = d.word a := by
  have hstep : ((d.recompute k).applyIdle k).word a = d.word a :=
    ((d.interp_recompute k).trans (Dev.interp_applyIdle _ hk)).word a (by omega) (.inl hhi)
  have hlag : ∀ (e : Dev) (x : CalSt), (Dev.event { e with cal := x } srcCal 0x0904 k).word a = e.word a := fun e x =>
    Dev.word_event _ _ _ _ _ (.inr (by omega))
  unfold Dev.sectorMoved
  split
  · rfl
  · exact (Dev.word_ite (hlag _ _) rfl).trans (Dev.word_ite hstep rfl)

theorem Dev.thermal_regs (d : Dev) (e : Nat) : (d.thermal e).regs = d.regs := by
  unfold Dev.thermal
  dsimp only
  repeat' split
  · rfl
  · exact d.regs_report _ _ _ _ _ _
  · rfl
  · rfl
  · rfl

theorem ofSigned_toInt (b : BitVec 16) : ofSigned 16 b.toInt = b.toNat := by
  conv_rhs => rw [← BitVec.ofInt_toInt (x := b), BitVec.toNat_ofInt]
  rfl

/-- The two fields of a sensor's word: a reading and its validity. -/
def Dev.tempShown (d : Dev) (i : Nat) (t : Int) (ok : Bool) : Dev := (d.put (calTemp i) (ofSigned 16 t)).putB (calTempValid i) ok

theorem Dev.tempShown_get (d : Dev) (i : Nat) (b : BitVec 16) (ok : Bool) :
    (d.tempShown i b.toInt ok).get (calTemp i) = b.toNat ∧ (d.tempShown i b.toInt ok).get (calTempValid i) = ok.toNat := by
  unfold Dev.tempShown Dev.putB
  constructor
  · rw [Dev.get_put_bits _ _ _ _ (by simp [calTempValid]) (.inl (by simp [calTemp, calTempValid])), Dev.get_put _ _ _ (by simp [calTemp]),
      ofSigned_toInt]
    exact Nat.mod_eq_of_lt b.isLt
  · rw [Dev.get_put _ _ _ (by simp [calTempValid])]
    cases ok <;> rfl

theorem Dev.tempShown_word (d : Dev) {i a : Nat} (t : Int) (ok : Bool) (h : a ≠ 0x40040 + 4 * i) : (d.tempShown i t ok).word a = d.word a :=
  (Dev.word_put_ne _ (calTempValid i) _ (Ne.symm h)).trans (Dev.word_put_ne _ (calTemp i) _ (Ne.symm h))

theorem Dev.storeTemp_word (d : Dev) (i : Nat) (t : Int) (ok : Bool) {a : Nat} (ha : 0x10300 ≤ a) :
    (d.storeTemp i t ok).word a = (d.tempShown i t ok).word a := by
  unfold Dev.storeTemp
  exact Dev.word_ite (Dev.word_event _ _ _ _ _ (.inr ha)) rfl

theorem Dev.get_of_same {d e : Dev} (f : Fld) (h : e.word f.addr = d.word f.addr) : e.get f = d.get f := by
  rw [Dev.get, h, Dev.get]

/-- A core-die sensor's word. -/
def Dev.coreShown (d : Dev) (j : Nat) (t : Int) (ok : Bool) : Dev := (d.put (calTempC j) (ofSigned 16 t)).putB (calTempCValid j) ok

theorem Dev.coreShown_get (d : Dev) (j : Nat) (b : BitVec 16) (ok : Bool) :
    (d.coreShown j b.toInt ok).get (calTempC j) = b.toNat ∧ (d.coreShown j b.toInt ok).get (calTempCValid j) = ok.toNat := by
  unfold Dev.coreShown Dev.putB
  constructor
  · rw [Dev.get_put_bits _ _ _ _ (by simp [calTempCValid]) (.inl (by simp [calTempC, calTempCValid])), Dev.get_put _ _ _ (by simp [calTempC]),
      ofSigned_toInt]
    exact Nat.mod_eq_of_lt b.isLt
  · rw [Dev.get_put _ _ _ (by simp [calTempCValid])]
    cases ok <;> rfl

theorem Dev.coreShown_word (d : Dev) {j a : Nat} (t : Int) (ok : Bool) (h : a ≠ 0x40080 + 4 * j) : (d.coreShown j t ok).word a = d.word a :=
  (Dev.word_put_ne _ (calTempCValid j) _ (Ne.symm h)).trans (Dev.word_put_ne _ (calTempC j) _ (Ne.symm h))

/-- One edge-die sensor is read. -/
def Dev.edgeStep (edge : List Int) (d : Dev) (i : Nat) : Dev :=
  d.storeTemp i (edge.getD i 0) (plausible ((List.range 4).map fun j => edge.getD (i / 4 * 4 + j) 0) (i % 4))

/-- One core-die sensor is read. -/
def Dev.coreStep (core : List Int) (d : Dev) (j : Nat) : Dev := d.coreShown j (core.getD j 0) (tempInRange (core.getD j 0))

/-- The edge dies' sensors are read. -/
def Dev.edgeRead (d : Dev) (edge : List Int) : Dev := d.forEach (List.range 16) (Dev.edgeStep edge)

/-- The core die's sensors are read. -/
def Dev.coreRead (d : Dev) (core : List Int) : Dev := d.forEach (List.range 8) (Dev.coreStep core)

/-- What follows the readings: the THERMAL conditions and the sectors that have moved. -/
def Dev.tempsFollowed (d : Dev) : Dev :=
  (d.forEach [0, 1, 2, 3] fun d e => d.thermal e).forEach (List.range 16) fun d k => d.sectorMoved k

theorem Dev.tempRead_ready {d : Dev} (edge core : List Int) (hboot : d.pwr.booted = true) (hkc : d.pwr.hkcReady = true) :
    d.tempRead edge core = ((d.edgeRead edge).coreRead core).tempsFollowed := by
  unfold Dev.tempRead
  rw [hboot, hkc]
  rfl

theorem Dev.tempsFollowed_word (d : Dev) {a : Nat} (hlo : 0x40008 ≤ a) (hhi : a < 0x41000) : d.tempsFollowed.word a = d.word a := by
  unfold Dev.tempsFollowed
  refine (Dev.forEach_keeps (fun e => e.word a) (fun e k hk => ?_) _).trans (Dev.forEach_keeps (fun e => e.word a) (fun e i _ => ?_) _)
  · exact e.sectorMoved_word (List.mem_range.1 hk) hlo hhi
  · rw [Dev.word, e.thermal_regs, Dev.word]

theorem getD_map_toInt (l : List (BitVec 16)) (i : Nat) : (l.map fun x => x.toInt).getD i 0 = (l.getD i 0).toInt := by
  rw [List.getD_eq_getElem?_getD, List.getElem?_map, List.getD_eq_getElem?_getD]
  cases l[i]? <;> rfl

theorem Dev.edgeStep_get (edge : List (BitVec 16)) (d : Dev) (i : Nat) :
    (Dev.edgeStep (edge.map fun x => x.toInt) d i).get (calTemp i) = (edge.getD i 0).toNat ∧
      (Dev.edgeStep (edge.map fun x => x.toInt) d i).get (calTempValid i) =
        (plausible ((List.range 4).map fun j => (edge.getD (i / 4 * 4 + j) 0).toInt) (i % 4)).toNat := by
  unfold Dev.edgeStep
  simp only [getD_map_toInt]
  rw [Dev.get_of_same (calTemp i) (d.storeTemp_word i _ _ (by simp only [calTemp]; omega)),
    Dev.get_of_same (calTempValid i) (d.storeTemp_word i _ _ (by simp only [calTempValid]; omega))]
  exact d.tempShown_get i _ _

theorem Dev.edgeStep_word (edge : List Int) (d : Dev) {i a : Nat} (hne : a ≠ 0x40040 + 4 * i) (ha : 0x10300 ≤ a) :
    (Dev.edgeStep edge d i).word a = d.word a :=
  (d.storeTemp_word i _ _ ha).trans (d.tempShown_word _ _ hne)

theorem Dev.coreStep_get (core : List (BitVec 16)) (d : Dev) (j : Nat) :
    (Dev.coreStep (core.map fun x => x.toInt) d j).get (calTempC j) = (core.getD j 0).toNat ∧
      (Dev.coreStep (core.map fun x => x.toInt) d j).get (calTempCValid j) = (tempInRange (core.getD j 0).toInt).toNat := by
  unfold Dev.coreStep
  rw [getD_map_toInt]
  exact d.coreShown_get j _ _

/-- Every edge-die sensor reads what it was given, and is valid when that is plausible. -/
theorem Dev.edgeRead_get (d : Dev) (edge : List (BitVec 16)) {i : Nat} (hi : i < 16) :
    (d.edgeRead (edge.map fun x => x.toInt)).get (calTemp i) = (edge.getD i 0).toNat ∧
      (d.edgeRead (edge.map fun x => x.toInt)).get (calTempValid i) =
        (plausible ((List.range 4).map fun j => (edge.getD (i / 4 * 4 + j) 0).toInt) (i % 4)).toNat := by
  have hmem : i ∈ List.range 16 := List.mem_range.2 hi
  have hne : ∀ (e : Dev) (j : Nat), j ≠ i → (Dev.edgeStep (edge.map fun x => x.toInt) e j).word (0x40040 + 4 * i) = e.word (0x40040 + 4 * i) :=
    fun e j hj => Dev.edgeStep_word _ e (by omega) (by omega)
  unfold Dev.edgeRead
  constructor
  · exact (Dev.forEach_resets (fun e => e.get (calTemp i)) (fun e => (Dev.edgeStep_get edge e i).1)
      (fun e j hj => Dev.get_of_same (calTemp i) (hne e j hj)) _ d).trans (if_pos hmem)
  · exact (Dev.forEach_resets (fun e => e.get (calTempValid i)) (fun e => (Dev.edgeStep_get edge e i).2)
      (fun e j hj => Dev.get_of_same (calTempValid i) (hne e j hj)) _ d).trans (if_pos hmem)

theorem Dev.coreRead_get (d : Dev) (core : List (BitVec 16)) {j : Nat} (hj : j < 8) :
    (d.coreRead (core.map fun x => x.toInt)).get (calTempC j) = (core.getD j 0).toNat ∧
      (d.coreRead (core.map fun x => x.toInt)).get (calTempCValid j) = (tempInRange (core.getD j 0).toInt).toNat := by
  have hmem : j ∈ List.range 8 := List.mem_range.2 hj
  have hne : ∀ (e : Dev) (i : Nat), i ≠ j → (Dev.coreStep (core.map fun x => x.toInt) e i).word (0x40080 + 4 * j) = e.word (0x40080 + 4 * j) :=
    fun e i hi => e.coreShown_word _ _ (by omega)
  unfold Dev.coreRead
  constructor
  · exact (Dev.forEach_resets (fun e => e.get (calTempC j)) (fun e => (Dev.coreStep_get core e j).1)
      (fun e i hi => Dev.get_of_same (calTempC j) (hne e i hi)) _ d).trans (if_pos hmem)
  · exact (Dev.forEach_resets (fun e => e.get (calTempCValid j)) (fun e => (Dev.coreStep_get core e j).2)
      (fun e i hi => Dev.get_of_same (calTempCValid j) (hne e i hi)) _ d).trans (if_pos hmem)

theorem Dev.coreRead_word (d : Dev) (core : List Int) {a : Nat} (ha : a < 0x40080) : (d.coreRead core).word a = d.word a :=
  Dev.forEach_keeps (fun e => e.word a) (fun e j _ => e.coreShown_word _ _ (by omega)) d

/-- What a reading of all the sensors shows. -/
theorem Dev.tempRead_effect {d : Dev} (edge core : List (BitVec 16)) (hboot : d.pwr.booted = true) (hkc : d.pwr.hkcReady = true) :
    let t := d.tempRead (edge.map fun x => x.toInt) (core.map fun x => x.toInt)
    (∀ i, i < 16 → t.get (calTemp i) = (edge.getD i 0).toNat ∧ t.get (calTempValid i) =
        (plausible ((List.range 4).map fun j => (edge.getD (i / 4 * 4 + j) 0).toInt) (i % 4)).toNat) ∧
      ∀ j, j < 8 → t.get (calTempC j) = (core.getD j 0).toNat ∧ t.get (calTempCValid j) = (tempInRange (core.getD j 0).toInt).toNat := by
  intro t
  have ht : t = _ := Dev.tempRead_ready _ _ hboot hkc
  rw [ht]
  refine ⟨fun i hi => ?_, fun j hj => ?_⟩
  · have hword : (((d.edgeRead (edge.map fun x => x.toInt)).coreRead (core.map fun x => x.toInt)).tempsFollowed).word (0x40040 + 4 * i) =
        (d.edgeRead (edge.map fun x => x.toInt)).word (0x40040 + 4 * i) :=
      (Dev.tempsFollowed_word _ (by omega) (by omega)).trans (Dev.coreRead_word _ _ (by omega))
    rw [Dev.get_of_same (calTemp i) hword, Dev.get_of_same (calTempValid i) hword]
    exact d.edgeRead_get edge hi
  · have hword : (((d.edgeRead (edge.map fun x => x.toInt)).coreRead (core.map fun x => x.toInt)).tempsFollowed).word (0x40080 + 4 * j) =
        ((d.edgeRead (edge.map fun x => x.toInt)).coreRead (core.map fun x => x.toInt)).word (0x40080 + 4 * j) :=
      Dev.tempsFollowed_word _ (by omega) (by omega)
    rw [Dev.get_of_same (calTempC j) hword, Dev.get_of_same (calTempCValid j) hword]
    exact Dev.coreRead_get _ core hj

end Sys2Proof.Machine
end

section
/-!
PROOFS. The recompute period follows the sector temperatures; the statement on the store and on temperatures (R437 to R440, R448,
R449).
-/

namespace Sys2Proof.Machine

/-! ## What a sector's recomputation reads -/

theorem Dev.Interp.is {d t : Dev} (h : d.Interp t) (f : Fld) (hne : f.addr ≠ 0x40004)
    (ha : f.addr < 0x41000 ∨ (0x42000 ≤ f.addr ∧ f.addr < 0x1000000) ∨ 0x1200000 ≤ f.addr) : t.is f = d.is f := by
  rw [Dev.is, h.get f hne ha, Dev.is]

theorem Dev.Interp.awake {d t : Dev} (h : d.Interp t) : t.awake = d.awake := by
  rw [Dev.awake, h.get pwrState (by decide) (by decide), Dev.awake]

theorem Dev.Interp.cal_runs {d t : Dev} (h : d.Interp t) : t.cal.runs = d.cal.runs ∧ t.cal.due = d.cal.due := by
  obtain ⟨⟨_, _, _, _, _, rfl⟩, -⟩ := h
  exact ⟨rfl, rfl⟩

theorem Dev.Interp.runs_mclk {d t : Dev} (h : d.Interp t) : t.runs = d.runs ∧ t.mclk = d.mclk := by
  obtain ⟨⟨_, _, _, _, _, rfl⟩, -⟩ := h
  exact ⟨rfl, rfl⟩

theorem Dev.Interp.sectorCal {d t : Dev} (h : d.Interp t) (k : Nat) : t.sectorCal k = d.sectorCal k := by
  rw [Dev.sectorCal, h.cal_runs.1, Dev.sectorCal]

theorem Dev.Interp.sectorRunning {d t : Dev} (h : d.Interp t) (k : Nat) : t.sectorRunning k = d.sectorRunning k := by
  have hsite : ∀ c, t.siteOf c = d.siteOf c := fun c => by
    rw [Dev.siteOf, h.is (siteMapValid c) (by simp only [siteMapValid]; omega) (by simp only [siteMapValid]; omega),
      h.get (siteMapSite c) (by simp only [siteMapSite]; omega) (by simp only [siteMapSite]; omega), Dev.siteOf]
  have hsites : t.sectorSites k = d.sectorSites k := by simp only [Dev.sectorSites, Dev.sitesOfChans, hsite]
  rw [Dev.sectorRunning, hsites, h.runs_mclk.1, Dev.sectorRunning]

theorem Dev.Interp.sectorTemp {d t : Dev} (h : d.Interp t) {k : Nat} (hk : k < 16) : t.sectorTemp k = d.sectorTemp k := by
  have hat : ∀ i, i < 16 → t.tempAt i = d.tempAt i ∧ t.is (calTempValid i) = d.is (calTempValid i) := fun i hi =>
    ⟨by rw [Dev.tempAt, h.get (calTemp i) (by simp only [calTemp]; omega) (by simp only [calTemp]; omega), Dev.tempAt],
      h.is (calTempValid i) (by simp only [calTempValid]; omega) (by simp only [calTempValid]; omega)⟩
  have hvalid : t.validTemps (k / 4) = d.validTemps (k / 4) := by
    unfold Dev.validTemps
    have hlt : ∀ j ∈ List.range 4, 4 * (k / 4) + j < 16 := fun j hj => by have := List.mem_range.1 hj; omega
    rw [List.filter_congr fun j hj => (hat _ (hlt j hj)).2]
    exact List.map_congr_left fun j hj => (hat _ (hlt j (List.mem_of_mem_filter hj))).1
  rw [Dev.sectorTemp, (hat k hk).2, (hat k hk).1, hvalid, Dev.sectorTemp]

/-! ## One sector at the recompute period (R439, R440) -/

/-- A sector is recomputed, and takes its values when it is idle. -/
def Dev.periodStep (d : Dev) (k : Nat) : Dev := (d.recompute k).applyIdle k

theorem Dev.interp_periodStep (d : Dev) {k : Nat} (hk : k < 16) : d.Interp (d.periodStep k) :=
  (d.interp_recompute k).trans (Dev.interp_applyIdle _ hk)

/-- A sector works with a temperature's values, and none is pending for it. -/
def Dev.UsesTemp (d : Dev) (k : Nat) (x : Rat) : Prop := tempOf d.cal.usedT k = x ∧ (d.get calPending).testBit k = false

theorem testBit_get_put_pending (d : Dev) (v : Nat) {k : Nat} (hk : k < 16) : ((d.put calPending v).get calPending).testBit k = v.testBit k := by
  rw [Dev.get_put _ _ _ (by decide)]
  show (v % 2 ^ 16).testBit k = v.testBit k
  rw [Nat.testBit_mod_two_pow]
  simp [hk]

theorem Dev.reconverts_keep (d : Dev) (l : List (Nat × Nat)) :
    (l.foldl (fun d p => d.reconvert p.1 p.2) d).cal = d.cal ∧ (l.foldl (fun d p => d.reconvert p.1 p.2) d).get calPending = d.get calPending := by
  refine ⟨foldl_keeps Dev.cal (fun e p => ?_) l d, foldl_keeps (fun e => e.get calPending) (fun e p => ?_) l d⟩
  · obtain ⟨_, _, hr⟩ := e.reconvert_eq p.1 p.2
    rw [hr]
  · refine Dev.get_of_same calPending (e.keepsRegs_reconvert p.1 p.2 _ ?_)
    simp only [calPending, calClipped, peIdeal, peHold, List.mem_cons, List.not_mem_nil, or_false]
    omega

/-- The values of a sector in effect: the temperature is that which was pending, and another sector's is as it was. -/
theorem Dev.applyCal_uses (d : Dev) (k : Nat) {j : Nat} (hj : j < 16) :
    tempOf (d.applyCal k).1.cal.usedT j = (if k = j then tempOf d.cal.pendT k else tempOf d.cal.usedT j) ∧
      ((d.applyCal k).1.get calPending).testBit j = ((d.get calPending).testBit j && !decide (k = j)) := by
  obtain ⟨l, -, heq⟩ := d.applyCal_eq k
  obtain ⟨hcal, hpend⟩ := (d.calApplied k).reconverts_keep l
  rw [heq, hcal, hpend]
  constructor
  · rw [Dev.calApplied, Dev.put_cal]
    exact Tab.get_set _ _ _ _ _
  · rw [Dev.calApplied, testBit_get_put_pending _ _ hj, testBit_sub_and, Nat.testBit_two_pow]

theorem Dev.calPended_uses (d : Dev) (k : Nat) (t : Rat) {j : Nat} (hj : j < 16) :
    tempOf (d.calPended k t).cal.pendT k = t ∧ (d.calPended k t).cal.usedT = d.cal.usedT ∧
      ((d.calPended k t).get calPending).testBit j = ((d.get calPending).testBit j || decide (k = j)) := by
  refine ⟨?_, by rw [Dev.calPended, Dev.put_cal], ?_⟩
  · rw [Dev.calPended, Dev.put_cal]
    exact Tab.get_set_same _ _ _ _
  · rw [Dev.calPended, testBit_get_put_pending _ _ hj, Nat.testBit_or, Nat.testBit_two_pow]

/-- The step of another sector leaves what a sector uses. -/
theorem Dev.periodStep_other {d : Dev} {k j : Nat} {x : Rat} (hj : j < 16) (hne : k ≠ j) (h : d.UsesTemp j x) :
    (d.periodStep k).UsesTemp j x := by
  have hrec : (d.recompute k).UsesTemp j x := by
    rcases d.recompute_cases k with heq | ⟨t, heq⟩ <;> rw [heq]
    · exact h
    · obtain ⟨-, hused, hpend⟩ := d.calPended_uses k t hj
      exact ⟨by rw [hused]; exact h.1, by rw [hpend, h.2, decide_eq_false hne]; rfl⟩
  unfold Dev.periodStep Dev.applyIdle
  split
  · obtain ⟨hused, hpend⟩ := (d.recompute k).applyCal_uses k hj
    exact ⟨by rw [hused, if_neg hne]; exact hrec.1, by rw [hpend, hrec.2]; rfl⟩
  · exact hrec

/-- An idle sector with a temperature uses it after its step. -/
theorem Dev.periodStep_own {d : Dev} {k : Nat} {x : Rat} (hk : k < 16) (hawake : d.awake = true) (hen : d.is calInterpEn = true)
    (htemp : d.sectorTemp k = some x) (hcal : d.sectorCal k = false) (hrun : d.sectorRunning k = false) :
    (d.periodStep k).UsesTemp k x := by
  have hrec : d.recompute k = d.calPended k x := by
    rw [Dev.recompute, htemp]
    exact if_pos (by rw [hen, hawake, hcal]; rfl)
  obtain ⟨hpendT, -, hpend⟩ := d.calPended_uses k x hk
  have hframe := d.interp_calPended k x
  have happly : (d.calPended k x).applyIdle k = ((d.calPended k x).applyCal k).1 := by
    rw [Dev.applyIdle, hpend, hframe.sectorRunning, hframe.sectorCal, hrun, hcal]
    simp
  obtain ⟨hused, hclear⟩ := (d.calPended k x).applyCal_uses k hk
  rw [Dev.periodStep, hrec, happly]
  exact ⟨by rw [hused, if_pos rfl, hpendT], by rw [hclear]; simp⟩

/-! ## The whole period -/

theorem Dev.interp_periods (d : Dev) {l : List Nat} (hl : ∀ k ∈ l, k < 16) : d.Interp (d.forEach l Dev.periodStep) :=
  List.foldlRecOn l Dev.periodStep (motive := fun t => d.Interp t) (.refl d) fun t ht k hk => ht.trans (t.interp_periodStep (hl k hk))

/-- After the steps of a list, an idle sector of the list uses its temperature. -/
theorem Dev.periods_use (d : Dev) {k : Nat} {x : Rat} (hk : k < 16) (hawake : d.awake = true) (hen : d.is calInterpEn = true)
    (htemp : d.sectorTemp k = some x) (hcal : d.sectorCal k = false) (hrun : d.sectorRunning k = false) (l : List Nat)
    (hl : ∀ j ∈ l, j < 16) (hmem : k ∈ l ∨ d.UsesTemp k x) : (d.forEach l Dev.periodStep).UsesTemp k x := by
  unfold Dev.forEach
  induction l generalizing d with
  | nil => exact hmem.resolve_left (List.not_mem_nil)
  | cons j l ih =>
    have hframe := d.interp_periodStep (hl j (.head _))
    refine ih (d.periodStep j) (hframe.awake.trans hawake) ((hframe.is calInterpEn (by decide) (by decide)).trans hen)
      ((hframe.sectorTemp hk).trans htemp) ((hframe.sectorCal k).trans hcal) ((hframe.sectorRunning k).trans hrun)
      (fun i hi => hl i (.tail _ hi)) ?_
    by_cases hj : j = k
    · subst hj
      exact .inr (Dev.periodStep_own hk hawake hen htemp hcal hrun)
    · refine hmem.imp (fun h => ?_) (Dev.periodStep_other hk hj)
      exact (List.mem_cons.1 h).resolve_left (Ne.symm hj)

/-- The device as the next period begins. -/
def Dev.periodBegun (d : Dev) : Dev :=
  { d.advanceTo d.cal.due with
    cal := { d.cal with due := (d.advanceTo d.cal.due).mclk + us (1000 * max 10 (d.get calPeriod)) } }

theorem Dev.calPeriodic_due {d : Dev} (hawake : d.awake = true) (hkc : d.pwr.hkcReady = true) :
    d.calPeriodic = d.periodBegun.forEach (List.range 16) Dev.periodStep := by
  unfold Dev.calPeriodic
  rw [hawake, hkc]
  rfl

theorem Dev.interp_sectorsOf_periodBegun (d : Dev) (k : Nat) : d.periodBegun.sectorTemp k = d.sectorTemp k ∧
    d.periodBegun.sectorCal k = d.sectorCal k ∧ d.periodBegun.sectorRunning k = d.sectorRunning k ∧
    d.periodBegun.awake = d.awake ∧ d.periodBegun.is calInterpEn = d.is calInterpEn := ⟨rfl, rfl, rfl, rfl, rfl⟩

/-- Settles O52: the flash by `Dev.calStoreRow_first` and `Dev.calStoreDone_last`, the readings by `Dev.tempRead_effect`, the period by
`Dev.periods_use`. -/
theorem calibrationStoreAndTemperatures : Obligations.CalibrationStoreAndTemperatures := by
  refine ⟨⟨fun s q x w h hkc hop htwin hstores hruns => ?_, fun s w hstores => ?_, fun s w hstores => ?_⟩,
    fun s edge core hboot hkc _ _ => ?_, fun s hawake hkc => ?_⟩
  · exact .of_onNv (fun nv d => Dev.calStoreRow nv d q) rfl (Dev.calStoreRow_first h hkc hop htwin hstores hruns)
      ⟨rfl, s.dev.storeBegun_effect s.nv w hruns⟩
  · exact .of_onNv (fun nv d => Dev.calStoreDone nv d true) rfl (Dev.calStoreDone_last s.nv true hstores)
      ⟨s.dev.calStoreDone_stores w true, s.nv.imageCommitted_commit s.dev, s.nv.imageCommitted_header s.dev,
        fun a ha => s.nv.imageCommitted_outside s.dev (by omega)⟩
  · exact .of_onNv (fun nv d => Dev.calStoreDone nv d false) rfl (Dev.calStoreDone_last s.nv false hstores)
      ⟨s.dev.calStoreDone_stores w false, fun a ha => s.nv.imageWritten_outside s.dev (.inr ha)⟩
  · have heffect := Dev.tempRead_effect edge core hboot hkc
    generalize ht : s.dev.tempRead (edge.map fun x => x.toInt) (core.map fun x => x.toInt) = t at heffect
    have hexec : exec (.tempSensorRead edge core) s =
        onDev s fun d => d.tempRead (edge.map fun x => x.toInt) (core.map fun x => x.toInt) := rfl
    exact .of_onDev _ hexec ht heffect
  · refine .of_onDev (fun d => d.calPeriodic) rfl (Dev.calPeriodic_due hawake hkc) ?_
    have hframe := s.dev.periodBegun.interp_periods (l := List.range 16) fun k hk => List.mem_range.1 hk
    refine ⟨hframe.runs_mclk.2.trans (s.dev.mclk_advanceTo _), ?_, fun hen k x hk htemp hcal hrun => ?_⟩
    · rw [hframe.cal_runs.2, hframe.runs_mclk.2]
      show (s.dev.advanceTo s.dev.cal.due).mclk + us (1000 * max 10 (s.dev.get calPeriod)) = _
      unfold us
      show _ = (s.dev.advanceTo s.dev.cal.due).mclk + _
      omega
    · exact s.dev.periodBegun.periods_use hk hawake ((Dev.is_iff _ _).2 hen) htemp hcal hrun _ (fun j hj => List.mem_range.1 hj)
        (.inl (List.mem_range.2 hk))

end Sys2Proof.Machine
end

section
/-!
PROOFS. Calibration runs begin on idle sectors, and REFCHECK shows its deviations (R430, R441, R443, R444, R452).
-/

namespace Sys2Proof.Machine

/-! ## A CAL_RUN that is served -/

theorem Dev.onCal_served {d : Dev} {q op x : Nat} {w : Work} (f : Dev → Nat → Work → Dev) (h : d.descOf q opCalRun = some (x, w))
    (hkc : d.pwr.hkcReady = true) (htwin : d.get twinState ≠ 2) (hop : calOp x = op) : d.onCal q op f = f d x w := by
  unfold Dev.onCal
  rw [hkc, Dev.onDesc_of_descOf _ h]
  exact (if_pos hop).trans (if_neg htwin)

/-- The temperature of a sector is within 5 °C of a point. -/
def Dev.calNear (d : Dev) (p k : Nat) : Bool :=
  match d.sectorTemp k with
  | some t => decide (t - (pointTemp p : Rat) ≤ 320) && decide (-320 ≤ t - (pointTemp p : Rat))
  | none => false

/-- The channels and items of a MEASURE. -/
def measureTodo (x : Nat) : List (Nat × Nat) :=
  (maskList 16 (calSectors x)).flatMap fun k => (sectorChans k).flatMap fun c => (maskList 7 (calItems x)).map fun i => (c, i)

/-- The channels of an EYE. -/
def eyeTodo (x : Nat) : List (Nat × Nat) := (maskList 16 (calSectors x)).flatMap fun k => (sectorChans k).map fun c => (c, 0)

def measureRun (x : Nat) (w : Work) : CalRun :=
  { work := w, op := 0, sectors := calSectors x, items := calItems x, point := calPoint x, resel := calResel x, todo := measureTodo x,
    aborted := 0, status := stOk }

def eyeRun (x : Nat) (w : Work) : CalRun :=
  { work := w, op := 2, sectors := calSectors x, items := 0, point := 0, resel := false, todo := eyeTodo x, aborted := 0, status := stOk }

/-- Every sector of a MEASURE is near its point. -/
def Dev.allNear (d : Dev) (x : Nat) : Prop := ∀ j, j < 16 → (calSectors x).testBit j = true → ∃ t, d.sectorTemp j = some t ∧
  t - (pointTemp (calPoint x) : Rat) ≤ 320 ∧ -320 ≤ t - (pointTemp (calPoint x) : Rat)

theorem Dev.calNear_of_allNear {d : Dev} {x : Nat} (h : d.allNear x) : (maskList 16 (calSectors x)).all (d.calNear (calPoint x)) = true := by
  refine List.all_eq_true.2 fun k hk => ?_
  obtain ⟨hlt, hbit⟩ := mem_maskList.1 hk
  obtain ⟨t, ht, hhi, hlo⟩ := h k hlt hbit
  rw [Dev.calNear, ht]
  simp only [hhi, hlo, decide_true, Bool.and_self]

theorem Dev.calMeasure_eq (d : Dev) (q : Nat) :
    d.calMeasure q = d.onCal q 0 fun d x w =>
      if (calResel x && calPoint x != 2) || !(maskList 16 (calSectors x)).all (d.calNear (calPoint x)) then d.done w stRange
      else if (maskList 16 (calSectors x)).any d.sectorBusy then d.done w stLocked else d.calBegin (measureRun x w) := (rfl)

/-- A MEASURE within its range is LOCKED by a busy sector, and else begins. -/
theorem Dev.calMeasure_in_range {d : Dev} {q x : Nat} {w : Work} (h : d.descOf q opCalRun = some (x, w)) (hkc : d.pwr.hkcReady = true)
    (htwin : d.get twinState ≠ 2) (hop : calOp x = 0) (hresel : calResel x = false) (hnear : d.allNear x) :
    d.calMeasure q = if (maskList 16 (calSectors x)).any d.sectorBusy then d.done w stLocked else d.calBegin (measureRun x w) := by
  rw [Dev.calMeasure_eq, Dev.onCal_served _ h hkc htwin hop, hresel, Dev.calNear_of_allNear hnear]
  exact if_neg (by simp)

/-- An EYE within its range is LOCKED by a busy sector, and else begins. -/
theorem Dev.calEye_in_range {d : Dev} {q x : Nat} {w : Work} (h : d.descOf q opCalRun = some (x, w)) (hkc : d.pwr.hkcReady = true)
    (htwin : d.get twinState ≠ 2) (hop : calOp x = 2) (h1 : 4096 ≤ dField x 16 0 32) (h2 : inRange 100 6000 (dField x 20 0 16) = true)
    (h3 : inRange 10 24 (dField x 22 0 8) = true) :
    d.calEye q = if (maskList 16 (calSectors x)).any d.sectorBusy then d.done w stLocked else d.calBegin (eyeRun x w) :=
  (Dev.onCal_served _ h hkc htwin hop).trans (if_neg (by rw [h2, h3]; simp; omega))

theorem Dev.any_busy {d : Dev} {x k : Nat} (hk : k < 16) (hbit : (calSectors x).testBit k = true) (hbusy : d.sectorBusy k = true) :
    (maskList 16 (calSectors x)).any d.sectorBusy = true := List.any_eq_true.2 ⟨k, mem_maskList.2 ⟨hk, hbit⟩, hbusy⟩

theorem Dev.none_busy {d : Dev} {x : Nat} (h : ∀ k, k < 16 → (calSectors x).testBit k = true → d.sectorBusy k = false) :
    ¬ (maskList 16 (calSectors x)).any d.sectorBusy = true := fun hany => by
  obtain ⟨k, hk, hbusy⟩ := List.any_eq_true.1 hany
  obtain ⟨hlt, hbit⟩ := mem_maskList.1 hk
  exact Bool.false_ne_true ((h k hlt hbit).symm.trans hbusy)

/-! ## What is to be done -/

theorem mem_sectorChans {k c : Nat} : c ∈ sectorChans k ↔ sectorOf c = k := by
  simp only [sectorChans, sectorOf, List.mem_map, List.mem_range]
  constructor
  · rintro ⟨i, hi, rfl⟩
    omega
  · rintro rfl
    exact ⟨c % 16, by omega, by omega⟩

theorem mem_measureTodo {x c i : Nat} : (c, i) ∈ measureTodo x ↔
    c < 256 ∧ (calSectors x).testBit (sectorOf c) = true ∧ i < 7 ∧ (calItems x).testBit i = true := by
  simp only [measureTodo, List.mem_flatMap, List.mem_map, mem_maskList, mem_sectorChans, Prod.mk.injEq]
  constructor
  · rintro ⟨_, ⟨hlt, hbit⟩, _, rfl, _, hi, rfl, rfl⟩
    exact ⟨by unfold sectorOf at hlt; omega, hbit, hi⟩
  · rintro ⟨hc, hbit, hi⟩
    exact ⟨sectorOf c, ⟨by unfold sectorOf; omega, hbit⟩, c, rfl, i, hi, rfl, rfl⟩

theorem mem_eyeTodo {x c i : Nat} : (c, i) ∈ eyeTodo x ↔ c < 256 ∧ (calSectors x).testBit (sectorOf c) = true ∧ i = 0 := by
  simp only [eyeTodo, List.mem_flatMap, List.mem_map, mem_maskList, mem_sectorChans, Prod.mk.injEq]
  constructor
  · rintro ⟨_, ⟨hlt, hbit⟩, _, rfl, rfl, rfl⟩
    exact ⟨by unfold sectorOf at hlt; omega, hbit, rfl⟩
  · rintro ⟨hc, hbit, rfl⟩
    exact ⟨sectorOf c, ⟨by unfold sectorOf; omega, hbit⟩, c, rfl, rfl, rfl⟩

/-- A mask of `n` bits that is not 0 has a bit. -/
theorem exists_testBit_of_ne_zero {m n : Nat} (hlt : m < 2 ^ n) (hne : m ≠ 0) : ∃ i, i < n ∧ m.testBit i = true := by
  obtain ⟨i, hi⟩ := Nat.exists_testBit_of_ne_zero hne
  refine ⟨i, ?_, hi⟩
  by_contra hge
  have hzero := Nat.testBit_lt_two_pow (Nat.lt_of_lt_of_le hlt (Nat.pow_le_pow_right (by decide : 2 > 0) (Nat.not_lt.1 hge)))
  exact Bool.false_ne_true (hzero.symm.trans hi)

theorem calSectors_lt (x : Nat) : calSectors x < 2 ^ 16 := dField_lt ..
theorem calItems_lt (x : Nat) : calItems x < 2 ^ 7 := dField_lt ..

theorem measureTodo_ne_nil {x : Nat} (hs : calSectors x ≠ 0) (hi : calItems x ≠ 0) : measureTodo x ≠ [] := by
  obtain ⟨k, hk, hkbit⟩ := exists_testBit_of_ne_zero (calSectors_lt x) hs
  obtain ⟨i, hilt, hibit⟩ := exists_testBit_of_ne_zero (calItems_lt x) hi
  have hsec : sectorOf (16 * k) = k := by unfold sectorOf; omega
  exact List.ne_nil_of_mem ((mem_measureTodo (c := 16 * k)).2 ⟨by omega, by rw [hsec]; exact hkbit, hilt, hibit⟩)

theorem eyeTodo_ne_nil {x : Nat} (hs : calSectors x ≠ 0) : eyeTodo x ≠ [] := by
  obtain ⟨k, hk, hkbit⟩ := exists_testBit_of_ne_zero (calSectors_lt x) hs
  have hsec : sectorOf (16 * k) = k := by unfold sectorOf; omega
  exact List.ne_nil_of_mem ((mem_eyeTodo (c := 16 * k)).2 ⟨by omega, by rw [hsec]; exact hkbit, rfl⟩)

/-! ## A run begins (R441) -/

/-- A channel is STALE and has no outcome yet. -/
def Dev.chanMarked (d : Dev) (c : Nat) : Dev := ((d.put (peStale c) 1).put (calNotMet c) 0).put (calPrecond c) 0

def Dev.sectorMarked (d : Dev) (k : Nat) : Dev := d.forEach (sectorChans k) Dev.chanMarked

/-- The channels of a run's sectors marked. -/
def Dev.runMarked (d : Dev) (r : CalRun) : Dev := (d.accept r.work).forEach (maskList 16 r.sectors) Dev.sectorMarked

theorem Dev.calBegin_todo (d : Dev) {r : CalRun} (h : r.todo ≠ []) :
    d.calBegin r = ({ d.runMarked r with cal := { (d.runMarked r).cal with runs := (d.runMarked r).cal.runs ++ [r] } } : Dev).calSync :=
  if_neg (by simpa using h)

theorem Dev.chanMarked_stale (d : Dev) (c : Nat) : (d.chanMarked c).get (peStale c) = 1 := by
  unfold Dev.chanMarked
  rw [Dev.get_put_addr _ _ _ _ (by simp only [calPrecond, peStale]; omega),
    Dev.get_put_addr _ _ _ _ (by simp only [calNotMet, peStale]; omega), Dev.get_put _ _ _ (by simp [peStale])]
  rfl

theorem Dev.chanMarked_stale_ne (d : Dev) {c i : Nat} (hne : i ≠ c) :
    (d.chanMarked i).get (peStale c) = d.get (peStale c) := by
  unfold Dev.chanMarked
  rw [Dev.get_put_addr _ _ _ _ (by simp only [calPrecond, peStale]; omega),
    Dev.get_put_addr _ _ _ _ (by simp only [calNotMet, peStale]; omega), Dev.get_put_addr _ _ _ _ (by simp only [peStale]; omega)]

/-- Every channel of the run's sectors is STALE. -/
theorem Dev.runMarked_stale (d : Dev) (r : CalRun) {c : Nat} (hc : c < 256) (hbit : r.sectors.testBit (sectorOf c) = true) :
    (d.runMarked r).get (peStale c) = 1 := by
  have hsector : ∀ e k, (Dev.sectorMarked e k).get (peStale c) = if c ∈ sectorChans k then 1 else e.get (peStale c) := fun e k =>
    Dev.forEach_resets (fun e => e.get (peStale c)) (fun e => e.chanMarked_stale c) (fun e i hi => e.chanMarked_stale_ne hi) _ e
  have hmem : sectorOf c ∈ maskList 16 r.sectors := mem_maskList.2 ⟨by unfold sectorOf; omega, hbit⟩
  unfold Dev.runMarked
  refine (Dev.forEach_resets (fun e => e.get (peStale c)) (q := sectorOf c) (fun e => ?_) (fun e k hk => ?_) _ _).trans (if_pos hmem)
  · exact (hsector e _).trans (if_pos (mem_sectorChans.2 rfl))
  · exact (hsector e k).trans (if_neg fun h => hk (mem_sectorChans.1 h).symm)

theorem Dev.runMarked_cal (d : Dev) (r : CalRun) : (d.runMarked r).cal = d.cal := by
  unfold Dev.runMarked
  refine (Dev.forEach_keeps Dev.cal (fun e k _ => ?_) _).trans (d.accept_cal_regs r.work).1
  exact Dev.forEach_keeps Dev.cal (fun e c _ => by simp [Dev.chanMarked]) e

/-- What a run that begins leaves: it is listed, and its channels are STALE. -/
theorem Dev.calBegin_effect (d : Dev) {r : CalRun} (h : r.todo ≠ []) : (d.calBegin r).cal.runs = d.cal.runs ++ [r] ∧
    ∀ c, c < 256 → r.sectors.testBit (sectorOf c) = true → (d.calBegin r).get (peStale c) = 1 := by
  rw [Dev.calBegin_todo d h]
  refine ⟨?_, fun c hc hbit => ?_⟩
  · rw [Dev.calSync, Dev.put_cal, Dev.runMarked_cal]
  · refine (Dev.get_put_addr _ _ _ _ (by simp only [calState, peStale]; omega)).trans ?_
    exact d.runMarked_stale r hc hbit

/-! ## REFCHECK (R430) -/

/-- The deviation of one die is shown. -/
def Dev.devShown (d : Dev) (e : Nat) (v : Int) : Dev :=
  ((d.put (calRefDev e) (ofSigned 24 v)).put (calRefChecked e) 1).putB (calRefMismatch e) (decide (1000 < v.natAbs))

/-- REFCHECK of one die. -/
def Dev.refStep (near : Bool) (devs : List Int) (d : Dev) (e : Nat) : Dev :=
  if !near then d.put (calRefChecked e) 0
  else
    if decide (1000 < (devs.getD e 0).natAbs) then (d.devShown e (devs.getD e 0)).event (srcDie e) 0x0905 (ofSigned 24 (devs.getD e 0))
    else d.devShown e (devs.getD e 0)

theorem Dev.calRefcheck_served {d : Dev} {q x : Nat} {w : Work} (vref : Int) (devs : List Int) (h : d.descOf q opCalRun = some (x, w))
    (hkc : d.pwr.hkcReady = true) (htwin : d.get twinState ≠ 2) (hop : calOp x = 3) :
    d.calRefcheck q vref devs =
      (d.forEach [0, 1, 2, 3] (Dev.refStep (decide (4900000 ≤ vref) && decide (vref ≤ 5100000)) devs)).done w stOk :=
  Dev.onCal_served _ h hkc htwin hop

theorem Dev.devShown_get (d : Dev) (e : Nat) (v : Int) : (d.devShown e v).get (calRefChecked e) = 1 ∧
    (d.devShown e v).get (calRefDev e) = ofSigned 24 v ∧
    (d.devShown e v).get (calRefMismatch e) = if 1000 < v.natAbs then 1 else 0 := by
  unfold Dev.devShown Dev.putB
  refine ⟨?_, ?_, ?_⟩
  · rw [Dev.get_put_bits _ _ _ _ (by simp [calRefMismatch]) (.inl (by simp [calRefChecked, calRefMismatch])),
      Dev.get_put _ _ _ (by simp [calRefChecked])]
    rfl
  · rw [Dev.get_put_bits _ _ _ _ (by simp [calRefMismatch]) (.inl (by simp [calRefDev, calRefMismatch])),
      Dev.get_put_bits _ _ _ _ (by simp [calRefChecked]) (.inl (by simp [calRefDev, calRefChecked])),
      Dev.get_put _ _ _ (by simp [calRefDev])]
    exact Nat.mod_eq_of_lt (ofSigned_lt 24 v)
  · rw [Dev.get_put _ _ _ (by simp [calRefMismatch])]
    split
    next h => rw [decide_eq_true h]; rfl
    next h => rw [decide_eq_false h]; rfl

theorem Dev.refStep_near (devs : List Int) (d : Dev) (e a : Nat) (ha : 0x10300 ≤ a) :
    (Dev.refStep true devs d e).word a = (d.devShown e (devs.getD e 0)).word a := by
  unfold Dev.refStep
  rw [if_neg (by decide)]
  split
  · exact Dev.word_event _ _ _ _ _ (.inr ha)
  · rfl

/-- The step of another die leaves a die's word. -/
theorem Dev.refStep_word (near : Bool) (devs : List Int) (d : Dev) {e i : Nat} (h : i ≠ e) :
    (Dev.refStep near devs d i).word (0x40020 + 4 * e) = d.word (0x40020 + 4 * e) := by
  have hne : ∀ f : Fld, f.addr = 0x40020 + 4 * i → ∀ (u : Dev) (v : Nat), (u.put f v).word (0x40020 + 4 * e) = u.word (0x40020 + 4 * e) :=
    fun f hf u v => u.word_put_ne f v (by omega)
  cases near
  · exact hne (calRefChecked i) rfl d 0
  · rw [Dev.refStep_near devs d i _ (by omega), Dev.devShown, Dev.putB, hne (calRefMismatch i) rfl, hne (calRefChecked i) rfl,
      hne (calRefDev i) rfl]

/-- What REFCHECK shows of each die. -/
theorem Dev.refSteps_get (d : Dev) (near : Bool) (devs : List Int) {e : Nat} (he : e < 4) :
    let t := d.forEach [0, 1, 2, 3] (Dev.refStep near devs)
    if near = true then t.get (calRefChecked e) = 1 ∧ t.get (calRefDev e) = ofSigned 24 (devs.getD e 0) ∧
      t.get (calRefMismatch e) = (if 1000 < (devs.getD e 0).natAbs then 1 else 0)
    else t.get (calRefChecked e) = 0 ∧ t.get (calRefMismatch e) = d.get (calRefMismatch e) := by
  intro t
  have hmem : e ∈ [0, 1, 2, 3] := by simp; omega
  have hall : ∀ {α : Type} (φ : Dev → α) (c : α), (∀ u, φ (Dev.refStep near devs u e) = c) →
      (∀ u i, i ≠ e → φ (Dev.refStep near devs u i) = φ u) → φ t = c := fun φ c hq hne =>
    (Dev.forEach_resets φ hq hne _ d).trans (if_pos hmem)
  cases near
  · rw [if_neg Bool.false_ne_true]
    refine ⟨hall (fun u => u.get (calRefChecked e)) 0 (fun u => ?_) fun u i hi => Dev.get_of_same _ (Dev.refStep_word false devs u hi), ?_⟩
    · exact (u.get_put (calRefChecked e) 0 (by simp [calRefChecked]))
    · refine Dev.forEach_keeps (fun u => u.get (calRefMismatch e)) (fun u i _ => ?_) d
      exact u.get_put_ne (calRefChecked i) (calRefMismatch e) 0 (.inr ⟨by simp [calRefChecked], .inr (by simp [calRefChecked, calRefMismatch])⟩)
  · rw [if_pos rfl]
    have hown : ∀ u, ∀ f : Fld, f.addr = 0x40020 + 4 * e → (Dev.refStep true devs u e).get f = (u.devShown e (devs.getD e 0)).get f :=
      fun u f hf => Dev.get_of_same f (Dev.refStep_near devs u e _ (by omega))
    have hother : ∀ f : Fld, f.addr = 0x40020 + 4 * e → ∀ u i, i ≠ e → (Dev.refStep true devs u i).get f = u.get f := fun f hf u i hi =>
      Dev.get_of_same f (by rw [hf]; exact Dev.refStep_word true devs u hi)
    exact ⟨hall (fun u => u.get (calRefChecked e)) 1 (fun u => (hown u _ rfl).trans (u.devShown_get e _).1) (hother _ rfl),
      hall (fun u => u.get (calRefDev e)) _ (fun u => (hown u _ rfl).trans (u.devShown_get e _).2.1) (hother _ rfl),
      hall (fun u => u.get (calRefMismatch e)) _ (fun u => (hown u _ rfl).trans (u.devShown_get e _).2.2) (hother _ rfl)⟩

end Sys2Proof.Machine
end

section
/-!
PROOFS. A step of a calibration run ends (R430, R441, R445, R446, R451, R452).
-/

namespace Sys2Proof.Machine

/-! ## The run goes on -/

/-- The item whose step an observation ends: an EYE has one step per channel. -/
def CalRun.stepItem (r : CalRun) (o : CalObs) : Nat := if r.op = 0 then o.item.val else 0

/-- The run after a step that could not run. -/
def CalRun.blockedBy (r : CalRun) (o : CalObs) : CalRun :=
  { r with todo := r.todo.erase (o.ch.val, r.stepItem o), aborted := r.aborted + 1, status := if r.status = stOk then stPrecondition else r.status }

/-- The run after a step that ran. -/
def CalRun.stepped (r : CalRun) (o : CalObs) : CalRun := { r with todo := r.todo.erase (o.ch.val, r.stepItem o) }

/-- The registers of a step that could not run. -/
def Dev.stepBlocked (d : Dev) (r : CalRun) (o : CalObs) : Dev :=
  (d.put (calPrecond o.ch) 1).event (srcChan o.ch) 0x0206 (if r.op = 0 then 2 ^ r.stepItem o + 256 * r.point else 0)

/-- The width and height of an eye shown. -/
def Dev.eyeShown (d : Dev) (o : CalObs) : Dev :=
  (d.put (calEyeWidth o.ch) (min o.eyeWidth 0xFFFF)).put (calEyeHeight o.ch) (min o.eyeHeight 0xFFFF)

/-- The step of the one run under way. -/
theorem Dev.calStepDone_single {d : Dev} {k : Nat} {o : CalObs} {r : CalRun} (hruns : d.cal.runs = [r]) (hsec : r.sectors.testBit k = true)
    (hch : sectorOf o.ch = k) (htodo : r.todo.contains (o.ch.val, r.stepItem o) = true) :
    d.calStepDone k o = if d.calBlocked r o.ch (r.stepItem o) o.pinPa then (d.stepBlocked r o).calUpdate (r.blockedBy o)
      else (if r.op = 0 then d.calMeasured r o else d.eyeShown o).calUpdate (r.stepped o) := by
  have hmine : (r.sectors.testBit k && sectorOf o.ch == k && r.todo.contains (o.ch.val, if r.op = 0 then o.item.val else 0)) = true := by
    rw [hsec, hch]
    simpa [CalRun.stepItem] using htodo
  unfold Dev.calStepDone
  rw [hruns]
  dsimp only
  simp only [List.find?_cons, hmine]
  rfl

/-- A run with steps left is listed as it now stands. -/
theorem Dev.calUpdate_left {d : Dev} {r r' : CalRun} (hruns : d.cal.runs = [r]) (hid : r'.work = r.work) (hleft : r'.todo ≠ []) :
    (d.calUpdate r').cal = { d.cal with runs := [r'] } ∧ (d.calUpdate r').regs = d.regs := by
  have heq : d.calUpdate r' = { d with cal := { d.cal with runs := d.cal.runs.map fun x => if x.work.id = r'.work.id then r' else x } } :=
    if_neg (by simpa using hleft)
  rw [heq, hruns, hid]
  simp

/-- What the end of a blocked step leaves. -/
theorem Dev.stepBlocked_effect {d : Dev} {r : CalRun} (o : CalObs) (hruns : d.cal.runs = [r])
    (hleft : r.todo.erase (o.ch.val, r.stepItem o) ≠ []) :
    ((d.stepBlocked r o).calUpdate (r.blockedBy o)).get (calPrecond o.ch) = 1 ∧
      ((d.stepBlocked r o).calUpdate (r.blockedBy o)).cal.runs = [r.blockedBy o] := by
  have hruns' : (d.stepBlocked r o).cal.runs = [r] := by rw [Dev.stepBlocked, Dev.event_cal, Dev.put_cal, hruns]
  obtain ⟨hcal, hregs⟩ := Dev.calUpdate_left (r' := r.blockedBy o) hruns' rfl hleft
  refine ⟨?_, by rw [hcal]⟩
  rw [Dev.get_of_regs hregs, Dev.stepBlocked, Dev.get_event _ _ _ _ _ (.inr (by simp only [calPrecond]; omega)),
    Dev.get_put _ _ _ (by simp [calPrecond])]
  rfl

/-- What the end of an eye's step leaves. -/
theorem Dev.eyeShown_effect (d : Dev) (o : CalObs) : (d.eyeShown o).get (calEyeWidth o.ch) = min o.eyeWidth 0xFFFF ∧
    (d.eyeShown o).get (calEyeHeight o.ch) = min o.eyeHeight 0xFFFF ∧ d.KeepsRegs (d.eyeShown o) [(calEyeWidth o.ch).addr] := by
  unfold Dev.eyeShown
  refine ⟨?_, ?_, ?_⟩
  · rw [Dev.get_put_bits _ _ _ _ (by simp [calEyeHeight]) (.inl (by simp [calEyeHeight, calEyeWidth])), Dev.get_put _ _ _ (by simp [calEyeWidth])]
    exact Nat.mod_eq_of_lt (show min o.eyeWidth 0xFFFF < 2 ^ 16 by omega)
  · rw [Dev.get_put _ _ _ (by simp [calEyeHeight])]
    exact Nat.mod_eq_of_lt (show min o.eyeHeight 0xFFFF < 2 ^ 16 by omega)
  · exact Dev.keepsRegs_put (calEyeHeight o.ch) _ (.head _) (Dev.keepsRegs_put _ _ (.head _) (d.keepsRegs_refl _))

/-! ## A MEASURE step (R433, R435, R446, R451) -/

/-- From `d` to `t` only the channel's quality words have changed. -/
def Dev.Rated (d t : Dev) : Prop := t.cal = d.cal ∧ ∀ a, 0x42000 ≤ a → t.word a = d.word a

theorem Dev.Rated.refl (d : Dev) : d.Rated d := ⟨rfl, fun _ _ => rfl⟩

theorem Dev.Rated.trans {d e f : Dev} (h : d.Rated e) (k : e.Rated f) : d.Rated f :=
  ⟨k.1.trans h.1, fun a ha => (k.2 a ha).trans (h.2 a ha)⟩

theorem Dev.rated_put (d : Dev) (f : Fld) (v : Nat) (h : f.addr < 0x42000) : d.Rated (d.put f v) :=
  ⟨Dev.put_cal d f v, fun _ _ => d.word_put_ne f v (by omega)⟩

theorem Dev.Rated.ite {d e f : Dev} {p : Prop} [Decidable p] (h : d.Rated e) (k : d.Rated f) : d.Rated (if p then e else f) := by
  split
  · exact h
  · exact k

theorem Dev.Rated.get {d t : Dev} (h : d.Rated t) (f : Fld) (hf : 0x42000 ≤ f.addr) : t.get f = d.get f := Dev.get_of_same f (h.2 _ hf)

theorem Dev.rated_calQuality (d : Dev) (r : CalRun) {c : Nat} (hc : c < 256) (item rt rl : Nat) : d.Rated (d.calQuality r c item rt rl) :=
  .ite (d.rated_put _ _ (by simp only [calResT]; omega)) (.ite (d.rated_put _ _ (by simp only [calResL]; omega))
    (.ite (d.rated_put _ _ (by simp only [calResL]; omega)) (.refl d)))

theorem Dev.rated_calChanSync (d : Dev) {c : Nat} (hc : c < 256) : d.Rated (d.calChanSync c) :=
  ((d.rated_put (calValid c) _ (by simp only [calValid]; omega)).trans (Dev.rated_put _ (calPts c) _ (by simp only [calPts]; omega))).trans
    (Dev.rated_put _ (calFallback c) _ (by simp only [calFallback]; omega))

/-- The quality of a step, and the marks that go with it. -/
def Dev.stepRated (d : Dev) (r : CalRun) (o : CalObs) : Dev :=
  let q := d.calQuality r o.ch.val o.item.val o.residT o.residL
  let q := if o.item.val = 0 then q.put (calClipped o.ch.val) 0 else q
  if !o.met && itemSelects o.item.val then q.put (calFallback o.ch.val) 1 else q

theorem Dev.rated_stepRated (d : Dev) (r : CalRun) (o : CalObs) : d.Rated (d.stepRated r o) := by
  have hc : o.ch.val < 256 := o.ch.isLt
  have hq := d.rated_calQuality r hc o.item.val o.residT o.residL
  have hclip := Dev.Rated.ite (p := o.item.val = 0) (hq.trans (Dev.rated_put _ (calClipped o.ch.val) 0 (by simp only [calClipped]; omega))) hq
  exact .ite (hclip.trans (Dev.rated_put _ _ _ (by simp only [calFallback]; omega))) hclip

theorem calItemPts_fld (c i : Nat) (hi : i < 7) : (calItemPts c i).lo + (calItemPts c i).w ≤ 32 ∧ (calItemPts c i).w = 5 ∧
    0x42000 ≤ (calItemPts c i).addr := by
  unfold calItemPts
  split <;> simp <;> omega

/-- A step that met its goal: its point is set. -/
def Dev.stepMet (d : Dev) (r : CalRun) (o : CalObs) : Dev :=
  let e := (d.stepRated r o).calStoreCoefs o.ch.val o.item.val r.point o.coefs none
  (e.put (calItemPts o.ch.val o.item.val)
    ((if r.resel && itemSelects o.item.val then 0 else e.get (calItemPts o.ch.val o.item.val)) ||| 2 ^ r.point)).calChanSync o.ch.val

theorem Dev.calMeasured_met {d : Dev} {r : CalRun} {o : CalObs} (h : o.met = true) : d.calMeasured r o = d.stepMet r o := by
  unfold Dev.calMeasured Dev.stepMet Dev.stepRated
  simp [h]

/-- A step that did not: NOT_MET is set and its event raised. -/
def Dev.stepMissed (d : Dev) (r : CalRun) (o : CalObs) : Dev :=
  ((d.stepRated r o).put (calNotMet o.ch.val) 1).event (srcChan o.ch.val) 0x0205 (2 ^ o.item.val + 256 * r.point)

theorem Dev.calMeasured_missed {d : Dev} {r : CalRun} {o : CalObs} (h : o.met = false) (hfb : o.metFb = false) :
    d.calMeasured r o = d.stepMissed r o := by
  unfold Dev.calMeasured Dev.stepMissed Dev.stepRated
  simp [h, hfb]

theorem Dev.stepMet_effect (d : Dev) {r : CalRun} (o : CalObs) (hpt : r.point < 5) :
    (d.stepMet r o).get (calItemPts o.ch.val o.item.val) =
      (if r.resel = true ∧ itemSelects o.item.val = true then 0 else d.get (calItemPts o.ch.val o.item.val)) ||| 2 ^ r.point ∧
    (d.stepMet r o).cal.runs = d.cal.runs := by
  obtain ⟨hcal, hword⟩ := d.rated_stepRated r o
  obtain ⟨h32, hw, haddr⟩ := calItemPts_fld o.ch.val o.item.val o.item.isLt
  have hsync := fun e : Dev => e.rated_calChanSync o.ch.isLt
  have hold : ((d.stepRated r o).calStoreCoefs o.ch.val o.item.val r.point o.coefs none).get (calItemPts o.ch.val o.item.val) =
      d.get (calItemPts o.ch.val o.item.val) := (d.rated_stepRated r o).get _ haddr
  have hlt : (if r.resel = true ∧ itemSelects o.item.val = true then 0 else d.get (calItemPts o.ch.val o.item.val)) ||| 2 ^ r.point < 2 ^ 5 := by
    refine Nat.or_lt_two_pow ?_ (Nat.pow_lt_pow_right (by decide) hpt)
    split
    · decide
    · exact (d.get_lt _).trans_eq (by rw [hw])
  unfold Dev.stepMet
  refine ⟨?_, ?_⟩
  · rw [(hsync _).get _ haddr, Dev.get_put _ _ _ h32, hw, hold]
    simp only [Bool.and_eq_true]
    exact Nat.mod_eq_of_lt hlt
  · rw [(hsync _).1, Dev.put_cal]
    exact (congrArg CalSt.runs hcal :)

theorem Dev.stepMissed_effect (d : Dev) (r : CalRun) (o : CalObs) : (d.stepMissed r o).get (calNotMet o.ch) = 1 ∧
    (d.stepMissed r o).cal = d.cal ∧ (d.stepMissed r o).get (calItemPts o.ch o.item) = d.get (calItemPts o.ch o.item) := by
  obtain ⟨-, -, haddr⟩ := calItemPts_fld o.ch.val o.item.val o.item.isLt
  have hc : o.ch.val < 256 := o.ch.isLt
  have hput := (d.rated_stepRated r o).trans (Dev.rated_put _ (calNotMet o.ch.val) 1 (by simp only [calNotMet]; omega))
  unfold Dev.stepMissed
  refine ⟨?_, ?_, ?_⟩
  · rw [Dev.get_event _ _ _ _ _ (.inr (by simp only [calNotMet]; omega)), Dev.get_put _ _ _ (by simp [calNotMet])]
    rfl
  · rw [Dev.event_cal, hput.1]
  · rw [Dev.get_event _ _ _ _ _ (.inr (by omega)), hput.get _ haddr]

/-- REFCHECK shows the deviations of its command's measurement. -/
theorem calRunRefcheck_answers {s : State} {q : Fin 16} {x : Nat} {w : Work} (vref : Int) (devs : BitVec 96)
    (h : s.dev.descOf q opCalRun = some (x, w)) (hkc : s.dev.pwr.hkcReady = true) (htwin : s.dev.get twinState ≠ 2) (hop : calOp x = 3) :
    Answers (.calRunRefcheck q vref devs) s fun t => ∀ e, e < 4 →
      let v := toSigned 24 (bitsOf devs.toNat (24 * e) 24)
      if 4900000 ≤ vref ∧ vref ≤ 5100000 then t.get (calRefChecked e) = 1 ∧ t.get (calRefDev e) = ofSigned 24 v ∧
        t.get (calRefMismatch e) = (if 1000 < v.natAbs then 1 else 0)
      else t.get (calRefChecked e) = 0 ∧ t.get (calRefMismatch e) = s.dev.get (calRefMismatch e) := by
  refine .of_onDev (fun d => d.calRefcheck q vref ((List.range 4).map fun e => toSigned 24 (bitsOf devs.toNat (24 * e) 24))) rfl
    (Dev.calRefcheck_served _ _ h hkc htwin hop) fun e he => ?_
  have hdev : ((List.range 4).map fun e => toSigned 24 (bitsOf devs.toNat (24 * e) 24)).getD e 0 = toSigned 24 (bitsOf devs.toNat (24 * e) 24) := by
    rw [List.getD_eq_getElem?_getD, List.getElem?_map, List.getElem?_range he]
    rfl
  have hsteps := s.dev.refSteps_get (decide (4900000 ≤ vref) && decide (vref ≤ 5100000))
    ((List.range 4).map fun e => toSigned 24 (bitsOf devs.toNat (24 * e) 24)) he
  rw [hdev] at hsteps
  have hdone := Dev.onlyPower_done (s.dev.forEach [0, 1, 2, 3] (Dev.refStep (decide (4900000 ≤ vref) && decide (vref ≤ 5100000))
    ((List.range 4).map fun e => toSigned 24 (bitsOf devs.toNat (24 * e) 24)))) w stOk
  dsimp only
  rw [hdone.get (calRefChecked e) (by simp only [calRefChecked]; omega), hdone.get (calRefDev e) (by simp only [calRefDev]; omega),
    hdone.get (calRefMismatch e) (by simp only [calRefMismatch]; omega)]
  simpa only [Bool.and_eq_true, decide_eq_true_eq] using hsteps

/-- What the end of a step leaves of a run that goes on, in each of its outcomes. -/
theorem Dev.calStepDone_effect {d : Dev} {k : Nat} {o : CalObs} {r : CalRun} (hruns : d.cal.runs = [r]) (hsec : r.sectors.testBit k = true)
    (hch : sectorOf o.ch = k) (htodo : r.todo.contains (o.ch.val, r.stepItem o) = true) (hleft : r.todo.erase (o.ch.val, r.stepItem o) ≠ []) :
    let t := d.calStepDone k o
    (d.calBlocked r o.ch (r.stepItem o) o.pinPa = true → t.get (calPrecond o.ch) = 1 ∧ t.cal.runs = [r.blockedBy o]) ∧
    (d.calBlocked r o.ch (r.stepItem o) o.pinPa = false → r.op = 0 → o.met = true → r.point < 5 →
      t.get (calItemPts o.ch o.item) =
        (if r.resel = true ∧ itemSelects o.item = true then 0 else d.get (calItemPts o.ch o.item)) ||| 2 ^ r.point ∧
      t.cal.runs = [r.stepped o]) ∧
    (d.calBlocked r o.ch (r.stepItem o) o.pinPa = false → r.op = 0 → o.met = false → o.metFb = false →
      t.get (calNotMet o.ch) = 1 ∧ t.cal.coefs = d.cal.coefs ∧ t.get (calItemPts o.ch o.item) = d.get (calItemPts o.ch o.item)) ∧
    (d.calBlocked r o.ch (r.stepItem o) o.pinPa = false → r.op ≠ 0 →
      t.get (calEyeWidth o.ch) = min o.eyeWidth 0xFFFF ∧ t.get (calEyeHeight o.ch) = min o.eyeHeight 0xFFFF ∧
        d.KeepsRegs t [(calEyeWidth o.ch).addr]) := by
  intro t
  have ht : t = _ := Dev.calStepDone_single hruns hsec hch htodo
  rw [ht]
  refine ⟨fun hb => ?_, fun hb hop hmet hpt => ?_, fun hb hop hmet hfb => ?_, fun hb hop => ?_⟩
  · rw [if_pos hb]
    exact Dev.stepBlocked_effect o hruns hleft
  · rw [hb, if_neg Bool.false_ne_true, if_pos hop, Dev.calMeasured_met hmet]
    obtain ⟨hpts, hkept⟩ := d.stepMet_effect (r := r) o hpt
    obtain ⟨hcal, hregs⟩ := Dev.calUpdate_left (r' := r.stepped o) (hkept.trans hruns) rfl hleft
    exact ⟨(Dev.get_of_regs hregs _).trans hpts, by rw [hcal]⟩
  · rw [hb, if_neg Bool.false_ne_true, if_pos hop, Dev.calMeasured_missed hmet hfb]
    obtain ⟨hnot, hkept, hpts⟩ := d.stepMissed_effect r o
    obtain ⟨hcal, hregs⟩ := Dev.calUpdate_left (r' := r.stepped o) ((congrArg CalSt.runs hkept).trans hruns) rfl hleft
    exact ⟨(Dev.get_of_regs hregs _).trans hnot, by rw [hcal, hkept], (Dev.get_of_regs hregs _).trans hpts⟩
  · rw [hb, if_neg Bool.false_ne_true, if_neg hop]
    obtain ⟨hwidth, hheight, hkeep⟩ := d.eyeShown_effect o
    have hkept : (d.eyeShown o).cal.runs = [r] := by rw [Dev.eyeShown, Dev.put_cal, Dev.put_cal, hruns]
    obtain ⟨-, hregs⟩ := Dev.calUpdate_left (r' := r.stepped o) hkept rfl hleft
    exact ⟨(Dev.get_of_regs hregs _).trans hwidth, (Dev.get_of_regs hregs _).trans hheight, Dev.keepsRegs_of_regs hregs hkeep⟩

/-- Settles O51: runs begin by `Dev.calBegin_effect`, REFCHECK is `Dev.refSteps_get`, and a step ends as `Dev.calStepDone_effect` says. -/
theorem calibrationRunsBeginAndStepsEnd : Obligations.CalibrationRunsBeginAndStepsEnd := by
  refine ⟨⟨fun s q x w h hkc htwin => ⟨fun k hk hbit hbusy hop hresel hnear => ?_, fun hidle hne => ⟨fun hop hitems hresel hnear => ?_,
    fun hop h1 h2 h3 => ?_⟩⟩, fun s q vref devs x w h hkc htwin hop => ?_⟩, ?_⟩
  · exact .of_onDev (fun d => d.calMeasure q) rfl
      ((Dev.calMeasure_in_range h hkc htwin hop hresel hnear).trans (if_pos (Dev.any_busy hk hbit hbusy))) rfl
  · obtain ⟨hruns, hstale⟩ := s.dev.calBegin_effect (r := measureRun x w) (measureTodo_ne_nil hne hitems)
    exact .of_onDev (fun d => d.calMeasure q) rfl
      ((Dev.calMeasure_in_range h hkc htwin hop hresel hnear).trans (if_neg (Dev.none_busy hidle)))
      ⟨⟨measureRun x w, hruns, rfl, rfl, rfl, rfl, fun c i => mem_measureTodo⟩, hstale⟩
  · obtain ⟨hruns, hstale⟩ := s.dev.calBegin_effect (r := eyeRun x w) (eyeTodo_ne_nil hne)
    exact .of_onDev (fun d => d.calEye q) rfl ((Dev.calEye_in_range h hkc htwin hop h1 h2 h3).trans (if_neg (Dev.none_busy hidle)))
      ⟨⟨eyeRun x w, hruns, rfl, rfl, rfl, fun c i => mem_eyeTodo⟩, hstale⟩
  · exact calRunRefcheck_answers vref devs h hkc htwin hop
  · intro s k o r hruns hsec hch i htodo hleft
    obtain ⟨hblocked, hmet, hmissed, heye⟩ := Dev.calStepDone_effect hruns hsec hch htodo hleft
    refine ⟨fun hb => ?_, fun hb hop h hpt => ?_, fun hb hop h hfb => ?_, fun hb hop => ?_⟩
    · obtain ⟨hpre, hrun⟩ := hblocked hb
      exact .of_onDev (fun d => d.calStepDone k o) rfl rfl ⟨hpre, r.blockedBy o, hrun, rfl, rfl, rfl⟩
    · obtain ⟨hpts, hrun⟩ := hmet hb hop h hpt
      exact .of_onDev (fun d => d.calStepDone k o) rfl rfl ⟨hpts, r.stepped o, hrun, rfl, rfl, rfl⟩
    · exact .of_onDev (fun d => d.calStepDone k o) rfl rfl (hmissed hb hop h hfb)
    · exact .of_onDev (fun d => d.calStepDone k o) rfl rfl (heye hb hop)

end Sys2Proof.Machine
end

section
/-!
PROOFS. The rail monitors (R75, R457, R460, R565).
-/

namespace Sys2Proof.Machine

/-- The status bit of a monitored rail. -/
def railFld (j : Nat) : Fld := ⟨pwrRailCore.addr, j, 1⟩

theorem railBit_eq {j : Nat} (hj : j < 12) (h7 : j ≠ 7) : railBit j = some (railFld j) := by
  unfold railBit
  split
  · rfl
  · exact if_pos ⟨by omega, hj⟩

theorem classOf_rail {j : Nat} (hj : j < 12) (h7 : j ≠ 7) : classOf srcPwr j = some 0x0D := by
  rw [classOf, if_neg (by decide), if_pos (by decide)]
  exact if_pos (by omega)

/-- The sites in the scope of a rail (R460). -/
def Dev.railSites (d : Dev) (j : Nat) : Nat := if j < 8 then d.openSites else d.dieSites (j - 8)

/-- The bit of a rail out of range is clear, and its monitor has reported. -/
def Dev.railReported (d : Dev) (j : Nat) : Dev := (d.put (railFld j) 0).report srcPwr j 0 0 (d.railSites j) true

theorem Dev.railReported_effect {d : Dev} {j : Nat} (hj : j < 12) (h7 : j ≠ 7)
    (hwire : d.fcu.wireBad.contains (chkKey srcPwr j) = false) :
    ∃ x r, d.railReported j = { d.put (railFld j) 0 with fcu := x } ∧ x.raised = d.fcu.raised ++ [r] ∧
      r.src = srcPwr ∧ r.chk = j ∧ r.cls = 0x0D ∧ r.t = d.tb ∧ r.scope = d.railSites j := by
  obtain ⟨regs, hput⟩ : ∃ regs, d.put (railFld j) 0 = { d with regs := regs } := ⟨_, rfl⟩
  rw [Dev.railReported, Dev.report, classOf_rail hj h7, hput]
  obtain ⟨live, h⟩ := Dev.raise_good (d := { d with regs := regs })
    (r := { src := srcPwr, chk := j, cls := 0x0D, t := d.tb, lat := ({ d with regs := regs } : Dev).latOf 0x0D srcPwr,
            syn := 0, det := 0, scope := d.railSites j, level := true, inj := false, real := true }) hwire
  exact ⟨_, _, h, rfl, rfl, rfl, rfl, rfl, rfl⟩

/-- The die whose edge rail is out of range or in range again. -/
def Dev.setRailDie (d : Dev) (j : Nat) (x : Die) : Dev := if j < 8 then d else d.setDie (j - 8) x

theorem Dev.railBad_eq {d : Dev} {j : Nat} (hj : j < 12) (h7 : j ≠ 7) (hin : d.get (railFld j) = 1) :
    d.railBad j = (d.railReported j).setRailDie j
      { (d.railReported j).die (j - 8) with
        parkRail := true, inUse := ((d.railReported j).die (j - 8)).inUse || d.dieInUse (j - 8) } := by
  rw [Dev.railBad, railBit_eq hj h7]
  exact if_neg (by rw [hin]; exact Nat.one_ne_zero)

/-- The bit of a rail in range is set, and the condition has ended. -/
def Dev.railBack (d : Dev) (j : Nat) : Dev := (d.put (railFld j) 1).condEnd srcPwr j

theorem Dev.railGood_eq {d : Dev} {j : Nat} (hj : j < 12) (h7 : j ≠ 7) (hout : d.get (railFld j) = 0) :
    d.railGood j = (d.railBack j).setRailDie j { (d.railBack j).die (j - 8) with parkRail := false } := by
  rw [Dev.railGood, railBit_eq hj h7]
  exact if_neg (by rw [hout]; exact Nat.zero_ne_one)

/-- What a change of a rail's bit and of its die leaves unchanged. -/
theorem Dev.setRailDie_effect {d : Dev} {j v : Nat} {f : FcuSt} (hj : j < 12) (hv : v < 2) (x : Die) :
    let t := ({ d.put (railFld j) v with fcu := f } : Dev).setRailDie j x
    t.get (railFld j) = v ∧ t.fcu = f ∧ (8 ≤ j → t.die (j - 8) = x) ∧ (∀ e, e + 8 ≠ j → t.die e = d.die e) ∧
    { t with regs := d.regs, fcu := d.fcu, dies := d.dies } = d ∧ d.KeepsRegs t [pwrRailCore.addr] := by
  intro t
  have ht : t = ({ d.put (railFld j) v with fcu := f } : Dev).setRailDie j x := rfl
  have hget := Dev.get_put d (railFld j) v (by simp only [railFld]; omega)
  have hkeeps : d.KeepsRegs (d.put (railFld j) v) [pwrRailCore.addr] := Dev.keepsRegs_put _ _ (by simp [railFld]) (d.keepsRegs_refl _)
  obtain ⟨regs, hput⟩ : ∃ regs, d.put (railFld j) v = { d with regs := regs } := ⟨_, rfl⟩
  rw [hput] at ht hget hkeeps
  have hregs : t.regs = ({ d with regs := regs } : Dev).regs := by
    rw [ht, Dev.setRailDie]
    split <;> rfl
  refine ⟨?_, ?_, fun h8 => ?_, fun e he => ?_, ?_, ?_⟩
  · rw [Dev.get_of_regs hregs, hget]
    exact Nat.mod_eq_of_lt hv
  · rw [ht, Dev.setRailDie]
    split <;> rfl
  · rw [ht, Dev.setRailDie, if_neg (by omega), Dev.die_setDie_same]
  · rw [ht, Dev.setRailDie]
    split
    · rfl
    · rw [Dev.die_setDie_ite, if_neg (by omega)]
      rfl
  · rw [ht, Dev.setRailDie]
    split <;> rfl
  · exact Dev.keepsRegs_of_regs hregs hkeeps

/-- Settles O9: the two commands write one bit, the collector and the die of an edge rail. -/
theorem railMonitorsReportAndPark : Obligations.RailMonitorsReportAndPark := by
  unfold Obligations.RailMonitorsReportAndPark
  refine ⟨fun s j h7 hin hwire => ?_, fun s j h7 hout => ?_⟩
  · obtain ⟨x, r, hrep, hraised, hsrc, hchk, hcls, ht, hscope⟩ := Dev.railReported_effect j.2 h7 hwire
    have heq := Dev.railBad_eq j.2 h7 hin
    rw [hrep] at heq
    obtain ⟨hget, hfcu, hdie, hothers, hrest, hkeeps⟩ := Dev.setRailDie_effect (d := s.dev) (v := 0) (f := x) j.2 (by omega)
      { ({ s.dev.put (railFld j) 0 with fcu := x } : Dev).die (j - 8) with
        parkRail := true,
        inUse := (({ s.dev.put (railFld j) 0 with fcu := x } : Dev).die (j - 8)).inUse || s.dev.dieInUse (j - 8) }
    rw [← heq] at hget hfcu hdie hothers hrest hkeeps
    refine .of_onDev (fun d => d.railBad j) rfl rfl
      ⟨hget, ⟨r, by rw [hfcu]; exact hraised, hsrc, hchk, hcls, ht, hscope⟩, fun h8 => by rw [hdie h8], hothers, hrest, hkeeps⟩
  · have heq := Dev.railGood_eq j.2 h7 hout
    obtain ⟨hget, -, hdie, hothers, hrest, hkeeps⟩ := Dev.setRailDie_effect (d := s.dev) (v := 1) (f := (s.dev.railBack j).fcu) j.2 (by omega)
      { (s.dev.railBack j).die (j - 8) with parkRail := false }
    have heq' : s.dev.railGood j = ({ s.dev.put (railFld j) 1 with fcu := (s.dev.railBack j).fcu } : Dev).setRailDie j
      { (s.dev.railBack j).die (j - 8) with parkRail := false } := heq
    rw [← heq'] at hget hdie hothers hrest hkeeps
    exact .of_onDev (fun d => d.railGood j) rfl rfl ⟨hget, fun h8 => by rw [hdie h8], hothers, hrest, hkeeps⟩

end Sys2Proof.Machine
end

section
/-!
PROOFS. PERST and the link to the host (R522, R538, R568, R569, R597).
-/

namespace Sys2Proof.Machine

/-! ## The host-loss time (R538) -/

/-- When the host-loss time ends, once it runs. -/
def Dev.lossDue (d : Dev) : Option Nat :=
  match d.twin.lossAt with
  | some a => some a
  | none => if d.get twinHostLoss = 0 then none else some (d.mclk + 1500 * d.get twinHostLoss)

theorem Dev.lossStart_eq (d : Dev) : d.lossStart = { d with twin := { d.twin with lossAt := d.lossDue } } := by
  obtain ⟨lossAt, htwin⟩ : ∃ a, d.twin.lossAt = a := ⟨_, rfl⟩
  rw [Dev.lossStart, Dev.lossDue, htwin]
  cases lossAt with
  | some a => simp [← htwin]
  | none =>
    dsimp only
    split
    · rw [← htwin]
    · rfl

theorem Dev.lossDue_of_same {d t : Dev} (htwin : t.twin = d.twin) (hmclk : t.mclk = d.mclk) (hget : t.get twinHostLoss = d.get twinHostLoss) :
    t.lossDue = d.lossDue := by
  rw [Dev.lossDue, Dev.lossDue, htwin, hmclk, hget]

/-! ## PERST (R568, R569, R597) -/

/-- An address in the host block. -/
def hostBlock (a : Nat) : Bool := decide (0x10000 ≤ a) && decide (a < 0x18000)

/-- The host block reset, the held records and the messages with it. -/
def Dev.hostReset (d : Dev) : Dev :=
  { d with
    regs := Tab.keep (fun a => !hostBlock a) d.regs
    host := { d.host with rr := 0, held := [], eqSeen := false, msgSent := [], vecMask := BitVec.allOnes 64, vecPend := 0 } }

theorem Dev.word_hostReset (d : Dev) (a : Nat) : d.hostReset.word a = if hostBlock a then regReset a else d.word a := by
  have h := Tab.get_keep regReset (fun a => !hostBlock a) d.regs a
  rw [Dev.word, Dev.hostReset, h]
  cases hostBlock a <;> rfl

/-- The host block reset, the cause of the reset shown and HOST_STATUS.WAKING kept. -/
def Dev.perstShown (d : Dev) : Dev := (d.hostReset.put hostWaking (d.get hostWaking)).put pwrRstPerst 1

theorem Dev.perst_eq {d : Dev} (hclosing : d.twin.closing = []) : d.perst = d.perstShown.lossStart := by
  refine Dev.tellHeld_of_closing (d := d.perstShown.lossStart) ?_
  rw [Dev.lossStart_eq]
  exact hclosing

theorem Dev.word_perstShown {d : Dev} {a : Nat} (hw : a ≠ hostWaking.addr) (hp : a ≠ pwrRstPerst.addr) :
    d.perstShown.word a = d.hostReset.word a := by
  rw [Dev.perstShown, Dev.word_put_ne _ _ _ (Ne.symm hp), Dev.word_put_ne _ _ _ (Ne.symm hw)]

theorem Dev.perst_effect {d : Dev} (hclosing : d.twin.closing = []) :
    (∀ a, 0x10000 ≤ a → a < 0x18000 → a ≠ hostWaking.addr → d.perst.word a = regReset a) ∧
    (∀ a, a < 0x10000 ∨ 0x18000 ≤ a → a ≠ pwrRstPerst.addr → d.perst.word a = d.word a) ∧
    d.perst.get pwrRstPerst = 1 ∧ d.perst.host.held = [] ∧
    { d.perst with regs := d.regs, host := d.host, twin := d.twin, out := d.out } = d := by
  have hregs : d.perst.regs = d.perstShown.regs := by rw [Dev.perst_eq hclosing, Dev.lossStart_eq]
  have hword (a : Nat) : d.perst.word a = d.perstShown.word a := by rw [Dev.word, hregs, Dev.word]
  refine ⟨fun a hlo hhi hw => ?_, fun a hout hp => ?_, ?_, ?_, ?_⟩
  · have hin : hostBlock a = true := by simp [hostBlock, hlo, hhi]
    rw [hword, Dev.word_perstShown hw (by simp only [pwrRstPerst]; omega), Dev.word_hostReset, hin]
    rfl
  · have hnot : hostBlock a = false := by simp only [hostBlock, Bool.and_eq_false_iff, decide_eq_false_iff_not]; omega
    rw [hword, Dev.word_perstShown (by simp only [hostWaking]; omega) hp, Dev.word_hostReset, hnot]
    rfl
  · rw [Dev.get_of_regs hregs, Dev.perstShown, Dev.get_put _ _ _ (by decide)]
    rfl
  · rw [Dev.perst_eq hclosing, Dev.lossStart_eq]
    rfl
  · rw [Dev.perst_eq hclosing, Dev.lossStart_eq]
    rfl

/-! ## The link to the host (R522, R538) -/

/-- Generation and width of the link shown. -/
def Dev.hostLinkShown (d : Dev) (gen width : Nat) : Dev := (d.put hostGen gen).put hostWidth width

theorem Dev.hostLinkShown_effect (d : Dev) {gen width : Nat} (hgen : gen < 8) (hwidth : width < 16) :
    (d.hostLinkShown gen width).get hostGen = gen ∧ (d.hostLinkShown gen width).get hostWidth = width ∧
    d.OnlyRegs (d.hostLinkShown gen width) [hostGen.addr] := by
  refine ⟨?_, ?_, ((Dev.OnlyRegs.refl d _).put _ (by decide)).put _ (by decide)⟩
  · rw [Dev.hostLinkShown, Dev.get_put_ne _ _ _ _ (by decide), Dev.get_put _ _ _ (by decide)]
    exact Nat.mod_eq_of_lt hgen
  · rw [Dev.hostLinkShown, Dev.get_put _ _ _ (by decide)]
    exact Nat.mod_eq_of_lt hwidth

/-- The host-loss time beside the link shown leaves the registers and the rest. -/
theorem Dev.hostLinkShown_withLoss (d : Dev) {gen width : Nat} (hgen : gen < 8) (hwidth : width < 16) (loss : Option Nat) :
    let t : Dev := { d.hostLinkShown gen width with twin := { d.twin with lossAt := loss } }
    t.get hostGen = gen ∧ t.get hostWidth = width ∧ t.twin.lossAt = loss ∧ d.KeepsRegs t [hostGen.addr] ∧
      { t with regs := d.regs, twin := d.twin } = d := by
  intro t
  obtain ⟨hg, hw, honly⟩ := d.hostLinkShown_effect hgen hwidth
  have hregs : t.regs = (d.hostLinkShown gen width).regs := rfl
  refine ⟨by rw [Dev.get_of_regs hregs, hg], by rw [Dev.get_of_regs hregs, hw], rfl,
    Dev.keepsRegs_of_regs hregs honly.keeps, ?_⟩
  exact (congrArg (fun x : Dev => { x with twin := d.twin }) honly.alone :)

theorem Dev.hostUp_eq {d : Dev} {gen width : Nat} (hgen : gen ≠ 0) (hwidth : [1, 2, 4, 8].contains width = true)
    (hporst : d.pwr.porstLow = false) : d.hostUp gen width = { d.hostLinkShown gen width with twin := { d.twin with lossAt := none } } := by
  have hgo : ¬(gen = 0 ∨ [1, 2, 4, 8].contains width = false ∨ d.pwr.porstLow = true) := by
    rw [hwidth, hporst]
    simp [hgen]
  exact if_neg hgo

theorem Dev.hostDown_eq {d : Dev} (hup : d.linkUp = true) :
    d.hostDown = { d.hostLinkShown 0 0 with twin := { d.twin with lossAt := d.lossDue } } := by
  obtain ⟨-, -, honly⟩ := d.hostLinkShown_effect (gen := 0) (width := 0) (by omega) (by omega)
  have hdue : (d.hostLinkShown 0 0).lossDue = d.lossDue := by
    obtain ⟨regs, hshown⟩ := honly.rest
    exact Dev.lossDue_of_same (by rw [hshown]) (by rw [hshown]) (honly.get (by decide))
  have hdown : d.hostDown = (d.hostLinkShown 0 0).lossStart := if_pos hup
  rw [hdown, Dev.lossStart_eq, hdue]
  rfl

/-- Settles O7: PERST drops the words of the host block; the link's two commands write one word and the host-loss time. -/
theorem platformResetAndHostLinkTouchTheHostBlockOnly : Obligations.PlatformResetAndHostLinkTouchTheHostBlockOnly := by
  unfold Obligations.PlatformResetAndHostLinkTouchTheHostBlockOnly
  refine ⟨fun s hclosing => ?_, fun s gen width hgen hwidth hporst => ?_, fun s hup => ?_⟩
  · exact .of_onDevIdle (fun d => d.perst) rfl rfl (Dev.perst_effect hclosing)
  · exact .of_onDev (fun d => d.hostUp gen width) rfl (Dev.hostUp_eq hgen hwidth hporst)
      (s.dev.hostLinkShown_withLoss (by omega) (by omega) none)
  · exact .of_onDev (fun d => d.hostDown) rfl (Dev.hostDown_eq hup) (s.dev.hostLinkShown_withLoss (by omega) (by omega) s.dev.lossDue)

end Sys2Proof.Machine
end

section
/-!
PROOFS. Boot, the housekeeping controller and the test access port (R472, R568, R570, R571, R573, R580).
-/

namespace Sys2Proof.Machine

/-! ## What the idle timers leave of the power state (R575) -/

/-- The power state without its ramp and its idle timer. -/
def PwrSt.core (p : PwrSt) : PwrSt :=
  { p with ramp := PwrSt.init.ramp, rampEnd := 0, rampDone := false, idleAt := 0, refLostInStandby := false }

theorem Dev.stateTo_pwr (d : Dev) (st cause : Nat) : (d.stateTo st cause).pwr = d.pwr := by rw [Dev.stateTo, Dev.event_pwr, Dev.put_pwr]

theorem Dev.tbDisc_pwr (d : Dev) : d.tbDisc.pwr = d.pwr := by rw [Dev.tbDisc, Dev.bump_pwr, Dev.put_pwr]

theorem Dev.pllStop_pwr (d : Dev) (p : Nat) : (d.pllStop p).pwr = d.pwr := by simp [Dev.pllStop]

theorem Dev.enterP2_pwrCore (d : Dev) (cause : Nat) : (d.enterP2 cause).pwr.core = d.pwr.core := by
  have hstate := congrArg PwrSt.core (d.stateTo_pwr 2 cause)
  unfold Dev.enterP2
  dsimp only
  rw [Dev.pllStop_pwr, Dev.pllStop_pwr]
  split
  · rw [Dev.tbDisc_pwr]
    exact hstate
  · exact hstate

theorem Dev.enterP3_pwrCore (d : Dev) (cause : Nat) : (d.enterP3 cause).pwr.core = d.pwr.core := by
  unfold Dev.enterP3
  dsimp only
  rw [Dev.put_pwr, Dev.forEach_keeps (f := fun d e => d.setDie e { d.die e with parkP3 := true }) Dev.pwr (fun _ _ _ => rfl),
    Dev.bump_pwr, Dev.stateTo_pwr]

theorem Dev.powerIdle_pwrCore (d : Dev) : d.powerIdle.pwr.core = d.pwr.core := by
  unfold Dev.powerIdle
  dsimp only
  repeat' split
  all_goals simp only [Dev.enterP3_pwrCore, Dev.enterP2_pwrCore, Dev.stateTo_pwr]

theorem Dev.idleRestart_pwrCore (d : Dev) : d.idleRestart.pwr.core = d.pwr.core := d.powerIdle_pwrCore

theorem Dev.idleNote_pwrCore (d old : Dev) : (d.idleNote old).pwr.core = d.pwr.core := by
  rw [Dev.idleNote]
  split
  · exact d.idleRestart_pwrCore
  · rfl

theorem Dev.OnlyPower.alm {d e : Dev} (h : d.OnlyPower e) : e.alm = d.alm := by
  obtain ⟨⟨_, _, _, _, _, _, he⟩, -⟩ := h
  rw [he]

/-! ## BOOT (R571, R580) -/

/-- The power state of a device that has left reset; the image decides whether the controller becomes ready. -/
def PwrSt.started (p : PwrSt) (img : Option Nat) : PwrSt :=
  { p with booted := true, porstLow := false, hkcReady := img.isSome, noImage := img.isNone }

/-- The device that has left reset: FAULT_N is released. -/
def Dev.bootStart (d : Dev) (img : Option Nat) : Dev := { d.put fcuFaultLow 0 with pwr := d.pwr.started img }

/-- BOOT with no good image, from reset and with no park input at work. -/
theorem Dev.boot_none {nv : NonVol} {d : Dev} (hbooted : d.pwr.booted = false) (hporst : d.pwr.porstLow = true) (himg : nv.fwBest = none)
    (hin : d.pwr.parkIn = false) (hparked : ∀ e, e < 4 → (d.die e).parked = false) :
    ∃ pay, d.boot nv = (((d.bootStart none).loadSerial nv).event srcHkc 0x0C10 pay).idleRestart := by
  rw [Dev.boot, if_neg (by rw [hbooted]; exact Bool.false_ne_true), himg]
  extract_lets img i d1 d2 d3 d4 d5 d6 p6 d7
  have hd1 : d1 = d.put fcuFaultLow 0 := if_pos hporst
  have hd3 : d3 = d.bootStart none := (congrArg (fun e : Dev => { e with pwr := e.pwr.started none }) hd1 :)
  have hd4 : d4 = (d.bootStart none).loadSerial nv := by
    refine Eq.trans (Dev.forEach_same fun e he => ?_) (congrArg (Dev.loadSerial · nv) hd3)
    have hfree : ((d3.loadSerial nv).die e).parked = false := by
      rw [hd3]
      exact hparked e (by simp only [List.mem_cons, List.not_mem_nil, or_false] at he; omega)
    rw [Dev.edgeUnpark]
    exact if_pos (by rw [hfree]; rfl)
  have hd5 : d5 = d4 := rfl
  have hpark : d6.pwr.parkIn = false := by
    have hpwr : d6.pwr = ((d.bootStart none).loadSerial nv).pwr := (Dev.event_pwr _ _ _ _).trans (congrArg Dev.pwr (hd5.trans hd4))
    rw [hpwr]
    exact hin
  have hd7 : d7 = d6 := if_neg (by rw [hpark]; exact Bool.false_ne_true)
  exact ⟨_, congrArg Dev.idleRestart (hd7.trans (congrArg (Dev.event · srcHkc 0x0C10 _) (hd5.trans hd4)))⟩

theorem Dev.get2_loadSerial (d : Dev) (nv : NonVol) : (d.loadSerial nv).get2 genSerialLo genSerialHi = nv.serial % 2 ^ 64 := by
  have hlo : (d.loadSerial nv).get genSerialLo = nv.serial % 2 ^ 32 % 2 ^ 32 := by
    rw [Dev.loadSerial, Dev.put2, Dev.get_put_addr _ _ _ _ (by decide), Dev.get_put _ _ _ (by decide)]
    rfl
  have hhi : (d.loadSerial nv).get genSerialHi = nv.serial / 2 ^ 32 % 2 ^ 32 := by
    rw [Dev.loadSerial, Dev.put2, Dev.get_put _ _ _ (by decide)]
    rfl
  have hw : genSerialLo.w = 32 := rfl
  rw [Dev.get2, hlo, hhi, hw]
  omega

theorem Dev.boot_none_effect {nv : NonVol} {d : Dev} (hbooted : d.pwr.booted = false) (hporst : d.pwr.porstLow = true)
    (himg : nv.fwBest = none) (hin : d.pwr.parkIn = false) (hparked : ∀ e, e < 4 → (d.die e).parked = false) :
    (d.boot nv).pwr.booted = true ∧ (d.boot nv).pwr.porstLow = false ∧ (d.boot nv).pwr.noImage = true ∧
      (d.boot nv).get fcuFaultLow = 0 ∧ (d.boot nv).get2 genSerialLo genSerialHi = nv.serial % 2 ^ 64 := by
  obtain ⟨pay, hboot⟩ := Dev.boot_none hbooted hporst himg hin hparked
  have hcore : (d.boot nv).pwr.core = (d.pwr.started none).core := by
    rw [hboot, Dev.idleRestart_pwrCore, Dev.event_pwr]
    rfl
  have hget {f : Fld} (hf : f.addr < 0x10000 ∨ 0x30000 ≤ f.addr ∧ f.addr < 0x70000) :
      (d.boot nv).get f = ((d.bootStart none).loadSerial nv).get f := by
    rw [hboot, (Dev.onlyPower_idleRestart _).get f (by omega), Dev.get_event _ _ _ _ _ (by omega)]
  refine ⟨(congrArg PwrSt.booted hcore :), (congrArg PwrSt.porstLow hcore :), (congrArg PwrSt.noImage hcore :), ?_, ?_⟩
  · have hregs : (d.bootStart none).regs = (d.put fcuFaultLow 0).regs := rfl
    rw [hget (by decide), Dev.loadSerial, Dev.put2, Dev.get_put_addr _ _ _ _ (by decide), Dev.get_put_addr _ _ _ _ (by decide),
      Dev.get_of_regs hregs, Dev.get_put _ _ _ (by decide)]
    rfl
  · rw [Dev.get2, hget (by decide), hget (by decide)]
    exact Dev.get2_loadSerial _ _

end Sys2Proof.Machine
end

section
/-!
PROOFS. The restart of the housekeeping controller and the park of the test access port (R458, R510, R570, R573).
-/

namespace Sys2Proof.Machine

/-! ## HKC_RESTART (R570) -/

/-- What the controller's restart answers for: whether it is ready, its flash operations, its stores and its updates. -/
def Dev.hkcWork (d : Dev) : PwrSt × CalSt × AlmSt := (d.pwr, d.cal, d.alm)

theorem flashCut_hkcWork (p : NonVol × Dev) (o : FlashOp) : (flashCut p o).2.hkcWork = p.2.hkcWork := by
  unfold flashCut Dev.hkcWork
  dsimp only
  split <;> simp

theorem storeCut_hkcWork (p : NonVol × Dev) :
    (storeCut p).2.hkcWork = (p.2.pwr, { p.2.cal with stores := [] }, p.2.alm) := by
  obtain ⟨stores, hstores⟩ : ∃ l, p.2.cal.stores = l := ⟨_, rfl⟩
  rw [storeCut, hstores]
  cases stores with
  | nil =>
    have hcal : { p.2.cal with stores := [] } = p.2.cal := by rw [← hstores]
    exact (congrArg (fun c => (p.2.pwr, c, p.2.alm)) hcal.symm :)
  | cons w ws => simp [Dev.hkcWork, Dev.calSync]

/-- The device when the restart has ended the flash operations and the store. -/
def Dev.hkcCut (nv : NonVol) (d : Dev) : NonVol × Dev :=
  storeCut (d.pwr.flashOps.foldl flashCut (nv, { d with pwr := { d.pwr with flashOps := [] } }))

theorem Dev.hkcCut_hkcWork (nv : NonVol) (d : Dev) :
    (d.hkcCut nv).2.hkcWork = ({ d.pwr with flashOps := [] }, { d.cal with stores := [] }, d.alm) := by
  have h := foldl_keeps (fun p : NonVol × Dev => p.2.hkcWork) flashCut_hkcWork d.pwr.flashOps
    (nv, { d with pwr := { d.pwr with flashOps := [] } })
  simp only [Dev.hkcWork, Prod.mk.injEq] at h
  obtain ⟨hpwr, hcal, halm⟩ := h
  rw [Dev.hkcCut, storeCut_hkcWork, hpwr, hcal, halm]

/-- The updates of the pattern memory end. -/
def Dev.patsCut (d : Dev) : Dev :=
  d.alm.pats.foldl (fun d p => d.complete p.work stIntegrity 0 0) { d with alm := { d.alm with pats := [] } }

theorem Dev.patsCut_hkcWork (d : Dev) : d.patsCut.hkcWork = (d.pwr, d.cal, { d.alm with pats := [] }) :=
  foldl_keeps Dev.hkcWork (fun d p => by simp [Dev.hkcWork]) d.alm.pats _

/-- The restart is reported and logged, and the controller is not ready. -/
def Dev.hkcDown (d : Dev) : Dev :=
  let d := (d.report srcHkc 0 0 0 0 false).put pwrRstWdog 1
  let d := d.event srcHkc 0x0C11 (d.get pwrFwImage)
  { d with pwr := { d.pwr with hkcReady := false } }

theorem Dev.hkcDown_hkcWork (d : Dev) : d.hkcDown.hkcWork = ({ d.pwr with hkcReady := false }, d.cal, d.alm) := by
  obtain ⟨x, hrep⟩ := d.report_eq srcHkc 0 0 0 0 false
  unfold Dev.hkcDown Dev.hkcWork
  dsimp only
  rw [Dev.event_pwr, Dev.event_cal, Dev.event_alm, Dev.put_pwr, Dev.put_cal, Dev.put_alm, hrep]

theorem Dev.hkcRestart_eq {d : Dev} (nv : NonVol) (hbooted : d.pwr.booted = true) :
    d.hkcRestart nv =
      ((d.hkcDown.hkcCut nv).1, (((d.hkcDown.hkcCut nv).2.calStop 0xFFFF stIntegrity).patsCut).idleNote d) := by
  rw [Dev.hkcRestart, if_neg (by rw [hbooted]; exact Bool.false_ne_true)]
  rfl

theorem Dev.hkcRestart_effect {d : Dev} (nv : NonVol) (hbooted : d.pwr.booted = true) (hruns : d.cal.runs = []) :
    (d.hkcRestart nv).2.pwr.hkcReady = false ∧ (d.hkcRestart nv).2.pwr.flashOps = [] ∧
      (d.hkcRestart nv).2.cal.stores = [] ∧ (d.hkcRestart nv).2.alm.pats = [] := by
  have hdown := d.hkcDown_hkcWork
  have hcut := d.hkcDown.hkcCut_hkcWork nv
  simp only [Dev.hkcWork, Prod.mk.injEq] at hdown hcut
  obtain ⟨hdpwr, hdcal, -⟩ := hdown
  obtain ⟨hcpwr, hccal, -⟩ := hcut
  have hstop : (d.hkcDown.hkcCut nv).2.calStop 0xFFFF stIntegrity = (d.hkcDown.hkcCut nv).2 :=
    Dev.calStop_none (d := (d.hkcDown.hkcCut nv).2) (d.hkcDown.hkcCut nv).2.fcu _ _ (by rw [hccal, hdcal]; exact hruns)
  have hpats := (d.hkcDown.hkcCut nv).2.patsCut_hkcWork
  simp only [Dev.hkcWork, Prod.mk.injEq] at hpats
  obtain ⟨hppwr, hpcal, hpalm⟩ := hpats
  rw [Dev.hkcRestart_eq nv hbooted, hstop]
  have hidle := Dev.onlyPower_idleNote (d.hkcDown.hkcCut nv).2.patsCut d
  have hcore := Dev.idleNote_pwrCore (d.hkcDown.hkcCut nv).2.patsCut d
  rw [hppwr, hcpwr, hdpwr] at hcore
  refine ⟨(congrArg PwrSt.hkcReady hcore :), (congrArg PwrSt.flashOps hcore :), ?_, ?_⟩
  · rw [hidle.cal, hpcal, hccal]
  · rw [hidle.alm, hpalm]

/-! ## TAP_PARK_INSTRUCTION (R510, R573) -/

/-- The cause of the park shown. -/
def Dev.tapShown (d : Dev) : Dev := { d with pwr := { d.pwr with tapPark := true } }.put pwrRstTap 1

/-- Every die ordered to park. -/
def Dev.allOrdered (d : Dev) : Dev := d.forEach [0, 1, 2, 3] fun d e => d.orderPark e

theorem Dev.allOrdered_keeps {α : Type} (φ : Dev → α) (h : ∀ (d : Dev) (e : Nat) (x : Die), φ (d.setDie e x) = φ d) (d : Dev) :
    φ d.allOrdered = φ d := Dev.forEach_keeps (f := Dev.orderPark) φ (fun d e _ => h d e _) d

theorem Dev.parkOrd_allOrdered (d : Dev) {e : Nat} (he : e < 4) : (d.allOrdered.die e).parkOrd = true := by
  refine Dev.forEach_establishes (P := fun e d => (d.die e).parkOrd = true) (fun d e => ?_) (fun d b e hb h => ?_) d (c := e)
    (by simp only [List.mem_cons, List.not_mem_nil, or_false]; omega)
  · rw [Dev.orderPark, Dev.die_setDie_same]
  · rw [Dev.orderPark, Dev.die_setDie_ite, if_neg (Ne.symm hb)]
    exact h

theorem Dev.endRuns_none {d : Dev} (h : d.runs = []) (sites : Nat) (abort : Bool) : (d.endRuns sites abort).1 = d := by
  rw [Dev.endRuns, h]
  rfl

/-- With nothing open, the park of the test access port orders every die parked and no more. -/
theorem Dev.tapPark_idle {d : Dev} (hruns : d.runs = []) (hcal : d.cal.runs = []) : d.tapPark = d.tapShown.allOrdered := by
  have hr : d.tapShown.allOrdered.runs = [] := (d.tapShown.allOrdered_keeps Dev.runs (fun _ _ _ => rfl)).trans hruns
  have hc : d.tapShown.allOrdered.cal.runs = [] := (d.tapShown.allOrdered_keeps (fun d => d.cal.runs) (fun _ _ _ => rfl)).trans hcal
  have heq : d.tapPark = (d.tapShown.allOrdered.endRuns (2 ^ 64 - 1) true).1.calStop 0xFFFF stAborted := rfl
  rw [heq, Dev.endRuns_none hr]
  exact Dev.calStop_none (d := d.tapShown.allOrdered) d.tapShown.allOrdered.fcu _ _ hc

theorem Dev.tapPark_effect {d : Dev} (hruns : d.runs = []) (hcal : d.cal.runs = []) :
    d.tapPark.pwr.tapPark = true ∧ d.tapPark.get pwrRstTap = 1 ∧ ∀ e, e < 4 → (d.tapPark.die e).parkOrd = true := by
  have hpwr := d.tapShown.allOrdered_keeps Dev.pwr (fun _ _ _ => rfl)
  have hregs := d.tapShown.allOrdered_keeps Dev.regs (fun _ _ _ => rfl)
  rw [Dev.tapPark_idle hruns hcal]
  refine ⟨?_, ?_, fun e he => d.tapShown.parkOrd_allOrdered he⟩
  · rw [hpwr, Dev.tapShown, Dev.put_pwr]
  · rw [Dev.get_of_regs hregs, Dev.tapShown, Dev.get_put _ _ _ (by decide)]
    rfl

/-! ## HKC_READY (R570) -/

theorem Dev.hkcUp_eq {d : Dev} (hbooted : d.pwr.booted = true) (himg : d.pwr.noImage = false) (hswitch : d.switchOn = false) :
    d.hkcUp = { d with pwr := { d.pwr with hkcReady := true } } :=
  if_pos (by rw [hbooted, himg, hswitch]; rfl)

/-- Settles O8: what each of the five commands does to the power state, and what it ends. -/
theorem bootHkcAndTapCommands : Obligations.BootHkcAndTapCommands := by
  unfold Obligations.BootHkcAndTapCommands
  refine ⟨fun s hbooted hporst himg hin hparked => ?_, fun s hbooted himg hswitch => ?_, fun s hbooted hruns => ?_, fun s => ?_,
    fun s hruns hcal => ?_⟩
  · exact ⟨s.dev.boot s.nv, rfl, Dev.boot_none_effect hbooted hporst himg hin hparked⟩
  · exact .of_onDev (fun d => d.hkcUp) rfl (Dev.hkcUp_eq hbooted himg hswitch) rfl
  · exact .of_onNv (fun nv d => d.hkcRestart nv) rfl rfl (Dev.hkcRestart_effect s.nv hbooted hruns)
  · exact .of_onDev (fun d => { d with pwr := { d.pwr with tapPark := false } }) rfl rfl rfl
  · exact .of_onDevIdle (fun d => d.tapPark) rfl rfl (Dev.tapPark_effect hruns hcal)

end Sys2Proof.Machine
end

section
/-!
PROOFS. PORST (R75, R472, R523, R568, R597, R617).
-/

namespace Sys2Proof.Machine

/-! ## Parks while nothing is at work (R75, R618) -/

theorem regInfo_tmu {a : Nat} (h : 0x300000 ≤ a ∧ a < 0x310000) (h4 : a % 4 = 0) :
    regInfo a = regTmu ((a - 0x300000) / 0x400) (a % 0x400) := by
  simp only [regInfo]
  repeat rw [if_neg (by omega)]
  rw [if_pos (by omega)]

theorem Dev.tmuState_init {u : Nat} (hu : u < 64) : Dev.init.get (tmuState u) = 0 := by
  have hidx : (0x300004 + 0x400 * u - 0x300000) / 0x400 = u ∧ (0x300004 + 0x400 * u) % 0x400 = 4 := by omega
  have hrow : regInfo (tmuState u).addr = regTmu u 4 := by
    dsimp only [tmuState]
    rw [regInfo_tmu (by omega) (by omega), hidx.1, hidx.2]
  exact Dev.get_init_zero hrow rfl

theorem Dev.keepStop_booted (d : Dev) (c : Nat) : (d.keepStop c).pwr.booted = d.pwr.booted := by
  unfold Dev.keepStop
  split <;> rfl

theorem Dev.toHiz_booted (d : Dev) (c : Nat) : (d.toHiz c).pwr.booted = d.pwr.booted := by
  have hforce : ((d.hizShown c).syncForce c).pwr = (d.hizShown c).pwr :=
    (congrArg Dev.pwr (Dev.syncForce_off_alone (d.wantForce_hizShown c)) :)
  rw [Dev.toHiz_eq, hforce, Dev.hizShown, Dev.put_pwr, Dev.keepStop_booted]
  split <;> rfl

theorem Dev.chanPark_booted (d : Dev) (c : Nat) : (d.chanPark c).pwr.booted = d.pwr.booted := by
  rw [Dev.chanPark, Dev.toHiz_booted, Dev.parkMarked, Dev.setChan_pwr, Dev.put_pwr, Dev.put_pwr, Dev.keepStop_booted]

/-- What parks of edge dies leave while nothing is at work: every unit but the dies, their channels and the collector, and the words
outside the edge dies but that of PWR_STATUS. -/
structure Dev.OnlyParks (d t : Dev) : Prop where
  rest : { t with regs := d.regs, pwr := d.pwr, chans := d.chans, dies := d.dies, fcu := d.fcu } = d
  booted : t.pwr.booted = d.pwr.booted
  word : ∀ a, a < 0x1000000 → a ≠ pwrParked.addr → t.word a = d.word a

theorem Dev.OnlyParks.refl (d : Dev) : d.OnlyParks d := ⟨rfl, rfl, fun _ _ _ => rfl⟩

theorem Dev.OnlyParks.trans {d e t : Dev} (h : d.OnlyParks e) (k : e.OnlyParks t) : d.OnlyParks t := by
  refine ⟨?_, k.booted.trans h.booted, fun a ha hp => (k.word a ha hp).trans (h.word a ha hp)⟩
  have hrest := congrArg (fun x : Dev => { x with regs := d.regs, pwr := d.pwr, chans := d.chans, dies := d.dies, fcu := d.fcu }) k.rest
  exact hrest.trans h.rest

theorem Dev.OnlyParks.get {d t : Dev} (h : d.OnlyParks t) {f : Fld} (hf : f.addr < 0x1000000) (hp : f.addr ≠ pwrParked.addr) :
    t.get f = d.get f := by
  rw [Dev.get, h.word _ hf hp, Dev.get]

theorem Dev.OnlyParks.runs {d t : Dev} (h : d.OnlyParks t) : t.runs = d.runs := (congrArg Dev.runs h.rest :)

theorem Dev.OnlyParks.fcu {d t : Dev} (h : d.OnlyParks t) (x : FcuSt) : d.OnlyParks { t with fcu := x } :=
  ⟨h.rest, h.booted, h.word⟩

theorem Dev.dieHalted_booted (d : Dev) (e : Nat) : (d.dieHalted e).pwr.booted = d.pwr.booted := by
  rw [Dev.dieHalted, Dev.forEach_keeps (f := Dev.chanPark) (fun t => t.pwr.booted) (fun t c _ => t.chanPark_booted c), Dev.dieParked,
    Dev.put_pwr, Dev.setDie_pwr]

theorem Dev.word_dieHalted (d : Dev) (e : Nat) {a : Nat} (ha : a < 0x1000000) (hp : a ≠ pwrParked.addr) :
    (d.dieHalted e).word a = d.word a := by
  have hdie : (d.dieParked e).word a = (d.put pwrParked (d.get pwrParked ||| 2 ^ e)).word a := by
    rw [Dev.word, d.dieParked_regs e, Dev.word]
  rw [Dev.dieHalted, Dev.forEach_keeps (f := Dev.chanPark) (fun t => t.word a) (fun t c _ => (t.keepsRegs_chanPark c) a (by
    simp only [peHiz, ppmuForceNow, List.mem_cons, List.not_mem_nil, or_false]
    omega)), hdie, Dev.word_put_ne _ _ _ (Ne.symm hp)]

/-- What changes one die beside registers, the power state and channels changes dies alone. -/
theorem Dev.rest_of_setDie {d t : Dev} {e : Nat} {x : Die}
    (h : { t with regs := d.regs, pwr := d.pwr, chans := d.chans } = d.setDie e x) :
    { t with regs := d.regs, pwr := d.pwr, chans := d.chans, dies := d.dies, fcu := d.fcu } = d :=
  (congrArg (fun t : Dev => { t with dies := d.dies, fcu := d.fcu }) h :)

theorem Dev.onlyParks_dieHalted (d : Dev) (e : Nat) : d.OnlyParks (d.dieHalted e) :=
  ⟨Dev.rest_of_setDie (d.dieHalted_alone e), d.dieHalted_booted e, fun _ ha hp => d.word_dieHalted e ha hp⟩

/-- A device in which no RUN is open and no unit of the edge dies is at work. -/
def Dev.edgesIdle (d : Dev) : Prop :=
  d.runs = [] ∧ (∀ a, a < 32 → d.get (auState a) = 0) ∧ ∀ u, u < 64 → d.get (tmuState u) = 0

theorem Dev.OnlyParks.edgesIdle {d t : Dev} (h : d.OnlyParks t) (hidle : d.edgesIdle) : t.edgesIdle := by
  obtain ⟨hruns, hau, htmu⟩ := hidle
  refine ⟨h.runs.trans hruns, fun a ha => ?_, fun u hu => ?_⟩
  · exact (h.get (by simp only [auState]; omega) (by simp only [auState, pwrParked]; omega)).trans (hau a ha)
  · exact (h.get (by simp only [tmuState]; omega) (by simp only [tmuState, pwrParked]; omega)).trans (htmu u hu)

theorem Dev.onlyParks_edgePark {d : Dev} {e : Nat} (he : e < 4) (hidle : d.edgesIdle) : d.OnlyParks (d.edgePark e) := by
  obtain ⟨hruns, hau, htmu⟩ := hidle
  by_cases hgo : (d.die e).parked = false ∧ d.parkInput e = true
  · obtain ⟨x, hx⟩ := Dev.edgePark_idle hgo.1 hgo.2 he hruns hau htmu
    rw [hx]
    exact (d.onlyParks_dieHalted e).fcu x
  · have hstay : d.edgePark e = d := by
      rw [Dev.edgePark]
      exact if_pos (by cases hp : (d.die e).parked <;> simp_all)
    rw [hstay]
    exact .refl d

theorem Dev.onlyParks_parks {l : List Nat} (hl : ∀ e ∈ l, e < 4) {d : Dev} (hidle : d.edgesIdle) :
    d.OnlyParks (d.forEach l fun d e => d.edgePark e) := by
  induction l generalizing d with
  | nil => exact .refl d
  | cons e l ih =>
    have hfirst := Dev.onlyParks_edgePark (hl e (.head _)) hidle
    exact hfirst.trans (ih (fun e he => hl e (.tail _ he)) (hfirst.edgesIdle hidle))

/-! ## The reset values (R568, R597) -/

/-- The reset state, with the levels at the balls and what has left the device. -/
def Dev.porstInit (d : Dev) : Dev :=
  { Dev.init with
    out := d.out, freeCtr := d.freeCtr, trigIn := d.trigIn
    pwr := { PwrSt.init with porstLow := true, parkIn := d.pwr.parkIn }
    tp := { TpSt.init with busyLow := d.tp.busyLow } }

/-- What the registers show beside their reset values: the serial number, the straps, the fault pin and the lines. -/
def Dev.porstShown (d : Dev) (nv : NonVol) (roleB : Bool) : Dev :=
  (((((d.porstInit.loadSerial nv).putB twinRole roleB).put fcuFaultLow 1).putB twinParkIn d.pwr.parkIn)).tpLine

theorem Dev.porst_eq (nv : NonVol) (d : Dev) (roleB : Bool) :
    Dev.porst nv d roleB = (d.porstShown nv roleB).forEach [0, 1, 2, 3] fun d e => d.edgePark e := rfl

section
variable (d : Dev) (nv : NonVol) (roleB : Bool)

theorem Dev.porstShown_rest : ∃ regs, d.porstShown nv roleB = { d.porstInit with regs := regs } := ⟨_, rfl⟩

theorem Dev.word_porstShown {a : Nat} (hserial : 0x10000 ≤ a) (hline : a ≠ tpBusyIn.addr) (hpin : a ≠ fcuFaultLow.addr)
    (hrole : a ≠ twinRole.addr) : (d.porstShown nv roleB).word a = regReset a := by
  have hpark : twinParkIn.addr ≠ a := hrole.symm
  rw [Dev.porstShown, Dev.tpLine, Dev.putB, Dev.putB, Dev.putB, Dev.loadSerial, Dev.put2, Dev.word_put_ne _ _ _ hline.symm,
    Dev.word_put_ne _ _ _ hpark, Dev.word_put_ne _ _ _ hpin.symm, Dev.word_put_ne _ _ _ hrole.symm,
    Dev.word_put_ne _ _ _ (by simp only [genSerialHi]; omega), Dev.word_put_ne _ _ _ (by simp only [genSerialLo]; omega)]
  rfl

/-- The registers of the units behind the host interface have their reset values. -/
theorem Dev.get_porstShown_unit {f : Fld} (hf : 0x70000 ≤ f.addr) : (d.porstShown nv roleB).get f = Dev.init.get f := by
  rw [Dev.get, d.word_porstShown nv roleB (by omega) (by simp only [tpBusyIn]; omega) (by simp only [fcuFaultLow]; omega)
    (by simp only [twinRole]; omega)]
  rfl

theorem Dev.edgesIdle_porstShown : (d.porstShown nv roleB).edgesIdle := by
  refine ⟨?_, fun a ha => ?_, fun u hu => ?_⟩
  · obtain ⟨regs, h⟩ := d.porstShown_rest nv roleB
    rw [h]
    rfl
  · exact (d.get_porstShown_unit nv roleB (f := auState a) (by simp only [auState]; omega)).trans (Dev.auState_init ha)
  · exact (d.get_porstShown_unit nv roleB (f := tmuState u) (by simp only [tmuState]; omega)).trans (Dev.tmuState_init hu)

theorem Dev.get_porstShown_role : (d.porstShown nv roleB).get twinRole = roleB.toNat := by
  rw [Dev.porstShown, Dev.tpLine, Dev.putB, Dev.putB, Dev.putB, Dev.get_put_ne _ _ _ _ (by decide), Dev.get_put_ne _ _ _ _ (by decide),
    Dev.get_put_ne _ _ _ _ (by decide), Dev.get_put _ _ _ (by decide)]
  exact Nat.mod_eq_of_lt (Bool.toNat_lt _)

theorem Dev.get_porstShown_faultLow : (d.porstShown nv roleB).get fcuFaultLow = 1 := by
  rw [Dev.porstShown, Dev.tpLine, Dev.putB, Dev.putB, Dev.get_put_ne _ _ _ _ (by decide), Dev.get_put_ne _ _ _ _ (by decide),
    Dev.get_put _ _ _ (by decide)]
  rfl

end

/-- Settles O6: the reset state has the stated values, and the parks that follow touch the edge dies alone. -/
theorem powerOnResetRestoresResetValues : Obligations.PowerOnResetRestoresResetValues := by
  unfold Obligations.PowerOnResetRestoresResetValues
  intro s roleB
  have hparks : (s.dev.porstShown s.nv roleB).OnlyParks (Dev.porst s.nv s.dev roleB) :=
    Dev.onlyParks_parks (by simp) (s.dev.edgesIdle_porstShown s.nv roleB)
  obtain ⟨regs, hshown⟩ := s.dev.porstShown_rest s.nv roleB
  have hrest := hparks.rest
  have hbooted := hparks.booted
  refine ⟨Dev.porst s.nv s.dev roleB, rfl, fun a hlo hhi hpin hrole => ?_, ?_, ?_, ?_, ?_, ?_, ?_, ?_, ?_, ?_, ?_, ?_⟩
  · rw [hparks.word a (by omega) (by simp only [pwrParked]; omega)]
    exact s.dev.word_porstShown s.nv roleB hlo (by simp only [tpBusyIn]; omega) hpin hrole
  · rw [hparks.get (by decide) (by decide)]
    exact s.dev.get_porstShown_role s.nv roleB
  · rw [hparks.get (by decide) (by decide)]
    exact s.dev.get_porstShown_faultLow s.nv roleB
  · rw [hbooted, hshown]
    rfl
  all_goals rw [hshown] at hrest
  · exact (congrArg Dev.tb hrest :)
  · exact (congrArg Dev.sram hrest :)
  · exact (congrArg Dev.shadow hrest :)
  · exact (congrArg Dev.runs hrest :)
  · exact (congrArg Dev.seqs hrest :)
  · exact (congrArg Dev.plls hrest :)
  · exact (congrArg Dev.host hrest :)
  · exact (congrArg Dev.out hrest :)

end Sys2Proof.Machine
end
